-- ==== Sys2Proof/Word.lean ====
section
/-!
DEFINITION. Words of the T32 and their plainest arithmetic: little-endian bytes (R3), field extraction and
extension (R6).
-/
namespace Sys2Proof

abbrev Byte := BitVec 8
abbrev Word := BitVec 32
abbrev DWord := BitVec 64
/-- One bit for each of a warp's 32 lanes (lane l at bit l). -/
abbrev Mask := BitVec 32
/-- The 128 bytes of a line; byte k in bits 8k+7:8k. -/
abbrev LineData := BitVec 1024
/-- One bit for each byte of a line. -/
abbrev ByteMask := BitVec 128

/-- `bits(x, hi, lo)` of R6 on a number. -/
def bits (x hi lo : Nat) : Nat := (x >>> lo) % 2 ^ (hi + 1 - lo)

/-- Bit `i` of a number. -/
def bit (x i : Nat) : Bool := x.testBit i

/-- The number `x` read as a two's-complement value of `n` bits (`sext` of R6). -/
def sextInt (n x : Nat) : Int :=
  if 2 ^ n ≤ 2 * (x % 2 ^ n) then (x % 2 ^ n : Int) - 2 ^ n else (x % 2 ^ n : Int)

/-- The low `n` bytes of a number, least significant first (R3). -/
def leBytes : Nat → Nat → List Byte
  | 0, _ => []
  | n + 1, x => BitVec.ofNat 8 x :: leBytes n (x / 256)

/-- The number that little-endian bytes spell (R3). -/
def leNat : List Byte → Nat
  | [] => 0
  | b :: bs => b.toNat + 256 * leNat bs

end Sys2Proof
end

