-- ==== Sys2Proof/Syntax.lean ====
section
/-!
DEFINITION. The syntax of the machine's steps: prefix words (R276–R280), the names of agents that steps of the
device act on, and `Instr`, one constructor for each row of spec/opcode_table.json: Billek instructions with their prefixes, then the
device's own steps, which have no instruction word and act on what `Focus` names.
-/
namespace Sys2Proof

/-- The vector prefix (R277). -/
structure VPfx where
  gp : BitVec 6
  gn : Bool
  gv : Bool
  rnd : BitVec 3
  mz : BitVec 2
  c : BitVec 8
  type : BitVec 4
  acb : Bool
  deriving DecidableEq, Repr

/-- The order prefix (R280). -/
structure OPfx where
  scope : BitVec 3
  ord : BitVec 2
  far : Bool
  nr : Bool
  c : BitVec 8
  deriving DecidableEq, Repr

/-- The low byte of format M (R272). -/
structure MFld where
  w : BitVec 3
  x : Bool
  bp : BitVec 3
  c : Bool
  deriving DecidableEq, Repr

/-- A warp: the block's number and the warp's index in the block. -/
structure WarpRef where
  blk : Nat
  wi : Nat
  deriving DecidableEq, Repr

/-- A router of the package network (R11, R13). -/
inductive Router where
  /-- Router (x, y) of the 8 × 5 mesh of a compute die; row y = 0 attaches to the spoke. -/
  | compute (die x y : Nat)
  /-- Router (x, y) of the 4 × 5 mesh of a memory die; row y = 0 attaches to the spoke. -/
  | memory (die x y : Nat)
  /-- A platen crossbar sector. -/
  | sector (s : Nat)
  deriving DecidableEq, Repr

/-- An endpoint of the package network (R12). -/
inductive Endpoint where
  /-- Cluster by global number 16d + c. -/
  | cluster (g : Nat)
  /-- Die L2 slice of a compute die. -/
  | l2 (die slice : Nat)
  /-- LLC slice with its home and combining station. -/
  | llc (slice : Nat)
  /-- Mirror table of a memory die (reached at its first slice). -/
  | mirror (mdie : Nat)
  /-- Persistent-request arbiter of a sector. -/
  | arbiter (s : Nat)
  /-- Host proxy, at the PCIe/CXL host port (R9). -/
  | proxy
  /-- Fabric port (R9). -/
  | port (p : Nat)
  /-- CXL expander port (R9). -/
  | expander (p : Nat)
  /-- The platen's control block: the VDC and the queue engines (R9). -/
  | control
  deriving DecidableEq, Repr

/-- A token holder other than the home (R33). -/
inductive Holder where
  | die (d : Nat)
  | proxy
  deriving DecidableEq, Repr

/-- An engine that acknowledges `KILL` (R134). -/
inductive KillEngine where
  | cluster (g : Nat)
  | copyEngine (g : Nat)
  | matrixEngine (g : Nat)
  | queueEngine
  | fabricPort (p : Nat)
  | memoryDie (m : Nat)
  | hostProxy
  | walkers
  /-- A compute die's TLB and wait table. -/
  | dieTlb (d : Nat)
  deriving DecidableEq, Repr

def Endpoint.isCluster : Endpoint → Bool
  | .cluster _ => true
  | _ => false

/-- A request that arrives from another module (R91, R99). -/
structure InReq where
  /-- Plane the packet travels on. -/
  plane : Nat
  /-- Source module, source VD and op id. -/
  srcModule : Nat
  srcVd : Nat
  op : Nat
  /-- Target VD and fabric address. -/
  vd : Nat
  fa : Nat
  /-- Byte mask and payload line. -/
  mask : ByteMask
  data : LineData
  /-- `RVADD`: element type code; `RATOM`: 1 for 64-bit arguments, else 0. -/
  kind : Nat
  /-- `RATOM` members: op id, argument, whether no value is returned, and source module: a switch combines requests of several
  modules (R102). -/
  members : List (Nat × Nat × Bool × Nat)
  /-- `RWSIG`: window base + SIGOFF. -/
  sig : Nat
  deriving DecidableEq, Repr

/-- What a step of the device acts on: the agent, message, register write or line that its row of the opcode table
leaves to the moment. It stands in `State.focus` while the step is taken. -/
inductive Focus where
  | none
  /-- Network endpoint, router, message in an endpoint's input queue. -/
  | endpoint (e : Endpoint)
  | router (r : Router)
  | msg (m : Nat)
  /-- A holder's line; a line; a line whose read passes or fails its checks; an SRAM error. -/
  | held (h : Holder) (line : Nat)
  | line (line : Nat)
  | lineOk (line : Nat) (ok : Bool)
  | weightRetry (die line : Nat) (ok : Bool)
  | sram (h : Option Holder) (line : Nat) (tagArray : Bool)
  /-- The host's answer to a back-invalidation, with the line if it was dirty. -/
  | backInv (line : Nat) (data : Option LineData)
  /-- A host read, or a host write of a whole line, of device memory. -/
  | hostReq (line : Nat) (write : Option LineData)
  /-- Compute die; die (32 + m for memory die m, 48 for the platen) with its temperature in tenths of a degree; measured
  power in milliwatts. -/
  | die (d : Nat)
  | temp (die tenths : Nat)
  | power (milliwatts : Nat)
  /-- Arbiter bank; frame with a key id or a written value; station entry; op id; pseudo-channel. -/
  | bank (arb bank : Nat)
  | frame (frame value : Nat)
  | group (slice k : Nat) (recordOk : Bool)
  | op (op : Nat)
  | channel (stack pch : Nat)
  /-- Fabric: a request from another module, a reply, a port, a plane and its carrier, an expander. -/
  | remote (q : InReq)
  | reply (req : Nat) (refused : Bool) (data : LineData)
  /-- A reduction's contributions in rank order, by our op id. -/
  | reduced (req : Nat) (lines : List LineData)
  | port (p : Nat)
  | plane (plane carrier : Nat)
  | capacity (port capacity : Nat)
  | txn (id : Nat)
  /-- A BAR 0 write of `size` bytes by function `fn`. -/
  | write (fn off size value : Nat)
  /-- A queue of a VD (64 is the device-launch queue) and a packet index. -/
  | queue (vd q idx : Nat)
  /-- A mailbox command's sequence number, with the key id or the code it names. -/
  | mailbox (seq arg : Nat)
  /-- A VD; an engine that receives `KILL`; a value written for a VD; a table entry. -/
  | vd (vd : Nat)
  | engine (vd : Nat) (e : KillEngine)
  | vdValue (vd value : Nat)
  | entry (vd entry value : Nat)
  | region (die vd value : Nat)
  | leaf (vd level addr value : Nat)
  | value (v : Nat)
  | dieValue (die value : Nat)
  /-- SPDM: function and two request fields. -/
  | spdm (fn a b : Nat)
  | range (vd base size : Nat)
  /-- A wait-table entry. -/
  | waiter (die idx : Nat)
  /-- The VDC's fault path: the leaf it writes, and the host frame it copies in, if any. -/
  | resolve (vd gpage leafAddr leaf : Nat) (src : Option Nat)
  | migrate (slot vd gpage leafAddr newFrame : Nat)
  | slotLine (slot line : Nat)
  | evict (vd gpage frame hostFrame : Nat)
  /-- Block, cluster, quadrant, kernel with a code. -/
  | blk (b : Nat)
  | cluster (g : Nat)
  | quad (g q : Nat)
  | kernel (k code : Nat)
  /-- A fragment of a warp; an outstanding access of a warp; with six queueing times. -/
  | frag (w : WarpRef) (f : Nat)
  | access (w : WarpRef) (id : Nat)
  | times (w : WarpRef) (id : Nat) (t : List Nat)
  /-- An engine command; a line in a cluster's caches. -/
  | command (id : Nat)
  | clusterLine (g line : Nat)
  deriving DecidableEq, Repr

/-- Every step of the machine: one constructor for each row of the opcode table. The Billek instructions come first,
with their prefixes and operand fields; then the steps of the device, whose operands stand in `State.focus`. -/
inductive Instr where
  -- control flow (R313–R318, R326)
  | nop
  | exit
  | bra (off : BitVec 24)
  | call (off : BitVec 24)
  | ret
  | jmpr (a : BitVec 8)
  | brs (sel : BitVec 6) (off : BitVec 17)
  | brsz (sel : BitVec 6) (off : BitVec 17)
  | brv (rejoin : Option (BitVec 24)) (sel : BitVec 6) (neg : Bool) (off : BitVec 17)
  | brany (sel : BitVec 6) (neg : Bool) (off : BitVec 17)
  | brall (sel : BitVec 6) (neg : Bool) (off : BitVec 17)
  | syncw
  | trap (code : BitVec 24)
  | brk (code : BitVec 24)
  | yield
  | sleep (a : BitVec 8)
  -- scalar arithmetic (R305–R308); `x` is the immediate prefix
  | sadd (d a b : BitVec 8)
  | ssub (d a b : BitVec 8)
  | smul (d a b : BitVec 8)
  | smulh (d a b : BitVec 8)
  | smulhn (d a b : BitVec 8)
  | sand (d a b : BitVec 8)
  | sor (d a b : BitVec 8)
  | sxor (d a b : BitVec 8)
  | sshl (d a b : BitVec 8)
  | sshr (d a b : BitVec 8)
  | ssra (d a b : BitVec 8)
  | smin (d a b : BitVec 8)
  | smax (d a b : BitVec 8)
  | sminn (d a b : BitVec 8)
  | smaxn (d a b : BitVec 8)
  | sadd64 (d a b : BitVec 8)
  | saddi (x : Option (BitVec 24)) (d a i : BitVec 8)
  | sandi (x : Option (BitVec 24)) (d a i : BitVec 8)
  | sori (x : Option (BitVec 24)) (d a i : BitVec 8)
  | sxori (x : Option (BitVec 24)) (d a i : BitVec 8)
  | sshli (d a : BitVec 8) (n : BitVec 6)
  | sshri (d a : BitVec 8) (n : BitVec 6)
  | ssrai (d a : BitVec 8) (n : BitVec 6)
  | smovi (x : Option (BitVec 24)) (d i : BitVec 8)
  | seq (d a b : BitVec 8)
  | slt (d a b : BitVec 8)
  | sltn (d a b : BitVec 8)
  | sle (d a b : BitVec 8)
  | spopc (d a : BitVec 8)
  | sclz (d a : BitVec 8)
  | sffs (d a : BitVec 8)
  | ssel (d a b : BitVec 8)
  -- mode, special registers, predicates, single lanes (R309–R312)
  | srd (d i : BitVec 8)
  | swr (a i : BitVec 8)
  | setmode (a : BitVec 8)
  | getmode (d : BitVec 8)
  | prd (d a : BitVec 8)
  | pwr (d a : BitVec 8)
  | vgetl (d a b : BitVec 8)
  | vsetl (d a b : BitVec 8)
  | smov (d a : BitVec 8)
  -- scalar memory and system (R319–R329)
  | sld (o : Option OPfx) (d a : BitVec 8) (w : BitVec 3) (c : Bool)
  | sst (o : Option OPfx) (d a : BitVec 8) (w : BitVec 3) (c : Bool)
  | satom (o : Option OPfx) (d a : BitVec 8)
  | vdquery (d a b : BitVec 8)
  | capq (d a : BitVec 8)
  | launch (d a : BitVec 8)
  | kick (a b : BitVec 8)
  -- vector arithmetic (R332–R340); `p` is the vector prefix
  | vadd (p : Option VPfx) (d a b : BitVec 8)
  | vsub (p : Option VPfx) (d a b : BitVec 8)
  | vmul (p : Option VPfx) (d a b : BitVec 8)
  | vmulh (p : Option VPfx) (d a b : BitVec 8)
  | vmad (p : VPfx) (d a b : BitVec 8)
  | vand (p : Option VPfx) (d a b : BitVec 8)
  | vor (p : Option VPfx) (d a b : BitVec 8)
  | vxor (p : Option VPfx) (d a b : BitVec 8)
  | vshl (p : Option VPfx) (d a b : BitVec 8)
  | vshr (p : Option VPfx) (d a b : BitVec 8)
  | vmin (p : Option VPfx) (d a b : BitVec 8)
  | vmax (p : Option VPfx) (d a b : BitVec 8)
  | vabs (p : Option VPfx) (d a : BitVec 8)
  | vneg (p : Option VPfx) (d a : BitVec 8)
  | vclz (p : Option VPfx) (d a : BitVec 8)
  | vpopc (p : Option VPfx) (d a : BitVec 8)
  | vaddi (x : Option (BitVec 24)) (p : Option VPfx) (d a i : BitVec 8)
  | vandi (x : Option (BitVec 24)) (p : Option VPfx) (d a i : BitVec 8)
  | vori (x : Option (BitVec 24)) (p : Option VPfx) (d a i : BitVec 8)
  | vxori (x : Option (BitVec 24)) (p : Option VPfx) (d a i : BitVec 8)
  | vshli (p : Option VPfx) (d a : BitVec 8) (n : BitVec 6)
  | vshri (p : Option VPfx) (d a : BitVec 8) (n : BitVec 6)
  | vmovi (x : Option (BitVec 24)) (p : Option VPfx) (d i : BitVec 8)
  | vmov (p : Option VPfx) (d a : BitVec 8)
  | vsel (p : Option VPfx) (d a b : BitVec 8)
  | vbfe (p : Option VPfx) (d a b : BitVec 8)
  | vbfi (p : VPfx) (d a b : BitVec 8)
  | vbrev (p : Option VPfx) (d a : BitVec 8)
  | vlaneid (p : Option VPfx) (d : BitVec 8)
  | viota (p : Option VPfx) (d : BitVec 8)
  | vfadd (p : Option VPfx) (d a b : BitVec 8)
  | vfsub (p : Option VPfx) (d a b : BitVec 8)
  | vfmul (p : Option VPfx) (d a b : BitVec 8)
  | vfma (p : VPfx) (d a b : BitVec 8)
  | vfmin (p : Option VPfx) (d a b : BitVec 8)
  | vfmax (p : Option VPfx) (d a b : BitVec 8)
  | vfabs (p : Option VPfx) (d a : BitVec 8)
  | vfneg (p : Option VPfx) (d a : BitVec 8)
  | vfdiv (p : Option VPfx) (d a b : BitVec 8)
  | vfsqrt (p : Option VPfx) (d a : BitVec 8)
  | vrcp (p : Option VPfx) (d a : BitVec 8)
  | vrsq (p : Option VPfx) (d a : BitVec 8)
  | vexp2 (p : Option VPfx) (d a : BitVec 8)
  | vlog2 (p : Option VPfx) (d a : BitVec 8)
  | vsin (p : Option VPfx) (d a : BitVec 8)
  | vcos (p : Option VPfx) (d a : BitVec 8)
  | vtanh (p : Option VPfx) (d a : BitVec 8)
  | vsigm (p : Option VPfx) (d a : BitVec 8)
  | vround (p : Option VPfx) (d a : BitVec 8)
  | vfrac (p : Option VPfx) (d a : BitVec 8)
  | vcvt (p : Option VPfx) (d a : BitVec 8) (dst src : BitVec 4)
  | vclass (p : Option VPfx) (d a : BitVec 8)
  | vcmpeq (p : Option VPfx) (d a b : BitVec 8)
  | vcmpne (p : Option VPfx) (d a b : BitVec 8)
  | vcmplt (p : Option VPfx) (d a b : BitVec 8)
  | vcmple (p : Option VPfx) (d a b : BitVec 8)
  | vcmpun (p : Option VPfx) (d a b : BitVec 8)
  | vscale (p : Option VPfx) (d a b : BitVec 8)
  | vpack (p : Option VPfx) (d a b : BitVec 8)
  | vunpk (p : Option VPfx) (d a : BitVec 8)
  | vdot4 (p : VPfx) (d a b : BitVec 8)
  | vdot2 (p : VPfx) (d a b : BitVec 8)
  -- predicate logic (R341)
  | pand (p : Option VPfx) (d a b : BitVec 8)
  | por (p : Option VPfx) (d a b : BitVec 8)
  | pxor (p : Option VPfx) (d a b : BitVec 8)
  | pnot (p : Option VPfx) (d a : BitVec 8)
  | pmov (p : Option VPfx) (d a : BitVec 8)
  | pseti (p : Option VPfx) (d : BitVec 8) (i : Bool)
  -- cross-lane (R344–R346) and execute-from-vector (R347–R351)
  | vshfl (p : Option VPfx) (d a b : BitVec 8)
  | vshflx (p : Option VPfx) (d a b : BitVec 8)
  | vshflu (p : Option VPfx) (d a b : BitVec 8)
  | vshfld (p : Option VPfx) (d a b : BitVec 8)
  | vbcast (p : Option VPfx) (d a b : BitVec 8)
  | vred (p : Option VPfx) (d a op : BitVec 8)
  | vscan (p : Option VPfx) (d a op : BitVec 8)
  | vmatch (p : Option VPfx) (d a : BitVec 8)
  | vexec (p : Option VPfx) (a : BitVec 8)
  | vexecq (p : Option VPfx) (d a : BitVec 8)
  -- memory (R356–R370); `o` is the order prefix
  | ldg (o : Option OPfx) (p : Option VPfx) (d a : BitVec 8) (m : MFld)
  | stg (o : Option OPfx) (p : Option VPfx) (d a : BitVec 8) (m : MFld)
  | ldgnf (o : Option OPfx) (p : VPfx) (d a : BitVec 8) (m : MFld)
  | lds (o : Option OPfx) (p : Option VPfx) (d a : BitVec 8) (m : MFld)
  | sts (o : Option OPfx) (p : Option VPfx) (d a : BitVec 8) (m : MFld)
  | ldw (p : Option VPfx) (d a : BitVec 8) (m : MFld)
  | pref (p : Option VPfx) (a : BitVec 8) (m : MFld)
  | cflush (p : Option VPfx) (a : BitVec 8) (m : MFld)
  | cpa (p : Option VPfx) (d a : BitVec 8) (size tag : BitVec 3) (bpc : BitVec 2)
  | tcopy (d a : BitVec 8)
  | pgreq (p : Option VPfx) (a : BitVec 8) (m : MFld)
  -- atomics (R371–R374)
  | atomgAdd (o : Option OPfx) (p : Option VPfx) (d a : BitVec 8) (m : MFld)
  | atomgMin (o : Option OPfx) (p : Option VPfx) (d a : BitVec 8) (m : MFld)
  | atomgMax (o : Option OPfx) (p : Option VPfx) (d a : BitVec 8) (m : MFld)
  | atomgAnd (o : Option OPfx) (p : Option VPfx) (d a : BitVec 8) (m : MFld)
  | atomgOr (o : Option OPfx) (p : Option VPfx) (d a : BitVec 8) (m : MFld)
  | atomgXor (o : Option OPfx) (p : Option VPfx) (d a : BitVec 8) (m : MFld)
  | atomgExch (o : Option OPfx) (p : Option VPfx) (d a : BitVec 8) (m : MFld)
  | atomgIncw (o : Option OPfx) (p : Option VPfx) (d a : BitVec 8) (m : MFld)
  | atomgFadd (o : Option OPfx) (p : Option VPfx) (d a : BitVec 8) (m : MFld)
  | atomgCas (o : OPfx) (p : Option VPfx) (d a : BitVec 8) (m : MFld)
  -- fences, barriers and signal waits (R375–R379)
  | fence (o : OPfx)
  | bar (a : BitVec 8) (k : BitVec 4)
  | bararv (a : BitVec 8) (k : BitVec 4)
  | barwait (a : BitVec 8) (k : BitVec 4)
  | gbar
  | waitsig (a b : BitVec 8)
  | atomsAdd (o : Option OPfx) (p : Option VPfx) (d a : BitVec 8) (m : MFld)
  | atomsMin (o : Option OPfx) (p : Option VPfx) (d a : BitVec 8) (m : MFld)
  | atomsMax (o : Option OPfx) (p : Option VPfx) (d a : BitVec 8) (m : MFld)
  | atomsAnd (o : Option OPfx) (p : Option VPfx) (d a : BitVec 8) (m : MFld)
  | atomsOr (o : Option OPfx) (p : Option VPfx) (d a : BitVec 8) (m : MFld)
  | atomsXor (o : Option OPfx) (p : Option VPfx) (d a : BitVec 8) (m : MFld)
  | atomsExch (o : Option OPfx) (p : Option VPfx) (d a : BitVec 8) (m : MFld)
  | atomsCas (o : OPfx) (p : Option VPfx) (d a : BitVec 8) (m : MFld)
  -- remote operations (R380–R385)
  | rld (o : Option OPfx) (p : Option VPfx) (d a b : BitVec 8)
  | rst (o : Option OPfx) (p : Option VPfx) (d a b : BitVec 8)
  | ratom (o : Option OPfx) (p : Option VPfx) (d a b : BitVec 8)
  | rvadd (o : Option OPfx) (p : Option VPfx) (d a b : BitVec 8)
  | rwsig (o : Option OPfx) (p : Option VPfx) (d a b : BitVec 8)
  | rred (o : Option OPfx) (p : Option VPfx) (d a b : BitVec 8)
  | rfence (a : BitVec 8)
  -- engines (R388–R404)
  | waitc (ld st cp tl : BitVec 6)
  | waitt (mask : BitVec 8)
  | tagq (d : BitVec 8)
  | tshape (d a : BitVec 8) (t : BitVec 4)
  | sclaim (d a : BitVec 8) (acc : Bool)
  | srel (a b : BitVec 8)
  | mzero (d : BitVec 8)
  | mma (d a b : BitVec 8)
  | mmaz (d a b : BitVec 8)
  | mscacc (d a b : BitVec 8)
  | mloop (n : BitVec 2) (a b : BitVec 8)
  | mstore (d a b : BitVec 8)
  -- handler return and trace marker (R327, R329)
  | eret
  | mark (x : Option (BitVec 24)) (a i : BitVec 8)
  -- check 2 or 4 of R286 failed for this base word (R285)
  | illegalOpcode (word : BitVec 32)
  -- package network (R13–R17)
  | flitInjection
  | flitArrival
  | flitEjection
  -- power, temperature, resets (R24–R27, R132)
  | powerModeClockSettle
  | powerWindowEnd
  | temperatureReport
  | fatalDieError
  | deviceReset
  | refreshPhaseEnd
  -- token coherence (R36–R53)
  | transientRequest
  | forwardedRequest
  | tokenArrival
  | holderEviction
  | llcEviction
  | requestReissue
  | persistentRequest
  | persistentActivation
  | persistentDeactivation
  | deactivationAcksDone
  | engineWriteLanded
  | backInvalidationResponse
  | tokenRegeneration
  -- combining stations (R54–R63)
  | atomicStationArrival
  | groupApply
  | groupReply
  | combineTimerExpiry
  | outcomeQuery
  | outcomeQueryAnswer
  -- HBM4E, buckets and errors (R75–R87)
  | hbm4eReadComplete
  | hbm4eReadRetryComplete
  | hbm4eWrite
  | quotaRefill
  | pseudoChannelSlot
  | sramUncorrectableError
  -- Powepra Link (R91–R104)
  | rldRequest
  | rstRequest
  | ratomRequest
  | rvaddRequest
  | rwsigRequest
  | rredResult
  | fabricReply
  | fabricTimeout
  | portRetryExhausted
  | portDrainEnd
  | planeRemapNotice
  | linkRetrained
  | fportctlRestore
  | planeRestoreComplete
  -- host and CXL (R49, R106–R109)
  | hostCxlRequest
  | hostSnoop
  | cxlTransactionComplete
  | cxlCompletionTimeout
  | cxlLinkDown
  | expanderRetrain
  -- BAR 0 writes (R111–R115)
  | kickPageWrite
  | queueEnable
  | queueDisable
  | queueRestart
  | registerWrite
  -- mailbox (R118); arguments stand in MBARG
  | createVd
  | startVd
  | suspendVd
  | resumeVd
  | resetVd
  | destroyVd
  | setWeight
  | setPowerMode
  | queryVd
  | loadImage
  -- scoped reset (R133–R137)
  | vfFunctionLevelReset
  | engineKill
  | killAcksComplete
  | killAckTimeout
  -- queue engines and packets (R122–R131); queue 64 is the device-launch queue
  | slotPoll
  | nopPacket
  | launchPacket
  | copyPacket
  | waitSignalPacket
  | waitSignalRetest
  | writeSignalPacket
  | timestampPacket
  | packetCompletion
  | msixVectorUnmask
  | deviceLaunchQueueRestart
  -- the VDC's fixed-function tables (R20, R72, R79, R107, R116, R130, R159)
  | virtualDieTableWrite
  | regionTableWrite
  | keyTagWrite
  | stage2EntryWrite
  | interruptRemapWrite
  | keySlotLoad
  | vdControlBlockWrite
  | schcfgWrite
  | schpoolWrite
  -- SPDM responder of function fn (R139)
  | spdmGetVersion
  | spdmGetCapabilities
  | spdmNegotiateAlgorithms
  | spdmGetDigests
  | spdmGetCertificate
  | spdmChallenge
  | spdmGetMeasurements
  | spdmKeyExchange
  | spdmFinish
  | spdmEndSession
  | spdmUnsupportedRequest
  -- translation caches (R148, R149)
  | tlbInvalidateRange
  | tlbInvalidateAsid
  | tlbInvalidateVd
  | stage2Invalidate
  | invalidationComplete
  -- replay and fault queues (R151–R157)
  | replaytWrite
  | replayPage
  | replayAll
  | fqheadWrite
  | faultRecordDelivery
  | waiterWake
  | waitTableEntryFree
  | rhbaseWrite
  | stage2FaultResolution
  | migrationStart
  | migrationLineCopy
  | migrationSwitch
  -- scheduling (R159–R192)
  | quantumBoundary
  | clusterOffer
  | blockSave
  | drainOverrun
  | blockRestore
  | blockExit
  | kernelCompletion
  | kernelAbort
  | sleepDeadline
  -- cluster (R85, R207, R212–R219, R404)
  | loadReturn
  | storeAck
  | wcbDrain
  | engineCommandStart
  | ownershipWindow
  | engineCommandComplete
  | matrixStepStart
  | matrixBudgetRefill
  | mloopStepIssue
  -- sampler and debug (R257–R270)
  | smpcfgWrite
  | smpheadWrite
  | smpdropClear
  | samplerTick
  | memreqRecord
  | debugContinue
  | debugStep
  | debugRollback
  | rollbackCountReached
  -- steps listed apart in the table (R379, R118, R109, R410, R156)
  | waitsigRetest
  | unknownCommand
  | cxlLinkRetrain
  | instructionCacheFill
  | pageEviction
  deriving DecidableEq, Repr

end Sys2Proof
end

