-- ==== Sys2Proof/WellFormed.lean ====
section
/-!
DEFINITION. Well-formed steps. For a Billek instruction these are checks 3 and 4 of R286 on the decoded term: which
prefix values the instruction accepts (R277–R281) and which base-field values it accepts (R273, R284, R285). For
what a step of the device acts on they are the ranges of the numbers that name agents (R8, R9, R44, R89, R110, R121).
-/
namespace Sys2Proof

/-- No FAR, no NR, no comparand (R280). -/
def OPfx.plain (o : OPfx) : Bool := !o.far && !o.nr && o.c == 0#8

/-- Row "LDG, SLD" of R280. -/
def OPfx.fitsLoad (o : OPfx) : Bool :=
  o.plain && o.ord.toNat ≤ 1 && o.scope.toNat ≤ 5 && (o.scope.toNat != 5 || o.ord == 1#2)

/-- Row "RLD" of R280. -/
def OPfx.fitsRemoteLoad (o : OPfx) : Bool := o.plain && o.ord.toNat ≤ 1 && o.scope.toNat ≤ 4

/-- Row "STG, SST, RST, RWSIG" of R280. -/
def OPfx.fitsStore (o : OPfx) : Bool :=
  o.plain && (o.ord == 0#2 || o.ord == 2#2) && o.scope.toNat ≤ 4

/-- `LDS` in R280. -/
def OPfx.fitsScratchLoad (o : OPfx) : Bool := o.plain && o.ord.toNat ≤ 1 && o.scope.toNat ≤ 1

/-- `STS` in R280. -/
def OPfx.fitsScratchStore (o : OPfx) : Bool :=
  o.plain && (o.ord == 0#2 || o.ord == 2#2) && o.scope.toNat ≤ 1

/-- RBK only on an acquire or acquire-release (R220, R280). -/
def OPfx.scopeRmw (o : OPfx) : Bool :=
  o.scope.toNat ≤ 5 && (o.scope.toNat != 5 || o.ord == 1#2 || o.ord == 3#2)

/-- Row "ATOMG.* except CAS" of R280. -/
def OPfx.fitsAtomg (o : OPfx) : Bool := o.scopeRmw && o.c == 0#8

/-- Row "ATOMG.CAS" of R280. -/
def OPfx.fitsAtomgCas (o : OPfx) : Bool := o.scopeRmw

/-- Row "ATOMS.*" of R280; `cas` allows a comparand. -/
def OPfx.fitsAtoms (cas : Bool) (o : OPfx) : Bool :=
  !o.far && o.scope.toNat ≤ 1 && (cas || o.c == 0#8)

/-- Row "SATOM" of R280. -/
def OPfx.fitsSatom (o : OPfx) : Bool := !o.far && o.scopeRmw && o.c == 0#8

/-- Row "RATOM" of R280. -/
def OPfx.fitsRatom (o : OPfx) : Bool := !o.far && o.scope.toNat ≤ 4 && o.c == 0#8

/-- Row "RVADD, RRED" of R280. -/
def OPfx.fitsReduce (o : OPfx) : Bool := o.plain && o.scope.toNat ≤ 4

/-- Row "FENCE" of R280. -/
def OPfx.fitsFence (o : OPfx) : Bool := o.plain && o.ord != 0#2 && o.scope.toNat ≤ 4

/-- An optional prefix meets a check when it is absent or passes it. -/
def optOk {α : Type} (f : α → Bool) : Option α → Bool
  | none => true
  | some x => f x

/-- A vector prefix on an instruction without an accumulator operand (R277). -/
def VPfx.noAcc (p : VPfx) : Bool := p.mz != 3#2 && !p.acb

/-- A vector prefix on an instruction that may name an accumulator fragment (R277). -/
def VPfx.mayAcc (p : VPfx) : Bool := p.mz != 3#2 && (!p.acb || p.c.extractLsb' 0 4 == 0#4)

/-- A vector prefix whose `C` names a predicate: bits 7:6 are zero (R277, R346). -/
def VPfx.predC (p : VPfx) : Bool := p.noAcc && p.c.extractLsb' 6 2 == 0#2

/-- Format M of a global access: W 0–4, BP 0 when X = 1 (R273). -/
def MFld.okGlobal (m : MFld) : Bool := m.w.toNat ≤ 4 && (!m.x || m.bp == 0#3)

/-- Format M of a scratchpad or weight-store access: X = 0 (R273). -/
def MFld.okLocal (m : MFld) : Bool := m.w.toNat ≤ 4 && !m.x

/-- Format M of a global atomic: W 2–3 (R273). -/
def MFld.okAtomg (m : MFld) : Bool :=
  (m.w == 2#3 || m.w == 3#3) && (!m.x || m.bp == 0#3)

/-- Format M of a scratchpad atomic (R273). -/
def MFld.okAtoms (m : MFld) : Bool := (m.w == 2#3 || m.w == 3#3) && !m.x

/-- Ranges of the numbers in endpoint names (R8, R9). -/
def Endpoint.wf : Endpoint → Bool
  | .cluster g => g < 512
  | .l2 d s => d < 32 && s < 16
  | .llc s => s < 256
  | .mirror m => m < 16
  | .arbiter s => s < 8
  | .proxy | .control => true
  | .port p => p < 16
  | .expander p => p < 2

/-- Ranges of the numbers in router names (R11). -/
def Router.wf : Router → Bool
  | .compute d x y => d < 32 && x < 8 && y < 5
  | .memory m x y => m < 16 && x < 4 && y < 5
  | .sector s => s < 8

/-- Ranges of the numbers in holder names (R33). -/
def Holder.wf : Holder → Bool
  | .die d => d < 32
  | .proxy => true

/-- Ranges of the numbers in engine names (R134). -/
def KillEngine.wf : KillEngine → Bool
  | .cluster g | .copyEngine g | .matrixEngine g => g < 512
  | .fabricPort p => p < 16
  | .memoryDie m => m < 16
  | .dieTlb d => d < 32
  | .queueEngine | .hostProxy | .walkers => true

/-- Check 3 of R286 on the decoded term: prefix values the instruction accepts. -/
def Instr.pfxOk : Instr → Bool
  | .vmad p _ _ _ | .vbfi p _ _ _ | .vfma p _ _ _ | .vdot4 p _ _ _ | .vdot2 p _ _ _ => p.noAcc
  | .vadd p _ _ _ | .vsub p _ _ _ | .vmul p _ _ _ | .vmulh p _ _ _ | .vand p _ _ _ | .vor p _ _ _
  | .vxor p _ _ _ | .vshl p _ _ _ | .vshr p _ _ _ | .vmin p _ _ _ | .vmax p _ _ _ | .vsel p _ _ _
  | .vfadd p _ _ _ | .vfsub p _ _ _ | .vfmul p _ _ _ | .vfmin p _ _ _ | .vfmax p _ _ _ =>
    optOk VPfx.mayAcc p
  | .vbfe p _ _ _ | .vfdiv p _ _ _ | .vscale p _ _ _ | .vpack p _ _ _
  | .vcmpeq p _ _ _ | .vcmpne p _ _ _ | .vcmplt p _ _ _ | .vcmple p _ _ _ | .vcmpun p _ _ _
  | .pand p _ _ _ | .por p _ _ _ | .pxor p _ _ _
  | .vshfl p _ _ _ | .vshflx p _ _ _ | .vshflu p _ _ _ | .vshfld p _ _ _ | .vbcast p _ _ _
  | .vred p _ _ _ | .vscan p _ _ _ => optOk VPfx.noAcc p
  | .vabs p _ _ | .vneg p _ _ | .vclz p _ _ | .vpopc p _ _ | .vmov p _ _ | .vbrev p _ _
  | .vfabs p _ _ | .vfneg p _ _ | .vfsqrt p _ _ | .vrcp p _ _ | .vrsq p _ _ | .vexp2 p _ _
  | .vlog2 p _ _ | .vsin p _ _ | .vcos p _ _ | .vtanh p _ _ | .vsigm p _ _ | .vround p _ _
  | .vfrac p _ _ | .vclass p _ _ | .vunpk p _ _ | .pnot p _ _ | .pmov p _ _ | .vexecq p _ _
  | .pseti p _ _ | .vshli p _ _ _ | .vshri p _ _ _ | .vcvt p _ _ _ _
  | .vaddi _ p _ _ _ | .vandi _ p _ _ _ | .vori _ p _ _ _ | .vxori _ p _ _ _ | .vmovi _ p _ _
  | .vlaneid p _ | .viota p _ | .vexec p _ | .ldw p _ _ _ | .pref p _ _ | .cflush p _ _
  | .pgreq p _ _ | .cpa p _ _ _ _ _ => optOk VPfx.noAcc p
  | .vmatch p _ _ => optOk VPfx.predC p
  | .ldg o p _ _ _ => optOk OPfx.fitsLoad o && optOk VPfx.noAcc p
  | .ldgnf o p _ _ _ => optOk OPfx.fitsLoad o && p.predC
  | .sld o _ _ _ _ => optOk OPfx.fitsLoad o
  | .stg o p _ _ _ => optOk OPfx.fitsStore o && optOk VPfx.noAcc p
  | .sst o _ _ _ _ => optOk OPfx.fitsStore o
  | .lds o p _ _ _ => optOk OPfx.fitsScratchLoad o && optOk VPfx.noAcc p
  | .sts o p _ _ _ => optOk OPfx.fitsScratchStore o && optOk VPfx.noAcc p
  | .atomgAdd o p _ _ _ | .atomgMin o p _ _ _ | .atomgMax o p _ _ _ | .atomgAnd o p _ _ _
  | .atomgOr o p _ _ _ | .atomgXor o p _ _ _ | .atomgExch o p _ _ _ | .atomgIncw o p _ _ _
  | .atomgFadd o p _ _ _ => optOk OPfx.fitsAtomg o && optOk VPfx.noAcc p
  | .atomgCas o p _ _ _ => o.fitsAtomgCas && optOk VPfx.noAcc p
  | .atomsAdd o p _ _ _ | .atomsMin o p _ _ _ | .atomsMax o p _ _ _ | .atomsAnd o p _ _ _
  | .atomsOr o p _ _ _ | .atomsXor o p _ _ _ | .atomsExch o p _ _ _ =>
    optOk (OPfx.fitsAtoms false) o && optOk VPfx.noAcc p
  | .atomsCas o p _ _ _ => o.fitsAtoms true && optOk VPfx.noAcc p
  | .satom o _ _ => optOk OPfx.fitsSatom o
  | .rld o p _ _ _ => optOk OPfx.fitsRemoteLoad o && optOk VPfx.noAcc p
  | .rst o p _ _ _ | .rwsig o p _ _ _ => optOk OPfx.fitsStore o && optOk VPfx.noAcc p
  | .ratom o p _ _ _ => optOk OPfx.fitsRatom o && optOk VPfx.noAcc p
  | .rvadd o p _ _ _ | .rred o p _ _ _ => optOk OPfx.fitsReduce o && optOk VPfx.noAcc p
  | .fence o => o.fitsFence
  | _ => true

/-- Check 4 of R286 on the decoded term: base-field values the instruction accepts, where the field's width does not
already say so. -/
def Instr.fieldsOk : Instr → Bool
  | .sld _ _ _ w _ | .sst _ _ _ w _ => w.toNat ≤ 3
  | .vred _ _ _ op | .vscan _ _ _ op => op.toNat ≤ 5
  | .ldg _ _ _ _ m | .stg _ _ _ _ m | .ldgnf _ _ _ _ m => m.okGlobal
  | .pref _ _ m | .cflush _ _ m | .pgreq _ _ m => m.okGlobal
  | .lds _ _ _ _ m | .sts _ _ _ _ m | .ldw _ _ _ m => m.okLocal
  | .cpa _ _ _ size _ _ => size.toNat ≤ 3
  | .tcopy d _ => d.toNat ≤ 7
  | .atomgAdd _ _ _ _ m | .atomgMin _ _ _ _ m | .atomgMax _ _ _ _ m | .atomgAnd _ _ _ _ m
  | .atomgOr _ _ _ _ m | .atomgXor _ _ _ _ m | .atomgExch _ _ _ _ m | .atomgIncw _ _ _ _ m
  | .atomgFadd _ _ _ _ m | .atomgCas _ _ _ _ m => m.okAtomg
  | .atomsAdd _ _ _ _ m | .atomsMin _ _ _ _ m | .atomsMax _ _ _ _ m | .atomsAnd _ _ _ _ m
  | .atomsOr _ _ _ _ m | .atomsXor _ _ _ _ m | .atomsExch _ _ _ _ m | .atomsCas _ _ _ _ m => m.okAtoms
  | _ => true

/-- Ranges of the numbers that name what a step of the device acts on. -/
def Focus.wf : Focus → Bool
  | .endpoint e => e.wf
  | .router r => r.wf
  | .held h _ => h.wf
  | .weightRetry d l _ => d < 32 && l < 2 ^ 22
  | .sram h _ _ => optOk Holder.wf h
  | .die d | .waiter d _ | .dieValue d _ => d < 32
  | .temp d _ => d < 49
  | .region d v _ => d < 32 && v < 512
  | .bank a b => a < 8 && b < 8
  | .group s _ _ => s < 257
  | .channel s p => s < 32 && p < 192
  | .remote q => q.plane < 16
  | .port p | .plane p _ => p < 16
  | .queue v q _ => v < 512 && q ≤ 64
  | .vd v | .vdValue v _ | .entry v _ _ | .leaf v _ _ _ | .range v _ _ | .resolve v _ _ _ _
  | .evict v _ _ _ => v < 512
  | .engine v e => v < 512 && e.wf
  | .write fn _ _ _ | .spdm fn _ _ => fn ≤ 512
  | .migrate s v _ _ _ => s < 256 && v < 512
  | .slotLine s l => s < 256 && l < 32
  | .cluster g | .clusterLine g _ => g < 512
  | .quad g q => g < 512 && q < 4
  | _ => true

/-- A well-formed step. -/
def Instr.wf (i : Instr) : Bool := i.pfxOk && i.fieldsOk

/-- A step of the device, which has no instruction word: the rows of the opcode table without an encoding. -/
def Instr.isStep : Instr → Bool
  | .flitInjection | .flitArrival | .flitEjection | .powerModeClockSettle | .powerWindowEnd | .temperatureReport
  | .fatalDieError | .deviceReset | .refreshPhaseEnd | .transientRequest | .forwardedRequest | .tokenArrival
  | .holderEviction | .llcEviction | .requestReissue | .persistentRequest | .persistentActivation
  | .persistentDeactivation | .deactivationAcksDone | .engineWriteLanded | .backInvalidationResponse
  | .tokenRegeneration | .atomicStationArrival | .groupApply | .groupReply | .combineTimerExpiry | .outcomeQuery
  | .outcomeQueryAnswer | .hbm4eReadComplete | .hbm4eReadRetryComplete | .hbm4eWrite | .quotaRefill
  | .pseudoChannelSlot | .sramUncorrectableError | .rldRequest | .rstRequest | .ratomRequest | .rvaddRequest
  | .rwsigRequest | .rredResult | .fabricReply | .fabricTimeout | .portRetryExhausted | .portDrainEnd
  | .planeRemapNotice | .linkRetrained | .fportctlRestore | .planeRestoreComplete | .hostCxlRequest | .hostSnoop
  | .cxlTransactionComplete | .cxlCompletionTimeout | .cxlLinkDown | .expanderRetrain | .kickPageWrite
  | .queueEnable | .queueDisable | .queueRestart | .registerWrite | .createVd | .startVd | .suspendVd | .resumeVd
  | .resetVd | .destroyVd | .setWeight | .setPowerMode | .queryVd | .loadImage | .vfFunctionLevelReset | .engineKill
  | .killAcksComplete | .killAckTimeout | .slotPoll | .nopPacket | .launchPacket | .copyPacket | .waitSignalPacket
  | .waitSignalRetest | .writeSignalPacket | .timestampPacket | .packetCompletion | .msixVectorUnmask
  | .deviceLaunchQueueRestart | .virtualDieTableWrite | .regionTableWrite | .keyTagWrite | .stage2EntryWrite
  | .interruptRemapWrite | .keySlotLoad | .vdControlBlockWrite | .schcfgWrite | .schpoolWrite | .spdmGetVersion
  | .spdmGetCapabilities | .spdmNegotiateAlgorithms | .spdmGetDigests | .spdmGetCertificate | .spdmChallenge
  | .spdmGetMeasurements | .spdmKeyExchange | .spdmFinish | .spdmEndSession | .spdmUnsupportedRequest
  | .tlbInvalidateRange | .tlbInvalidateAsid | .tlbInvalidateVd | .stage2Invalidate | .invalidationComplete
  | .replaytWrite | .replayPage | .replayAll | .fqheadWrite | .faultRecordDelivery | .waiterWake
  | .waitTableEntryFree | .rhbaseWrite | .stage2FaultResolution | .migrationStart | .migrationLineCopy
  | .migrationSwitch | .quantumBoundary | .clusterOffer | .blockSave | .drainOverrun | .blockRestore | .blockExit
  | .kernelCompletion | .kernelAbort | .sleepDeadline | .loadReturn | .storeAck | .wcbDrain | .engineCommandStart
  | .ownershipWindow | .engineCommandComplete | .matrixStepStart | .matrixBudgetRefill | .mloopStepIssue
  | .smpcfgWrite | .smpheadWrite | .smpdropClear | .samplerTick | .memreqRecord | .debugContinue | .debugStep
  | .debugRollback | .rollbackCountReached | .waitsigRetest | .unknownCommand | .cxlLinkRetrain
  | .instructionCacheFill | .pageEviction => true
  | _ => false

end Sys2Proof
end

