-- ==== Sys2Proof/Decode.lean ====
section
/-!
DEFINITION. The Billek decoder, total on any bytes and rejecting by name in the order of R286 (checks 2 to 4), and
after it the encoder, written from the formats of R272 and the opcode map of R284.
-/
namespace Sys2Proof

/-- The prefixes in front of a base word, by kind (R276). -/
structure Pfx where
  v : Option VPfx := none
  i : Option (BitVec 24) := none
  j : Option (BitVec 24) := none
  o : Option OPfx := none
  deriving DecidableEq, Repr

/-- What the decoder makes of a list of words. -/
inductive Decoded where
  /-- An instruction of `n` words. -/
  | ok (i : Instr) (n : Nat)
  /-- The words end before the base word. -/
  | more
  /-- Check 2 or 4 of R286 fails: the base word, and how many words were read. -/
  | illegalOpcode (word : BitVec 32) (n : Nat)
  /-- Check 3 of R286 fails: `%einfo` of R287, and how many words were read. -/
  | illegalPrefix (info : BitVec 32) (n : Nat)
  deriving DecidableEq, Repr

def fD (w : BitVec 32) : BitVec 8 := w.extractLsb' 16 8
def fA (w : BitVec 32) : BitVec 8 := w.extractLsb' 8 8
def fB (w : BitVec 32) : BitVec 8 := w.extractLsb' 0 8
def opcode (w : BitVec 32) : Nat := (w.extractLsb' 24 8).toNat

/-- The bits of `w` under the mask are zero. -/
def z (w m : BitVec 32) : Bool := w &&& m == 0#32

/-- A word whose bits 31:28 are 0xF is a prefix (R276). -/
def isPrefix (w : BitVec 32) : Bool := w.extractLsb' 28 4 == 0xF#4

def MFld.dec (w : BitVec 32) : MFld :=
  { w := w.extractLsb' 5 3, x := w.getLsbD 4, bp := w.extractLsb' 1 3, c := w.getLsbD 0 }

/-- The vector prefix's fields (R277). -/
def VPfx.dec (w : BitVec 32) : VPfx :=
  { gp := w.extractLsb' 20 6, gn := w.getLsbD 19, gv := w.getLsbD 18, rnd := w.extractLsb' 15 3,
    mz := w.extractLsb' 13 2, c := w.extractLsb' 5 8, type := w.extractLsb' 1 4, acb := w.getLsbD 0 }

/-- The order prefix's fields (R280). -/
def OPfx.dec (w : BitVec 32) : OPfx :=
  { scope := w.extractLsb' 23 3, ord := w.extractLsb' 21 2, far := w.getLsbD 20, nr := w.getLsbD 19,
    c := w.extractLsb' 11 8 }

/-- The prefix kind, bits 27:26 (R276). -/
def pfxKind (w : BitVec 32) : BitVec 2 := w.extractLsb' 26 2

/-- One prefix word by kind; none where its reserved bits are not zero (R276, R280). -/
def onePfx (w : BitVec 32) : Option Pfx :=
  match (pfxKind w).toNat with
  | 0 => some { v := some (VPfx.dec w) }
  | 1 => if z w 0x03000000#32 then some { i := some (w.extractLsb' 0 24) } else none
  | 2 => if z w 0x03000000#32 then some { j := some (w.extractLsb' 0 24) } else none
  | _ => if z w 0x000007FF#32 then some { o := some (OPfx.dec w) } else none

/-- The arrangement of at most two prefixes, a vector prefix last (R281). -/
def arrange : List (BitVec 32) → Option Pfx
  | [] => some {}
  | [w] => onePfx w
  | [w, u] =>
    if pfxKind w != 0#2 && pfxKind u == 0#2 then
      (onePfx w).map fun x => { x with v := some (VPfx.dec u) }
    else none
  | _ => none

def inRange (op lo hi : Nat) : Bool := lo ≤ op && op ≤ hi

/-- The reserved opcodes of R285; 0xF0–0xFF are prefixes (R276). -/
def reservedOp (op : Nat) : Bool :=
  op == 0x5E || op == 0x5F || op == 0x86 || op == 0x87 || inRange op 0x92 0x9F || inRange op 0xAB 0xAF ||
  op == 0xCF || inRange op 0xDC 0xDF || 0xE2 ≤ op

/-- Opcodes that accept a vector prefix (R284). -/
def acceptsV (op : Nat) : Bool :=
  inRange op 0x40 0x5D || inRange op 0x60 0x85 || inRange op 0x88 0x91 || inRange op 0xA0 0xA8 || op == 0xAA ||
  inRange op 0xB0 0xB9 || inRange op 0xC0 0xCD

/-- Opcodes that accept an immediate prefix (R278, R284). -/
def acceptsI (op : Nat) : Bool :=
  inRange op 0x20 0x23 || op == 0x27 || inRange op 0x50 0x53 || op == 0x56 || op == 0xE1

/-- Opcodes that accept an order prefix (R280, R284). -/
def acceptsO (op : Nat) : Bool :=
  inRange op 0x39 0x3B || inRange op 0xA0 0xA4 || inRange op 0xB0 0xBA || inRange op 0xC0 0xCD

/-- Opcodes that require a vector prefix (R277, R284). -/
def needsV (op : Nat) : Bool :=
  op == 0x44 || op == 0x5A || op == 0x63 || op == 0x7E || op == 0x7F || op == 0xA2

/-- Opcodes that require an order prefix (R280, R284). -/
def needsO (op : Nat) : Bool := op == 0xB9 || op == 0xBA || op == 0xC7

/-- Every prefix is of a kind that the opcode map lists for the base word (R281). -/
def kindsFit (op : Nat) (x : Pfx) : Bool :=
  (x.v.isNone || acceptsV op) && (x.i.isNone || acceptsI op) && (x.j.isNone || op == 0x08) &&
  (x.o.isNone || acceptsO op)

/-- The instruction of a base word under its prefixes, and whether the fields that R284 marks 0 are zero; none for
a reserved opcode or a missing mandatory prefix. -/
def build (op : Nat) (x : Pfx) (w : BitVec 32) : Option (Instr × Bool) :=
  match op with
  | 0x00 => some (.nop, z w 0x00FFFFFF)
  | 0x01 => some (.exit, z w 0x00FFFFFF)
  | 0x02 => some (.bra (w.extractLsb' 0 24), true)
  | 0x03 => some (.call (w.extractLsb' 0 24), true)
  | 0x04 => some (.ret, z w 0x00FFFFFF)
  | 0x05 => some (.jmpr (fA w), z w 0x00FF00FF)
  | 0x06 => some (.brs (w.extractLsb' 18 6) (w.extractLsb' 0 17), z w 0x00020000)
  | 0x07 => some (.brsz (w.extractLsb' 18 6) (w.extractLsb' 0 17), z w 0x00020000)
  | 0x08 => some (.brv x.j (w.extractLsb' 18 6) (w.getLsbD 17) (w.extractLsb' 0 17), true)
  | 0x09 => some (.brany (w.extractLsb' 18 6) (w.getLsbD 17) (w.extractLsb' 0 17), true)
  | 0x0A => some (.brall (w.extractLsb' 18 6) (w.getLsbD 17) (w.extractLsb' 0 17), true)
  | 0x0B => some (.syncw, z w 0x00FFFFFF)
  | 0x0C => some (.trap (w.extractLsb' 0 24), true)
  | 0x0D => some (.brk (w.extractLsb' 0 24), true)
  | 0x0E => some (.yield, z w 0x00FFFFFF)
  | 0x0F => some (.sleep (fA w), z w 0x00FF00FF)
  | 0x10 => some (.sadd (fD w) (fA w) (fB w), true)
  | 0x11 => some (.ssub (fD w) (fA w) (fB w), true)
  | 0x12 => some (.smul (fD w) (fA w) (fB w), true)
  | 0x13 => some (.smulh (fD w) (fA w) (fB w), true)
  | 0x14 => some (.smulhn (fD w) (fA w) (fB w), true)
  | 0x15 => some (.sand (fD w) (fA w) (fB w), true)
  | 0x16 => some (.sor (fD w) (fA w) (fB w), true)
  | 0x17 => some (.sxor (fD w) (fA w) (fB w), true)
  | 0x18 => some (.sshl (fD w) (fA w) (fB w), true)
  | 0x19 => some (.sshr (fD w) (fA w) (fB w), true)
  | 0x1A => some (.ssra (fD w) (fA w) (fB w), true)
  | 0x1B => some (.smin (fD w) (fA w) (fB w), true)
  | 0x1C => some (.smax (fD w) (fA w) (fB w), true)
  | 0x1D => some (.sminn (fD w) (fA w) (fB w), true)
  | 0x1E => some (.smaxn (fD w) (fA w) (fB w), true)
  | 0x1F => some (.sadd64 (fD w) (fA w) (fB w), true)
  | 0x20 => some (.saddi x.i (fD w) (fA w) (fB w), true)
  | 0x21 => some (.sandi x.i (fD w) (fA w) (fB w), true)
  | 0x22 => some (.sori x.i (fD w) (fA w) (fB w), true)
  | 0x23 => some (.sxori x.i (fD w) (fA w) (fB w), true)
  | 0x24 => some (.sshli (fD w) (fA w) (w.extractLsb' 0 6), z w 0x000000C0)
  | 0x25 => some (.sshri (fD w) (fA w) (w.extractLsb' 0 6), z w 0x000000C0)
  | 0x26 => some (.ssrai (fD w) (fA w) (w.extractLsb' 0 6), z w 0x000000C0)
  | 0x27 => some (.smovi x.i (fD w) (fB w), z w 0x0000FF00)
  | 0x28 => some (.seq (fD w) (fA w) (fB w), true)
  | 0x29 => some (.slt (fD w) (fA w) (fB w), true)
  | 0x2A => some (.sltn (fD w) (fA w) (fB w), true)
  | 0x2B => some (.sle (fD w) (fA w) (fB w), true)
  | 0x2C => some (.spopc (fD w) (fA w), z w 0x000000FF)
  | 0x2D => some (.sclz (fD w) (fA w), z w 0x000000FF)
  | 0x2E => some (.sffs (fD w) (fA w), z w 0x000000FF)
  | 0x2F => some (.ssel (fD w) (fA w) (fB w), true)
  | 0x30 => some (.srd (fD w) (fB w), z w 0x0000FF00)
  | 0x31 => some (.swr (fA w) (fB w), z w 0x00FF0000)
  | 0x32 => some (.setmode (fA w), z w 0x00FF00FF)
  | 0x33 => some (.getmode (fD w), z w 0x0000FFFF)
  | 0x34 => some (.prd (fD w) (fA w), z w 0x000000FF)
  | 0x35 => some (.pwr (fD w) (fA w), z w 0x000000FF)
  | 0x36 => some (.vgetl (fD w) (fA w) (fB w), true)
  | 0x37 => some (.vsetl (fD w) (fA w) (fB w), true)
  | 0x38 => some (.smov (fD w) (fA w), z w 0x000000FF)
  | 0x39 => some (.sld x.o (fD w) (fA w) (w.extractLsb' 5 3) (w.getLsbD 0), w.extractLsb' 1 4 == 8#4)
  | 0x3A => some (.sst x.o (fD w) (fA w) (w.extractLsb' 5 3) (w.getLsbD 0), w.extractLsb' 1 4 == 8#4)
  | 0x3B => some (.satom x.o (fD w) (fA w), z w 0x000000FF)
  | 0x3C => some (.vdquery (fD w) (fA w) (fB w), true)
  | 0x3D => some (.capq (fD w) (fA w), z w 0x000000FF)
  | 0x3E => some (.launch (fD w) (fA w), z w 0x000000FF)
  | 0x3F => some (.kick (fA w) (fB w), z w 0x00FF0000)
  | 0x40 => some (.vadd x.v (fD w) (fA w) (fB w), true)
  | 0x41 => some (.vsub x.v (fD w) (fA w) (fB w), true)
  | 0x42 => some (.vmul x.v (fD w) (fA w) (fB w), true)
  | 0x43 => some (.vmulh x.v (fD w) (fA w) (fB w), true)
  | 0x44 => x.v.map fun p => (.vmad p (fD w) (fA w) (fB w), true)
  | 0x45 => some (.vand x.v (fD w) (fA w) (fB w), true)
  | 0x46 => some (.vor x.v (fD w) (fA w) (fB w), true)
  | 0x47 => some (.vxor x.v (fD w) (fA w) (fB w), true)
  | 0x48 => some (.vshl x.v (fD w) (fA w) (fB w), true)
  | 0x49 => some (.vshr x.v (fD w) (fA w) (fB w), true)
  | 0x4A => some (.vmin x.v (fD w) (fA w) (fB w), true)
  | 0x4B => some (.vmax x.v (fD w) (fA w) (fB w), true)
  | 0x4C => some (.vabs x.v (fD w) (fA w), z w 0x000000FF)
  | 0x4D => some (.vneg x.v (fD w) (fA w), z w 0x000000FF)
  | 0x4E => some (.vclz x.v (fD w) (fA w), z w 0x000000FF)
  | 0x4F => some (.vpopc x.v (fD w) (fA w), z w 0x000000FF)
  | 0x50 => some (.vaddi x.i x.v (fD w) (fA w) (fB w), true)
  | 0x51 => some (.vandi x.i x.v (fD w) (fA w) (fB w), true)
  | 0x52 => some (.vori x.i x.v (fD w) (fA w) (fB w), true)
  | 0x53 => some (.vxori x.i x.v (fD w) (fA w) (fB w), true)
  | 0x54 => some (.vshli x.v (fD w) (fA w) (w.extractLsb' 0 6), z w 0x000000C0)
  | 0x55 => some (.vshri x.v (fD w) (fA w) (w.extractLsb' 0 6), z w 0x000000C0)
  | 0x56 => some (.vmovi x.i x.v (fD w) (fB w), z w 0x0000FF00)
  | 0x57 => some (.vmov x.v (fD w) (fA w), z w 0x000000FF)
  | 0x58 => some (.vsel x.v (fD w) (fA w) (fB w), true)
  | 0x59 => some (.vbfe x.v (fD w) (fA w) (fB w), true)
  | 0x5A => x.v.map fun p => (.vbfi p (fD w) (fA w) (fB w), true)
  | 0x5B => some (.vbrev x.v (fD w) (fA w), z w 0x000000FF)
  | 0x5C => some (.vlaneid x.v (fD w), z w 0x0000FFFF)
  | 0x5D => some (.viota x.v (fD w), z w 0x0000FFFF)
  | 0x60 => some (.vfadd x.v (fD w) (fA w) (fB w), true)
  | 0x61 => some (.vfsub x.v (fD w) (fA w) (fB w), true)
  | 0x62 => some (.vfmul x.v (fD w) (fA w) (fB w), true)
  | 0x63 => x.v.map fun p => (.vfma p (fD w) (fA w) (fB w), true)
  | 0x64 => some (.vfmin x.v (fD w) (fA w) (fB w), true)
  | 0x65 => some (.vfmax x.v (fD w) (fA w) (fB w), true)
  | 0x66 => some (.vfabs x.v (fD w) (fA w), z w 0x000000FF)
  | 0x67 => some (.vfneg x.v (fD w) (fA w), z w 0x000000FF)
  | 0x68 => some (.vfdiv x.v (fD w) (fA w) (fB w), true)
  | 0x69 => some (.vfsqrt x.v (fD w) (fA w), z w 0x000000FF)
  | 0x6A => some (.vrcp x.v (fD w) (fA w), z w 0x000000FF)
  | 0x6B => some (.vrsq x.v (fD w) (fA w), z w 0x000000FF)
  | 0x6C => some (.vexp2 x.v (fD w) (fA w), z w 0x000000FF)
  | 0x6D => some (.vlog2 x.v (fD w) (fA w), z w 0x000000FF)
  | 0x6E => some (.vsin x.v (fD w) (fA w), z w 0x000000FF)
  | 0x6F => some (.vcos x.v (fD w) (fA w), z w 0x000000FF)
  | 0x70 => some (.vtanh x.v (fD w) (fA w), z w 0x000000FF)
  | 0x71 => some (.vsigm x.v (fD w) (fA w), z w 0x000000FF)
  | 0x72 => some (.vround x.v (fD w) (fA w), z w 0x000000FF)
  | 0x73 => some (.vfrac x.v (fD w) (fA w), z w 0x000000FF)
  | 0x74 => some (.vcvt x.v (fD w) (fA w) (w.extractLsb' 4 4) (w.extractLsb' 0 4), true)
  | 0x75 => some (.vclass x.v (fD w) (fA w), z w 0x000000FF)
  | 0x76 => some (.vcmpeq x.v (fD w) (fA w) (fB w), true)
  | 0x77 => some (.vcmpne x.v (fD w) (fA w) (fB w), true)
  | 0x78 => some (.vcmplt x.v (fD w) (fA w) (fB w), true)
  | 0x79 => some (.vcmple x.v (fD w) (fA w) (fB w), true)
  | 0x7A => some (.vcmpun x.v (fD w) (fA w) (fB w), true)
  | 0x7B => some (.vscale x.v (fD w) (fA w) (fB w), true)
  | 0x7C => some (.vpack x.v (fD w) (fA w) (fB w), true)
  | 0x7D => some (.vunpk x.v (fD w) (fA w), z w 0x000000FF)
  | 0x7E => x.v.map fun p => (.vdot4 p (fD w) (fA w) (fB w), true)
  | 0x7F => x.v.map fun p => (.vdot2 p (fD w) (fA w) (fB w), true)
  | 0x80 => some (.pand x.v (fD w) (fA w) (fB w), true)
  | 0x81 => some (.por x.v (fD w) (fA w) (fB w), true)
  | 0x82 => some (.pxor x.v (fD w) (fA w) (fB w), true)
  | 0x83 => some (.pnot x.v (fD w) (fA w), z w 0x000000FF)
  | 0x84 => some (.pmov x.v (fD w) (fA w), z w 0x000000FF)
  | 0x85 => some (.pseti x.v (fD w) (w.getLsbD 0), z w 0x0000FFFE)
  | 0x88 => some (.vshfl x.v (fD w) (fA w) (fB w), true)
  | 0x89 => some (.vshflx x.v (fD w) (fA w) (fB w), true)
  | 0x8A => some (.vshflu x.v (fD w) (fA w) (fB w), true)
  | 0x8B => some (.vshfld x.v (fD w) (fA w) (fB w), true)
  | 0x8C => some (.vbcast x.v (fD w) (fA w) (fB w), true)
  | 0x8D => some (.vred x.v (fD w) (fA w) (fB w), true)
  | 0x8E => some (.vscan x.v (fD w) (fA w) (fB w), true)
  | 0x8F => some (.vmatch x.v (fD w) (fA w), z w 0x000000FF)
  | 0x90 => some (.vexec x.v (fA w), z w 0x00FF00FF)
  | 0x91 => some (.vexecq x.v (fD w) (fA w), z w 0x000000FF)
  | 0xA0 => some (.ldg x.o x.v (fD w) (fA w) (MFld.dec w), true)
  | 0xA1 => some (.stg x.o x.v (fD w) (fA w) (MFld.dec w), true)
  | 0xA2 => x.v.map fun p => (.ldgnf x.o p (fD w) (fA w) (MFld.dec w), true)
  | 0xA3 => some (.lds x.o x.v (fD w) (fA w) (MFld.dec w), true)
  | 0xA4 => some (.sts x.o x.v (fD w) (fA w) (MFld.dec w), true)
  | 0xA5 => some (.ldw x.v (fD w) (fA w) (MFld.dec w), true)
  | 0xA6 => some (.pref x.v (fA w) (MFld.dec w), z w 0x00FF0000)
  | 0xA7 => some (.cflush x.v (fA w) (MFld.dec w), z w 0x00FF0000)
  | 0xA8 => some (.cpa x.v (fD w) (fA w) (w.extractLsb' 5 3) (w.extractLsb' 2 3) (w.extractLsb' 0 2), true)
  | 0xA9 => some (.tcopy (fD w) (fA w), z w 0x000000FF)
  | 0xAA => some (.pgreq x.v (fA w) (MFld.dec w), z w 0x00FF0000)
  | 0xB0 => some (.atomgAdd x.o x.v (fD w) (fA w) (MFld.dec w), true)
  | 0xB1 => some (.atomgMin x.o x.v (fD w) (fA w) (MFld.dec w), true)
  | 0xB2 => some (.atomgMax x.o x.v (fD w) (fA w) (MFld.dec w), true)
  | 0xB3 => some (.atomgAnd x.o x.v (fD w) (fA w) (MFld.dec w), true)
  | 0xB4 => some (.atomgOr x.o x.v (fD w) (fA w) (MFld.dec w), true)
  | 0xB5 => some (.atomgXor x.o x.v (fD w) (fA w) (MFld.dec w), true)
  | 0xB6 => some (.atomgExch x.o x.v (fD w) (fA w) (MFld.dec w), true)
  | 0xB7 => some (.atomgIncw x.o x.v (fD w) (fA w) (MFld.dec w), true)
  | 0xB8 => some (.atomgFadd x.o x.v (fD w) (fA w) (MFld.dec w), true)
  | 0xB9 => x.o.map fun o => (.atomgCas o x.v (fD w) (fA w) (MFld.dec w), true)
  | 0xBA => x.o.map fun o => (.fence o, z w 0x00FFFFFF)
  | 0xBB => some (.bar (fA w) (w.extractLsb' 0 4), z w 0x00FF00F0)
  | 0xBC => some (.bararv (fA w) (w.extractLsb' 0 4), z w 0x00FF00F0)
  | 0xBD => some (.barwait (fA w) (w.extractLsb' 0 4), z w 0x00FF00F0)
  | 0xBE => some (.gbar, z w 0x00FFFFFF)
  | 0xBF => some (.waitsig (fA w) (fB w), z w 0x00FF0000)
  | 0xC0 => some (.atomsAdd x.o x.v (fD w) (fA w) (MFld.dec w), true)
  | 0xC1 => some (.atomsMin x.o x.v (fD w) (fA w) (MFld.dec w), true)
  | 0xC2 => some (.atomsMax x.o x.v (fD w) (fA w) (MFld.dec w), true)
  | 0xC3 => some (.atomsAnd x.o x.v (fD w) (fA w) (MFld.dec w), true)
  | 0xC4 => some (.atomsOr x.o x.v (fD w) (fA w) (MFld.dec w), true)
  | 0xC5 => some (.atomsXor x.o x.v (fD w) (fA w) (MFld.dec w), true)
  | 0xC6 => some (.atomsExch x.o x.v (fD w) (fA w) (MFld.dec w), true)
  | 0xC7 => x.o.map fun o => (.atomsCas o x.v (fD w) (fA w) (MFld.dec w), true)
  | 0xC8 => some (.rld x.o x.v (fD w) (fA w) (fB w), true)
  | 0xC9 => some (.rst x.o x.v (fD w) (fA w) (fB w), true)
  | 0xCA => some (.ratom x.o x.v (fD w) (fA w) (fB w), true)
  | 0xCB => some (.rvadd x.o x.v (fD w) (fA w) (fB w), true)
  | 0xCC => some (.rwsig x.o x.v (fD w) (fA w) (fB w), true)
  | 0xCD => some (.rred x.o x.v (fD w) (fA w) (fB w), true)
  | 0xCE => some (.rfence (fA w), z w 0x00FF00FF)
  | 0xD0 => some (.waitc (w.extractLsb' 18 6) (w.extractLsb' 12 6) (w.extractLsb' 6 6) (w.extractLsb' 0 6), true)
  | 0xD1 => some (.waitt (fB w), z w 0x00FFFF00)
  | 0xD2 => some (.tagq (fD w), z w 0x0000FFFF)
  | 0xD3 => some (.tshape (fD w) (fA w) (w.extractLsb' 0 4), z w 0x000000F0)
  | 0xD4 => some (.sclaim (fD w) (fA w) (w.getLsbD 0), z w 0x000000FE)
  | 0xD5 => some (.srel (fA w) (fB w), z w 0x00FF0000)
  | 0xD6 => some (.mzero (fD w), z w 0x0000FFFF)
  | 0xD7 => some (.mma (fD w) (fA w) (fB w), true)
  | 0xD8 => some (.mmaz (fD w) (fA w) (fB w), true)
  | 0xD9 => some (.mscacc (fD w) (fA w) (fB w), true)
  | 0xDA => some (.mloop (w.extractLsb' 16 2) (fA w) (fB w), z w 0x00FC0000)
  | 0xDB => some (.mstore (fD w) (fA w) (fB w), true)
  | 0xE0 => some (.eret, z w 0x00FFFFFF)
  | 0xE1 => some (.mark x.i (fA w) (fB w), z w 0x00FF0000)
  | _ => none

/-- Checks 2 to 4 of R286 on a base word `w` with the prefix words `ps` in front of it. -/
def decodeBase (ps : List (BitVec 32)) (w : BitVec 32) : Decoded :=
  let n := ps.length + 1
  let op := opcode w
  if reservedOp op then .illegalOpcode w n
  else
    match arrange ps with
    | none => .illegalPrefix (ps.headD 0#32) n
    | some x =>
      if !kindsFit op x then .illegalPrefix (ps.headD 0#32) n
      else
        match build op x w with
        | none => .illegalPrefix 0#32 n
        | some (i, zeros) =>
          if !i.pfxOk then .illegalPrefix (ps.headD 0#32) n
          else if zeros && i.fieldsOk then .ok i n
          else .illegalOpcode w n

/-- The decoder over words: at most two prefixes and a base word; a third prefix is illegal at once (R281). -/
def decodeWords : List (BitVec 32) → Decoded
  | [] => .more
  | w :: ws =>
    if !isPrefix w then decodeBase [] w
    else match ws with
      | [] => .more
      | u :: us =>
        if !isPrefix u then decodeBase [w] u
        else match us with
          | [] => .more
          | v :: _ => if isPrefix v then .illegalPrefix w 3 else decodeBase [w, u] v

/-- The little-endian words of a list of bytes (R3, R271); bytes after the last whole word are left. -/
def wordsOf : List Byte → List (BitVec 32)
  | a :: b :: c :: d :: bs => BitVec.ofNat 32 (leNat [a, b, c, d]) :: wordsOf bs
  | _ => []

/-- The decoder over bytes. -/
def decode (bs : List Byte) : Decoded := decodeWords (wordsOf bs)

/-- The instruction read from a table word: `nbits` bits of `w`, first word least significant, followed by zero
words up to the longest instruction (three words). -/
def decodeTableWord (_nbits w : Nat) : Option Instr :=
  match decode (leBytes 12 w) with
  | .ok i _ => some i
  | _ => none

/-! The encoder. -/

/-- Format R and I: OP, D, A and the low byte (R272). -/
def encR (op : BitVec 8) (d a b : BitVec 8) : BitVec 32 := op ++ d ++ a ++ b

/-- The low byte of format M (R272). -/
def MFld.enc (m : MFld) : BitVec 8 := m.w ++ BitVec.ofBool m.x ++ m.bp ++ BitVec.ofBool m.c

def VPfx.enc (p : VPfx) : BitVec 32 :=
  0xF#4 ++ 0#2 ++ p.gp ++ BitVec.ofBool p.gn ++ BitVec.ofBool p.gv ++ p.rnd ++ p.mz ++ p.c ++ p.type ++
    BitVec.ofBool p.acb

def OPfx.enc (o : OPfx) : BitVec 32 :=
  0xF#4 ++ 3#2 ++ o.scope ++ o.ord ++ BitVec.ofBool o.far ++ BitVec.ofBool o.nr ++ o.c ++ 0#11

def encImm (x : BitVec 24) : BitVec 32 := 0xF4#8 ++ x
def encRejoin (x : BitVec 24) : BitVec 32 := 0xF8#8 ++ x

/-- The word of an optional prefix. -/
def optW {α : Type} (f : α → BitVec 32) : Option α → List (BitVec 32)
  | none => []
  | some x => [f x]

/-- The base word of an instruction; none for a step of the device. -/
def Instr.baseWord : Instr → Option (BitVec 32)
  | .nop => some (encR 0x00 0#8 0#8 0#8)
  | .exit => some (encR 0x01 0#8 0#8 0#8)
  | .bra off => some (0x02#8 ++ off)
  | .call off => some (0x03#8 ++ off)
  | .ret => some (encR 0x04 0#8 0#8 0#8)
  | .jmpr a => some (encR 0x05 0#8 a 0#8)
  | .brs sel off => some (0x06#8 ++ sel ++ 0#1 ++ off)
  | .brsz sel off => some (0x07#8 ++ sel ++ 0#1 ++ off)
  | .brv _ sel neg off => some (0x08#8 ++ sel ++ BitVec.ofBool neg ++ off)
  | .brany sel neg off => some (0x09#8 ++ sel ++ BitVec.ofBool neg ++ off)
  | .brall sel neg off => some (0x0A#8 ++ sel ++ BitVec.ofBool neg ++ off)
  | .syncw => some (encR 0x0B 0#8 0#8 0#8)
  | .trap off => some (0x0C#8 ++ off)
  | .brk off => some (0x0D#8 ++ off)
  | .yield => some (encR 0x0E 0#8 0#8 0#8)
  | .sleep a => some (encR 0x0F 0#8 a 0#8)
  | .sadd d a b => some (encR 0x10 d a b)
  | .ssub d a b => some (encR 0x11 d a b)
  | .smul d a b => some (encR 0x12 d a b)
  | .smulh d a b => some (encR 0x13 d a b)
  | .smulhn d a b => some (encR 0x14 d a b)
  | .sand d a b => some (encR 0x15 d a b)
  | .sor d a b => some (encR 0x16 d a b)
  | .sxor d a b => some (encR 0x17 d a b)
  | .sshl d a b => some (encR 0x18 d a b)
  | .sshr d a b => some (encR 0x19 d a b)
  | .ssra d a b => some (encR 0x1A d a b)
  | .smin d a b => some (encR 0x1B d a b)
  | .smax d a b => some (encR 0x1C d a b)
  | .sminn d a b => some (encR 0x1D d a b)
  | .smaxn d a b => some (encR 0x1E d a b)
  | .sadd64 d a b => some (encR 0x1F d a b)
  | .saddi _ d a i => some (encR 0x20 d a i)
  | .sandi _ d a i => some (encR 0x21 d a i)
  | .sori _ d a i => some (encR 0x22 d a i)
  | .sxori _ d a i => some (encR 0x23 d a i)
  | .sshli d a n => some (encR 0x24 d a (0#2 ++ n))
  | .sshri d a n => some (encR 0x25 d a (0#2 ++ n))
  | .ssrai d a n => some (encR 0x26 d a (0#2 ++ n))
  | .smovi _ d i => some (encR 0x27 d 0#8 i)
  | .seq d a b => some (encR 0x28 d a b)
  | .slt d a b => some (encR 0x29 d a b)
  | .sltn d a b => some (encR 0x2A d a b)
  | .sle d a b => some (encR 0x2B d a b)
  | .spopc d a => some (encR 0x2C d a 0#8)
  | .sclz d a => some (encR 0x2D d a 0#8)
  | .sffs d a => some (encR 0x2E d a 0#8)
  | .ssel d a b => some (encR 0x2F d a b)
  | .srd d i => some (encR 0x30 d 0#8 i)
  | .swr a i => some (encR 0x31 0#8 a i)
  | .setmode a => some (encR 0x32 0#8 a 0#8)
  | .getmode d => some (encR 0x33 d 0#8 0#8)
  | .prd d a => some (encR 0x34 d a 0#8)
  | .pwr d a => some (encR 0x35 d a 0#8)
  | .vgetl d a b => some (encR 0x36 d a b)
  | .vsetl d a b => some (encR 0x37 d a b)
  | .smov d a => some (encR 0x38 d a 0#8)
  | .sld _ d a wd c => some (encR 0x39 d a (wd ++ 8#4 ++ BitVec.ofBool c))
  | .sst _ d a wd c => some (encR 0x3A d a (wd ++ 8#4 ++ BitVec.ofBool c))
  | .satom _ d a => some (encR 0x3B d a 0#8)
  | .vdquery d a b => some (encR 0x3C d a b)
  | .capq d a => some (encR 0x3D d a 0#8)
  | .launch d a => some (encR 0x3E d a 0#8)
  | .kick a b => some (encR 0x3F 0#8 a b)
  | .vadd _ d a b => some (encR 0x40 d a b)
  | .vsub _ d a b => some (encR 0x41 d a b)
  | .vmul _ d a b => some (encR 0x42 d a b)
  | .vmulh _ d a b => some (encR 0x43 d a b)
  | .vmad _ d a b => some (encR 0x44 d a b)
  | .vand _ d a b => some (encR 0x45 d a b)
  | .vor _ d a b => some (encR 0x46 d a b)
  | .vxor _ d a b => some (encR 0x47 d a b)
  | .vshl _ d a b => some (encR 0x48 d a b)
  | .vshr _ d a b => some (encR 0x49 d a b)
  | .vmin _ d a b => some (encR 0x4A d a b)
  | .vmax _ d a b => some (encR 0x4B d a b)
  | .vabs _ d a => some (encR 0x4C d a 0#8)
  | .vneg _ d a => some (encR 0x4D d a 0#8)
  | .vclz _ d a => some (encR 0x4E d a 0#8)
  | .vpopc _ d a => some (encR 0x4F d a 0#8)
  | .vaddi _ _ d a i => some (encR 0x50 d a i)
  | .vandi _ _ d a i => some (encR 0x51 d a i)
  | .vori _ _ d a i => some (encR 0x52 d a i)
  | .vxori _ _ d a i => some (encR 0x53 d a i)
  | .vshli _ d a n => some (encR 0x54 d a (0#2 ++ n))
  | .vshri _ d a n => some (encR 0x55 d a (0#2 ++ n))
  | .vmovi _ _ d i => some (encR 0x56 d 0#8 i)
  | .vmov _ d a => some (encR 0x57 d a 0#8)
  | .vsel _ d a b => some (encR 0x58 d a b)
  | .vbfe _ d a b => some (encR 0x59 d a b)
  | .vbfi _ d a b => some (encR 0x5A d a b)
  | .vbrev _ d a => some (encR 0x5B d a 0#8)
  | .vlaneid _ d => some (encR 0x5C d 0#8 0#8)
  | .viota _ d => some (encR 0x5D d 0#8 0#8)
  | .vfadd _ d a b => some (encR 0x60 d a b)
  | .vfsub _ d a b => some (encR 0x61 d a b)
  | .vfmul _ d a b => some (encR 0x62 d a b)
  | .vfma _ d a b => some (encR 0x63 d a b)
  | .vfmin _ d a b => some (encR 0x64 d a b)
  | .vfmax _ d a b => some (encR 0x65 d a b)
  | .vfabs _ d a => some (encR 0x66 d a 0#8)
  | .vfneg _ d a => some (encR 0x67 d a 0#8)
  | .vfdiv _ d a b => some (encR 0x68 d a b)
  | .vfsqrt _ d a => some (encR 0x69 d a 0#8)
  | .vrcp _ d a => some (encR 0x6A d a 0#8)
  | .vrsq _ d a => some (encR 0x6B d a 0#8)
  | .vexp2 _ d a => some (encR 0x6C d a 0#8)
  | .vlog2 _ d a => some (encR 0x6D d a 0#8)
  | .vsin _ d a => some (encR 0x6E d a 0#8)
  | .vcos _ d a => some (encR 0x6F d a 0#8)
  | .vtanh _ d a => some (encR 0x70 d a 0#8)
  | .vsigm _ d a => some (encR 0x71 d a 0#8)
  | .vround _ d a => some (encR 0x72 d a 0#8)
  | .vfrac _ d a => some (encR 0x73 d a 0#8)
  | .vcvt _ d a dst src => some (encR 0x74 d a (dst ++ src))
  | .vclass _ d a => some (encR 0x75 d a 0#8)
  | .vcmpeq _ d a b => some (encR 0x76 d a b)
  | .vcmpne _ d a b => some (encR 0x77 d a b)
  | .vcmplt _ d a b => some (encR 0x78 d a b)
  | .vcmple _ d a b => some (encR 0x79 d a b)
  | .vcmpun _ d a b => some (encR 0x7A d a b)
  | .vscale _ d a b => some (encR 0x7B d a b)
  | .vpack _ d a b => some (encR 0x7C d a b)
  | .vunpk _ d a => some (encR 0x7D d a 0#8)
  | .vdot4 _ d a b => some (encR 0x7E d a b)
  | .vdot2 _ d a b => some (encR 0x7F d a b)
  | .pand _ d a b => some (encR 0x80 d a b)
  | .por _ d a b => some (encR 0x81 d a b)
  | .pxor _ d a b => some (encR 0x82 d a b)
  | .pnot _ d a => some (encR 0x83 d a 0#8)
  | .pmov _ d a => some (encR 0x84 d a 0#8)
  | .pseti _ d i => some (encR 0x85 d 0#8 (0#7 ++ BitVec.ofBool i))
  | .vshfl _ d a b => some (encR 0x88 d a b)
  | .vshflx _ d a b => some (encR 0x89 d a b)
  | .vshflu _ d a b => some (encR 0x8A d a b)
  | .vshfld _ d a b => some (encR 0x8B d a b)
  | .vbcast _ d a b => some (encR 0x8C d a b)
  | .vred _ d a b => some (encR 0x8D d a b)
  | .vscan _ d a b => some (encR 0x8E d a b)
  | .vmatch _ d a => some (encR 0x8F d a 0#8)
  | .vexec _ a => some (encR 0x90 0#8 a 0#8)
  | .vexecq _ d a => some (encR 0x91 d a 0#8)
  | .ldg _ _ d a m => some (encR 0xA0 d a m.enc)
  | .stg _ _ d a m => some (encR 0xA1 d a m.enc)
  | .ldgnf _ _ d a m => some (encR 0xA2 d a m.enc)
  | .lds _ _ d a m => some (encR 0xA3 d a m.enc)
  | .sts _ _ d a m => some (encR 0xA4 d a m.enc)
  | .ldw _ d a m => some (encR 0xA5 d a m.enc)
  | .pref _ a m => some (encR 0xA6 0#8 a m.enc)
  | .cflush _ a m => some (encR 0xA7 0#8 a m.enc)
  | .cpa _ d a size tag bpc => some (encR 0xA8 d a (size ++ tag ++ bpc))
  | .tcopy d a => some (encR 0xA9 d a 0#8)
  | .pgreq _ a m => some (encR 0xAA 0#8 a m.enc)
  | .atomgAdd _ _ d a m => some (encR 0xB0 d a m.enc)
  | .atomgMin _ _ d a m => some (encR 0xB1 d a m.enc)
  | .atomgMax _ _ d a m => some (encR 0xB2 d a m.enc)
  | .atomgAnd _ _ d a m => some (encR 0xB3 d a m.enc)
  | .atomgOr _ _ d a m => some (encR 0xB4 d a m.enc)
  | .atomgXor _ _ d a m => some (encR 0xB5 d a m.enc)
  | .atomgExch _ _ d a m => some (encR 0xB6 d a m.enc)
  | .atomgIncw _ _ d a m => some (encR 0xB7 d a m.enc)
  | .atomgFadd _ _ d a m => some (encR 0xB8 d a m.enc)
  | .atomgCas _ _ d a m => some (encR 0xB9 d a m.enc)
  | .fence _ => some (encR 0xBA 0#8 0#8 0#8)
  | .bar a k => some (encR 0xBB 0#8 a (0#4 ++ k))
  | .bararv a k => some (encR 0xBC 0#8 a (0#4 ++ k))
  | .barwait a k => some (encR 0xBD 0#8 a (0#4 ++ k))
  | .gbar => some (encR 0xBE 0#8 0#8 0#8)
  | .waitsig a b => some (encR 0xBF 0#8 a b)
  | .atomsAdd _ _ d a m => some (encR 0xC0 d a m.enc)
  | .atomsMin _ _ d a m => some (encR 0xC1 d a m.enc)
  | .atomsMax _ _ d a m => some (encR 0xC2 d a m.enc)
  | .atomsAnd _ _ d a m => some (encR 0xC3 d a m.enc)
  | .atomsOr _ _ d a m => some (encR 0xC4 d a m.enc)
  | .atomsXor _ _ d a m => some (encR 0xC5 d a m.enc)
  | .atomsExch _ _ d a m => some (encR 0xC6 d a m.enc)
  | .atomsCas _ _ d a m => some (encR 0xC7 d a m.enc)
  | .rld _ _ d a b => some (encR 0xC8 d a b)
  | .rst _ _ d a b => some (encR 0xC9 d a b)
  | .ratom _ _ d a b => some (encR 0xCA d a b)
  | .rvadd _ _ d a b => some (encR 0xCB d a b)
  | .rwsig _ _ d a b => some (encR 0xCC d a b)
  | .rred _ _ d a b => some (encR 0xCD d a b)
  | .rfence a => some (encR 0xCE 0#8 a 0#8)
  | .waitc ld st cp tl => some (0xD0#8 ++ ld ++ st ++ cp ++ tl)
  | .waitt i => some (encR 0xD1 0#8 0#8 i)
  | .tagq d => some (encR 0xD2 d 0#8 0#8)
  | .tshape d a t => some (encR 0xD3 d a (0#4 ++ t))
  | .sclaim d a i => some (encR 0xD4 d a (0#7 ++ BitVec.ofBool i))
  | .srel a b => some (encR 0xD5 0#8 a b)
  | .mzero d => some (encR 0xD6 d 0#8 0#8)
  | .mma d a b => some (encR 0xD7 d a b)
  | .mmaz d a b => some (encR 0xD8 d a b)
  | .mscacc d a b => some (encR 0xD9 d a b)
  | .mloop n a b => some (encR 0xDA (0#6 ++ n) a b)
  | .mstore d a b => some (encR 0xDB d a b)
  | .eret => some (encR 0xE0 0#8 0#8 0#8)
  | .mark _ a i => some (encR 0xE1 0#8 a i)
  | _ => none

/-- The prefix words of an instruction, a vector prefix last (R281, R298). -/
def Instr.pfxWords : Instr → List (BitVec 32)
  | .brv j _ _ _ => optW encRejoin j
  | .saddi x _ _ _ => optW encImm x
  | .sandi x _ _ _ => optW encImm x
  | .sori x _ _ _ => optW encImm x
  | .sxori x _ _ _ => optW encImm x
  | .smovi x _ _ => optW encImm x
  | .sld o _ _ _ _ => optW OPfx.enc o
  | .sst o _ _ _ _ => optW OPfx.enc o
  | .satom o _ _ => optW OPfx.enc o
  | .vadd p _ _ _ => optW VPfx.enc p
  | .vsub p _ _ _ => optW VPfx.enc p
  | .vmul p _ _ _ => optW VPfx.enc p
  | .vmulh p _ _ _ => optW VPfx.enc p
  | .vmad p _ _ _ => [p.enc]
  | .vand p _ _ _ => optW VPfx.enc p
  | .vor p _ _ _ => optW VPfx.enc p
  | .vxor p _ _ _ => optW VPfx.enc p
  | .vshl p _ _ _ => optW VPfx.enc p
  | .vshr p _ _ _ => optW VPfx.enc p
  | .vmin p _ _ _ => optW VPfx.enc p
  | .vmax p _ _ _ => optW VPfx.enc p
  | .vabs p _ _ => optW VPfx.enc p
  | .vneg p _ _ => optW VPfx.enc p
  | .vclz p _ _ => optW VPfx.enc p
  | .vpopc p _ _ => optW VPfx.enc p
  | .vaddi x p _ _ _ => optW encImm x ++ optW VPfx.enc p
  | .vandi x p _ _ _ => optW encImm x ++ optW VPfx.enc p
  | .vori x p _ _ _ => optW encImm x ++ optW VPfx.enc p
  | .vxori x p _ _ _ => optW encImm x ++ optW VPfx.enc p
  | .vshli p _ _ _ => optW VPfx.enc p
  | .vshri p _ _ _ => optW VPfx.enc p
  | .vmovi x p _ _ => optW encImm x ++ optW VPfx.enc p
  | .vmov p _ _ => optW VPfx.enc p
  | .vsel p _ _ _ => optW VPfx.enc p
  | .vbfe p _ _ _ => optW VPfx.enc p
  | .vbfi p _ _ _ => [p.enc]
  | .vbrev p _ _ => optW VPfx.enc p
  | .vlaneid p _ => optW VPfx.enc p
  | .viota p _ => optW VPfx.enc p
  | .vfadd p _ _ _ => optW VPfx.enc p
  | .vfsub p _ _ _ => optW VPfx.enc p
  | .vfmul p _ _ _ => optW VPfx.enc p
  | .vfma p _ _ _ => [p.enc]
  | .vfmin p _ _ _ => optW VPfx.enc p
  | .vfmax p _ _ _ => optW VPfx.enc p
  | .vfabs p _ _ => optW VPfx.enc p
  | .vfneg p _ _ => optW VPfx.enc p
  | .vfdiv p _ _ _ => optW VPfx.enc p
  | .vfsqrt p _ _ => optW VPfx.enc p
  | .vrcp p _ _ => optW VPfx.enc p
  | .vrsq p _ _ => optW VPfx.enc p
  | .vexp2 p _ _ => optW VPfx.enc p
  | .vlog2 p _ _ => optW VPfx.enc p
  | .vsin p _ _ => optW VPfx.enc p
  | .vcos p _ _ => optW VPfx.enc p
  | .vtanh p _ _ => optW VPfx.enc p
  | .vsigm p _ _ => optW VPfx.enc p
  | .vround p _ _ => optW VPfx.enc p
  | .vfrac p _ _ => optW VPfx.enc p
  | .vcvt p _ _ _ _ => optW VPfx.enc p
  | .vclass p _ _ => optW VPfx.enc p
  | .vcmpeq p _ _ _ => optW VPfx.enc p
  | .vcmpne p _ _ _ => optW VPfx.enc p
  | .vcmplt p _ _ _ => optW VPfx.enc p
  | .vcmple p _ _ _ => optW VPfx.enc p
  | .vcmpun p _ _ _ => optW VPfx.enc p
  | .vscale p _ _ _ => optW VPfx.enc p
  | .vpack p _ _ _ => optW VPfx.enc p
  | .vunpk p _ _ => optW VPfx.enc p
  | .vdot4 p _ _ _ => [p.enc]
  | .vdot2 p _ _ _ => [p.enc]
  | .pand p _ _ _ => optW VPfx.enc p
  | .por p _ _ _ => optW VPfx.enc p
  | .pxor p _ _ _ => optW VPfx.enc p
  | .pnot p _ _ => optW VPfx.enc p
  | .pmov p _ _ => optW VPfx.enc p
  | .pseti p _ _ => optW VPfx.enc p
  | .vshfl p _ _ _ => optW VPfx.enc p
  | .vshflx p _ _ _ => optW VPfx.enc p
  | .vshflu p _ _ _ => optW VPfx.enc p
  | .vshfld p _ _ _ => optW VPfx.enc p
  | .vbcast p _ _ _ => optW VPfx.enc p
  | .vred p _ _ _ => optW VPfx.enc p
  | .vscan p _ _ _ => optW VPfx.enc p
  | .vmatch p _ _ => optW VPfx.enc p
  | .vexec p _ => optW VPfx.enc p
  | .vexecq p _ _ => optW VPfx.enc p
  | .ldg o p _ _ _ => optW OPfx.enc o ++ optW VPfx.enc p
  | .stg o p _ _ _ => optW OPfx.enc o ++ optW VPfx.enc p
  | .ldgnf o p _ _ _ => optW OPfx.enc o ++ [p.enc]
  | .lds o p _ _ _ => optW OPfx.enc o ++ optW VPfx.enc p
  | .sts o p _ _ _ => optW OPfx.enc o ++ optW VPfx.enc p
  | .ldw p _ _ _ => optW VPfx.enc p
  | .pref p _ _ => optW VPfx.enc p
  | .cflush p _ _ => optW VPfx.enc p
  | .cpa p _ _ _ _ _ => optW VPfx.enc p
  | .pgreq p _ _ => optW VPfx.enc p
  | .atomgAdd o p _ _ _ => optW OPfx.enc o ++ optW VPfx.enc p
  | .atomgMin o p _ _ _ => optW OPfx.enc o ++ optW VPfx.enc p
  | .atomgMax o p _ _ _ => optW OPfx.enc o ++ optW VPfx.enc p
  | .atomgAnd o p _ _ _ => optW OPfx.enc o ++ optW VPfx.enc p
  | .atomgOr o p _ _ _ => optW OPfx.enc o ++ optW VPfx.enc p
  | .atomgXor o p _ _ _ => optW OPfx.enc o ++ optW VPfx.enc p
  | .atomgExch o p _ _ _ => optW OPfx.enc o ++ optW VPfx.enc p
  | .atomgIncw o p _ _ _ => optW OPfx.enc o ++ optW VPfx.enc p
  | .atomgFadd o p _ _ _ => optW OPfx.enc o ++ optW VPfx.enc p
  | .atomgCas o p _ _ _ => [o.enc] ++ optW VPfx.enc p
  | .fence o => [o.enc]
  | .atomsAdd o p _ _ _ => optW OPfx.enc o ++ optW VPfx.enc p
  | .atomsMin o p _ _ _ => optW OPfx.enc o ++ optW VPfx.enc p
  | .atomsMax o p _ _ _ => optW OPfx.enc o ++ optW VPfx.enc p
  | .atomsAnd o p _ _ _ => optW OPfx.enc o ++ optW VPfx.enc p
  | .atomsOr o p _ _ _ => optW OPfx.enc o ++ optW VPfx.enc p
  | .atomsXor o p _ _ _ => optW OPfx.enc o ++ optW VPfx.enc p
  | .atomsExch o p _ _ _ => optW OPfx.enc o ++ optW VPfx.enc p
  | .atomsCas o p _ _ _ => [o.enc] ++ optW VPfx.enc p
  | .rld o p _ _ _ => optW OPfx.enc o ++ optW VPfx.enc p
  | .rst o p _ _ _ => optW OPfx.enc o ++ optW VPfx.enc p
  | .ratom o p _ _ _ => optW OPfx.enc o ++ optW VPfx.enc p
  | .rvadd o p _ _ _ => optW OPfx.enc o ++ optW VPfx.enc p
  | .rwsig o p _ _ _ => optW OPfx.enc o ++ optW VPfx.enc p
  | .rred o p _ _ _ => optW OPfx.enc o ++ optW VPfx.enc p
  | .mark x _ _ => optW encImm x
  | _ => []

/-- The words of an instruction; none for a step of the device. -/
def encode (i : Instr) : List (BitVec 32) :=
  match i.baseWord with
  | none => []
  | some w => i.pfxWords ++ [w]

end Sys2Proof
end

