-- ==== Sys2Proof/Config.lean ====
section
/-!
DEFINITION. What an implementation of the T32 fixes and the spec leaves open: constants and free values, none of
which has a body that a proof could use, and the two time units of the model.
-/
namespace Sys2Proof

/-- Ticks of the model's clock in a nanosecond: the least unit in which every clock of R22 has whole cycles (log 11). -/
def ticksPerNs : Nat := 36

/-- Ticks in a cycle of the arithmetic clock in power mode `m` (R22, R24). -/
def arithTicks (m : Nat) : Nat := if m = 0 then 10 else if m = 1 then 12 else 15

/-- A byte that the spec leaves undefined: destinations of overlapping, abandoned or failed copies (R86, R127, R187,
R365, R367). -/
opaque Config.freeByte : Nat → Byte
/-- Where inside its bound a special function of R252 lies: function number, type code and input give a numerator over
2^64, which the model holds to [−1, 1]. -/
opaque Config.special : Nat → Nat → Nat → Int
/-- The draws that place a die's agents on the routers of its mesh: die (32 + m for memory die m) and draw number. R11 gives the
shape, one agent to a router, and not the placement (log 7). -/
opaque Config.meshDraw : Nat → Nat → Nat
/-- Links in each direction between neighbouring sectors of the ring. -/
opaque Config.ringWidth : Nat
/-- Entries of an endpoint's input queue for one class (R14). -/
opaque Config.classQueue : Nat
/-- Endpoint numbers as they order equal ages (R13). -/
opaque Config.endpointNumber : Nat → Nat
/-- AES-256 of one block under a key id (R75); the keys themselves never leave the device. -/
opaque Config.aes : Nat → BitVec 128 → BitVec 128
/-- Truncated GMAC under a key id (R75, R77). -/
opaque Config.gmac : Nat → List Byte → BitVec 64
/-- SHA-384 (R138, R139). -/
opaque Config.sha384 : List Byte → BitVec 384
/-- The boot ROM's own digest (R139, measurement 1). -/
opaque Config.romDigest : BitVec 384
/-- The device secret, from the physically unclonable key (R138). -/
opaque Config.deviceSecret : BitVec 384
/-- The private half of the device identity key, from the device secret; the same at every boot (R138). -/
opaque Config.identityKey : BitVec 384 → BitVec 384
/-- The private half of the alias key, from the device secret and the digests of image and record (R138). -/
opaque Config.aliasKey : BitVec 384 → BitVec 384 → BitVec 384 → BitVec 384
/-- The public half of a P-384 key pair. -/
opaque Config.publicKey : BitVec 384 → BitVec 768
/-- ECDSA P-384 signature by a key over a message (R139). -/
opaque Config.ecdsa : BitVec 384 → List Byte → BitVec 768
/-- The private half of an ephemeral key pair of the device (R139). -/
opaque Config.ephemeral : Nat → BitVec 384
/-- The shared secret of an ephemeral Diffie–Hellman exchange: the device's private half, the peer's public value (R139). -/
opaque Config.ecdh : BitVec 384 → Nat → BitVec 384
/-- AES-256-GCM of a session's message: shared secret, message number, message (R139). -/
opaque Config.gcm : BitVec 384 → Nat → List Byte → List Byte
/-- A random number of the device (R139). -/
opaque Config.random : Nat → BitVec 256
/-- Whether an image and a record pass the four signature checks (R29). -/
opaque Config.signaturesOk : List Byte → List Byte → Bool
/-- Whether a compute die passes its self-test in bring-up, by boot number and die (R31). -/
opaque Config.selfTest : Nat → Nat → Bool
/-- The step of bring-up that fails for a memory die, a stack or the platen, by boot number; 0 for none (R30). -/
opaque Config.bringUpFail : Nat → Nat
/-- Lines of a pseudo-channel's row, less one (R83 speaks of open rows and gives no size). -/
opaque Config.rowLines : Nat
/-- The power mode's lowest clock change time in nanoseconds after a boundary, at most 50,000 (R24). -/
opaque Config.settleNs : Nat

/-- Entries of the walk caches, less one (R148). -/
opaque Config.walkCache : Nat
/-- Transfers of counter lines and tree nodes that a line's transfer causes: line and time (R81; which of them the home has at hand is
not stated). -/
opaque Config.treeTransfers : Nat → Nat → Nat

end Sys2Proof
end

