-- ==== Sys2Proof/Machine/State.lean ====
section
/-!
DEFINITION. The state of a T32 module as plain data, the reasons a step can stop, and the state after reset. Every
field names the rule of spec/ that gives it, or says that it is the model's own.
-/
namespace Sys2Proof.Machine

/-- Sparse data by number: pairs with keys strictly rising. -/
abbrev NMap (α : Type) := List (Nat × α)

/-- Bytes by address, canonical: keys strictly rising, no byte equal to the 0 that an unlisted address reads as
(log 4). -/
abbrev Memory := List Host.Cell

/-- A vector register: one 32-bit value for each of 32 lanes (R195). -/
abbrev VReg := Vector Word 32

-- ## Warps (chapters 08, 10, 12)

/-- What the record of a failed memory access says of it beside code and PC (R290, R291): access type, log2 of its width, address,
lanes. Type 0 stands for none. -/
structure ErrAccess where
  atype : Nat := 0
  log2w : Nat := 0
  va : Nat := 0
  lanes : Word := 0#32
  deriving DecidableEq, Repr

/-- Why an error or a fault is delivered: code, `%einfo` and the PC of the failed access (R85, R389). -/
structure ErrRec where
  code : Nat
  einfo : Word
  pc : DWord
  /-- The command or access that failed (R389: taking one record clears the other of the same command). -/
  cmd : Nat
  acc : ErrAccess := {}
  /-- A later access that failed too while the flag stood: code, `%einfo`, PC, command and access (R85). -/
  again : Option (Nat × Word × DWord × Nat × ErrAccess) := none
  deriving DecidableEq, Repr

/-- What a parked fragment waits for (R180). -/
inductive Wait where
  | ready
  /-- `SLEEP` until this `%time` (R317). -/
  | sleep (ns : Nat)
  /-- A named barrier's phase (R377). -/
  | bar (b phase : Nat)
  | gbar (phase : Nat)
  /-- `WAITSIG` on a virtual address, translated, and its comparand (R379). -/
  | sig (va pa : Nat) (v : DWord)
  | counters (ld st cp tl : Nat)
  | tags (mask : Nat)
  /-- At-sync at `SYNCW` (R316). -/
  | sync
  /-- At-rejoin (R201). -/
  | rejoin
  /-- A handler-class fault held while another fragment is in the handler (R288). -/
  | handler
  /-- Mask 0, live for the sake of its children (R201). -/
  | children
  deriving DecidableEq, Repr

/-- A `VEXEC` that a fragment has begun (R348, R351): its instruction and words, the lanes that it acts on, and the lane words to come, in
order, each with its lanes. -/
structure VexecRun where
  instr : Instr
  word : Word
  nwords : Nat
  base : Word
  act : Mask
  left : List (Word × Mask)
  done : Nat := 0
  /-- The end of the cycles in which it occupies its warp. -/
  ready : Nat
  /-- A word stored, and the values that its `LDS` words returned (R181). -/
  stored : Bool := false
  loaded : List (Nat × Word) := []
  deriving DecidableEq, Repr

/-- A fragment (R199): an entry of the split table, or a slot of the spill ring when `entry` is none. -/
structure Frag where
  /-- The model's name for it; parents name their children by it. -/
  id : Nat
  entry : Option Nat
  /-- Order of spilling, and slot of the ring, when spilled (R202). -/
  spilled : Nat := 0
  slot : Nat := 0
  /-- When it last ran (R202). -/
  lastRan : Nat := 0
  pc : DWord
  mask : Mask
  rejoin : Option DWord := none
  parent : Option Nat := none
  running : Bool := false
  demoted : Bool := false
  inHandler : Bool := false
  wait : Wait := .ready
  /-- The instruction that it waits behind has issued, and completes and counts when the wait ends (R256). -/
  owes : Bool := false
  /-- The spin detector (R181): last backward branch, consecutive takes, last signature. -/
  spinPc : Option DWord := none
  spinCount : Nat := 0
  lastSig : Option Word := none
  /-- Loads of the current iteration in issue order (R181): the instruction, its lines still out, and the values returned
  so far by 4 × lane + register. -/
  iter : List (Nat × Nat × List (Nat × Word)) := []
  /-- A store, atomic, copy, barrier, `KICK` or `LAUNCH` was issued in this iteration (R181). -/
  iterStore : Bool := false
  /-- Classes whose count was not 0 when the `WAITC` it waits at was issued (R390). -/
  waited : Option (List Nat) := none
  /-- Instructions issued by each sibling since demotion (R182). -/
  sibIssues : NMap Nat := []
  /-- Its `VEXEC` in progress (R351). -/
  vx : Option VexecRun := none
  deriving DecidableEq, Repr

/-- A completion tag (R215) or class counter (R216) with its error record (R389). -/
structure Counter where
  count : Nat := 0
  err : Option ErrRec := none
  deriving DecidableEq, Repr

/-- A kind of outstanding access of a thread (R216, R217). -/
inductive AccKind where
  /-- A load into vector registers of `n` registers a lane; `sx` extends narrow values by sign. -/
  | load (sx : Bool)
  /-- A scalar load. -/
  | sload
  | store
  /-- `CFLUSH` of its lines; `host` also writes back lines homed at the proxy (R362). -/
  | flush (host : Bool)
  /-- `PREF` of a line, into L1 too when `l1` (R362). -/
  | pref (l1 : Bool)
  /-- A near atomic (R373): operation and type. -/
  | near (op type : Nat)
  /-- A far atomic in its home's station, or at the host proxy (R373). -/
  | far (op type : Nat)
  /-- A remote operation on the fabric (R380): 0 RLD, 1 RST, 2 RATOM, 3 RVADD, 4 RWSIG, 5 RRED. -/
  | remote (kind type : Nat)
  deriving DecidableEq, Repr

/-- A request to the fabric (R91): kind as of `AccKind.remote`, or 6 for an outcome query (R102); plane and port; source module, source VD
and op id; the capability's endpoint (for `RRED` its group); fabric address, signal word, element type or width, payload, members. -/
structure OutReq where
  kind : Nat
  plane : Nat
  port : Nat
  srcModule : Nat
  srcVd : Nat
  op : Nat
  module : Nat
  vd : Nat
  group : Nat
  fa : Nat
  sig : Nat
  type : Nat
  data : LineData
  mask : ByteMask
  members : List (Nat × Nat)
  nr : Bool
  deriving DecidableEq, Repr

/-- One outstanding access (R217): one instruction's access to one line, or to the scratchpad or weight store. -/
structure Access where
  id : Nat
  kind : AccKind
  /-- Line: physical address / 128, weight-store address / 128, or none for a remote operation. -/
  line : Option Nat
  /-- Lanes with their physical, weight-store or fabric addresses. -/
  lanes : List (Nat × Nat)
  width : Nat
  /-- Destination: first register, and whether it is scalar; none under `NR`. -/
  dst : Option (Nat × Bool) := none
  /-- Arguments and comparands by lane (stores: the data). -/
  args : List (Nat × Nat × Nat) := []
  pc : DWord
  frag : Nat
  /-- Bypasses L1 (R357, R359). -/
  bypass : Bool := false
  /-- A load with the streaming hint: on a miss it fills no L1 line (R206, R356). -/
  stream : Bool := false
  /-- Acquire scope to perform after the access (R359, R231); 0 for none, else scope + 1. -/
  acq : Nat := 0
  /-- The access is in the weight store. -/
  weight : Bool := false
  vd : Nat := 0
  /-- A remote operation's capability index, plane, peer, fabric address and state: 0 unsent, 1 sent, 2 held. -/
  cap : Nat := 0
  plane : Nat := 0
  fa : Nat := 0
  sent : Nat := 0
  /-- When its combinable request or its remote request was sent (R62, R98). -/
  time : Nat := 0
  /-- When its outcome timer last started (R62). -/
  timer : Nat := 0
  /-- The key incarnation that its translation supplied (R37). -/
  inc : Nat := 0
  /-- A remote operation's packet, as its capability's entry stood at issue (R91), and its place in the order of sending (R100). -/
  req : Option OutReq := none
  order : Nat := 0
  /-- A release has passed a remote operation on: 1 to the block's threads, 2 to the VD's agents (R225). -/
  rel : Nat := 0
  /-- The virtual address of its lowest lane. -/
  va : Nat := 0
  /-- Its op ids by lane (R56). -/
  ops : List (Nat × Nat) := []
  /-- The die whose L2 serves it. -/
  die : Nat := 0
  /-- Armed sample: quadrant sequence and issue clock (R262). -/
  sample : Option (Nat × Nat) := none
  /-- L1 alone served it; it had to ask for tokens (R262). -/
  hit : Bool := false
  asked : Bool := false
  /-- The home had to read the line from HBM4E for it (R262). -/
  read : Bool := false
  /-- The group of accesses of one instruction (one class count for the instruction). -/
  instr : Nat
  /-- Values returned so far by lane, and the code and `%einfo` of lanes that failed (R63, R85). -/
  got : List (Nat × Nat) := []
  failed : Option (Nat × Word) := none
  /-- Place in the block's proof log that its values take (R269). -/
  log : Option Nat := none
  deriving DecidableEq, Repr

/-- Why an instruction cannot issue now (R178, R259). -/
inductive Stall where
  | reg
  | counter
  | tag
  | matrix
  | sb
  | ott
  /-- The word at an address. -/
  | fetch (pc : Nat)
  deriving DecidableEq, Repr

/-- A warp (R193–R203). -/
structure Warp where
  sregs : Vector Word 64
  vregs : List VReg
  /-- `p0`–`p47`, one bit a lane (R195). -/
  preds : Vector Mask 48
  mode : Word := 0#32
  latch : Word := 0#32
  rwc : DWord := 0#64
  epc : DWord := 0#64
  ecause : Word := 0#32
  einfo : Word := 0#32
  emode : Word := 0#32
  handler : Bool := false
  vexecDone : Word := 0#32
  frags : List Frag
  nextFrag : Nat := 1
  exited : Mask := 0#32
  tags : Vector Counter 8 := Vector.replicate 8 {}
  /-- Class counters: loads, stores, copies, tile operations (R216). -/
  classes : Vector Counter 4 := Vector.replicate 4 {}
  /-- Flags of registers by operand field value (R85, R63). -/
  flags : NMap ErrRec := []
  accesses : List Access := []
  /-- Wait-table die and entry while the warp is parked (R151). -/
  parked : Option (Nat × Nat) := none
  /-- Replay epoch at the start of the last walk (R153). -/
  epoch : Nat := 0
  /-- Slot in its quadrant while resident (R193). -/
  slot : Nat := 0
  /-- Stop cause of the dump (R266) and stops passed once (R267). -/
  stopCause : Nat := 0
  passStop : Bool := false
  /-- Last barrier phase arrived at, by barrier; `GBAR` at 16 (R376–R378). -/
  arrived : NMap Nat := []
  /-- Fragments that executed an arrival instruction in the current phase, by barrier, with the last count operand
  (R376). -/
  arriving : NMap (Nat × List Nat) := []
  /-- A device-scope acquire is due before the warp's next access (R175, R226). -/
  acquire : Bool := false
  /-- What the sampler needs of the last issue decision (R259): when and where the warp last issued, and what held it. -/
  issued : Option (Nat × DWord) := none
  stall : Option Stall := none
  deriving DecidableEq, Repr

-- ## Engines and clusters (chapters 08, 15, 16)

/-- A scoreboard range of a block (R213): scratchpad bytes, operand slots or accumulator slots [lo, hi). -/
inductive SbRange where
  | scratch (lo hi : Nat)
  | operand (lo hi : Nat)
  | acc (lo hi : Nat)
  deriving DecidableEq, Repr

/-- A copy descriptor (R367). -/
structure CopyDesc where
  src : Nat
  dst : Nat
  xb : Nat
  yn : Nat
  zn : Nat
  srs : Int
  sps : Int
  drs : Int
  dps : Int
  skind : Nat
  dkind : Nat
  mcast : Nat
  bar : Nat
  multicast : Bool
  deriving DecidableEq, Repr

/-- A matrix step (R398): opcode 0xD6–0xD9 with its slot ids. -/
structure MStep where
  op : Nat
  dst : Nat
  p : Nat
  a : Nat
  b : Nat
  deriving DecidableEq, Repr

/-- A command's work. -/
inductive CmdKind where
  | tcopy (d : CopyDesc)
  /-- Per lane: scratchpad address, global address, valid bytes; size; lanes already landed (R364, R365). -/
  | cpa (lanes : List (Nat × Nat × Nat × Nat)) (size : Nat) (landed : List Nat)
  | step (m : MStep)
  /-- Slot, kind, output, address, stride (R402). -/
  | mstore (slot kind out addr stride : Nat)
  deriving DecidableEq, Repr

/-- An engine command (R213). -/
structure Command where
  kind : CmdKind
  cluster : Nat
  warp : WarpRef
  tag : Option Nat
  pc : DWord
  started : Bool := false
  reads : List SbRange := []
  write : Option SbRange := none
  /-- Blocks that receive a multicast (R370). -/
  receivers : List Nat := []
  /-- Scoreboard order (R214). -/
  order : Nat
  /-- Destination lines already written, by virtual number, and the physical lines written (R212, R230). -/
  done : List Nat := []
  wrote : List Nat := []
  /-- The ownership window (R212): destination line by virtual and physical number, staged bytes and their mask. -/
  window : List (Nat × Nat × LineData × ByteMask) := []
  /-- The key incarnations that the translation of the window's lines supplied (R37), by physical line. -/
  incs : NMap Nat := []
  /-- Wait-table die and entry while parked (R151). -/
  parked : Option (Nat × Nat) := none
  err : Option (Nat × Word × ErrAccess) := none
  /-- Source lines that the engine has read into its staging buffer, by virtual line (R212). -/
  source : NMap LineData := []
  /-- Place in the block's proof log (R269), and the bytes that the log serves under re-execution (R270). -/
  log : Option Nat := none
  served : Option (List Nat) := none
  /-- Abandoned by the save of its block, which keeps it (R187). -/
  gone : Bool := false
  deriving DecidableEq, Repr

/-- The MLOOP sequencer (R404). -/
structure Sequencer where
  body : List MStep
  count : Nat
  inc : Int × Int × Int
  iter : Nat := 0
  idx : Nat := 0
  warp : WarpRef
  pc : DWord
  deriving DecidableEq, Repr

/-- A line of L1 (R206): data, bytes written and not yet in die L2, and whose bytes they are. -/
structure L1Line where
  data : LineData
  dirty : ByteMask := 0
  /-- The lowest number of the accesses whose bytes it holds (R149), and the key incarnation of their translation (R37). -/
  first : Nat := 0
  inc : Nat := 0
  vd : Nat
  deriving DecidableEq, Repr

/-- An entry of the write-combining buffer (R207): the warps whose stores it holds, by access. -/
structure WcbEntry where
  line : Nat
  data : LineData
  mask : ByteMask
  vd : Nat
  bypass : Bool
  owners : List (WarpRef × Nat)
  /-- The key incarnation that its stores' translation supplied (R37). -/
  inc : Nat
  deriving DecidableEq, Repr

/-- A TLB entry (R148). -/
structure TlbEntry where
  vd : Nat
  asid : Nat
  va : Nat
  size : Nat
  gpa : Nat
  pa : Nat
  key : Nat
  w : Bool
  x : Bool
  d : Bool
  r2 : Bool
  w2 : Bool
  x2 : Bool
  mig : Bool
  deriving DecidableEq, Repr

/-- A quadrant's sampler (R257, R258, R262); its counter in 120ths of an arithmetic cycle, the P in force. -/
structure SmpQuad where
  counter : Nat := 0
  period : Nat := 1024
  ptr : Nat := 15
  armed : Option Nat := none
  deriving DecidableEq, Repr

/-- A SIMT cluster (R193–R219). -/
structure Cluster where
  vd : Option Nat := none
  /-- Boundary at which its drain began, and the VD it passes to (R160, R186). -/
  draining : Option Nat := none
  pendingVd : Option Nat := none
  overrun : Bool := false
  last : Vector Nat 4 := Vector.replicate 4 15
  /-- When the scoreboard last took an entry (R405). -/
  sbAt : Option Nat := none
  l1 : NMap L1Line := []
  icache : NMap LineData := []
  wcb : List WcbEntry := []
  tlb : List TlbEntry := []
  /-- `MXBUDGET` (R218). -/
  mxLimit : Nat := 256
  mxLevel : Nat := 512
  /-- The operand bytes that the engine's steps read last, by offset, B's from 8,192 on (R218). -/
  prev : List (Nat × Byte) := []
  smp : Vector SmpQuad 4 := Vector.replicate 4 {}
  deriving DecidableEq, Repr

-- ## Blocks and kernels (chapters 07, 11)

/-- A named barrier (R376). -/
structure Barrier where
  phase : Nat := 0
  count : Nat := 0
  /-- Expected count once the first warp arrival has set it, and whether it came from a 0. -/
  expect : Option (Nat × Bool) := none
  arrived : List Nat := []
  deriving DecidableEq, Repr

/-- Where a block is (R162, R185, R265). -/
inductive Place where
  | unstarted
  | resident (g : Nat)
  /-- Its save has begun to drain on cluster `g` (R184). -/
  | saving (g : Nat)
  | saved
  | halted (idx : Nat)
  | exited
  deriving DecidableEq, Repr

/-- A matrix grant (R393). -/
structure Grant where
  m : Nat
  n : Nat
  type : Nat
  deriving DecidableEq, Repr

/-- The part of a block that its image holds (R185) and a phase snapshot restores (R269). -/
structure Image where
  scratch : Memory := []
  /-- Claimed operand and accumulator slot ids (R209). -/
  claimed : List Nat := []
  omem : Memory := []
  amem : NMap Word := []
  bars : NMap Barrier := []
  grant : Option Grant := none
  seq : Option Sequencer := none
  warps : List Warp := []
  deriving DecidableEq, Repr

/-- A value that a proof-mode phase logs: warp, and the words or bytes returned (R269, R310, R324). -/
structure LogEntry where
  wi : Nat
  vals : List Nat
  deriving DecidableEq, Repr

/-- A block (R185, R204, R208, R376). -/
structure Block where
  kernel : Nat
  lin : Nat
  x : Nat
  y : Nat
  z : Nat
  vdie : Nat
  die : Nat
  place : Place := .unstarted
  /-- The cluster that a block is to be restored on once it is saved, and its window's base there (R166, R171). -/
  target : Option Nat := none
  targetBase : Nat := 0
  /-- When the save that still drains was asked for (R186). -/
  savingAt : Option Nat := none
  /-- Its image's place in the VD's context save area, once it has been resident (R184, R202; log 78). -/
  area : Option Nat := none
  /-- When it was saved, for R166. -/
  savedAt : Nat := 0
  img : Image := {}
  /-- Scratchpad window base while resident (R204). -/
  base : Nat := 0
  /-- Commands abandoned by a save, reissued on restore (R187). -/
  abandoned : List Command := []
  phases : Nat := 0
  /-- Proof mode (R268–R270): entry, snapshot, log, log full, rollback target (warp, count) with the rest of the log. -/
  proof : Option Nat := none
  snap : Option Image := none
  /-- Commands in progress at the snapshot, and the number of log entries that belong to what was in progress then. -/
  snapCmds : List Command := []
  carried : Nat := 0
  log : List LogEntry := []
  logFull : Bool := false
  replay : Option (Nat × Nat × List LogEntry) := none
  /-- Halt at the end of the next phase (R267). -/
  stepping : Bool := false
  /-- A warp has stopped in this cycle: the block halts when the cycle's issue is over (R265). -/
  halting : Bool := false
  deriving DecidableEq, Repr

/-- A fault record (R291), with what matches it (R153). -/
structure FRecord where
  va : DWord
  pc : DWord := 0#64
  code : Nat
  atype : Nat := 0
  log2w : Nat := 0
  stage2 : Bool := false
  lanes : Word := 0#32
  token : Word := 0#32
  place : Word := 0#32
  asid : Nat := 0
  deriving DecidableEq, Repr

/-- A kernel (R126, R170–R175, R191). -/
structure Kernel where
  vd : Nat
  asid : Nat
  queue : Nat
  idx : Nat
  entry : DWord
  grid : Nat × Nat × Nat
  shifts : Nat × Nat × Nat
  vregs : Nat
  warps : Nat
  scratch : Nat
  oslots : Nat
  aslots : Nat
  arg : DWord
  prio : Nat
  handler : Option DWord
  coop : Bool
  proof : Bool
  domain : Nat
  signal : DWord
  irq : Option Nat
  launchSeq : Word := 0#32
  /-- Blocks of the grid that have not exited. -/
  left : Nat
  /-- `GBAR`: phase and warps arrived (R378). -/
  gphase : Nat := 0
  garrived : List WarpRef := []
  abort : Option Nat := none
  /-- The abort's fault record, which comes before the completion signal (R290). -/
  abortRec : Option FRecord := none
  complete : Bool := false
  gangHeld : Bool := false
  deriving DecidableEq, Repr

-- ## Virtual devices (chapter 05)

/-- Lifecycle states (R114, R119). -/
inductive VdState where
  | free
  | configured
  | active
  | suspended
  | killing
  | faulted
  deriving DecidableEq, Repr

/-- A completion signal that is being written (R128): its address, what is written next (1 `CODE`, 2 `VALUE`, 3 nothing more), the op id
of the far atomic that is out and when it or its query was sent, and the model's number at which it began (R149). -/
structure SigRun where
  pa : Nat
  phase : Nat
  op : Option Nat := none
  time : Nat := 0
  since : Nat := 0
  deriving DecidableEq, Repr

/-- A started packet (R125–R127). -/
structure Packet where
  idx : Nat
  bytes : List Byte
  /-- The kernel it launched. -/
  kernel : Option Nat := none
  /-- Effect performed; its completion (R128) remains. -/
  performed : Bool := false
  code : Nat := 0
  /-- Bytes of a COPY still to copy are those at or after this offset. -/
  progress : Nat := 0
  /-- A COPY's source bytes, read and not yet written, and whether their line was lost; and the line that its ownership buffer
  holds or is to hold (R33, R42). -/
  staged : Option (List Nat × Bool) := none
  hold : Option Nat := none
  /-- Its completion signal. -/
  sig : Option SigRun := none
  deriving DecidableEq, Repr

/-- A queue of a VD (R113–R125). Number 64 is the device-launch queue (R173). -/
structure Queue where
  head : Word := 0#32
  tail : Word := 0#32
  stale : Word := 0#32
  enabled : Bool := false
  stopped : Bool := false
  overkick : Bool := false
  diskick : Bool := false
  reason : Nat := 0
  done : DWord := 0#64
  /-- The descriptor as read at enable (R121). -/
  ring : DWord := 0#64
  log2 : Nat := 0
  prio : Nat := 0
  errSrc : Nat := 1
  headWb : DWord := 0#64
  /-- A head write-back waits for its replay (R122). -/
  wbWaits : Bool := false
  asid : Nat := 0
  started : List Packet := []
  /-- A slot read is due: an offer came (R124). -/
  reread : Bool := false
  pollAt : Nat := 0
  /-- `QCTL.EN` := 0 waits for started packets (R115); the device-launch queue's restart waits too (R173). -/
  disabling : Bool := false
  restartAt : Option DWord := none
  /-- An enable waits for its descriptor (R122). -/
  enabling : Bool := false
  /-- The record of an access that waits for a replay (R122). -/
  waiting : Option FRecord := none
  /-- ASID and launch sequence number of the children in the device-launch queue, by packet index (R173, R174). -/
  kids : NMap (Nat × Word) := []
  deriving DecidableEq, Repr

/-- A vector of a function's MSI-X table (R111, R131). -/
structure MsixVec where
  addr : DWord := 0#64
  data : Word := 0#32
  masked : Bool := true
  pending : Bool := false
  deriving DecidableEq, Repr

/-- A range hint record as cached from the table (R156). -/
structure Hint where
  base : Nat
  size : Nat
  home : Nat
  unwritten : Bool
  agents : List Nat
  deriving DecidableEq, Repr

/-- A VD reset in progress (R133, R134). -/
structure KillRun where
  fromState : VdState
  release : Bool := false
  /-- Engines that have not acknowledged, and when `KILL` was sent to them. -/
  left : List KillEngine := []
  time : Nat := 0
  fromDie : Bool := false
  /-- Kernels interrupted by a die reset (R137). -/
  kernels : List Kernel := []
  /-- Commanded, or the fault code of its cause (R114 `LASTCODE`). -/
  code : Nat := 0
  /-- Steps 3 and 4 of R133 have begun: the key is erased; frames still to be regenerated (R52). -/
  erased : Bool := false
  frames : List Nat := []
  /-- Physical addresses of the interrupted kernels' completion signals still to be written (R137). -/
  sigs : List Nat := []
  sig : Option SigRun := none
  deriving DecidableEq, Repr

/-- Bucket of a VD on a memory die (R81). -/
structure Bucket where
  rate : Nat := 0
  depth : Nat := 0
  idle : Bool := true
  en : Bool := false
  level : Int := 0
  used : DWord := 0#64
  idled : DWord := 0#64
  deriving DecidableEq, Repr

/-- An SPDM responder's connection state (R139). -/
structure Spdm where
  version : Nat := 0
  negotiated : Bool := false
  session : Option (BitVec 384) := none
  finished : Bool := false
  /-- Messages that it has sent in the session. -/
  seq : Nat := 0
  transcript : List Byte := []
  deriving DecidableEq, Repr

/-- A virtual device. -/
structure Vd where
  state : VdState := .free
  lastCode : Nat := 0
  resets : BitVec 16 := 0#16
  queues : NMap Queue := []
  qtbase : DWord := 0#64
  -- control block (R117)
  weight : Nat := 0
  /-- The stride that the grant loop charges, in force from a boundary on (R159, R161). -/
  stride : Nat := 0
  maxClusters : Nat := 0
  keyId : Nat := 0
  s2root : DWord := 0#64
  fq : DWord := 0#64
  saveArea : DWord := 0#64
  capBase : DWord := 0#64
  dlq : DWord := 0#64
  -- fixed tables
  vdie : List (BitVec 16) := List.replicate 32 0#16
  remap : NMap (BitVec 32) := []
  caps : NMap (BitVec 256) := []
  msix : NMap MsixVec := []
  -- translation (chapter 06)
  /-- Stage-1 roots and queue masks as last read (R145). -/
  roots : NMap (DWord × DWord) := []
  /-- An invalidation has still to read them again, and the stage-2 record that this waits on (R147, R148). -/
  rootsDue : Bool := false
  rootsWait : Option FRecord := none
  /-- A `TLBINV` that runs, with the number below which accesses may still use what it removed (R148, R149). -/
  tlbinv : Option (DWord × Nat) := none
  tlbDone : BitVec 16 := 0#16
  fqTail : Word := 0#32
  fqHead : Word := 0#32
  undelivered : List FRecord := []
  /-- Records of stage 2 that the VDC has and has not resolved (R151, R156). -/
  vdcRecords : List FRecord := []
  /-- The hint table has still to be read for a write of `RHBASE` (R156). -/
  hintsDue : Bool := false
  rhCount : Nat := 0
  rhBase : Nat := 0
  hints : List Hint := []
  epoch : Nat := 0
  -- scheduling (chapter 07)
  pass : DWord := 0#64
  eligible : Bool := false
  granted : NMap Nat := []
  launchSeq : Word := 0#32
  /-- Sixtieths of an arithmetic cycle for which it held a resident block (R167). -/
  clock : Nat := 0
  -- sampler and debug registers (chapter 11)
  smpcfg : Word := 0x06040000#32
  smpbase : DWord := 0#64
  smptail : Word := 0#32
  smphead : Word := 0#32
  smpdrop : Word := 0#32
  /-- Sequence numbers of its quadrants, by 4 × cluster + quadrant (R260). -/
  smpSeq : NMap Nat := []
  attach : Bool := false
  dbgBusy : Bool := false
  dbgStatus : Nat := 0
  dbgdump : DWord := 0#64
  waddr : Vector DWord 4 := Vector.replicate 4 0#64
  wctl : Vector Word 4 := Vector.replicate 4 0#32
  halts : NMap Nat := []
  prfcfg : Word := 0x00001400#32
  prfbase : DWord := 0#64
  kill : Option KillRun := none
  spdm : Spdm := {}
  deriving DecidableEq, Repr

-- ## Dies and memory (chapters 01, 03, 06)

/-- Weight-store region (R72). -/
structure Region where
  base : Nat
  size : Nat
  valid : Bool
  deriving DecidableEq, Repr

/-- Seal state of a region (R73). -/
inductive Seal where
  | idle
  | sealed (ks : List Nat)
  | filling (k : Nat)
  deriving DecidableEq, Repr

/-- What a wait-table entry holds back (R151). -/
inductive Waiter where
  | warp (w : WarpRef)
  | command (id : Nat)
  deriving DecidableEq, Repr

/-- An entry of a die's wait table (R151, R153): generation, waiter, records not yet matched. -/
structure WaitEntry where
  gen : Nat := 1
  waiter : Option Waiter := none
  vd : Nat := 0
  left : List FRecord := []
  deriving DecidableEq, Repr

/-- A compute die. -/
structure Die where
  hot : Bool := false
  temp : Nat := 0
  phase : Nat := 0
  phaseStart : Nat := 0
  phaseNs : Nat := 512
  regions : NMap Region := []
  seals : NMap Seal := []
  wstore : Memory := []
  wlost : List Nat := []
  /-- Weight-store lines whose read failed once and then passed: the transient errors that are logged (R84). -/
  wtransient : List Nat := []
  waits : NMap WaitEntry := []
  tlb : List TlbEntry := []
  deriving DecidableEq, Repr

/-- Key tag of a 4 KiB frame (R79). -/
structure KeyTag where
  key : Nat := 0
  gen : Nat := 0
  bound : Bool := false
  deriving DecidableEq, Repr

/-- A counter group or tree node (R76, R77): major and minors. -/
structure Counters where
  major : Nat := 0
  minors : NMap Nat := []
  /-- Frozen at the limit of `MAJOR` (R78), with the frames that the VDC has still to rekey. -/
  frozen : Bool := false
  stale : List Nat := []
  deriving DecidableEq, Repr

/-- A request waiting for a pseudo-channel, or being read (R83, R84). -/
structure HbmReq where
  id : Nat
  line : Nat
  vd : Nat
  write : Bool
  time : Nat
  /-- 0 waiting for a slot, 1 in service, 2 in its retry (R84). -/
  stage : Nat := 0
  free : Bool := false
  /-- The home's own steps that go on when the line is there. -/
  users : List (Instr × Focus) := []
  deriving DecidableEq, Repr

/-- HBM4E behind the homes (chapter 03). -/
structure Hbm where
  tags : NMap KeyTag := []
  /-- Lines written since their frame was cleared: the complement of the cleared bits (R80). -/
  written : List Nat := []
  lost : List Nat := []
  groups : NMap Counters := []
  nodes : NMap Counters := []
  cipher : NMap (LineData × BitVec 64) := []
  retired : List Nat := []
  transientErrors : List Nat := []
  reqs : List HbmReq := []
  openRow : NMap Nat := []
  buckets : NMap Bucket := []
  /-- MACs of counter lines (level 0) and tree nodes (levels 1–5), by level and place (R77). -/
  treeMacs : NMap (BitVec 64) := []
  /-- The generation of a frame whose key tag nothing has written (R50, R51). -/
  baseGen : Nat := 0
  /-- Frames that are about to take another key id: their homes gather the tokens and answer nobody (R32, R34). -/
  rekeying : List Nat := []
  deriving DecidableEq, Repr

-- ## Coherence and the network (chapters 01, 02)

/-- A holder's tag for a line (R33, R69). -/
structure Tag where
  tokens : Nat := 0
  owner : Bool := false
  valid : Bool := false
  dirty : Bool := false
  lost : Bool := false
  /-- Key incarnation: key id and generation (R50). -/
  inc : Nat := 0
  ctx : Nat := 0
  used : Nat := 0
  deriving DecidableEq, Repr

/-- An outstanding token request of a holder (R37, R43), or of the home itself when `h` is none (R59). -/
structure TokReq where
  h : Option Holder
  line : Nat
  write : Bool
  vd : Nat
  inc : Nat
  time : Nat
  /-- 0 not sent yet, 1 sent, 2 and 3 reissued (R43). -/
  issues : Nat := 1
  persistent : Bool := false
  /-- Satisfied: its access is being performed, and nothing received since is handled until it is done (R41). -/
  served : Bool := false
  /-- A persistent one whose access is done: it still waits to be in force, to be deactivated (R47). -/
  finished : Bool := false
  /-- The steps that its satisfaction lets run (R41). -/
  users : List (Instr × Focus) := []
  deriving DecidableEq, Repr

/-- A persistent request in an arbiter's bank (R44). -/
structure PReq where
  line : Nat
  req : Holder
  write : Bool
  vd : Nat := 0
  deriving DecidableEq, Repr

/-- An arbiter's bank (R44, R45): FIFO, active request, acknowledgements still to come. -/
structure Bank where
  fifo : List PReq := []
  active : Option PReq := none
  acks : Nat := 0
  deactivating : Bool := false
  /-- Line of the request deactivated last (R48). -/
  last : Option Nat := none
  deriving DecidableEq, Repr

/-- A member of a far atomic (R56, R59, R91): op id, argument, comparand, no-return flag, the module that its op id belongs to, and
the endpoint that its reply goes to. -/
structure Member where
  op : Nat
  arg : Nat
  cmp : Nat := 0
  nr : Bool := false
  module : Nat
  src : Endpoint
  /-- Its acquire has scope RBK: the VD's clusters have drained when it reads (R228). -/
  rbk : Bool := false
  deriving DecidableEq, Repr

/-- A group waiting in a station (R57–R59). -/
structure Group where
  line : Nat
  addr : Nat
  width : Nat
  inc : Nat
  /-- 0 addition, 1 `INCW` with the bound, 2 alone: operation, type. -/
  cls : Nat
  op : Nat
  type : Nat
  bound : Nat
  /-- In arrival order. -/
  members : List Member
  record : Bool := false
  vd : Nat
  /-- Results by member once applied; the reply is then due. -/
  results : List Nat := []
  applied : Bool := false
  time : Nat := 0
  deriving DecidableEq, Repr

/-- A combining station (R54). -/
structure Station where
  groups : List Group := []
  log : List (Nat × Nat × Nat) := []
  /-- Lines that groups were applied to, with the times (R60). -/
  recent : List (Nat × Nat) := []
  deriving DecidableEq, Repr

/-- What a package-network message says. -/
inductive MsgKind where
  /-- Transient request to the home (R37), `first` on its first issue. -/
  | request (write first : Bool) (req : Holder)
  /-- The home's forward to a holder (R39); `req` is none where the home asks for itself (R59). -/
  | forward (write : Bool) (req : Option Holder)
  /-- Tokens (R35), with data when `data`. -/
  | tokens (data : Bool)
  /-- Persistent request, activation, deactivation and their acknowledgements (R44–R47). -/
  | persist (write : Bool) (req : Holder)
  | activate (arb bank : Nat) (write : Bool) (req : Holder)
  | deactivate (arb bank : Nat)
  | done (bank : Nat)
  | ack (arb bank : Nat)
  /-- A far atomic on its way to its station (R54): operation, type, address, width, members. -/
  | atomic (op type addr width bound : Nat) (members : List Member)
  /-- Its reply to a member: module, op id and old value, none for a no-return member (R60); `bad` where the line is lost (R85). -/
  | reply (module op : Nat) (val : Option Nat) (bad : Bool)
  /-- Outcome query for a module's op id, and answer: 0 pending, 1 logged value, 2 unknown (R62, R102). -/
  | query (module op : Nat)
  | answer (module op what val : Nat)
  /-- `KILL` of the message's VD for an engine, and its acknowledgement (R133, R134). -/
  | kill (e : KillEngine)
  | killAck (e : KillEngine)
  deriving DecidableEq, Repr

/-- A message of the package network (R12). -/
structure Msg where
  src : Endpoint
  dst : Endpoint
  kind : MsgKind
  line : Nat := 0
  vd : Nat := 0
  inc : Nat := 0
  tokens : Nat := 0
  owner : Bool := false
  dirty : Bool := false
  lost : Bool := false
  /-- An eviction's tokens: the home clears the holder's hint (R39). -/
  evict : Bool := false
  deriving DecidableEq, Repr

/-- A flit (R12, R13): its message, its half (0 whole, 1 first, 2 second), its age. -/
structure Flit where
  msg : Nat
  half : Nat
  age : Nat
  /-- The router it came from, none at injection (R16). -/
  came : Option Router := none
  /-- Network cycle in which it reaches the router that it is at or on its way to (R18's table). -/
  ready : Nat := 0
  deriving DecidableEq, Repr

/-- The package network (R12–R17). -/
structure Net where
  msgs : NMap Msg := []
  /-- Flits not yet injected, in flight at a router, held in reassembly; messages ejected and not yet handled. -/
  waiting : List Flit := []
  flying : List (Flit × Router) := []
  reasm : List Flit := []
  inbox : List Nat := []
  deriving DecidableEq, Repr

/-- Token coherence (chapter 02). -/
structure Coh where
  /-- Home's tokens, by line; unlisted: 64 with the owner token. -/
  home : NMap Tag := []
  /-- Die L2 lines by die, and the proxy's at 32. -/
  held : NMap (NMap Tag) := []
  /-- Lines in the LLC (R69). -/
  llc : NMap Tag := []
  /-- Token locators by slice: line, hint mask, last use (R39). -/
  locator : NMap (List (Nat × Nat × Nat)) := []
  reqs : List TokReq := []
  banks : NMap Bank := []
  /-- Mirror tables: (holder, arbiter, bank) by number of R45; holder 0–31 die, 32 proxy, 33–48 memory die. -/
  mirror : NMap PReq := []
  stations : NMap Station := []
  /-- Op id sequence by endpoint (R56). -/
  opSeq : NMap Nat := []
  deriving DecidableEq, Repr

-- ## Fabric and CXL (chapter 04)

/-- A fabric port (R100, R101). -/
structure Port where
  state : Nat := 0
  planes : BitVec 16 := 0#16
  retries : Nat := 0
  drainAt : Option Nat := none
  restoring : Bool := false
  deriving DecidableEq, Repr

/-- An incoming fabric request that has still to be performed (R92, R98, R153): kinds as of `AccKind.remote`, kind 5 a
reduction's result; its records while it is held on missing pages, those still to be matched and all of them; the 64-byte halves of an `RVADD` already done. -/
structure HeldReq where
  q : InReq
  kind : Nat
  left : List FRecord := []
  recs : List FRecord := []
  half : Nat := 0
  /-- The signal word that it increments, and when the increment's outcome timer last started (R62, R94). -/
  sigPa : Nat := 0
  timer : Nat := 0
  deriving DecidableEq, Repr

/-- The fabric side (chapter 04). -/
structure Fabric where
  module : Nat := 0
  ports : NMap Port := []
  /-- Carrier of a plane moved off its own port; 16 for no path (R101). -/
  carrier : NMap Nat := []
  timeoutNs : Nat := 500000
  held : List HeldReq := []
  /-- Requests that an aborted kernel has on the fabric: they have no waiter, but hold their units and are waited for (R97, R129). -/
  orphans : List (Nat × Access) := []
  deriving DecidableEq, Repr

/-- What the proxy does with a line's tokens once a recall from the host is answered (R49). -/
inductive Owed where
  /-- It keeps them: platen agents are to use the line, by these steps (R41). -/
  | keep (us : List (Instr × Focus))
  /-- An eviction, or a persistent request in force. -/
  | home
  /-- A forwarded request of `req` (none: the home's own). -/
  | answer (write : Bool) (req : Option Holder)
  deriving DecidableEq, Repr

/-- A CXL transaction (R108). -/
structure CxlTxn where
  id : Nat
  vd : Nat
  line : Nat
  /-- 0 read of host or expander memory, 1 write, 2 back-invalidation. -/
  kind : Nat
  port : Nat
  time : Nat
  retried : Bool := false
  orphan : Bool := false
  /-- What follows a back-invalidation (R49). -/
  owes : Owed := .home
  /-- A write's data. -/
  data : LineData := 0#1024
  deriving DecidableEq, Repr

/-- The host proxy's CXL side (R105–R109); port 2 is the host port. -/
structure Cxl where
  table : List CxlTxn := []
  waiting : List CxlTxn := []
  linkUp : Vector Bool 3 := Vector.replicate 3 true
  cxlMode : Bool := true
  timeoutNs : Vector Nat 3 := Vector.replicate 3 100000
  capacity : Vector Nat 2 := Vector.replicate 2 0x40000000000
  /-- Expanders whose pages fault as not present, and the leaf frames that the VDC has remapped since (R109). -/
  failed : List Nat := []
  remapped : List Nat := []
  /-- Device lines cached by the host, and whether it may write them (R49). -/
  hostLines : NMap Bool := []
  /-- What host or expander memory holds of lines of which the device's copies are older or newer (R106, R109). -/
  apart : NMap LineData := []
  /-- Copies of host lines, by die, that are older than the device's value: over PCIe they are not snooped (R106). -/
  stale : NMap (NMap LineData) := []
  /-- IDE keys of the host port by stream (R105, R139). -/
  ide : NMap Nat := []
  deriving DecidableEq, Repr

-- ## The package (chapters 01, 05)

/-- The configuration record (R28). -/
structure Record where
  version : Nat := 1
  part : Nat := 0x3230
  enable : BitVec 32 := 0xFFFFFFFF#32
  minMode : Nat := 0
  maxVds : Nat := 512
  bins : List Byte := List.replicate 96 0#8
  serial : BitVec 128 := 0#128
  deriving DecidableEq, Repr

/-- Boot state (R29–R31, R138). -/
structure Boot where
  recovery : Bool := false
  failStep : Nat := 0
  pfReady : Bool := true
  number : Nat := 0
  record : Record := {}
  /-- Dies that failed self-test (R31) or took a fatal error (R132). -/
  disabled : BitVec 32 := 0#32
  image : BitVec 384 := 0#384
  recordDigest : BitVec 384 := 0#384
  chain : List Byte := []
  deriving DecidableEq, Repr

/-- The power manager (R24–R26). -/
structure Power where
  mode : Nat := 0
  pending : Option Nat := none
  /-- Until then clusters run at the slower clock of this mode (R24). -/
  settle : Option (Nat × Nat) := none
  /-- Budget steps of 1/16 (R26), and consecutive windows 5 % below the cap. -/
  k : Nat := 16
  low : Nat := 0
  deriving DecidableEq, Repr

/-- PF registers (R118). -/
structure Pf where
  mbcmd : Word := 0#32
  mbarg : Vector DWord 8 := Vector.replicate 8 0#64
  mbstat : Word := 0#32
  mbres : Vector DWord 4 := Vector.replicate 4 0#64
  msix : NMap MsixVec := []
  spdm : Spdm := {}
  deriving DecidableEq, Repr

/-- A migration entry (R157): with the guest page that it moves. -/
structure Migration where
  vd : Nat
  leaf : Nat
  gpage : Nat
  oldF : Nat
  newF : Nat
  bitmap : BitVec 32 := 0#32
  /-- The leaf names the new frame, since this number of the model's; the invalidation is still to complete. -/
  switched : Bool := false
  since : Nat := 0
  deriving DecidableEq, Repr

/-- A sampled memory request that has completed and whose record is due (R262). -/
structure MemSample where
  id : Nat
  vd : Nat
  die : Nat
  g : Nat
  q : Nat
  slot : Nat
  seq : Nat
  clock : Nat
  pc : DWord
  store : Bool
  deriving DecidableEq, Repr

/-- A table walk that waits for tokens (R146, R148): who it is for, its access, and the line that it lacks. -/
structure Walk where
  place : Option (Nat × Nat)
  vd : Nat
  asid : Nat
  va : Nat
  atype : Nat
  line : Nat
  deriving DecidableEq, Repr

/-- Where a posted write goes: a physical address, or one that is still to be translated, through stage 2 or both stages. -/
inductive PostAt where
  | phys (pa : Nat)
  | guest (gpa : Nat)
  | virt (asid va : Nat)
  deriving DecidableEq, Repr

/-- A write within one line by the device itself that waits for the line's tokens, or for those of the tables that translate its address:
of a sample record (`tail` moves the ring's `TAIL` when it is made), a dump, a saved image, a spilled fragment, or the undefined bytes
that command `cmd` leaves (R35, R187). -/
structure Post where
  vd : Nat
  dest : PostAt
  bytes : List Byte
  tail : Bool := false
  cmd : Option Nat := none
  deriving DecidableEq, Repr

/-- What leaves the package: the model's record of outputs. -/
inductive Output where
  | msix (fn vector : Nat) (data : Word)
  /-- A record or an error status to the VDC (R78, R79, R116, R150, R186). -/
  | vdc (code vd a b : Nat)
  /-- A fault record of stage 2 to the VDC (R151, R155). -/
  | vdcRecord (vd : Nat) (r : FRecord)
  | tableError (table : Nat)
  /-- A VDC hart's access to an address that names nothing, or to a guest's frame (R79, R107, R116). -/
  | hartFault (addr : Nat)
  /-- A fabric request sent by an access, and a reply sent to another module. -/
  | fabric (q : OutReq)
  | fabricReply (module op : Nat) (refused : Bool) (vals : List Nat)
  | spdm (fn code : Nat) (body : List Byte)
  /-- A message of an SPDM session (R139): function, its number, its ciphertext. -/
  | spdmSecured (fn seq : Nat) (body : List Byte)
  | cxl (kind line : Nat)
  deriving DecidableEq, Repr

/-- Who moves next (the model's own, log 1). -/
inductive Turn where
  | device
  | warps
  deriving DecidableEq, Repr

/-- The state of the module. -/
structure State where
  /-- Ticks of 1/36 ns since bring-up (R12, R23; log 11). -/
  now : Nat := 0
  boot : Boot := {}
  power : Power := {}
  pf : Pf := {}
  vds : NMap Vd := []
  /-- Key ids not bound to a VD are free (R116, R119): loaded key slots by id, with their VD. -/
  keySlots : NMap Nat := []
  quantum : Nat := 250
  quantumNew : Nat := 250
  /-- Scheduler pools by die, in force and as written (R159); unlisted: 0xFFFF. -/
  pool : NMap Nat := []
  poolNew : NMap Nat := []
  dies : NMap Die := []
  clusters : NMap Cluster := []
  kernels : NMap Kernel := []
  blocks : NMap Block := []
  cmds : NMap Command := []
  mem : Memory := []
  hbm : Hbm := {}
  coh : Coh := {}
  net : Net := {}
  fabric : Fabric := {}
  cxl : Cxl := {}
  migr : NMap Migration := []
  /-- Stage-2 invalidations of the VDC in progress: VD, guest physical range (size 0 for all), and the number below which
  accesses may still use what they removed (R148, R149). -/
  s2inv : List (Nat × Nat × Nat × Nat) := []
  samples : List MemSample := []
  /-- The platen's table walkers at work, at most 64, and their walk caches: VD, address and value of entries that point to
  tables (R148). -/
  walks : List Walk := []
  walkCache : List (Nat × Nat × Nat) := []
  /-- Writes of the device itself that wait for tokens (R35). -/
  posted : List Post := []
  -- the model's own fields (log 1, log 2)
  /-- Steps that must come next, among them what the environment does to the module; then the steps of the device that may
  be due at this instant. -/
  agenda : List (Instr × Focus) := []
  due : List (Instr × Focus) := []
  focus : Focus := .none
  cur : Option (WarpRef × Nat) := none
  /-- First word of the instruction being executed, its length in words and its base word. -/
  word : Word := 0#32
  nwords : Nat := 1
  /-- The vector prefix right before the base word of the instruction that issues, if there is one. -/
  pfx : Option VPfx := none
  base : Word := 0#32
  /-- Quadrants that have still to decide their issue of this cycle. -/
  quads : List (Nat × Nat) := []
  turn : Turn := .device
  held : Option Stall := none
  free : Nat := 0
  nextId : Nat := 1
  out : List Output := []
  deriving DecidableEq, Repr

/-- Why the machine stops with a fault; none of these is a fault of R287, which a step takes as a next state. -/
inductive Fault where
  /-- `exec` of a Billek instruction without a warp that issues it. Raised by every Billek meaning; safe: the device
  issues instructions only from warps. -/
  | noWarp
  deriving DecidableEq, Repr

/-- Why a step has no meaning. -/
inductive Refusal where
  /-- The instruction has no meaning yet. Raised by no meaning; safe. -/
  | notModelled (mnemonic : String)
  deriving DecidableEq, Repr

/-- Fabric ports after bring-up: links trained, each on its own plane (R30 step 5, R100; log 5). -/
def portsUp : NMap Port :=
  (List.range 16).map fun p => (p, { state := 2, planes := BitVec.ofNat 16 (2 ^ p) })

/-- The module right after reset: bring-up has completed with the record of log 5. -/
def State.reset : State := { fabric := { ports := portsUp } }

end Sys2Proof.Machine
end

