-- ==== Sys2Proof/Machine/Maps.lean ====
section
/-!
DEFINITION. Sparse maps and byte memories: lookup, insertion in key order, removal, and the reads and writes of
memory that keep its canonical form.
-/
namespace Sys2Proof.Machine

/-- The value listed at key `k`. -/
def find {α : Type} : NMap α → Nat → Option α
  | [], _ => none
  | (j, v) :: m, k => if j = k then some v else find m k

/-- Removes key `k`. -/
def del {α : Type} : NMap α → Nat → NMap α
  | [], _ => []
  | (j, v) :: m, k => if j = k then m else (j, v) :: del m k

/-- Sets key `k`, keeping keys in order. -/
def put {α : Type} : NMap α → Nat → α → NMap α
  | [], k, v => [(k, v)]
  | (j, u) :: m, k, v =>
    if k < j then (k, v) :: (j, u) :: m else if k = j then (k, v) :: m else (j, u) :: put m k v

/-- Applies `f` to the value at key `k`, if it is listed. -/
def adj {α : Type} : NMap α → Nat → (α → α) → NMap α
  | [], _, _ => []
  | (j, v) :: m, k, f => if j = k then (j, f v) :: m else (j, v) :: adj m k f

/-- Every listed key. -/
def keys {α : Type} (m : NMap α) : List Nat := m.map Prod.fst

/-- Applies `f` to every listed value. -/
def mapv {α : Type} (m : NMap α) (f : α → α) : NMap α := m.map fun e => (e.1, f e.2)

/-- The listed values that meet `p`, with their keys. -/
def pick {α : Type} (m : NMap α) (p : α → Bool) : NMap α := m.filter fun e => p e.2

/-- One byte; an unlisted address reads 0 (log 4). -/
def Memory.read (m : Memory) (a : Nat) : Byte := (find m a).getD 0#8

/-- Writes one byte: the byte 0 is not listed. -/
def Memory.write (m : Memory) (a : Nat) (b : Byte) : Memory := if b = 0#8 then del m a else put m a b

/-- The `n` bytes at `a`. -/
def Memory.bytes (m : Memory) (a : Nat) : Nat → List Byte
  | 0 => []
  | n + 1 => m.read a :: Memory.bytes m (a + 1) n

/-- Writes bytes at rising addresses from `a`. -/
def Memory.store (m : Memory) (a : Nat) : List Byte → Memory
  | [] => m
  | b :: bs => Memory.store (m.write a b) (a + 1) bs

/-- The little-endian number of the `n` bytes at `a` (R3). -/
def Memory.readNat (m : Memory) (a n : Nat) : Nat := leNat (m.bytes a n)

/-- Stores the low `n` bytes of a number, little-endian (R3). -/
def Memory.storeNat (m : Memory) (a n v : Nat) : Memory := m.store a (leBytes n v)

/-- Keys strictly rise from above `lo`. -/
def risingFrom {α : Type} : Nat → NMap α → Bool
  | _, [] => true
  | lo, (k, _) :: m => lo ≤ k && risingFrom (k + 1) m

/-- The canonical form of a memory. -/
def Memory.wf (m : Memory) : Bool := risingFrom 0 m && m.all fun c => c.2 != 0#8

/-- The value at key `k` of a map of records with defaults. -/
def look {α : Type} (m : NMap α) (k : Nat) (d : α) : α := (find m k).getD d

/-- Changes the record at key `k`, from its default when it is not listed. -/
def upd {α : Type} (m : NMap α) (k : Nat) (d : α) (f : α → α) : NMap α := put m k (f (look m k d))

/-- The entry of a Vector at a number, else a default. -/
def vget {α : Type} {n : Nat} (v : Vector α n) (i : Nat) (d : α) : α := v[i]?.getD d

/-- `l` with entry `i` changed by `f`. -/
def modAt {α : Type} : List α → Nat → (α → α) → List α
  | [], _, _ => []
  | x :: xs, 0, f => f x :: xs
  | x :: xs, i + 1, f => x :: modAt xs i f

/-- Replaces the first element that meets `p`. -/
def modFirst {α : Type} (p : α → Bool) (f : α → α) : List α → List α
  | [] => []
  | x :: xs => if p x then f x :: xs else x :: modFirst p f xs

/-- The bytes of a line (R3). -/
def lineOf (bs : List Byte) : LineData := BitVec.ofNat 1024 (leNat bs)

/-- The elements of `l` without repeats, first occurrences kept. -/
def dedup {α : Type} [DecidableEq α] : List α → List α
  | [] => []
  | x :: xs => x :: (dedup xs).filter (· ≠ x)

/-- Insertion sort by a number. -/
def insertBy {α : Type} (f : α → Nat) (x : α) : List α → List α
  | [] => [x]
  | y :: ys => if f x ≤ f y then x :: y :: ys else y :: insertBy f x ys

def sortBy {α : Type} (f : α → Nat) : List α → List α
  | [] => []
  | x :: xs => insertBy f x (sortBy f xs)

end Sys2Proof.Machine
end

