-- ==== Sys2Proof/Machine/Ops.lean ====
section
/-!
DEFINITION. Named operations on the state: accessors, the fragments of a warp (R199–R202, R316), the spin detector
(R181, R182), taking a fault (R286–R290), and the frame in which every Billek instruction runs.
-/
namespace Sys2Proof.Machine

-- ## Accessors

def State.die (s : State) (d : Nat) : Die := look s.dies d {}
def State.setDie (s : State) (d : Nat) (f : Die → Die) : State := { s with dies := upd s.dies d {} f }
def State.vd (s : State) (v : Nat) : Vd := look s.vds v {}
def State.setVd (s : State) (v : Nat) (f : Vd → Vd) : State := { s with vds := upd s.vds v {} f }
def State.cl (s : State) (g : Nat) : Cluster := look s.clusters g {}
def State.setCl (s : State) (g : Nat) (f : Cluster → Cluster) : State := { s with clusters := upd s.clusters g {} f }
def State.blk (s : State) (b : Nat) : Option Block := find s.blocks b
def State.setBlk (s : State) (b : Nat) (f : Block → Block) : State := { s with blocks := adj s.blocks b f }
def State.kern (s : State) (k : Nat) : Option Kernel := find s.kernels k
def State.setKern (s : State) (k : Nat) (f : Kernel → Kernel) : State := { s with kernels := adj s.kernels k f }
def State.warp (s : State) (w : WarpRef) : Option Warp := (s.blk w.blk).bind fun b => b.img.warps[w.wi]?
def State.setImg (s : State) (b : Nat) (f : Image → Image) : State := s.setBlk b fun x => { x with img := f x.img }
def State.setWarp (s : State) (w : WarpRef) (f : Warp → Warp) : State :=
  s.setImg w.blk fun x => { x with warps := modAt x.warps w.wi f }
def Warp.frag (x : Warp) (id : Nat) : Option Frag := x.frags.find? fun f => f.id = id
def Warp.setFrag (x : Warp) (id : Nat) (g : Frag → Frag) : Warp :=
  { x with frags := modFirst (fun f => f.id = id) g x.frags }
def State.setFrag (s : State) (w : WarpRef) (id : Nat) (g : Frag → Frag) : State := s.setWarp w fun x => x.setFrag id g
def State.emit (s : State) (o : Output) : State := { s with out := s.out ++ [o] }
def State.queue (s : State) (v q : Nat) : Queue := look (s.vd v).queues q {}
def State.setQueue (s : State) (v q : Nat) (f : Queue → Queue) : State :=
  s.setVd v fun x => { x with queues := upd x.queues q {} f }

/-- A state that differs from `s`, else none: a step that changes nothing is not taken. -/
def State.news (s t : State) : Option State := if t = s then none else some t

/-- `n` free bytes (log 10). -/
def State.freeBytes (s : State) (n : Nat) : State × List Nat :=
  ({ s with free := s.free + n }, (List.range n).map fun i => (Config.freeByte (s.free + i)).toNat)

/-- `%time` in nanoseconds (R23). -/
def State.ns (s : State) : Nat := s.now / ticksPerNs

/-- A compute die is enabled: by its record, and not since left disabled (R1, R31, R132). -/
def State.dieEnabled (s : State) (d : Nat) : Bool :=
  d < 32 && s.boot.record.enable.getLsbD d && !s.boot.disabled.getLsbD d

/-- The physical die of a virtual die, where the entry is valid (R19). -/
def Vd.pdie (v : Vd) (i : Nat) : Option Nat :=
  match v.vdie[i]? with
  | some e => if e.getLsbD 15 then some (e.extractLsb' 0 5).toNat else none
  | none => none

/-- `%nvdie`: valid entries from entry 0 on (R20). -/
def Vd.nvdie (v : Vd) : Nat := (v.vdie.takeWhile fun e => e.getLsbD 15).length

/-- The cluster of a resident block (also while its save drains). -/
def Block.cluster (b : Block) : Option Nat :=
  match b.place with
  | .resident g | .saving g => some g
  | _ => none

/-- Warps of a block may issue: it is resident and not being saved (R151, R184). -/
def Block.issues (b : Block) : Bool := match b.place with | .resident _ => true | _ => false

/-- Quadrant and slot of a warp as the cluster-wide number of R291. -/
def slotNumber (wi slot : Nat) : Nat := 16 * (wi % 4) + slot

/-- Bytes 28–31 of a fault record (R291). -/
def placeWord (vd die cluster slot : Nat) : Word := BitVec.ofNat 32 (vd + 1024 * die + 32768 * (cluster % 16) + 524288 * slot)

-- ## Mode register (R283)

def mType (m : Word) : Nat := (m.extractLsb' 0 4).toNat
def mRnd (m : Word) : Nat := (m.extractLsb' 4 3).toNat
def mGp (m : Word) : Nat := (m.extractLsb' 7 6).toNat
def mGn (m : Word) : Bool := m.getLsbD 13
def mFtz (m : Word) : Bool := m.getLsbD 14
def mSat (m : Word) : Bool := m.getLsbD 15
def mZero (m : Word) : Bool := m.getLsbD 16
def mFpx (m : Word) : Bool := m.getLsbD 17

-- ## Fragments

/-- A running fragment is chosen no more; it parks waiting for `w` (R180). -/
def Frag.park (f : Frag) (w : Wait) : Frag := { f with running := false, wait := w }

/-- Promotion (R182): not demoted, count 0. -/
def Frag.promote (f : Frag) : Frag := if f.demoted then { f with demoted := false, spinCount := 0 } else f

/-- The lowest free entry of the split table (R200). -/
def Warp.freeEntry (x : Warp) : Option Nat :=
  (List.range 12).find? fun e => !x.frags.any fun f => f.entry = some e

/-- The oldest spilled fragment. -/
def Warp.oldestSpilled (x : Warp) : Option Frag := (sortBy (fun f => f.spilled) (x.frags.filter fun f => f.entry.isNone)).head?

/-- The oldest spilled fragment returns into the lowest free entry (R202). -/
def Warp.unspill (x : Warp) : Warp :=
  match x.freeEntry, x.oldestSpilled with
  | some e, some f => x.setFrag f.id fun f => { f with entry := some e }
  | _, _ => x

/-- Spilled fragments return while entries are free, at most the table's 12. -/
def Warp.unspillAll : Nat → Warp → Warp
  | 0, x => x
  | n + 1, x => if x.freeEntry.isSome && x.oldestSpilled.isSome then Warp.unspillAll n x.unspill else x

/-- Frees a fragment's entry or ring slot; a spilled fragment returns before the warp's next instruction issues (R202). -/
def Warp.dropFrag (x : Warp) (id : Nat) : Warp := { x with frags := x.frags.filter fun f => f.id != id }

/-- The slot of the spill ring that is taken next: the lowest free one of 64. -/
def Warp.freeSlot (x : Warp) : Nat :=
  ((List.range 64).find? fun k => !x.frags.any fun f => f.entry.isNone && f.slot = k).getD 0

/-- Makes room in the table: spills the entry, not running, that ran least recently (R202). -/
def Warp.makeRoom (x : Warp) (stamp : Nat) : Warp :=
  if x.freeEntry.isSome then x else
  match sortBy (fun f => f.lastRan) (x.frags.filter fun f => f.entry.isSome && !f.running) with
  | f :: _ => x.setFrag f.id fun f => { f with entry := none, spilled := stamp, slot := x.freeSlot }
  | [] => x

/-- Whether a fragment stands at its own rejoin PC or at that of a live child (R201). -/
def Warp.atJoin (x : Warp) (f : Frag) : Bool :=
  f.rejoin = some f.pc || x.frags.any fun c => c.parent = some f.id && c.rejoin = some f.pc

/-- The children that reconverge into `p` at address `r` are all at-rejoin, and `p` is ready for them (R201). -/
def Warp.canJoin (x : Warp) (p : Frag) (r : DWord) : Bool :=
  let cs := x.frags.filter fun c => c.parent = some p.id && c.rejoin = some r
  !cs.isEmpty && cs.all (fun c => c.wait = .rejoin && c.pc = r) && ((p.wait = .rejoin && p.pc = r) || p.mask = 0#32)

/-- One reconvergence (R201), if any is due. -/
def Warp.joinOnce (x : Warp) : Option Warp :=
  let due := x.frags.filterMap fun c => match c.parent, c.rejoin with
    | some p, some r => (x.frag p).bind fun f => if x.canJoin f r then some (f, r) else none
    | _, _ => none
  match due with
  | [] => none
  | (p, r) :: _ =>
    let cs := x.frags.filter fun c => c.parent = some p.id && c.rejoin = some r
    let ids := cs.map fun c => c.id
    let mask := cs.foldl (fun m c => m ||| c.mask) p.mask
    let rest := (x.frags.filter fun f => !ids.contains f.id).map fun f =>
      match f.parent with
      | some q => if ids.contains q then { f with parent := some p.id } else f
      | none => f
    let x := { x with frags := rest }
    let x := x.setFrag p.id fun f => { f with mask := mask, pc := r, wait := .ready }
    some (x.setFrag p.id fun f => if x.atJoin f then f.park .rejoin else f)

/-- Every reconvergence that is due. -/
def Warp.joinAll : Nat → Warp → Warp
  | 0, x => x
  | n + 1, x => match x.joinOnce with
    | some y => Warp.joinAll n y
    | none => x

/-- Reconvergence after any change (R201). -/
def Warp.join (x : Warp) : Warp := Warp.joinAll (x.frags.length + 1) x

/-- Fragment `id` has moved to a new PC: at a join point it sets at-rejoin and parks, which promotes demoted
siblings (R182), and whatever is due reconverges (R201). -/
def Warp.arrive (x : Warp) (id : Nat) : Warp :=
  match x.frag id with
  | none => x
  | some f =>
    if x.atJoin f then
      let x := { x with frags := x.frags.map fun (g : Frag) => if g.id = id then g else g.promote }
      (x.setFrag id fun f => f.park .rejoin).join
    else x

/-- The sibling group of a fragment (R316): live fragments with its parent and rejoin PC whose lanes have not all
exited. -/
def Warp.group (x : Warp) (parent : Option Nat) (rejoin : Option DWord) : List Frag :=
  x.frags.filter fun f => f.parent = parent && f.rejoin = rejoin && f.mask != 0#32

/-- The members at one address merge into the lowest-numbered entry, once spilled ones have returned into free entries; each member's
`SYNCW` completes (R256, R316). The return inside a completing `SYNCW` makes no write of its slot of the ring (log 78). -/
def Warp.mergeAt (x : Warp) (ids : List Nat) : Warp :=
  let x := Warp.unspillAll 12 x
  let ms := x.frags.filter fun f => ids.contains f.id
  match sortBy (fun f => (f.entry.getD (100 + f.spilled))) ms with
  | [] => x
  | e :: rest =>
    let ids := rest.map fun f => f.id
    let mask := ms.foldl (fun m f => m ||| f.mask) 0#32
    let fs := (x.frags.filter fun f => !ids.contains f.id).map fun f =>
      match f.parent with
      | some q => if ids.contains q then { f with parent := some e.id } else f
      | none => f
    let x := { x with frags := fs, rwc := x.rwc + BitVec.ofNat 64 ms.length }
    (x.setFrag e.id fun f => { f with mask := mask, pc := f.pc + 4#64, wait := .ready }).arrive e.id

/-- `SYNCW` completion of a sibling group (R316). -/
def Warp.syncTest (x : Warp) (parent : Option Nat) (rejoin : Option DWord) : Warp :=
  let g := x.group parent rejoin
  if !g.isEmpty && g.all (fun f => f.wait = .sync) then
    let pcs := sortBy (fun a => a) (dedup (g.map fun f => f.pc.toNat))
    pcs.foldl (fun x a => x.mergeAt ((g.filter fun f => f.pc.toNat = a).map fun f => f.id)) x
  else x

/-- A parent that waits at a join point of children that have all exited goes on from there (R201). -/
def Warp.release (x : Warp) (parent : Option Nat) : Warp :=
  match parent.bind x.frag with
  | some p => if p.wait = .rejoin && p.mask != 0#32 && !x.atJoin p then x.setFrag p.id fun f => { f with wait := .ready } else x
  | none => x

/-- A fragment whose lanes have all exited leaves its sibling group (R316). It stays for its children, which reconverge into it if all
are at-rejoin already, or is freed, and then its parent is tested again (R201, R318). The recursion frees parents that waited for their
last child. -/
def Warp.endFrag : Nat → Warp → Nat → Warp
  | 0, x, _ => x
  | n + 1, x, id =>
    match x.frag id with
    | none => x
    | some f =>
      if x.frags.any fun c => c.parent = some id then
        (x.setFrag id fun f => f.park .children).join.syncTest f.parent f.rejoin
      else
        let x := (x.dropFrag id).join.release f.parent
        let x := x.syncTest f.parent f.rejoin
        match f.parent.bind x.frag with
        | some p => if p.mask = 0#32 then Warp.endFrag n x p.id else x
        | none => x

/-- Whether a fragment could be chosen: its wait has to be over (the caller tests that) and it is in the table. -/
def Frag.inTable (f : Frag) : Bool := f.entry.isSome

-- ## Spin detector (R181, R182)

/-- CRC-32C of bytes, bit by bit, reflected polynomial 0x82F63B78. -/
def crcByte (c : Word) (b : Byte) : Word :=
  let c := c ^^^ b.setWidth 32
  (List.range 8).foldl (fun c _ => if c.getLsbD 0 then (c >>> 1) ^^^ 0x82F63B78#32 else c >>> 1) c

def crc32c (bs : List Byte) : Word := ~~~ (bs.foldl crcByte 0xFFFFFFFF#32)

/-- The signature of an iteration whose loads have all returned (R181). -/
def signature (iter : List (Nat × Nat × List (Nat × Word))) : Word :=
  crc32c (iter.flatMap fun l => (sortBy (fun v => v.1) l.2.2).flatMap fun v => leBytes 4 v.2.toNat)

/-- A fragment takes a backward branch at `pc` (R181). An iteration with a store forms a signature too, if its loads have returned. -/
def Frag.spin (f : Frag) (pc : DWord) : Frag :=
  let clear := fun (f : Frag) => { f with iter := [], iterStore := false }
  let out := f.iter.any fun l => l.2.1 != 0
  let sig := signature f.iter
  if f.spinPc != some pc then
    clear { f.promote with spinPc := some pc, spinCount := 1, lastSig := none }
  else if f.iterStore then clear { f.promote with spinCount := 1, lastSig := if out then f.lastSig else some sig }
  else if out then clear (if f.demoted then f.park .ready else f)
  else
    if f.lastSig.isSome && f.lastSig != some sig then clear { f.promote with spinCount := 1, lastSig := some sig }
    else
      let f := clear { f with spinCount := f.spinCount + 1, lastSig := some sig }
      if 16 ≤ f.spinCount then { f.park .ready with demoted := true, sibIssues := if f.demoted then f.sibIssues else [] }
      else f

/-- The fragment issues a store, an atomic, a copy, a barrier, `KICK` or `LAUNCH` (`b`), which promotes it (R181, R182). -/
def Frag.stores (f : Frag) (b : Bool) : Frag := if b then { f.promote with iterStore := true } else f

/-- A fragment has issued an instruction: 256 of one sibling's promote a demoted fragment (R182). -/
def Warp.countIssue (x : Warp) (id : Nat) : Warp :=
  { x with frags := x.frags.map fun f =>
      if f.id = id || !f.demoted then f
      else if 255 ≤ look f.sibIssues id 0 then f.promote else { f with sibIssues := upd f.sibIssues id 0 (· + 1) } }

-- ## The current instruction

/-- What a Billek instruction sees: the state before it, its warp, fragment, block and kernel. -/
structure Ctx where
  s : State
  w : WarpRef
  f : Frag
  x : Warp
  b : Block
  k : Kernel
  deriving DecidableEq, Repr

def ctxOf (s : State) (w : WarpRef) (fid : Nat) : Option Ctx :=
  (s.blk w.blk).bind fun b => (b.img.warps[w.wi]?).bind fun x => (x.frag fid).bind fun f =>
    (s.kern b.kernel).map fun k => { s, w, f, x, b, k }

/-- The issuing warp and fragment. -/
def State.ctx (s : State) : Option Ctx := s.cur.bind fun c => ctxOf s c.1 c.2

/-- A fault (R287): code, `%einfo`, and what the abort record of R290 says of a memory access. -/
structure FaultInfo where
  code : Nat
  einfo : Word
  atype : Nat := 0
  log2w : Nat := 0
  lanes : Option Word := none
  va : DWord := 0#64
  /-- `%epc` where it is not the faulting instruction's address (R289). -/
  epc : Option DWord := none
  /-- The record's PC where it is not `%epc` (R85, R290). -/
  recPc : Option DWord := none
  deriving DecidableEq, Repr

/-- What an instruction comes to. -/
inductive Res where
  /-- It completes. -/
  | done (s : State)
  /-- It completes and the fragment continues at `pc`; `spin` says that this is a taken backward branch. -/
  | goto (s : State) (pc : DWord) (spin : Bool)
  /-- It completes and the fragment parks behind it. -/
  | park (s : State) (w : Wait)
  /-- It completes and has itself said where its fragments stand. -/
  | moved (s : State)
  /-- It has issued, and the state says all else of it: it counts when its wait ends (R256). -/
  | issued (s : State)
  /-- It parks at the instruction, which re-executes after the wait. -/
  | wait (s : State) (w : Wait)
  /-- It is not performed and the warp parks in the wait table, or the state says what else comes of it. -/
  | parked (s : State)
  /-- It cannot issue now. -/
  | hold (r : Stall)
  /-- It cannot issue now: a table walk of it goes on, which the state holds. -/
  | busy (s : State)
  | fault (i : FaultInfo)
  deriving DecidableEq, Repr

def Ctx.pc (c : Ctx) : DWord := c.f.pc
/-- Address of the base word (R271, R274). -/
def Ctx.basePc (c : Ctx) : DWord := c.f.pc + BitVec.ofNat 64 (4 * (c.s.nwords - 1))
/-- Address of the next instruction. -/
def Ctx.nextPc (c : Ctx) : DWord := c.f.pc + BitVec.ofNat 64 (4 * c.s.nwords)
def Ctx.vd (c : Ctx) : Nat := c.k.vd
def Ctx.die (c : Ctx) : Nat := c.b.die
/-- The cluster that the warp's block is resident on. -/
def Ctx.g (c : Ctx) : Nat := c.b.cluster.getD 0
def Ctx.setWarp (c : Ctx) (s : State) (f : Warp → Warp) : State := s.setWarp c.w f

/-- The lowest lane of a mask, 0 for none. -/
def lowLane (m : Mask) : Nat := ((List.range 32).find? fun l => m.getLsbD l).getD 0
def lanesOf (m : Mask) : List Nat := (List.range 32).filter fun l => m.getLsbD l
def maskOf (ls : List Nat) : Mask := ls.foldl (fun m l => m ||| (1#32 <<< l)) 0#32
def laneBit (l : Nat) : Word := 1#32 <<< l

-- ## Kernel abort and block discard

/-- Frees the wait-table entries that hold back what `p` says, advancing their generations past 0 (R153, R154). -/
def nextGen (g : Nat) : Nat := if g + 1 = 32768 then 1 else g + 1
def WaitEntry.free (e : WaitEntry) : WaitEntry := { gen := nextGen e.gen }
def freeWaits (p : WaitEntry → Bool) (m : NMap WaitEntry) : NMap WaitEntry :=
  m.map fun e => if e.2.waiter.isSome && p e.2 then (e.1, e.2.free) else e

/-- The token of a wait-table entry (R151). -/
def waitToken (d i gen : Nat) : Word := BitVec.ofNat 32 (i + 4096 * d + 131072 * gen)

/-- Frees wait-table entries on the dies that `on` selects, and discards their undelivered records (R153). -/
def State.dropWaits (s : State) (p : WaitEntry → Bool) (on : Nat → Bool := fun _ => true) : State :=
  let gone := (s.dies.filter fun d => on d.1).flatMap fun (d : Nat × Die) =>
    (pick d.2.waits fun e => e.waiter.isSome && p e).map fun (e : Nat × WaitEntry) => waitToken d.1 e.1 e.2.gen
  { s with
    dies := s.dies.map fun (d : Nat × Die) => if on d.1 then (d.1, { d.2 with waits := freeWaits p d.2.waits }) else d
    vds := mapv s.vds fun v => { v with undelivered := v.undelivered.filter fun r => !gone.contains r.token } }

/-- Requests that a block has on the fabric (R97). -/
def State.onFabric (s : State) (b : Nat) : List (Nat × Access) :=
  match s.blk b with
  | none => []
  | some x => x.img.warps.flatMap fun w => (w.accesses.filter fun a =>
      a.sent = 1 && match a.kind with | .remote .. => true | _ => false).map fun a => (x.kernel, a)

/-- A block of VD `v` re-executes for a debugger's command (R270). -/
def State.rollsBack (s : State) (b v : Nat) : Bool :=
  (s.blk b).any fun x => x.replay.isSome && (s.kern x.kernel).any fun k => k.vd = v

/-- A block is stopped and discarded without a save (R134, R192): its requests on the fabric have no waiter any more. -/
def State.discardBlock (s : State) (b : Nat) : State :=
  let s := { s with fabric := { s.fabric with orphans := s.fabric.orphans ++ s.onFabric b } }
  let cs := keys (pick s.cmds fun c => c.warp.blk = b)
  let s := s.dropWaits fun e => match e.waiter with
    | some (.warp w) => w.blk = b
    | some (.command i) => cs.contains i
    | none => false
  let s := { s with
    cmds := mapv (pick s.cmds fun c => c.warp.blk != b) fun c => { c with receivers := c.receivers.filter (· ≠ b) }
    vds := s.vds.map fun (v : Nat × Vd) =>
      (v.1, { v.2 with halts := pick v.2.halts (· ≠ b), dbgBusy := v.2.dbgBusy && !s.rollsBack b v.1 }) }
  s.setBlk b fun x =>
    { x with
      place := .exited, target := none, img := {}, abandoned := [], proof := none, snap := none, snapCmds := []
      log := [], replay := none, stepping := false, halting := false }

/-- Seal states lose a kernel (R73). -/
def Seal.drop (k : Nat) : Seal → Seal
  | .idle => .idle
  | .sealed ks => let ks := ks.filter (· ≠ k); if ks.isEmpty then .idle else .sealed ks
  | .filling j => if j = k then .idle else .filling j

def State.unseal (s : State) (v k : Nat) : State :=
  { s with dies := mapv s.dies fun d => { d with seals := adj d.seals v (Seal.drop k) } }

/-- Kernel abort (R192): every block is stopped and dropped, the first code stands, and the record of R290 goes to
the VD's fault queue. -/
def State.abort (s : State) (k code : Nat) (r : Option FRecord) : State :=
  match s.kern k with
  | none => s
  | some kn =>
    if kn.abort.isSome || kn.complete then s else
    let s := match r with
      | some r => (s.setVd kn.vd fun v => { v with undelivered := v.undelivered ++ [r] }).setKern k fun kn => { kn with abortRec := some r }
      | none => s
    let bs := keys (pick s.blocks fun b => b.kernel = k && b.place != .exited)
    let s := bs.foldl State.discardBlock s
    (s.setKern k fun kn => { kn with abort := some code, left := 0 }).unseal kn.vd k

-- ## Taking a fault (R288–R290)

/-- `%ecause` (R289). -/
def FaultInfo.ecause (i : FaultInfo) : Word := BitVec.ofNat 32 (i.code + 256 * i.atype + 65536 * i.log2w)

/-- The abort's fault record (R290, R291): address and width stand in that of a memory fault, whose access type is not 0. -/
def FaultInfo.record (i : FaultInfo) (c : Ctx) : FRecord :=
  { va := if i.atype = 0 then 0#64 else i.va
    pc := i.recPc.getD (i.epc.getD c.pc), code := i.code, atype := i.atype, log2w := if i.atype = 0 then 0 else i.log2w
    lanes := i.lanes.getD c.f.mask
    place := placeWord c.vd c.die c.g (slotNumber c.w.wi c.x.slot), asid := c.k.asid }

/-- Handler entry (R288). -/
def enterHandler (c : Ctx) (i : FaultInfo) (h : DWord) : State :=
  c.s.setWarp c.w fun x =>
    let x := { x with
      epc := i.epc.getD c.pc, emode := x.mode, mode := 0#32, ecause := i.ecause, einfo := i.einfo, handler := true }
    x.setFrag c.f.id fun f => { f with pc := h, inHandler := true }

/-- Taking a handler-class fault (R288): the handler, the hold while another fragment is in it, or the abort. -/
def takeFault (c : Ctx) (i : FaultInfo) : State :=
  match c.k.handler with
  | none => c.s.abort c.b.kernel i.code (some (i.record c))
  | some h =>
    if c.x.handler then
      if c.f.inHandler then c.s.abort c.b.kernel i.code (some (i.record c))
      else c.s.setFrag c.w c.f.id fun f => f.park .handler
    else enterHandler c i h

/-- Return from the handler (R327): mode and PC come back, handler state ends, held fragments become ready. -/
def leaveHandler (c : Ctx) : State :=
  c.s.setWarp c.w fun x =>
    let x := { x with mode := x.emode, handler := false }
    let x := { x with frags := x.frags.map fun (f : Frag) =>
      { f with inHandler := false, wait := if f.wait = Wait.handler then .ready else f.wait } }
    (x.setFrag c.f.id fun f => { f with pc := x.epc, lastRan := c.s.now }).arrive c.f.id

/-- A fault that also changes the state in which it is delivered; while the warp's handler state holds it for another
fragment, nothing changes (R288, R389). -/
def Res.faultIn (c : Ctx) (s : State) (i : FaultInfo) : Res :=
  if c.k.handler.isSome && c.x.handler && !c.f.inHandler then .fault i else .parked (takeFault { c with s := s } i)

-- ## Stops (R265)

/-- A stop: the fault `i` without a debugger, else the block halts, or the instruction is held while all halt indices
are taken. The index is taken here; the block's other quadrants still issue in this cycle, and may stop too, before its save begins;
`BLOCK_SAVE` writes the dump once the block has drained. -/
def Ctx.stop (c : Ctx) (i : FaultInfo) : Res :=
  let v := c.s.vd c.vd
  let stopped := fun (s : State) => Res.parked (s.setWarp c.w fun x => { x with stopCause := i.code })
  if !v.attach then .fault i
  else if c.b.halting then stopped c.s else
  match (List.range 16).find? fun n => (find v.halts n).isNone with
  | none => .hold .counter
  | some n =>
    stopped ((c.s.setVd c.vd fun v => { v with halts := put v.halts n c.w.blk }).setBlk c.w.blk fun b => { b with halting := true })

-- ## Completion

/-- The instruction has issued; its fragment changes by `g`, which says where it goes on. -/
def leave (c : Ctx) (s : State) (g : Frag → Frag) : State :=
  s.setWarp c.w fun x =>
    ({ x with passStop := false }.countIssue c.f.id).setFrag c.f.id fun f => g { f with lastRan := s.now }

/-- The instruction counts in `%rwc` (R256); its fragment changes by `g`. -/
def retire (c : Ctx) (s : State) (g : Frag → Frag) : State :=
  (leave c s g).setWarp c.w fun x => { x with rwc := x.rwc + 1#64 }

/-- The fragment parks behind the instruction, which completes when the wait ends (R180, R256). -/
def parkBehind (c : Ctx) (s : State) (w : Wait) : State :=
  leave c s fun f => { f.park w with pc := c.nextPc, owes := true }

/-- It completes and its fragment reaches `pc` (R201). -/
def retireTo (c : Ctx) (s : State) (pc : DWord) (g : Frag → Frag) : State :=
  (retire c s fun f => g { f with pc := pc }).setWarp c.w fun x => x.arrive c.f.id

/-- The instruction that a fragment waited behind completes and counts (R256). -/
def Warp.pay (x : Warp) (id : Nat) : Warp :=
  if (x.frag id).any fun f => f.owes then { x with rwc := x.rwc + 1#64 }.setFrag id fun f => { f with owes := false } else x

/-- A parked fragment is ready again; it stands at its PC (R180, R201). -/
def Warp.wake (x : Warp) (id : Nat) : Warp := ((x.pay id).setFrag id fun f => { f with wait := .ready }).arrive id

/-- The next state of an instruction's outcome. -/
def settle (c : Ctx) : Res → State
  | .done s => retireTo c s c.nextPc id
  | .goto s pc spin => retireTo c s pc fun f => if spin then f.spin c.basePc else f
  | .park s w => if w = .ready then retireTo c s c.nextPc fun f => f.park .ready else parkBehind c s w
  | .moved s => s.setWarp c.w fun x => { x with rwc := x.rwc + 1#64, passStop := false }.countIssue c.f.id
  | .issued s => s
  | .wait s w => s.setFrag c.w c.f.id fun f => f.park w
  | .parked s => s
  | .hold r => { c.s with held := some r }
  | .busy s => { s with held := some .counter }
  | .fault i => takeFault c i

/-- The frame of every Billek instruction: it runs on the issuing fragment. -/
def runInstr (s : State) (f : Ctx → Res) : Host.Outcome State Fault Refusal :=
  match s.ctx with
  | none => .fault .noWarp
  | some c => .next (settle c (f c))

/-- A step of the device: where what it acts on is not there or its condition does not hold, nothing changes. -/
def runDevice (s : State) (f : State → Option State) : Host.Outcome State Fault Refusal := .next ((f s).getD s)

-- ## Operands (R194, R195, R275)

/-- What an operand field names, as a kind of R275: `v` and `vd` with the registers of its group. -/
inductive Kind where
  | v (n : Nat)
  | vd (n : Nat)
  | s
  | sp
  | sg
  | p
  /-- A format-B field that holds a scalar index 0–63. -/
  | sx
  deriving DecidableEq, Repr

/-- An operand field: kind, value, field code of `REG_RANGE` (R287), whether it is read and whether written. -/
structure Opnd where
  k : Kind
  val : Nat
  code : Nat
  reads : Bool := true
  writes : Bool := false
  deriving DecidableEq, Repr

/-- The field's value fits its kind in a warp with `vn` vector registers. -/
def Opnd.ok (vn : Nat) (o : Opnd) : Bool :=
  match o.k with
  | .v n => if o.val < 0xC0 then o.val % n = 0 && o.val + n ≤ vn else (o.val - 0xC0) % n = 0 && o.val - 0xC0 + n ≤ 64
  | .vd n => o.val < 0xC0 && o.val % n = 0 && o.val + n ≤ vn
  | .s => 0xC0 ≤ o.val
  | .sp => 0xC0 ≤ o.val && o.val % 2 = 0
  | .sg => o.val = 0xD0 || o.val = 0xE0 || o.val = 0xF0
  | .p => o.val < 48
  | .sx => o.val < 64

/-- The registers that a field covers: field values of vectors and scalars, predicates at 256 + index. -/
def Opnd.regs (o : Opnd) : List Nat :=
  match o.k with
  | .v n | .vd n => (List.range n).map (o.val + ·)
  | .s => [o.val]
  | .sp => [o.val, o.val + 1]
  | .sg => (List.range 16).map (o.val + ·)
  | .p => [256 + o.val]
  | .sx => [0xC0 + o.val]

/-- Registers that an outstanding access still has to write (R197). -/
def Access.pending (a : Access) : List Nat :=
  match a.dst with
  | some (r, false) => (List.range ((a.width + 3) / 4)).map (r + ·)
  | some (r, true) => (List.range ((a.width + 3) / 4)).map (r + ·)
  | none => []

def Warp.pending (x : Warp) : List Nat := x.accesses.flatMap Access.pending

/-- The first field out of range (check 6 of R286). -/
def badOpnd (vn : Nat) (os : List Opnd) : Option FaultInfo :=
  match os.find? fun o => !o.ok vn with
  | some o => some { code := 0x03, einfo := BitVec.ofNat 32 (o.val % 256 + 256 * o.code) }
  | none => none

/-- The fault that a recorded error delivers (R85, R389): its record is that of the failed access (R290). -/
def ErrRec.fault (e : ErrRec) : FaultInfo :=
  { code := e.code, einfo := e.einfo, recPc := some e.pc, atype := e.acc.atype, log2w := e.acc.log2w, va := BitVec.ofNat 64 e.acc.va
    lanes := if e.acc.atype = 0 then none else some e.acc.lanes }

/-- The recorded fault of the first flagged register that is read (R85, R63, R98). -/
def flagFault (x : Warp) (os : List Opnd) : Option FaultInfo :=
  (((os.filter (·.reads)).flatMap Opnd.regs).findSome? (find x.flags)).map ErrRec.fault

/-- Check 6 of R286 alone. -/
def checkRange (c : Ctx) (os : List Opnd) (f : Res) : Res :=
  match badOpnd c.x.vregs.length os with
  | some i => .fault i
  | none => f

/-- A class counter would pass 511 (R216). -/
def Warp.classFull (x : Warp) (n by' : Nat) : Bool := 511 < (vget x.classes n {}).count + by'

/-- The interlock of R197, then flagged registers (R85). Of an instruction of class `cls` a full counter is the cause that a sample names
first (R259). -/
def checkReady (c : Ctx) (os : List Opnd) (f : Res) (cls : Option Nat := none) : Res :=
  if (os.flatMap Opnd.regs).any fun r => c.x.pending.contains r then
    .hold (if cls.any fun k => c.x.classFull k 1 then .counter else .reg) else
  match flagFault c.x os with
  | some i => .fault i
  | none => f

/-- Scalar register by index; `s0` reads 0 (R195). -/
def Warp.sreg (x : Warp) (n : Nat) : Word := if n = 0 then 0#32 else vget x.sregs n 0#32
/-- Scalar by operand field value. -/
def Warp.sf (x : Warp) (v : Nat) : Word := x.sreg (v - 0xC0)
/-- A 64-bit scalar pair by operand field value, low half first (R195). -/
def Warp.spair (x : Warp) (v : Nat) : DWord := (x.sf (v + 1)) ++ (x.sf v)
/-- Vector register by index. -/
def Warp.vreg (x : Warp) (n : Nat) : VReg := x.vregs[n]?.getD (Vector.replicate 32 0#32)
/-- One lane of a kind-v operand field: a vector register, or a scalar broadcast (R275). -/
def Warp.lane (x : Warp) (v l : Nat) : Word := if v < 0xC0 then vget (x.vreg v) l 0#32 else x.sf v
/-- One lane of a pair of fields, low half first. -/
def Warp.lane64 (x : Warp) (v l : Nat) : DWord := x.lane (v + 1) l ++ x.lane v l
/-- Predicate mask; `p0` is true in every lane (R195). -/
def Warp.pred (x : Warp) (p : Nat) : Mask := if p = 0 then 0xFFFFFFFF#32 else vget x.preds p 0#32

/-- Writing a register clears its flag (R85). -/
def Warp.unflag (x : Warp) (v : Nat) : Warp := { x with flags := del x.flags v }
/-- Writes a scalar; writes to `s0` are ignored (R195). -/
def Warp.setS (x : Warp) (n : Nat) (v : Word) : Warp :=
  if n = 0 then x else { x.unflag (0xC0 + n) with sregs := x.sregs.setIfInBounds n v }
def Warp.setSf (x : Warp) (fv : Nat) (v : Word) : Warp := x.setS (fv - 0xC0) v
def Warp.setPair (x : Warp) (fv : Nat) (v : DWord) : Warp :=
  (x.setSf fv (v.extractLsb' 0 32)).setSf (fv + 1) (v.extractLsb' 32 32)
/-- Writes a vector register. -/
def Warp.setV (x : Warp) (n : Nat) (v : VReg) : Warp := { x.unflag n with vregs := modAt x.vregs n fun _ => v }
/-- Writes a predicate mask; writes to `p0` are ignored. -/
def Warp.setP (x : Warp) (p : Nat) (m : Mask) : Warp :=
  if p = 0 then x else { x with preds := x.preds.setIfInBounds p m }

/-- The guard of R304, tested in the lowest lane of the fragment's mask. -/
def Ctx.guard (c : Ctx) : Bool := (c.x.pred (mGp c.x.mode)).getLsbD (lowLane c.f.mask) != mGn c.x.mode

end Sys2Proof.Machine
end

