-- ==== Sys2Proof/Machine/Operands.lean ====
section
/-!
DEFINITION. Operand forms: the frames of scalar instructions (R303–R306), immediates (R278), the effective controls of
vector instructions (R198), and the addresses of format M (R273, R353).
-/
namespace Sys2Proof.Machine

def sOp (f : BitVec 8) (code : Nat) : Opnd := { k := .s, val := f.toNat, code := code }
def sDst (f : BitVec 8) : Opnd := { k := .s, val := f.toNat, code := 0, reads := false, writes := true }
def spOp (f : BitVec 8) (code : Nat) : Opnd := { k := .sp, val := f.toNat, code := code }
def spDst (f : BitVec 8) : Opnd := { k := .sp, val := f.toNat, code := 0, reads := false, writes := true }
def vOp (n : Nat) (f : BitVec 8) (code : Nat) : Opnd := { k := .v n, val := f.toNat, code := code }
def vDst (n : Nat) (f : BitVec 8) : Opnd := { k := .vd n, val := f.toNat, code := 0, reads := false, writes := true }
def pOp (f : BitVec 8) (code : Nat) : Opnd := { k := .p, val := f.toNat, code := code }
def pDst (f : BitVec 8) : Opnd := { k := .p, val := f.toNat, code := 0, reads := false, writes := true }

/-- The frame of a guarded instruction (R304): range checks, guard, interlock and flags, then its own effect. -/
def guarded (c : Ctx) (os : List Opnd) (f : Res) (cls : Option Nat := none) : Res :=
  checkRange c os (if c.guard then checkReady c os f cls else .done c.s)

/-- A scalar result written to `sd` (R305). -/
def Ctx.writeS (c : Ctx) (d : BitVec 8) (v : Word) : Res := .done (c.s.setWarp c.w fun x => x.setSf d.toNat v)

/-- Register form `OP sd, sa, sb` (R305). -/
def scalarR (d a b : BitVec 8) (op : Word → Word → Word) (c : Ctx) : Res :=
  guarded c [sDst d, sOp a 1, sOp b 2] (c.writeS d (op (c.x.sf a.toNat) (c.x.sf b.toNat)))

/-- Unary form `OP sd, sa` (R307). -/
def scalarU (d a : BitVec 8) (op : Word → Word) (c : Ctx) : Res :=
  guarded c [sDst d, sOp a 1] (c.writeS d (op (c.x.sf a.toNat)))

/-- The immediate of R278: 32 bits with a prefix, else `IMM8` extended by sign or zero. -/
def immOf (x : Option (BitVec 24)) (sx : Bool) (i : BitVec 8) : Word :=
  match x with
  | some h => h ++ i
  | none => if sx then i.signExtend 32 else i.setWidth 32

/-- Immediate form `OP sd, sa, imm` (R306). -/
def scalarI (d a : BitVec 8) (imm : Word) (op : Word → Word → Word) (c : Ctx) : Res :=
  guarded c [sDst d, sOp a 1] (c.writeS d (op (c.x.sf a.toNat) imm))

-- ## Vector controls

/-- The effective controls of R198. -/
structure Eff where
  type : Nat
  rnd : Nat
  mask : Mask
  /-- The guard in every lane. -/
  g : Mask
  zero : Bool
  deriving DecidableEq, Repr

def allLanes : Mask := 0xFFFFFFFF#32

/-- R198; `act` is the fragment's mask, or the lanes that a `VEXEC` word may act in. -/
def effOf (x : Warp) (act : Mask) (p : Option VPfx) : Eff :=
  let m := x.mode
  let type := match p with | some q => if q.type != 15#4 then q.type.toNat else mType m | none => mType m
  let rnd := match p with | some q => if q.rnd != 7#3 then q.rnd.toNat else mRnd m | none => mRnd m
  let (gp, gn) := match p with | some q => if q.gv then (q.gp.toNat, q.gn) else (mGp m, mGn m) | none => (mGp m, mGn m)
  let zero := match p with | some q => if q.mz != 0#2 then q.mz == 2#2 else mZero m | none => mZero m
  let g := if gn then ~~~ x.pred gp else x.pred gp
  { type, rnd, mask := act &&& g, g, zero }

/-- `ILLEGAL_TYPE` with the effective type and rounding (R198, R287). -/
def illegalType (t r : Nat) : FaultInfo := { code := 0x04, einfo := BitVec.ofNat 32 (t % 16 + 16 * r) }

/-- Check 5 of R286 for a vector instruction: a type that it does not accept, or, of one that rounds, a prefix `RND` of 5 or 6 (R277). -/
def typeBad (p : Option VPfx) (e : Eff) (types : List Nat) (rounds : Bool := false) : Option FaultInfo :=
  let badRnd := rounds && match p with | some q => q.rnd == 5#3 || q.rnd == 6#3 | none => false
  if badRnd || !types.contains e.type then some (illegalType e.type e.rnd) else none

/-- The prefix's guard predicate as the last field of check 6 (R277, R286). -/
def gpOp (p : Option VPfx) : List Opnd :=
  match p with
  | some q => [{ k := .p, val := q.gp.toNat, code := 4, reads := false }]
  | none => []

/-- The guard predicate that the instruction reads (R197). -/
def gpRead (x : Warp) (p : Option VPfx) : List Opnd :=
  match p with
  | some q => if q.gv then [pOp (q.gp.setWidth 8) 4] else [{ k := .p, val := mGp x.mode, code := 4 }]
  | none => [{ k := .p, val := mGp x.mode, code := 4 }]

/-- Registers per lane of a type (R195, R234). -/
def typeRegs (t : Nat) : Nat := if t = 9 ∨ t = 10 ∨ t = 11 then 2 else 1
/-- Element width in bits (R234). -/
def elemBits (t : Nat) : Nat :=
  if t ≤ 2 then 32 else if t ≤ 6 then 16 else if t ≤ 8 then 8 else if t ≤ 11 then 64 else if t = 14 then 4 else 8
/-- Elements in a register, 1 for a 64-bit type (R234). -/
def elemCount (t : Nat) : Nat :=
  if t ≤ 2 then 1 else if t ≤ 6 then 2 else if t ≤ 8 then 4 else if t ≤ 11 then 1 else if t = 14 then 8 else 4
/-- The stride between elements: T6 lies in bytes (R234). -/
def elemStride (t : Nat) : Nat := elemBits t
/-- Signed integer types (R234). -/
def isSigned (t : Nat) : Bool := t = 0 || t = 5 || t = 7 || t = 9

/-- One lane's operand as a number of 32 bits, or 64 for a pair (R330). -/
def Warp.laneN (x : Warp) (regs v l : Nat) : Nat :=
  if regs = 2 then (x.lane64 v l).toNat else (x.lane v l).toNat

/-- Element `k` of a register value (R234). -/
def elemAt (t : Nat) (v k : Nat) : Nat := (v >>> (elemStride t * k)) % 2 ^ (if t = 13 then 6 else elemBits t)

/-- A register value from its elements (R234). -/
def packElems (t : Nat) : List Nat → Nat
  | [] => 0
  | e :: es => e % 2 ^ (if t = 13 then 6 else elemBits t) + 2 ^ elemStride t * packElems t es

/-- Applies an operation to every element (R330), ORing the conditions. -/
def mapElems (t : Nat) (f : Nat → Nat × Bool) : Nat × Bool :=
  let rs := (List.range (elemCount t)).map f
  (packElems t (rs.map Prod.fst), rs.any Prod.snd)

/-- A vector register rewritten under R330: active lanes take `f`, others keep or are zeroed. -/
def writeLanes (old : VReg) (reach mask : Mask) (zero : Bool) (f : Nat → Word) : VReg :=
  Vector.ofFn fun l : Fin 32 =>
    if mask.getLsbD l then f l else if zero && !reach.getLsbD l then 0#32 else vget old l 0#32

/-- A predicate mask rewritten under R330. -/
def writeMask (old reach mask : Mask) (zero : Bool) (v : Mask) : Mask :=
  (mask &&& v) ||| (~~~ mask &&& (if zero then reach &&& old else old))

/-- Writes the `regs` registers of a group from `d` in the active lanes (R330); `reach` are the lanes that the zero
policy leaves alone although they are not active (R348). Where no lane is written no register is, and no flag goes (R85). -/
def Warp.writeGroup (x : Warp) (d regs : Nat) (reach mask : Mask) (zero : Bool) (f : Nat → Nat) : Warp :=
  if mask = 0#32 && !zero then x else
  (List.range regs).foldl
    (fun x r => x.setV (d + r) (writeLanes (x.vreg (d + r)) reach mask zero fun l => BitVec.ofNat 32 (f l >>> (32 * r)))) x

end Sys2Proof.Machine
end

