-- ==== Sys2Proof/Machine/Holder.lean ====
section
/-!
DEFINITION. Physical addresses and homes (R65, R66, R106), lines, token holders (R32–R36), the token locator (R39), asking for
tokens (R37, R43), the home's data (R69, R80, R106), and how a platen agent reads and writes lines (R33, R35, R41).
-/
namespace Sys2Proof.Machine

-- ## Physical addresses (R65, R66, R106, R107)

def hbmEnd : Nat := 0x18000000000
def expanderBase (p : Nat) : Nat := if p = 0 then 0x40000000000 else 0x80000000000
def hostBase : Nat := 0x800000000000

/-- The expander port of a physical address. -/
def expanderOf (pa : Nat) : Option Nat :=
  if 0x40000000000 ≤ pa && pa < 0x80000000000 then some 0
  else if 0x80000000000 ≤ pa && pa < 0xC0000000000 then some 1 else none

/-- A physical address that names memory (R107). -/
def State.names (s : State) (pa : Nat) : Bool :=
  if pa < hbmEnd then true
  else match expanderOf pa with
    | some p => pa - expanderBase p < vget s.cxl.capacity p 0
    | none => hostBase ≤ pa && pa < 2 * hostBase

/-- The home slice of a physical address in HBM4E (R66). -/
def sliceOf (pa : Nat) : Nat :=
  bits pa 14 7 ^^^ bits pa 22 15 ^^^ bits pa 30 23 ^^^ bits pa 38 31 ^^^ bits pa 40 39
def mdieOf (pa : Nat) : Nat := sliceOf pa / 16
def stackOf (pa : Nat) : Nat := 2 * mdieOf pa + (if 8 ≤ sliceOf pa % 16 then 1 else 0)
def localOf (pa : Nat) : Nat := bits pa 40 15
def pchOf (pa : Nat) : Nat := 24 * (sliceOf pa % 16 % 8) + localOf pa % 24
def groupOf (pa : Nat) : Nat := localOf pa / 64
def memberOf (pa : Nat) : Nat := bits pa 20 15

/-- The key tag of a frame (R79). -/
def State.tag (s : State) (pa : Nat) : KeyTag := look s.hbm.tags (pa / 4096) { gen := s.hbm.baseGen }

/-- The key incarnation of a frame (R50): generation above key id; 0 outside HBM4E. -/
def State.inc (s : State) (pa : Nat) : Nat :=
  if pa < hbmEnd then (s.tag pa).key + 1024 * (s.tag pa).gen else 0

/-- The key incarnation in force of a line (R50). -/
def State.lineInc (s : State) (line : Nat) : Nat := s.inc (128 * line)

/-- A line whose home is the host proxy (R106). -/
def hostLine (line : Nat) : Bool := hbmEnd ≤ 128 * line

/-- The home of a line (R66, R106). -/
def homeOf (line : Nat) : Endpoint := if 128 * line < hbmEnd then .llc (sliceOf (128 * line)) else .proxy

/-- The die L2 slice of a line (R70). -/
def l2Slice (line : Nat) : Nat := bits (128 * line) 10 7 ^^^ bits (128 * line) 14 11 ^^^ bits (128 * line) 18 15

-- ## Lines

/-- Byte `k` of a line. -/
def lineByte (d : LineData) (k : Nat) : Byte := d.extractLsb' (8 * k) 8
def setLineByte (d : LineData) (k : Nat) (b : Byte) : LineData :=
  (d &&& ~~~ ((0xFF#1024) <<< (8 * k))) ||| (b.setWidth 1024 <<< (8 * k))
/-- Writes bytes at rising offsets. -/
def setLineBytes (d : LineData) (k : Nat) : List Byte → LineData
  | [] => d
  | b :: bs => setLineBytes (setLineByte d k b) (k + 1) bs
/-- `n` mask bits from `k`. -/
def byteMask (k n : Nat) : ByteMask := BitVec.ofNat 128 ((2 ^ n - 1) * 2 ^ k)
/-- The bytes of `new` under a mask, else those of `old`. -/
def mergeLine (old new : LineData) (m : ByteMask) : LineData :=
  (List.range 128).foldl (fun d k => if m.getLsbD k then setLineByte d k (lineByte new k) else d) old

def State.lineData (s : State) (line : Nat) : LineData := lineOf (s.mem.bytes (128 * line) 128)

/-- A line's bytes as die `d`'s L2 has them: over PCIe a copy of a host line may be older than the device's value (R106). -/
def State.dieLine (s : State) (d line : Nat) : LineData :=
  match find (look s.cxl.stale d []) line with
  | some l => l
  | none => s.lineData line

/-- A number of `n` bytes as die `d`'s L2 has it. -/
def State.dieNat (s : State) (d pa n : Nat) : Nat :=
  match find (look s.cxl.stale d []) (pa / 128) with
  | some l => bits l.toNat (8 * (pa % 128) + 8 * n - 1) (8 * (pa % 128))
  | none => s.mem.readNat pa n

/-- The lines that `n` bytes at `pa` touch. -/
def linesOf (pa n : Nat) : List Nat := (List.range ((pa + n - 1) / 128 + 1 - pa / 128)).map (pa / 128 + ·)

/-- A line is lost (R84, R87). -/
def State.isLost (s : State) (line : Nat) : Bool := s.hbm.lost.contains line

/-- What host or expander memory holds of a line is kept before the device's own copy changes (R106, R109). -/
def State.keepTarget (s : State) (line : Nat) : State :=
  if hostLine line && (find s.cxl.apart line).isNone then
    { s with cxl := { s.cxl with apart := put s.cxl.apart line (s.lineData line) } }
  else s

/-- A write of bytes of one line by an agent that may write it. While the line's frame migrates and the line has been
copied, both frames receive the bytes (R157). -/
def State.poke (s : State) (pa : Nat) (bs : List Byte) : State :=
  let s := s.keepTarget (pa / 128)
  let m := s.mem.store pa bs
  let other := s.migr.findSome? fun (e : Nat × Migration) =>
    if !e.2.bitmap.getLsbD (pa / 128 % 32) then none
    else if e.2.oldF = pa / 4096 then some e.2.newF
    else if e.2.newF = pa / 4096 then some e.2.oldF else none
  match other with
  | some f => { s with mem := m.store (f * 4096 + pa % 4096) bs }
  | none => { s with mem := m }

-- ## Sending on the package network (R12, R15)

/-- The number of an endpoint: op ids are made of it (R56). The spec numbers no endpoints; this numbering is the model's choice
(log 73). -/
def endpointIndex : Endpoint → Nat
  | .cluster g => g
  | .l2 d s => 512 + 16 * d + s
  | .llc s => 1024 + s
  | .mirror m => 1280 + m
  | .arbiter s => 1296 + s
  | .proxy => 1304
  | .port p => 1305 + p
  | .expander p => 1321 + p
  | .control => 1323

/-- A message carries line data and so travels in two halves (R15). -/
def MsgKind.hasData : MsgKind → Bool
  | .tokens d => d
  | _ => false

/-- Hands a message to the network: its flits wait to be injected. -/
def State.send (s : State) (m : Msg) : State :=
  let halves := if m.kind.hasData then [1, 2] else [0]
  { s with
    nextId := s.nextId + 1
    net := { s.net with
      msgs := put s.net.msgs s.nextId m
      waiting := s.net.waiting ++ halves.map fun h => { msg := s.nextId, half := h, age := s.now } } }

-- ## Holders and tags (R32–R36)

def hIdx : Holder → Nat
  | .die d => d
  | .proxy => 32

/-- The endpoint of a holder for a line. -/
def hEnd (line : Nat) : Holder → Endpoint
  | .die d => .l2 d (l2Slice line)
  | .proxy => .proxy

/-- The holder at an endpoint; for a line homed at the proxy, the proxy is its home. -/
def holderAt (line : Nat) : Endpoint → Option Holder
  | .l2 d _ => some (.die d)
  | .proxy => if hostLine line then none else some .proxy
  | _ => none

/-- A holder's tag of a line. -/
def State.held' (s : State) (h : Holder) (line : Nat) : Tag := look (look s.coh.held (hIdx h) []) line {}

/-- Replaces a holder's tag; a tag without tokens is not kept. -/
def State.setHeld (s : State) (h : Holder) (line : Nat) (t : Tag) : State :=
  let f := fun (m : NMap Tag) => if t.tokens = 0 then del m line else put m line t
  { s with coh := { s.coh with held := upd s.coh.held (hIdx h) [] f } }

def State.setHome (s : State) (line : Nat) (t : Tag) : State := { s with coh := { s.coh with home := put s.coh.home line t } }

/-- A tag returned to the home of its line: tokens add up, the owner token comes with them (R36). -/
def returnTag (t : Tag) (home : Tag) : Tag :=
  { home with tokens := home.tokens + t.tokens, owner := home.owner || t.owner, valid := home.valid || t.valid
              lost := home.lost || t.lost }

/-- The home's own tag of a line, all tokens where it is not listed. -/
def State.homeTag (s : State) (line : Nat) : Tag := look s.coh.home line { tokens := 64, owner := true, valid := true }

/-- Every holder but the homes (R33). -/
def State.holders (s : State) : List Holder :=
  ((List.range 32).filter s.dieEnabled).map Holder.die ++ [.proxy]

/-- Tokens of an agent for a line: a holder's, or the home's. -/
def State.tokens (s : State) (h : Option Holder) (line : Nat) : Tag :=
  match h with
  | some h => s.held' h line
  | none => s.homeTag line

/-- A request is satisfied (R37). -/
def State.satisfied (s : State) (h : Option Holder) (line : Nat) (write : Bool) : Bool :=
  let t := s.tokens h line
  t.valid && if write then t.tokens = 64 else 1 ≤ t.tokens

-- ## The token locator (R39)

/-- The locator slice of a line: its LLC slice, the host proxy at 256. -/
def locSlice (line : Nat) : Nat := if hostLine line then 256 else sliceOf (128 * line)

/-- The hint mask of a line, if its slice has an entry. -/
def State.locator (s : State) (line : Nat) : Option Nat :=
  ((look s.coh.locator (locSlice line) []).find? fun e => e.1 = line).map fun e => e.2.1

/-- Sets or clears a holder's bit, in an entry that stays when its last bit goes; a full set of 8 loses its least recently used
entry. An entry counts as used when a bit of it is set or cleared, not when it is looked up: R39 does not say which, and the choice
is the model's (log 7). -/
def State.hint (s : State) (line : Nat) (h : Holder) (on : Bool) : State :=
  if !on && (s.locator line).isNone then s else
  let es := look s.coh.locator (locSlice line) []
  let old := (s.locator line).getD 0
  let m := if on then old ||| 2 ^ (hIdx h) else if bit old (hIdx h) then old - 2 ^ (hIdx h) else old
  let rest := es.filter fun e => e.1 != line
  let inSet := fun (e : Nat × Nat × Nat) => e.1 / 256 % 512 = line / 256 % 512
  let rest := if (rest.filter inSet).length < 8 then rest else
    match sortBy (fun e => e.2.2) (rest.filter inSet) with
    | o :: _ => rest.filter fun e => e.1 != o.1
    | [] => rest
  { s with coh := { s.coh with locator := put s.coh.locator (locSlice line) ((line, m, s.now) :: rest) } }

-- ## Who must wait (R41, R42)

/-- The VD of a key id; 1,024 for one that is loaded for none. -/
def State.keyVd (s : State) (k : Nat) : Nat := (find s.keySlots k).getD 1024

/-- The VD to whose key a frame of HBM4E is bound; 1,024 for none, as for the VDC's. -/
def State.ownerOf (s : State) (line : Nat) : Nat := if hostLine line then 1024 else s.keyVd (s.tag (128 * line)).key

/-- An agent's satisfied request for a line is still being served: its access is not done (R41). -/
def State.serving (s : State) (h : Option Holder) (line : Nat) : Bool :=
  s.coh.reqs.any fun r => r.h = h && r.line = line && r.served && !r.finished

/-- The number of the line that a migration copies next. -/
def Migration.next (m : Migration) : Option Nat := (List.range 32).find? fun i => !m.bitmap.getLsbD i

/-- A platen copy agent's ownership buffer holds a line, or is to hold it (R33): of a COPY packet or a migration. -/
def State.copyBuffer (s : State) (line : Nat) : Bool :=
  (s.vds.any fun (v : Nat × Vd) => v.2.queues.any fun (q : Nat × Queue) => q.2.started.any fun p => p.hold = some line) ||
  s.migr.any fun (m : Nat × Migration) => m.2.next.any fun i => line = 32 * m.2.oldF + i || line = 32 * m.2.newF + i

/-- A line is in a platen copy agent's ownership buffer, which has all its tokens: the proxy's, or those of a home there (R33, R42). -/
def State.buffered (s : State) (line : Nat) : Bool :=
  (s.tokens (if hostLine line then none else some .proxy) line).tokens = 64 && s.copyBuffer line

/-- A line is in an ownership buffer of an agent that counts as holder `h` and holds all its tokens (R33, R42). -/
def State.windowed (s : State) (h : Holder) (line : Nat) : Bool :=
  match h with
  | .die d => (s.held' h line).tokens = 64 &&
      s.cmds.any fun (c : Nat × Command) => c.2.cluster / 16 = d && c.2.window.any fun w => w.2.1 = line
  | .proxy => !hostLine line && s.buffered line

/-- Die L2 serves a line now: it has the tokens, and no engine of the die has the line in its ownership window (R42, R230). -/
def State.l2May (s : State) (d line : Nat) (write : Bool) : Bool :=
  s.satisfied (some (.die d)) line write && !s.windowed (.die d) line

-- ## Asking for tokens (R37, R39, R43)

/-- The home asks holders for a line's tokens on behalf of `req`: on a first issue those that a locator entry `mask` shows, else
all (R39, R43). -/
def State.forwards (s : State) (line : Nat) (write : Bool) (mask : Option Nat) (req : Option Holder) (v : Nat) : State :=
  let others := s.holders.filter fun h => some h != req && !(hostLine line && h = .proxy)
  let tgt := match mask with | some m => others.filter fun h => bit m (hIdx h) | none => others
  tgt.foldl (fun s h =>
    s.send { src := homeOf line, dst := (hEnd line h), kind := .forward write req, line, vd := v, inc := s.lineInc line }) s

/-- Lines that a holder keeps or has asked for, beside `line`. -/
def State.proxyLines (s : State) (line : Nat) : Nat :=
  let held := keys (look s.coh.held 32 [])
  let asked := (s.coh.reqs.filter fun r => r.h = some .proxy && !r.served && r.issues != 0 && !held.contains r.line).map fun r => r.line
  ((held ++ dedup asked).filter (· ≠ line)).length

/-- The proxy may take one more line (R49). -/
def State.proxyRoom (s : State) (line : Nat) : Bool := s.proxyLines line < 65536

/-- Issues a request: to the line's home, or, of the home for itself, to the holders. The home gathers tokens for a group or for
a write of its own with a write request that it forwards itself, to the holders that its locator shows and then, each microsecond,
to all; it never makes it persistent. R59 does not say how a home gathers them: the choice is the model's (log 7). -/
def State.issueReq (s : State) (r : TokReq) (first : Bool) : State :=
  match r.h with
  | some g => s.send { src := hEnd r.line g, dst := homeOf r.line, kind := .request r.write first g, line := r.line, vd := r.vd
                       inc := r.inc }
  | none => s.forwards r.line true (if first then s.locator r.line else none) none r.vd

/-- A request of an agent, joined by the steps `us` that go on when it is served (R41). One that is new is sent if `send`; a proxy that is
full sends it once it has evicted its least recently used line (R49). -/
def State.enlist (s : State) (h : Option Holder) (line : Nat) (write : Bool) (v inc : Nat) (us : List (Instr × Focus)) (send : Bool) :
    State :=
  let same := fun (r : TokReq) => r.h = h && r.line = line && !r.served && (r.write || !write)
  if s.coh.reqs.any same then
    { s with coh := { s.coh with reqs := modFirst same (fun r =>
        { r with users := r.users ++ us.filter fun u => !r.users.contains u }) s.coh.reqs } }
  else
    let room := send && (h != some .proxy || s.proxyRoom line)
    let r : TokReq := { h, line, write, vd := v, inc, time := s.now, issues := if room then 1 else 0, users := us }
    let s := { s with coh := { s.coh with reqs := s.coh.reqs ++ [r] } }
    if room then s.issueReq r true else s

/-- An agent that lacks the tokens for an access of key incarnation `inc` asks for them, unless it has asked already (R37). -/
def State.want (s : State) (h : Option Holder) (line : Nat) (write : Bool) (v inc : Nat) (us : List (Instr × Focus)) : State :=
  if s.satisfied h line write then s else s.enlist h line write v inc us true

/-- A request of an agent for a line waits that `want` would not repeat. -/
def State.wanted (s : State) (h : Option Holder) (line : Nat) (write : Bool) (us : List (Instr × Focus)) : Bool :=
  s.coh.reqs.any fun r => r.h = h && r.line = line && !r.served && (r.write || !write) && us.all r.users.contains

-- ## Transactions of the proxy (R108)

/-- A transaction goes out on its link. -/
def State.startTxn (s : State) (t : CxlTxn) : State :=
  ({ s with cxl := { s.cxl with table := s.cxl.table ++ [{ t with time := s.now }] } }).emit (.cxl t.kind t.line)

/-- A transaction of the proxy on a CXL link (R108): 0 reads a line, 1 writes it, 2 recalls it from the host. It waits while
one for its line is outstanding or the table is full. -/
def State.cxlTxn (s : State) (kind line v : Nat) (owes : Owed) : State :=
  let port := if kind = 2 then 2 else match expanderOf (128 * line) with | some p => p | none => 2
  let t : CxlTxn := { id := s.nextId, vd := v, line, kind, port, time := s.now, owes, data := s.lineData line }
  let busy := (s.cxl.table ++ s.cxl.waiting).any (fun x => x.line = line) || 1024 ≤ s.cxl.table.length
  let s := { s with nextId := s.nextId + 1 }
  if busy then { s with cxl := { s.cxl with waiting := s.cxl.waiting ++ [t] } } else s.startTxn t
def State.cxlStart (s : State) (kind line v : Nat) : State := s.cxlTxn kind line v .home

/-- Recalls a line from the host before the proxy gives up its tokens, or a platen agent uses it (R49). -/
def State.backInvalidate (s : State) (line v : Nat) (owes : Owed) : State := s.cxlTxn 2 line v owes

/-- A transaction of a kind is outstanding for a line, or waits. -/
def State.hasTxn (s : State) (kind line : Nat) : Bool := (s.cxl.table ++ s.cxl.waiting).any fun x => x.line = line && x.kind = kind

/-- The proxy is recalling a line from the host already. -/
def State.recalling (s : State) (line : Nat) : Bool := s.hasTxn 2 line

/-- Steps that are to follow a transaction. -/
def Owed.join (us : List (Instr × Focus)) : Owed → Owed
  | .keep old => .keep (old ++ us.filter fun u => !old.contains u)
  | .home => .keep us
  | o => o

/-- Platen agents' steps wait for a line's transaction of a kind: it starts, or they join the one that runs; none where they
have. An eviction's or a request's recall that a platen agent joins stays what it is. -/
def State.follow (s : State) (kind line v : Nat) (us : List (Instr × Focus)) : Option State :=
  if !s.hasTxn kind line then some (s.cxlTxn kind line v (.keep us)) else
  let mine := fun (t : CxlTxn) => t.line = line && t.kind = kind && t.owes.join us != t.owes && !(kind = 2 && t.owes = .home)
  let f := fun (t : CxlTxn) => if mine t then { t with owes := t.owes.join us } else t
  if !(s.cxl.table ++ s.cxl.waiting).any mine then none else
  some { s with cxl := { s.cxl with table := s.cxl.table.map f, waiting := s.cxl.waiting.map f } }

-- ## The home's memory (R69, R80, R84)

/-- The home has the line's data at hand: in its LLC slice or at the proxy, or on its way to HBM4E, or cleared, or it is lost. -/
def State.ready (s : State) (line : Nat) : Bool :=
  (find s.coh.llc line).isSome || s.isLost line || (!hostLine line && !s.hbm.written.contains line) ||
  s.hbm.reqs.any fun r => r.line = line && r.write

/-- The home is reading a line. -/
def State.reading (s : State) (line : Nat) : Bool :=
  s.hbm.reqs.any (fun r => r.line = line && !r.write) ||
  s.cxl.table.any (fun t => t.line = line && t.kind = 0) || s.cxl.waiting.any fun t => t.line = line && t.kind = 0

/-- The home reads a line from its pseudo-channel (R84) or over its link (R106), unless it does already. -/
def State.readHbm (s : State) (line v : Nat) : State :=
  if s.reading line then s
  else if hostLine line then s.cxlStart 0 line v
  else { s with nextId := s.nextId + 1
                hbm := { s.hbm with reqs := s.hbm.reqs ++ [{ id := s.nextId, line, vd := v, write := false, time := s.now }] } }

/-- A line's data is at the host proxy (R106), or no longer. -/
def State.atProxy (s : State) (line v : Nat) : State :=
  { s with coh := { s.coh with llc := put s.coh.llc line { valid := true, ctx := v, used := s.now } } }

/-- Over PCIe the proxy keeps nothing of host memory once it has passed it on: the next access reads it again (R106, R227). -/
def State.passOn (s : State) (line : Nat) : State :=
  if s.cxl.cxlMode || 128 * line < hostBase then s else { s with coh := { s.coh with llc := del s.coh.llc line } }

/-- The LLC set of a line: its slice, and the line's number in the slice modulo 8,192 sets (R69 does not name the index: log 12). -/
def llcSet (line : Nat) : Nat := sliceOf (128 * line) * 8192 + localOf (128 * line) % 8192

/-- A line leaves its LLC slice: token count and owner bit stay in the metadata columns, a written line goes to HBM4E (R36, R69). -/
def State.evictLlc (s : State) (line : Nat) : State :=
  match find s.coh.llc line with
  | none => s
  | some t =>
    let s := { s with coh := { s.coh with llc := del s.coh.llc line } }
    if !t.dirty then s else
    { s with nextId := s.nextId + 1
             hbm := { s.hbm with reqs := s.hbm.reqs ++ [{ id := s.nextId, line, vd := t.ctx, write := true, time := s.now }] } }

/-- Room for a line in its LLC set: of 16 other lines the least recently used leaves first (R69). -/
def State.llcRoom (s : State) (line : Nat) : State :=
  let set := s.coh.llc.filter fun e => e.1 != line && !hostLine e.1 && llcSet e.1 = llcSet line
  if set.length < 16 then s else
  match sortBy (fun e : Nat × Tag => e.2.used) set with
  | e :: _ => s.evictLlc e.1
  | [] => s

/-- A line enters its LLC slice, or is used there (R69), or is written over its link (R106); a write at the home clears its cleared bit (R80). -/
def State.fillLlc (s : State) (line v : Nat) (dirty : Bool) : State :=
  if hostLine line then (if dirty then ((s.atProxy line v).passOn line).cxlStart 1 line v else s) else
  let s := s.llcRoom line
  let t := look s.coh.llc line { valid := true, inc := s.lineInc line, ctx := v }
  let w := s.hbm.written
  let s := if dirty && !w.contains line then { s with hbm := { s.hbm with written := w ++ [line] } } else s
  { s with coh := { s.coh with llc := put s.coh.llc line { t with dirty := t.dirty || dirty, used := s.now } } }

-- ## Platen agents (R33, R35, R41)

/-- The holder through which a platen agent reads and writes a line: the proxy, or the home for a line homed there. -/
def platenHolder (line : Nat) : Option Holder := if hostLine line then none else some .proxy

/-- The host's cache stands in the way of a platen agent: it may have written the line, or the agent is to write it (R49). -/
def State.hostHas (s : State) (line : Nat) (write : Bool) : Bool := (find s.cxl.hostLines line).any fun own => own || write

/-- A platen agent has what it needs to read or write a line: the proxy, or the home of a line homed there, holds the tokens (R35) and
the data, and the host's cache holds no copy in the way. -/
def State.agentHas (s : State) (line : Nat) (write : Bool) : Bool :=
  s.satisfied (platenHolder line) line write && !s.hostHas line write && (!hostLine line || s.ready line)

/-- A platen agent may read or write a line now: no copy agent's ownership buffer holds it (R42). -/
def State.agentMay (s : State) (line : Nat) (write : Bool) : Bool := s.agentHas line write && !s.buffered line

/-- A use of a line by a platen agent counts for the proxy's order of eviction (R49). -/
def State.touch (s : State) (line : Nat) : State :=
  let t := s.held' .proxy line
  if t.tokens = 0 then s else s.setHeld .proxy line { t with used := s.now }

/-- What a platen agent that may not yet use a line starts for it, or how it waits for a copy agent's write (R42); none if that runs
already. -/
def State.agentAsk (s : State) (line : Nat) (write : Bool) (v : Nat) (us : List (Instr × Focus)) : Option State :=
  let h := platenHolder line
  if s.agentHas line write then (if s.wanted h line write us then none else some (s.enlist h line write v (s.lineInc line) us false)) else
  if !s.satisfied h line write then (if s.wanted h line write us then none else some (s.want h line write v (s.lineInc line) us))
  else s.follow (if s.hostHas line write then 2 else 0) line v us

/-- The platen agent's step `me`, acting on `s.focus`, uses lines (true: writes) by `f` once `may` lets it use each; until then it asks,
and the result is none while all it needs is asked for. Its turn comes as soon as the tokens are there (R41). -/
def State.usingIf (s : State) (may : Nat × Bool → Bool) (me : Instr) (ls : List (Nat × Bool)) (v : Nat) (f : State → Option State) :
    Option State :=
  match ls.find? fun l => !may l with
  | none => (f (ls.foldl (fun t l => t.touch l.1) s)).map fun t => ls.foldl (fun t l => t.passOn l.1) t
  | some l => s.agentAsk l.1 l.2 v [(me, s.focus)]

/-- A platen agent uses lines that no copy agent's buffer holds. -/
def State.using (s : State) (me : Instr) (ls : List (Nat × Bool)) (v : Nat) (f : State → Option State) : Option State :=
  s.usingIf (fun l => s.agentMay l.1 l.2) me ls v f

/-- A copy agent writes the lines that its own ownership buffer holds (R33, R42). -/
def State.usingBuffer (s : State) (me : Instr) (lines : List Nat) (v : Nat) (f : State → Option State) : Option State :=
  s.usingIf (fun l => s.agentHas l.1 l.2) me (lines.map fun l => (l, true)) v f

/-- Lines that a platen agent writes (R42). -/
def State.owning (s : State) (me : Instr) (lines : List Nat) (v : Nat) (f : State → State) : Option State :=
  s.using me (lines.map fun l => (l, true)) v fun s => some (f s)

/-- A write within one line by a platen agent that holds its tokens. -/
def State.platenPoke (s : State) (pa : Nat) (bs : List Byte) (v : Nat) : State :=
  let s := s.poke pa bs
  match platenHolder (pa / 128) with
  | some h => s.setHeld h (pa / 128) { s.held' h (pa / 128) with dirty := true, used := s.now }
  | none => s.fillLlc (pa / 128) v true

/-- Bytes of a write, cut at the lines' ends: addresses and bytes. -/
def cutLines : Nat → Nat → List Byte → List (Nat × List Byte)
  | 0, _, _ => []
  | n + 1, a, bs => if bs.isEmpty then [] else
    let k := 128 - a % 128
    (a, bs.take k) :: cutLines n (a + k) (bs.drop k)

/-- Some of the lines cannot be read without an error: they are lost, or the proxy's copy is (R87). -/
def State.anyLost (s : State) (lines : List Nat) : Bool := lines.any fun l => s.isLost l || (s.held' .proxy l).lost

end Sys2Proof.Machine
end

