-- ==== Sys2Proof/Machine/Translate.lean ====
section
/-!
DEFINITION. Address translation (R140–R147), TLBs (R148, R150), parking (R151) and watches (R265).
-/
namespace Sys2Proof.Machine

-- ## Stage 2 (R141, R143)

def pageSize (level : Nat) : Nat := 4096 * 512 ^ level

/-- The index of an address at a level (R141). -/
def levelIndex (a k : Nat) : Nat := bits a (20 + 9 * k) (12 + 9 * k)

/-- The entry that the walker reads at a level: at level 0 a valid 64 KiB group head stands for its group (R141).
`c64` is the place of `C64`. -/
def entryAddr (m : Nat → Nat) (tbl a k c64 : Nat) : Nat :=
  let head := tbl + 8 * (levelIndex a k / 16 * 16)
  if k = 0 && bit (m head) 0 && bit (m head) c64 then head else tbl + 8 * levelIndex a k

/-- The stage-2 leaf for a guest physical address, by the table entries that `m` gives: entry, leaf size, physical address. -/
def s2Walk (m : Nat → Nat) : Nat → Nat → Nat → Option (Nat × Nat × Nat)
  | 0, _, _ => none
  | k + 1, tbl, gpa =>
    let e := m (entryAddr m tbl gpa k 5)
    if !bit e 0 then none
    else if bit e 1 then s2Walk m k (4096 * bits e 47 12) gpa
    else
      let size := if bit e 5 then 65536 else pageSize k
      some (e, size, 4096 * bits e 47 12 + gpa % size)

/-- The addresses of the entries that this walk reads. -/
def s2Path (m : Nat → Nat) : Nat → Nat → Nat → List Nat
  | 0, _, _ => []
  | k + 1, tbl, gpa =>
    let a := entryAddr m tbl gpa k 5
    a :: if bit (m a) 0 && bit (m a) 1 then s2Path m k (4096 * bits (m a) 47 12) gpa else []

/-- A table entry as a walker of VD `v` sees it: in its walk cache, else in memory (R148). -/
def State.entryAt (s : State) (v a : Nat) : Nat :=
  match s.walkCache.find? fun e => e.1 = v && e.2.1 = a with
  | some e => e.2.2
  | none => s.mem.readNat a 8

/-- The root of a VD's stage-2 tables (R117). -/
def State.s2Root (s : State) (v : Nat) : Nat := 4096 * bits (s.vd v).s2root.toNat 47 12

/-- Access types that write (R151). -/
def isWriteType (t : Nat) : Bool := t = 1 || t = 2 || t = 5

/-- A stage-2 translation (R147): the leaf, or a fault: `absent` says that an entry was not valid. -/
inductive S2 where
  | ok (e size pa : Nat)
  | fault (absent : Bool)
  | key
  /-- A line of the tables is lost (R87). -/
  | lost
  deriving DecidableEq, Repr

/-- Lines that a walk has to read in memory: those of the path's entries that the walk cache does not hold. -/
def State.pathLines (s : State) (v : Nat) (path : List Nat) : List Nat :=
  dedup ((path.filter fun a => !s.walkCache.any fun e => e.1 = v && e.2.1 = a).map fun a => a / 128)

/-- The last two checks of R147 for a guest physical address. -/
def State.s2 (s : State) (v gpa atype : Nat) : S2 :=
  if (s.pathLines v (s2Path (s.entryAt v) 4 (s.s2Root v) gpa)).any s.isLost then .lost else
  match s2Walk (s.entryAt v) 4 (s.s2Root v) gpa with
  | none => .fault true
  | some (e, size, pa) =>
    let allowed := if atype = 3 then bit e 4 else if isWriteType atype then bit e 3 else bit e 2
    let failed := match expanderOf pa with
      | some p => (s.cxl.failed.contains p && !s.cxl.remapped.contains (4096 * bits e 47 12)) || !s.names pa
      | none => false
    if failed then .fault true
    else if !allowed then .fault false
    else if pa < hbmEnd && !((s.tag pa).bound && (s.tag pa).key = bits e 63 54) then .key
    else .ok e size pa

-- ## Stage 1 (R142, R144, R146)

/-- The outcome of a translation (R147): physical address, `PERMISSION`, or a replayable outcome with its code and
stage; `absent` says that the page is non-present (R155). -/
inductive Tr where
  | ok (pa : Nat)
  | perm (einfo : Nat)
  | replay (code : Nat) (stage2 absent : Bool)
  /-- The walk waits for tokens or a walker; the access is tried again. -/
  | busy
  /-- A table's line is lost: the read completes with an error (R87). -/
  | lost
  deriving DecidableEq, Repr

/-- What a walk of stage 1 finds: the leaf with its level, address and size, or an outcome. -/
inductive S1 where
  | leaf (e addr size : Nat)
  | out (r : Tr)
  deriving DecidableEq, Repr

def ofS2 : S2 → Tr
  | .ok _ _ pa => .ok pa
  | .fault a => .replay 0x06 true a
  | .key => .replay 0x08 true false
  | .lost => .lost

/-- A malformed stage-1 entry (R144). -/
def malformed (e k : Nat) (head : Bool) : Bool :=
  bits e 11 7 != 0 || bits e 63 48 != 0 || (bit e 1 && k = 0) || (!bit e 1 && (k = 3 || k = 4)) ||
  (bit e 6 && !(k = 0 && head && !bit e 1)) ||
  (!bit e 1 && (4096 * bits e 47 12) % (if bit e 6 then 65536 else pageSize k) != 0)

/-- The stage-1 walk from a table's guest physical address; each table read is translated by stage 2 (R146). -/
def State.s1Walk (s : State) (v : Nat) : Nat → Nat → Nat → S1
  | 0, _, _ => .out (.perm 2)
  | k + 1, tbl, va =>
    match s.s2 v tbl 0 with
    | .ok _ _ base =>
      let addr := entryAddr (s.entryAt v) base va k 6
      let e := s.entryAt v addr
      if !bit e 0 then .out (.replay 0x06 false true)
      else if malformed e k ((addr - base) / 8 % 16 = 0) then .out (.perm 2)
      else if bit e 1 then s.s1Walk v k (4096 * bits e 47 12) va
      else .leaf e addr (if bit e 6 then 65536 else pageSize k)
    | r => .out (ofS2 r)

/-- The addresses of the entries that a stage-1 walk reads, those of stage 2 among them. -/
def State.s1Path (s : State) (v : Nat) : Nat → Nat → Nat → List Nat
  | 0, _, _ => []
  | k + 1, tbl, va =>
    s2Path (s.entryAt v) 4 (s.s2Root v) tbl ++
    match s.s2 v tbl 0 with
    | .ok _ _ base =>
      let addr := entryAddr (s.entryAt v) base va k 6
      let e := s.entryAt v addr
      addr :: if bit e 0 && bit e 1 && !malformed e k ((addr - base) / 8 % 16 = 0) then s.s1Path v k (4096 * bits e 47 12) va else []
    | _ => []

/-- The entries of a path that point to tables enter the walk cache; the oldest leave a full one (R148). -/
def State.cacheWalk (s : State) (v : Nat) (path : List Nat) : State :=
  let new := (dedup (path.filter fun a => bit (s.entryAt v a) 1 && !s.walkCache.any fun e => e.1 = v && e.2.1 = a)).map
    fun a => (v, a, s.entryAt v a)
  { s with walkCache := if new.isEmpty then s.walkCache else (new ++ s.walkCache).take (Config.walkCache + 1) }

/-- An address is canonical (R140). -/
def canonical (va : Nat) : Bool := bits va 63 56 = 0 || bits va 63 56 = 255

/-- What a walk through both stages finds: the outcome, or the TLB entry and the leaf with the bits `A` and `D` that it is to
have, with its address (R146). -/
def State.walkOut (s : State) (v asid va atype : Nat) : Except Tr (TlbEntry × Nat × Nat) :=
  let root := ((look (s.vd v).roots asid (0#64, 0#64)).1).toNat
  if !bit root 0 then .error (.replay 0x06 false true) else
  match s.s1Walk v 5 (4096 * bits root 47 12) va with
  | .out r => .error r
  | .leaf e addr size =>
    if isWriteType atype && !bit e 2 then .error (.perm 3)
    else if atype = 3 && !bit e 3 then .error (.perm 4)
    else
      let gpa := 4096 * bits e 47 12 + va % size
      match s.s2 v gpa atype with
      | .ok e2 size2 pa =>
        let d := bit e 5 || isWriteType atype
        let n := min size size2
        .ok ({ vd := v, asid, va := va / n * n, size := n, gpa := gpa / n * n, pa := pa / n * n, key := bits e2 63 54,
               w := bit e 2, x := bit e 3, d, r2 := bit e2 2, w2 := bit e2 3, x2 := bit e2 4, mig := bit e2 6 },
             e ||| 16 ||| (if d then 32 else 0), addr)
      | r => .error (ofS2 r)

/-- The entries that a walk through both stages reads. -/
def State.walkPath (s : State) (v asid va atype : Nat) : List Nat :=
  let root := ((look (s.vd v).roots asid (0#64, 0#64)).1).toNat
  if !bit root 0 then [] else
  s.s1Path v 5 (4096 * bits root 47 12) va ++
  match s.s1Walk v 5 (4096 * bits root 47 12) va with
  | .leaf e _ size =>
    if (isWriteType atype && !bit e 2) || (atype = 3 && !bit e 3) then []
    else s2Path (s.entryAt v) 4 (s.s2Root v) (4096 * bits e 47 12 + va % size)
  | .out _ => []

/-- A walker waits for a line, unless all 64 are at work (R148). -/
def State.walkWaits (s : State) (w : Walk) (write : Bool) : State :=
  let same := fun (o : Walk) => { o with line := w.line } = w
  if s.walks.any fun o => o = w then (s.agentAsk w.line write w.vd []).getD s
  else if !s.walks.any same && 64 ≤ s.walks.length then s
  else ({ s with walks := (s.walks.filter fun o => !same o) ++ [w] }.agentAsk w.line write w.vd []).getD
    { s with walks := (s.walks.filter fun o => !same o) ++ [w] }

/-- An entry that covers an address. -/
def TlbEntry.hits (e : TlbEntry) (v asid va : Nat) : Bool :=
  e.vd = v && e.asid = asid && e.va ≤ va && va < e.va + e.size

/-- An entry serves an access that its permissions allow; no write while `D` = 0 (R146). -/
def TlbEntry.serves (e : TlbEntry) (atype : Nat) : Bool :=
  if atype = 3 then e.x && e.x2 else if isWriteType atype then e.w && e.w2 && e.d else e.r2

/-- The walks of a die's agents, or of the platen's, that an entry serves end with it (R148). -/
def State.endWalks (s : State) (place : Option (Nat × Nat)) (e : TlbEntry) : State :=
  { s with walks := s.walks.filter fun o =>
      !(o.place.map Prod.fst = place.map Prod.fst && e.hits o.vd o.asid o.va && e.serves o.atype) }

/-- A walk through both stages by one of the platen's walkers, through the host proxy (R33, R146, R148): it reads each entry with a
token and sets `A` and `D` in the leaf with all 64, in one step; until it has them it waits. One walker serves every lane of a page. -/
def State.walk (s : State) (place : Option (Nat × Nat)) (v asid va atype : Nat) : State × Except Tr TlbEntry :=
  let path := s.walkPath v asid va atype
  let out := s.walkOut v asid va atype
  let w : Walk := { place, vd := v, asid, va := va / 4096 * 4096, atype, line := 0 }
  let ends := fun (s : State) => { s with walks := s.walks.filter fun o => { o with line := 0 } != w }
  let ls := (s.pathLines v path).map fun l => (l, false)
  let ls := ls ++ match out with
    | .ok (_, e, addr) => if s.mem.readNat addr 8 = e then [] else [(addr / 128, true)]
    | .error _ => []
  match ls.find? fun l => !s.agentMay l.1 l.2 with
  | some (l, write) => (s.walkWaits { w with line := l } write, .error .busy)
  | none =>
    if s.anyLost (ls.map Prod.fst) then (ends s, .error .lost) else
    match out with
    | .error r => (ends s, .error r)
    | .ok (t, e, addr) =>
      let s := ((ends s).endWalks place t).cacheWalk v path
      (if s.mem.readNat addr 8 = e then s else s.platenPoke addr (leBytes 8 e) v, .ok t)

-- ## TLBs

/-- A new entry stands first; the oldest leave a full TLB (R148; log 12). -/
def tlbInsert (cap : Nat) (e : TlbEntry) (l : List TlbEntry) : List TlbEntry :=
  (e :: l.filter fun o => !(o.vd = e.vd && o.asid = e.asid && o.va = e.va && o.size = e.size)).take cap

/-- What the TLBs of a cluster and its die say of an address. -/
inductive Look where
  | hit (e : TlbEntry)
  | multi
  | miss
  deriving DecidableEq, Repr

def lookTlb (l : List TlbEntry) (v asid va : Nat) : Look :=
  match l.filter fun e => e.hits v asid va with
  | [] => .miss
  | e :: es => if es.any fun o => o.size != e.size then .multi else .hit e

/-- A number above the clusters': a walk that fills a die's TLB alone (R156). -/
def noCluster : Nat := 512

/-- Changes the TLBs of a place. -/
def State.mapTlb (s : State) (d g : Nat) (f : Nat → List TlbEntry → List TlbEntry) : State :=
  let s := if g < noCluster then s.setCl g fun c => { c with tlb := f 256 c.tlb } else s
  s.setDie d fun x => { x with tlb := f 8192 x.tlb }

/-- Translates one address for cluster `g` on die `d`; a platen agent has neither (R146–R150). -/
def State.translate (s : State) (place : Option (Nat × Nat)) (v asid va atype : Nat) : State × Tr :=
  if !canonical va then (s, .perm 1) else
  let fresh := fun (s : State) =>
    match s.walk place v asid va atype with
    | (s, .error r) => (s, r)
    | (s, .ok e) =>
      let s := match place with
        | some (d, g) => s.mapTlb d g fun n l => tlbInsert n e l
        | none => s
      (s, .ok (e.pa + va % e.size))
  match place with
  | none => fresh s
  | some (d, g) =>
    let l := (s.cl g).tlb
    let r := match lookTlb l v asid va with
      | .miss => lookTlb (s.die d).tlb v asid va
      | r => r
    match r with
    | .hit e =>
      let pa := e.pa + va % e.size
      if !e.serves atype then fresh s
      else if pa < hbmEnd && !((s.tag pa).bound && (s.tag pa).key = e.key) then (s, .replay 0x08 true false)
      else (s, .ok pa)
    | .multi =>
      let s := s.mapTlb d g fun _ l => l.filter fun e => !e.hits v asid va
      fresh (s.emit (.vdc 0x18 v va 0))
    | .miss => fresh s

-- ## Stage 2 by platen agents, and the device's own writes (R33, R35, R41)

/-- The lines of the tables that a stage-2 translation of a guest physical address reads. -/
def State.s2Lines (s : State) (v gpa : Nat) : List Nat := s.pathLines v (s2Path (s.entryAt v) 4 (s.s2Root v) gpa)

/-- A platen agent's step translates guest physical addresses through stage 2 alone: it reads the tables' lines with a token each. -/
def State.usingTables (s : State) (me : Instr) (v : Nat) (gpas : List Nat) (f : State → Option State) : Option State :=
  s.using me ((dedup (gpas.flatMap (s.s2Lines v))).map fun l => (l, false)) v f

/-- Asks for what a stage-2 translation by the device itself still lacks; none if it lacks nothing. -/
def State.tablesLack (s : State) (v gpa : Nat) : Option State :=
  ((s.s2Lines v gpa).find? fun l => !s.agentMay l false).map fun l => (s.agentAsk l false v []).getD s

/-- Drops a sample (R261); the count saturates. -/
def State.dropSample (s : State) (v : Nat) : State :=
  s.setVd v fun x => { x with smpdrop := if x.smpdrop = 0xFFFFFFFF#32 then x.smpdrop else x.smpdrop + 1#32 }

/-- The line of a posted write whose address is translated. -/
def Post.line (p : Post) : Option Nat := match p.dest with | .phys pa => some (pa / 128) | _ => none

/-- A write comes after one posted before: of its line, or of a line that is not known yet, or, where both are records of a VD's sample
ring, of that ring. -/
def Post.after (p o : Post) : Bool :=
  (match p.line, o.line with | some a, some b => a = b | _, _ => o.vd = p.vd) || (p.tail && o.tail && o.vd = p.vd)

/-- The physical address of a posted write: none while its translation waits, or an outcome without one. -/
def State.placePost (s : State) (p : Post) : State × Option (Option Nat) :=
  match p.dest with
  | .phys pa => (s, some (some pa))
  | .guest a =>
    match s.tablesLack p.vd a with
    | some t => (t, none)
    | none => (s, some (match s.s2 p.vd a 1 with | .ok _ _ pa => some pa | _ => none))
  | .virt asid va =>
    match s.translate none p.vd asid va 5 with
    | (s, .busy) => (s, none)
    | (s, r) => (s, some (match r with | .ok pa => some pa | _ => none))

/-- Makes a write of the device itself. -/
def State.makePost (s : State) (p : Post) (pa : Nat) : State :=
  let s := s.platenPoke pa p.bytes p.vd
  if p.tail then s.setVd p.vd fun x => { x with smptail := x.smptail + 1#32 } else s

/-- Makes the posted writes that nothing holds back, in order, and asks for what the others lack: those still to look at, those kept. One
whose address does not translate is dropped. -/
def State.drainPosts : List Post → List Post → State → State
  | [], kept, s => { s with posted := kept }
  | p :: ps, kept, s =>
    if kept.any p.after then State.drainPosts ps (kept ++ [p]) s else
    match s.placePost p with
    | (s, none) => State.drainPosts ps (kept ++ [p]) s
    | (s, some none) => State.drainPosts ps kept (if p.tail then s.dropSample p.vd else s)
    | (s, some (some pa)) =>
      if s.agentMay (pa / 128) true then State.drainPosts ps kept (s.makePost p pa)
      else State.drainPosts ps (kept ++ [{ p with dest := .phys pa }]) ((s.agentAsk (pa / 128) true p.vd []).getD s)

/-- Writes within one line each by the device itself: at once, or when the tokens are there, after those that they come after. -/
def State.post (s : State) (ps : List Post) : State := State.drainPosts (s.posted ++ ps) [] s

/-- Writes bytes at rising guest physical addresses through stage 2 only; a page that does not translate is skipped. The writes name `cmd`,
which waits for them. -/
def State.s2Write (s : State) (v gpa : Nat) (bs : List Byte) (cmd : Option Nat := none) : State :=
  s.post ((cutLines (bs.length + 1) gpa bs).map fun b => { vd := v, dest := .guest b.1, bytes := b.2, cmd })

/-- The posted writes go on when a line's tokens have come. -/
def State.resumePosts (s : State) (line : Nat) : State :=
  if s.posted.any fun p => p.line.all (· = line) then State.drainPosts s.posted [] s else s

-- ## Fault records and the wait table (R151)

/-- Records of a park go to the VD's fault queue by stage 1, to the VDC by stage 2; none of a VD that is being killed (R136). -/
def State.report (s : State) (v : Nat) (rs : List FRecord) : State :=
  let one := rs.filter fun r => !r.stage2
  let two := if (s.vd v).state = .killing then [] else rs.filter fun r => r.stage2
  let s := s.setVd v fun x => { x with undelivered := x.undelivered ++ one, vdcRecords := x.vdcRecords ++ two }
  two.foldl (fun s r => s.emit (.vdcRecord v r)) s

/-- The lowest free entry of a die's wait table; none while it is full. -/
def State.freeWait (s : State) (d : Nat) : Option Nat :=
  let w := (s.die d).waits
  (List.range 4096).find? fun i => (look w i {}).waiter.isNone

/-- Takes a wait-table entry for a waiter and emits its records with the entry's token; none while the table is full. -/
def State.enterWait (s : State) (d v : Nat) (who : Waiter) (rs : List FRecord) : Option (Nat × State) :=
  (s.freeWait d).map fun i =>
    let gen := (look (s.die d).waits i {}).gen
    let rs := rs.map fun (r : FRecord) => { r with token := waitToken d i gen }
    let s := s.setDie d fun x => { x with waits := put x.waits i { gen, waiter := some who, vd := v, left := rs } }
    (i, s.report v rs)

-- ## Accesses of an instruction

/-- Where the issuing warp translates. -/
def Ctx.place (c : Ctx) : Option (Nat × Nat) := some (c.die, c.g)

/-- Translates lanes in ascending order. -/
def transLanes (place : Option (Nat × Nat)) (v asid atype : Nat) : State → List (Nat × Nat) → State × List (Nat × Nat × Tr)
  | s, [] => (s, [])
  | s, (l, va) :: r =>
    let (s, t) := s.translate place v asid va atype
    let (s, ts) := transLanes place v asid atype s r
    (s, (l, va, t) :: ts)

/-- The replayable failures among translated lanes. -/
def replays (ts : List (Nat × Nat × Tr)) : List (Nat × Nat × Nat × Bool) :=
  ts.filterMap fun t => match t.2.2 with
    | .replay code s2 _ => some (t.1, t.2.1, code, s2)
    | _ => none

/-- One record for each distinct 4 KiB page that failed, in the order of their lowest lanes (R151). -/
def pageRecords (fs : List (Nat × Nat × Nat × Bool)) (base : FRecord) : List FRecord :=
  (dedup (fs.map fun f => f.2.1 / 4096)).filterMap fun p =>
    let on := fs.filter fun f => f.2.1 / 4096 = p
    match sortBy (fun f => f.2.1) on with
    | [] => none
    | f :: _ => some { base with
        va := BitVec.ofNat 64 f.2.1, code := f.2.2.1, stage2 := f.2.2.2, lanes := maskOf (on.map fun f => f.1) }

/-- The warp parks as a whole with its records, or stalls while the wait table is full (R151). -/
def Ctx.parkOn (c : Ctx) (s : State) (rs : List FRecord) : Res :=
  match s.enterWait c.die c.vd (.warp c.w) rs with
  | none => .hold .counter
  | some (i, s) => .parked (s.setWarp c.w fun x => { x with parked := some (c.die, i), epoch := (s.vd c.vd).epoch })

/-- The record fields that an instruction's failed pages share (R151, R291). -/
def Ctx.recBase (c : Ctx) (atype log2w : Nat) : FRecord :=
  { va := 0#64, pc := c.pc, code := 0, atype, log2w, asid := c.k.asid
    place := placeWord c.vd c.die c.g (slotNumber c.w.wi c.x.slot) }

/-- Where warp `w`'s part of a block image begins (R185 gives the sizes; the order of the parts is internal, and the model's choice:
log 78). -/
def warpPart (k : Kernel) (w : Nat) : Nat := 4096 + 256 * k.scratch + 8192 * k.oslots + 65536 * k.aslots + w * (1536 + 128 * k.vregs)

/-- The guest physical address of a VD's context save area (R117). -/
def Vd.saveBase (x : Vd) : Nat := 4096 * bits x.saveArea.toNat 47 12

/-- The warp's write of a slot of its spill ring, through stage 2 only; a fault there parks the warp with access type 1 (R202, R203).
The 16 bytes are internal to the device: free values. -/
def Ctx.ring (c : Ctx) (s : State) (slot : Nat) (f : State → Res) : Res :=
  let a := (s.vd c.vd).saveBase + c.b.area.getD 0 + warpPart c.k c.w.wi + 16 * slot
  match s.tablesLack c.vd a with
  | some t => .busy t
  | none =>
  let park := fun (code : Nat) =>
    c.parkOn s [{ c.recBase 1 4 with va := BitVec.ofNat 64 a, code, stage2 := true, lanes := c.f.mask }]
  match s.s2 c.vd a 1 with
  | .ok _ _ pa =>
    let (s, bs) := s.freeBytes 16
    f (s.post [{ vd := c.vd, dest := .phys pa, bytes := bs.map (BitVec.ofNat 8) }])
  | .fault _ => park 0x06
  | .key => park 0x08
  | .lost => .fault { code := 0x10, einfo := c.pc.setWidth 32 }

/-- An enabled watch of a matching kind that an access touches (R264, R265); `kind` 0 fetch, 1 read, 2 write. -/
def watchHit (v : Vd) (kind va width : Nat) : Option Nat :=
  (List.range 4).find? fun k =>
    let c := (vget v.wctl k 0#32).toNat
    let n := 2 ^ bits c 7 3
    let base := bits (vget v.waddr k 0#64).toNat 56 0 / n * n
    let a := bits va 56 0
    bit c 0 && (bits c 2 1 = kind || (bits c 2 1 = 3 && kind != 0)) && a < base + n && base < a + width

/-- A watch that lanes touch (R265). -/
def Ctx.watched (c : Ctx) (atype width : Nat) (lanes : List (Nat × Nat)) : Option FaultInfo :=
  if c.x.passStop then none else
  (lanes.findSome? fun l => watchHit (c.s.vd c.vd) (if isWriteType atype then 2 else 1) l.2 width).map fun k =>
    { code := 0x14, einfo := BitVec.ofNat 32 k }

/-- Translates the active lanes of an instruction: a watch stops it, the lowest lane with a non-replayable outcome
decides, a replayable one parks it (a lost table line is not: log 76), while a walk goes on the instruction waits, else `f` goes on with the physical addresses (R147, R151, R354). `who` is the lane mask of
an abort's record (R290). -/
def Ctx.access (c : Ctx) (atype log2w : Nat) (lanes : List (Nat × Nat)) (f : State → List (Nat × Nat) → Res)
    (who : Mask := maskOf (lanes.map fun l => l.1)) : Res :=
  match c.watched atype (2 ^ log2w) lanes with
  | some i => c.stop i
  | none =>
    let (s, ts) := transLanes c.place c.vd c.k.asid atype c.s lanes
    if ts.any fun t => t.2.2 = .busy then .busy s else
    match ts.findSome? fun t => match t.2.2 with
      | .perm e => some (t.2.1, 0x07, BitVec.ofNat 32 e) | .lost => some (t.2.1, 0x10, c.pc.setWidth 32) | _ => none with
    | some (va, code, e) =>
      .faultIn c s { code, einfo := e, atype, log2w, va := BitVec.ofNat 64 va, lanes := some who }
    | none =>
      if (replays ts).isEmpty then
        f s (ts.filterMap fun t => match t.2.2 with | .ok pa => some (t.1, pa) | _ => none)
      else c.parkOn s (pageRecords (replays ts) (c.recBase atype log2w))

end Sys2Proof.Machine
end

