-- ==== Sys2Proof/Machine/Order.lean ====
section
/-!
DEFINITION. Ordering: what a release waits for and what an acquire does (R227, R228), and named barriers (R376) and `GBAR`
(R378) as operations.
-/
namespace Sys2Proof.Machine

-- ## The clusters' clock (R23, R24, R27)

/-- Ticks in a cycle of the clusters' clock: the slower of two while a new mode settles (R24). -/
def State.clusterTicks (s : State) : Nat := arithTicks (match s.power.settle with | some (m, _) => m | none => s.power.mode)

/-- Ticks in a cycle of a cluster: on a hot die the clock is half (R27). -/
def State.cycleTicks (s : State) (g : Nat) : Nat := if (s.die (g / 16)).hot then 2 * s.clusterTicks else s.clusterTicks

-- ## Releases and acquires (R227)

/-- Some line of a cluster's L1 holds written bytes. -/
def State.l1Dirty (s : State) (g : Nat) : Bool := (s.cl g).l1.any fun l => l.2.dirty != 0

/-- L1 holds written bytes of a line. -/
def State.l1Written (s : State) (g line : Nat) : Bool := (find (s.cl g).l1 line).any fun l => l.dirty != 0#128

/-- A write-combining entry holds bytes of the warp. -/
def State.wcbHolds (s : State) (g : Nat) (w : WarpRef) : Bool :=
  (s.cl g).wcb.any fun e => e.owners.any fun o => o.1 = w

/-- An access that a device-scope release waits for. -/
def AccKind.isLocal : AccKind → Bool
  | .remote .. | .pref _ => false
  | _ => true

def AccKind.isRemote : AccKind → Bool
  | .remote .. => true
  | _ => false

/-- An access whose outcome comes back to the warp or that modifies memory in one step. -/
def AccKind.isBlocking : AccKind → Bool
  | .load _ | .sload | .near .. | .far .. => true
  | _ => false

/-- A remote operation of warp `w` or of one whose remote operations a release has passed on to it is outstanding (R225, R227). -/
def State.remoteBefore (s : State) (v : Nat) (w : WarpRef) : Bool :=
  s.blocks.any fun (b : Nat × Block) => b.2.img.warps.zipIdx.any fun (x : Warp × Nat) => x.1.accesses.any fun a =>
    a.kind.isRemote && ((b.1 = w.blk && (x.2 = w.wi || a.rel != 0)) || (a.vd = v && a.rel = 2))

/-- A release of a warp at a scope passes on the remote operations that come before it: its own, and those passed on to its block
(R225). -/
def State.passRemotes (s : State) (w : WarpRef) (scope : Nat) : State :=
  if scope = 0 then s else
  s.setImg w.blk fun i => { i with warps := i.warps.zipIdx.map fun (x : Warp × Nat) =>
    { x.1 with accesses := x.1.accesses.map fun a =>
        if a.kind.isRemote && (x.2 = w.wi || a.rel != 0) then { a with rel := max a.rel (if scope = 1 then 1 else 2) } else a } }

/-- Everything that a release of a scope waits for is done (R227; RBK releases at DV, R220). At WP the loads and atomics of the warp
have been performed: its stores are, for its own threads, once they are issued. At DV the whole L1 has drained, for bytes that other
warps released to this one at BK are in it; at FB the remote operations that other warps released to this one are done too (R225). -/
def State.released (s : State) (g v : Nat) (w : WarpRef) (x : Warp) (scope : Nat) : Bool :=
  let dv := !s.l1Dirty g && !x.accesses.any fun a => a.kind.isLocal
  match scope with
  | 0 => !x.accesses.any fun a => a.kind.isBlocking
  | 1 => !s.wcbHolds g w && !x.accesses.any fun a => a.kind.isBlocking
  | 2 | 5 => dv
  | 3 => dv && !(s.cxl.table ++ s.cxl.waiting).any fun t => t.vd = v && t.kind = 1
  | _ => dv && (!(s.cxl.table ++ s.cxl.waiting).any fun t => t.vd = v && t.kind = 1) && !s.remoteBefore v w

/-- Every cluster granted to a VD has drained to die L2 (R228). -/
def State.rbkDrained (s : State) (v : Nat) : Bool :=
  s.clusters.all fun c => c.2.vd != some v || (c.2.wcb.isEmpty && !s.l1Dirty c.1)

/-- An acquire of a scope can complete: L1 has no written bytes left, and every cluster has drained for RBK. -/
def State.canAcquire (s : State) (g v scope : Nat) : Bool :=
  scope < 2 || (!s.l1Dirty g && (scope != 5 || s.rbkDrained v))

/-- Invalidates every line of an L1 that holds no written bytes. -/
def State.dropL1 (s : State) (g : Nat) : State := s.setCl g fun c => { c with l1 := pick c.l1 fun l => l.dirty != 0 }

/-- A die L2 gives up its clean lines of a VD homed at the host proxy, but for those in an ownership window (R227, PCIe mode). -/
def State.dropHostLines (s : State) (d v : Nat) : State :=
  let owned := s.cmds.flatMap fun (c : Nat × Command) => if c.2.cluster / 16 = d then c.2.window.map fun w => w.2.1 else []
  let mine := (pick (look s.coh.held d []) fun t => t.ctx = v && !t.dirty).filter fun l => hostLine l.1 && !owned.contains l.1
  mine.foldl (fun s (l : Nat × Tag) =>
    (s.setHeld (.die d) l.1 {}).send
      { src := hEnd l.1 (.die d), dst := homeOf l.1, kind := .tokens false, line := l.1, vd := l.2.ctx, inc := l.2.inc
        tokens := l.2.tokens, owner := l.2.owner, evict := true }) s

/-- What an acquire of a scope does (R227). -/
def State.acquire (s : State) (g d v scope : Nat) : State :=
  if scope < 2 then s else
  let s := s.dropL1 g
  if (scope = 3 || scope = 4) && !s.cxl.cxlMode then s.dropHostLines d v else s

/-- An access of the warp may begin: no acquire of an earlier access is still due (R227), and an acquire of an implicit
event (R226) is done first. -/
def Ctx.ordered (c : Ctx) (f : Ctx → Res) : Res :=
  if c.x.accesses.any fun a => a.acq != 0 then .hold .counter
  else if !c.x.acquire then f c
  else if c.s.l1Dirty c.g then .hold .counter
  else
    let s := (c.s.dropL1 c.g).setWarp c.w fun x => { x with acquire := false }
    f { c with s, x := { c.x with acquire := false } }

-- ## Proof entries (R268, R269)

/-- Bytes of a block's image (R185). -/
def imageBytes (k : Kernel) : Nat := warpPart k k.warps

/-- Bytes of a log: a value counts 16, a copied byte 1 (log 26). -/
def logBytes (l : List LogEntry) : Nat := (l.map fun e => if e.vals.length ≤ 32 then 16 * e.vals.length else e.vals.length).sum

/-- Writes bytes `lo` up to `hi` of a block's proof entry, as far as the entry reaches, through stage 2. The layout of snapshot and log is
internal: the bytes are free values (log 26). -/
def State.proofWrite (s : State) (k : Kernel) (b : Block) (lo hi : Nat) : State :=
  let size := 2 ^ bits (s.vd k.vd).prfcfg.toNat 15 8
  match b.proof with
  | none => s
  | some e =>
    if min hi size ≤ lo then s else
    let (s, bs) := s.freeBytes (min hi size - lo)
    s.s2Write k.vd (4096 * bits (s.vd k.vd).prfbase.toNat 47 12 + e * size + lo) (bs.map (BitVec.ofNat 8))

/-- A block's log becomes `l`; what is new of it is written to its entry. Logging stops when snapshot and log fill it (R269). -/
def State.setLog (s : State) (b : Nat) (l : List LogEntry) : State :=
  match s.blk b, (s.blk b).bind fun x => s.kern x.kernel with
  | some x, some k =>
    let used := imageBytes k + logBytes l
    let s := s.setBlk b fun x => { x with log := l, logFull := x.logFull || 2 ^ bits (s.vd k.vd).prfcfg.toNat 15 8 < used }
    s.proofWrite k x (imageBytes k + logBytes x.log) used
  | _, _ => s

/-- Adds values at a place of a block's proof log (R269). -/
def State.noteAt (s : State) (b : Nat) (i : Option Nat) (vals : List Nat) : State :=
  match i, s.blk b with
  | some i, some x => s.setLog b (modAt x.log i fun e => { e with vals := e.vals ++ vals })
  | _, _ => s

/-- Adds a value that an instruction of a warp has returned to its block's proof log (R269). -/
def State.logValue (s : State) (w : WarpRef) (v : Nat) : State :=
  match s.blk w.blk with
  | some x => if x.proof.isNone || x.logFull then s else s.setLog w.blk (x.log ++ [{ wi := w.wi, vals := [v] }])
  | none => s

-- ## Phase ends (R267, R269)

/-- The phase's snapshot (R269) is written to the block's entry: the image with an empty log, but for what is in progress, whose values the
new phase's log will hold first. -/
def State.snapshot (s : State) (n : Nat) : State :=
  match s.blk n with
  | none => s
  | some x =>
    let mine := s.cmds.filter fun (c : Nat × Command) => c.2.warp.blk = n
    let old := sortBy (fun i => i) (dedup
      ((x.img.warps.flatMap fun w => w.accesses.filterMap fun a => a.log) ++ mine.filterMap fun c => c.2.log))
    let place := fun (i : Option Nat) => i.bind fun i => old.idxOf? i
    let img := { x.img with warps := x.img.warps.map fun w =>
      { w with accesses := w.accesses.map fun a => { a with log := place a.log } } }
    let lost := x.img.warps.any fun w => w.accesses.any fun a => a.dst.isSome && a.log.isNone
    let s := { s with cmds := mapv s.cmds fun c => if c.warp.blk = n then { c with log := place c.log } else c }
    let s := s.setBlk n fun x =>
      { x with
        img, snap := some img, snapCmds := mine.map fun c => { c.2 with log := place c.2.log }, carried := old.length, log := []
        logFull := lost }
    let s := match s.kern x.kernel with | some k => s.proofWrite k x 0 (imageBytes k) | none => s
    s.setLog n (old.filterMap fun i => x.log[i]?)

/-- A barrier phase of a block ends: a proof-mode block takes a snapshot, a stepping block halts; one that is on no cluster
is written out as from cluster 512, which does not exist. -/
def State.phaseEnd (s : State) (b : Nat) (took : List Nat) : State :=
  let s := s.setBlk b fun x => { x with phases := x.phases + 1 }
  let s := match s.blk b with | some x => if x.proof.isSome then s.snapshot b else s | none => s
  match s.blk b with
  | none => s
  | some x =>
    if !x.stepping || x.halting then s else
    match s.kern x.kernel with
    | none => s
    | some k =>
      match (List.range 16).find? fun n => (find (s.vd k.vd).halts n).isNone with
      | none => s
      | some n =>
        let s := s.setVd k.vd fun v => { v with halts := put v.halts n b }
        let s := s.setBlk b fun y => { y with stepping := false, place := .saving (y.cluster.getD 512) }
        let s := { s with agenda := s.agenda ++ [(.blockSave, .blk b)] }
        took.foldl (fun s wi => s.setWarp { blk := b, wi } fun x => { x with stopCause := 0xFF }) s

-- ## Named barriers

/-- Every warp that has executed its final `EXIT`. -/
def Image.gone (i : Image) : List Nat :=
  (List.range i.warps.length).filter fun n => ((i.warps[n]?).map fun x => x.exited) = some allLanes

/-- Fragments that wait for `p` go on. -/
def Warp.wakeAll (x : Warp) (p : Wait → Bool) : Warp :=
  (x.frags.filter fun f => p f.wait).foldl (fun x f => x.wake f.id) x

/-- A phase of barrier `b` completes with `carry` arrivals for the next one (R376). -/
def State.endBar (s : State) (blk b carry : Nat) (bar : Barrier) : State :=
  let s := s.setImg blk fun i => { i with
    bars := put i.bars b { phase := bar.phase + 1, count := carry }
    warps := i.warps.map fun x => { x with arriving := del x.arriving b }.wakeAll (· = Wait.bar b bar.phase) }
  s.phaseEnd blk bar.arrived

/-- Completes the phase when its arrivals reach the expected count; `first` says that this arrival set the count. -/
def State.testBar (s : State) (blk b : Nat) (first : Bool) : State :=
  match s.blk blk with
  | none => s
  | some x =>
    let bar := look x.img.bars b {}
    match bar.expect with
    | none => s
    | some (n, zero) =>
      let gone := if zero then (x.img.gone.filter fun w => !bar.arrived.contains w).length else 0
      let total := bar.count + gone
      if total < n then s
      else s.endBar blk b (if first then min (total - n) (bar.count - bar.arrived.length) else 0) bar

/-- A warp arrival is counted (R376). -/
def State.warpArrive (s : State) (w : WarpRef) (b v nwarps : Nat) : State :=
  match s.blk w.blk with
  | none => s
  | some x =>
    let bar := look x.img.bars b {}
    let s := s.setWarp w fun x => { x with arriving := del x.arriving b, arrived := put x.arrived b bar.phase }
    if bar.arrived.contains w.wi then s else
    let n := v % 256
    let bar := { bar with
      count := bar.count + 1, arrived := bar.arrived ++ [w.wi]
      expect := some (bar.expect.getD (if n = 0 then (nwarps, true) else (n, false))) }
    let first := bar.arrived.length = 1
    (s.setImg w.blk fun i => { i with bars := put i.bars b bar }).testBar w.blk b first

/-- Every live fragment of the warp has executed an arrival instruction in the phase. -/
def Warp.allArrived (x : Warp) (ids : List Nat) : Bool :=
  x.frags.all fun f => f.mask = 0#32 || ids.contains f.id

/-- The issuing fragment executes an arrival instruction on barrier `b` with count operand `v`; in `s` it stands behind it already. -/
def Ctx.arrive (c : Ctx) (s : State) (b v : Nat) : State :=
  let ids := ((look c.x.arriving b (0, [])).2 ++ [c.f.id])
  let s := s.setWarp c.w fun x => { x with arriving := put x.arriving b (v, ids) }
  if c.x.allArrived ids then s.warpArrive c.w b v c.k.warps else s

/-- An engine arrival (R370, R376). -/
def State.engineArrive (s : State) (blk b : Nat) : State :=
  (s.setImg blk fun i => { i with bars := upd i.bars b {} fun x => { x with count := x.count + 1 } }).testBar blk b false

-- ## GBAR (R378)

/-- Every warp of every block of the grid has arrived or exited. -/
def State.gbarFull (s : State) (k : Nat) (arrived : List WarpRef) : Bool :=
  s.blocks.all fun b => b.2.kernel != k || b.2.place = .exited ||
    (b.2.place != .unstarted && (List.range b.2.img.warps.length).all fun wi =>
      arrived.contains { blk := b.1, wi } || b.2.img.gone.contains wi)

/-- Completes the kernel's barrier when every warp has arrived: waiters go on after a device-scope acquire (R226). -/
def State.testGbar (s : State) (k : Nat) : State :=
  match s.kern k with
  | none => s
  | some kn =>
    if kn.garrived.isEmpty || !s.gbarFull k kn.garrived then s else
    let s := s.setKern k fun kn => { kn with gphase := kn.gphase + 1, garrived := [] }
    let bs := keys (pick s.blocks fun b => b.kernel = k && b.place != .exited)
    bs.foldl (fun s b =>
      let s := s.setImg b fun i => { i with warps := i.warps.map fun x =>
        { x with arriving := del x.arriving 16, acquire := true }.wakeAll (· = Wait.gbar kn.gphase) }
      s.phaseEnd b ((kn.garrived.filter fun w => w.blk = b).map fun w => w.wi)) s

/-- The issuing fragment arrives at the kernel's barrier; in `s` it stands behind its `GBAR` already. -/
def Ctx.garrive (c : Ctx) (s : State) : State :=
  let ids := ((look c.x.arriving 16 (0, [])).2 ++ [c.f.id])
  let s := s.setWarp c.w fun x => { x with arriving := put x.arriving 16 (0, ids) }
  if c.x.allArrived ids then
    ((s.setWarp c.w fun x => { x with arriving := del x.arriving 16 }).setKern c.b.kernel fun k =>
      { k with garrived := if k.garrived.contains c.w then k.garrived else k.garrived ++ [c.w] }).testGbar c.b.kernel
  else s

-- ## After an EXIT, and after a reconvergence (R376, R378)

/-- Lanes of a warp have exited or fragments have merged: arrivals of the fragments that are left may now be whole. -/
def State.wholeArrivals (s : State) (w : WarpRef) (k nwarps : Nat) : State :=
  match s.warp w with
  | none => s
  | some x =>
    x.arriving.foldl (fun s (a : Nat × Nat × List Nat) =>
      if a.2.2.isEmpty || !x.allArrived a.2.2 then s
      else if a.1 = 16 then
        (s.setWarp w fun x => { x with arriving := del x.arriving 16 }).setKern k fun kn =>
          { kn with garrived := if kn.garrived.contains w then kn.garrived else kn.garrived ++ [w] }
      else s.warpArrive w a.1 a.2.1 nwarps) s

/-- Lanes of a warp have exited: barriers that count exited warps are tested again too. -/
def State.afterExit (s : State) (w : WarpRef) (k nwarps : Nat) : State :=
  ((List.range 16).foldl (fun s b => s.testBar w.blk b false) (s.wholeArrivals w k nwarps)).testGbar k

/-- Fragments of a resident block's warp that merged while some had executed an arrival instruction. -/
def State.afterMerge (s : State) (w : WarpRef) : State :=
  match s.warp w, s.blk w.blk with
  | some x, some b =>
    if b.cluster.isSome && x.exited != allLanes && x.arriving.any fun (a : Nat × Nat × List Nat) => !a.2.2.isEmpty && x.allArrived a.2.2 then
      (s.wholeArrivals w b.kernel b.img.warps.length).testGbar b.kernel
    else s
  | _, _ => s

/-- All of them. -/
def State.afterMerges (s : State) : State :=
  s.blocks.foldl (fun s (b : Nat × Block) => b.2.img.warps.zipIdx.foldl (fun s (x : Warp × Nat) =>
    if x.1.arriving.isEmpty then s else s.afterMerge { blk := b.1, wi := x.2 }) s) s

end Sys2Proof.Machine
end

