-- ==== Sys2Proof/Machine/Flags.lean ====
section
/-!
DEFINITION. Integer results and the conditions computed with them: shifts, high products, bit counts, wrapping and
saturation (R239, R305, R332, R334).
-/
namespace Sys2Proof.Machine

def ofBool (b : Bool) : Word := if b then 1#32 else 0#32

/-- Bits 63:32 of the signed product (R305). -/
def mulHighS (a b : Word) : Word := ((a.signExtend 64 * b.signExtend 64).extractLsb' 32 32)
/-- Bits 63:32 of the unsigned product. -/
def mulHighU (a b : Word) : Word := ((a.setWidth 64 * b.setWidth 64).extractLsb' 32 32)

/-- `SSHL`, `SSHR`, `SSRA` with an amount of 6 bits (R305). -/
def shl32 (a : Word) (n : BitVec 6) : Word := if n.toNat < 32 then a <<< n.toNat else 0#32
def shr32 (a : Word) (n : BitVec 6) : Word := if n.toNat < 32 then a >>> n.toNat else 0#32
def sra32 (a : Word) (n : BitVec 6) : Word :=
  if n.toNat < 32 then a.sshiftRight n.toNat else if a.getLsbD 31 then 0xFFFFFFFF#32 else 0#32

/-- Set bits among the low `w`. -/
def popCount : Nat → Nat → Nat
  | 0, _ => 0
  | w + 1, a => (if a.testBit w then 1 else 0) + popCount w a
/-- Leading zeros of `w` bits. -/
def clz : Nat → Nat → Nat
  | 0, _ => 0
  | w + 1, a => if a.testBit w then 0 else 1 + clz w a
/-- Index of the lowest set bit, `w` if there is none. -/
def ffs (w a : Nat) : Nat := ((List.range w).find? fun i => a.testBit i).getD w
/-- The low `w` bits in reverse. -/
def bitReverse : Nat → Nat → Nat
  | 0, _ => 0
  | w + 1, a => (if a.testBit w then 1 else 0) + 2 * bitReverse w a

/-- The value of an integer element (R239). -/
def intVal (signed : Bool) (w a : Nat) : Int := if signed then sextInt w a else (a % 2 ^ w : Nat)
def intMin (signed : Bool) (w : Nat) : Int := if signed then -(2 ^ (w - 1) : Nat) else 0
def intMax (signed : Bool) (w : Nat) : Int := if signed then (2 ^ (w - 1) : Nat) - 1 else (2 ^ w : Nat) - 1
/-- The low `w` bits of an integer. -/
def wrap (w : Nat) (v : Int) : Nat := (v % (2 ^ w : Nat)).toNat
/-- The bits of an exact result: wrapped, or saturated with `SAT` (R239). -/
def intRes (sat signed : Bool) (w : Nat) (v : Int) : Nat :=
  if sat then wrap w (max (intMin signed w) (min (intMax signed w) v)) else wrap w v

/-- Shift left by an 8-bit amount (R332). -/
def shlElem (w a n : Nat) : Nat := if n < w then (a <<< n) % 2 ^ w else 0
/-- Shift right by an 8-bit amount, filling by the type's sign (R332). -/
def shrElem (signed : Bool) (w a n : Nat) : Nat :=
  if signed then wrap w (sextInt w a / (2 ^ min n w : Nat)) else if n < w then a >>> n else 0

/-- `VBFE` (R334). -/
def bfe (signed : Bool) (w a pos len : Nat) : Nat :=
  let v := shrElem signed w a pos
  if len = 0 then 0 else if w ≤ len then v
  else if signed then wrap w (sextInt len v) else v % 2 ^ len
/-- `VBFI` (R334). -/
def bfi (w a c pos len : Nat) : Nat :=
  if w ≤ pos then c else
  let m := (((2 ^ len - 1) <<< pos) % 2 ^ w)
  (c &&& ((2 ^ w - 1) ^^^ m)) ||| (((a <<< pos) % 2 ^ w) &&& m)

/-- Minimum and maximum by value. -/
def intMinMax (signed isMax : Bool) (w a b : Nat) : Nat :=
  if (intVal signed w a ≤ intVal signed w b) != isMax then a else b

end Sys2Proof.Machine
end

