-- ==== Sys2Proof/Machine/Num.lean ====
section
/-!
DEFINITION. Numbers (chapter 10): exact values as signed dyadics, the IEEE formats and rounding (R235–R238), tapered
formats and scale bytes (R240–R244), exact sums (R235, R246, R251), conversions (R254, R255).
-/
namespace Sys2Proof.Machine

/-- An exact value: NaN, an infinity, or ±m × 2^e; a zero keeps its sign. -/
inductive Num where
  | nan
  | inf (neg : Bool)
  | fin (neg : Bool) (m : Nat) (e : Int)
  deriving DecidableEq, Repr

/-- An IEEE format: exponent bits and fraction bits (R234). -/
structure Fmt where
  eb : Nat
  fb : Nat
  deriving DecidableEq, Repr

def f32 : Fmt := { eb := 8, fb := 23 }
/-- The format of a floating-point type code (R234). -/
def fmtOf (t : Nat) : Fmt :=
  if t = 3 then { eb := 5, fb := 10 } else if t = 4 then { eb := 8, fb := 7 }
  else if t = 11 then { eb := 11, fb := 52 } else f32

def Fmt.bias (f : Fmt) : Nat := 2 ^ (f.eb - 1) - 1
def Fmt.width (f : Fmt) : Nat := 1 + f.eb + f.fb
def Fmt.infBits (f : Fmt) : Nat := (2 ^ f.eb - 1) * 2 ^ f.fb
/-- The canonical NaN (R237). -/
def Fmt.nanBits (f : Fmt) : Nat := f.infBits + 2 ^ (f.fb - 1)
def Fmt.signBit (f : Fmt) (neg : Bool) : Nat := if neg then 2 ^ (f.eb + f.fb) else 0

/-- The value of an element (R234). -/
def Fmt.dec (f : Fmt) (b : Nat) : Num :=
  let neg := b.testBit (f.eb + f.fb)
  let ex := (b >>> f.fb) % 2 ^ f.eb
  let fr := b % 2 ^ f.fb
  if ex = 2 ^ f.eb - 1 then (if fr = 0 then .inf neg else .nan)
  else if ex = 0 then .fin neg fr (1 - f.bias - f.fb)
  else .fin neg (2 ^ f.fb + fr) (ex - f.bias - f.fb)

def Num.isNan : Num → Bool
  | .nan => true
  | _ => false

/-- Whether a quotient `k` with remainder `rem` of `2^sh` is rounded up in magnitude (R235). -/
def roundUp (rnd : Nat) (neg : Bool) (k rem half : Nat) : Bool :=
  match rnd with
  | 0 => half < rem || (rem = half && k % 2 = 1)
  | 1 => false
  | 2 => neg && rem != 0
  | 3 => !neg && rem != 0
  | _ => half ≤ rem

/-- `m × 2^e` to a multiple of 2^q, rounded. -/
def toGrid (rnd : Nat) (neg : Bool) (m : Nat) (e q : Int) : Nat :=
  if q ≤ e then m <<< (e - q).toNat
  else
    let sh := (q - e).toNat
    let k := m >>> sh
    if roundUp rnd neg k (m % 2 ^ sh) (2 ^ (sh - 1)) then k + 1 else k

/-- Rounds an exact value to a format (R235); the flag is overflow (R238). -/
def Fmt.round (f : Fmt) (rnd : Nat) : Num → Nat × Bool
  | .nan => (f.nanBits, false)
  | .inf neg => (f.signBit neg + f.infBits, false)
  | .fin neg m e =>
    if m = 0 then (f.signBit neg, false) else
    let emin : Int := 1 - f.bias
    let q := max (e + Nat.log2 m) emin - f.fb
    let b := (q - emin + f.fb).toNat * 2 ^ f.fb + toGrid rnd neg m e q
    if b < f.infBits then (f.signBit neg + b, false)
    else if rnd = 0 || rnd = 4 || (rnd = 2 && neg) || (rnd = 3 && !neg) then (f.signBit neg + f.infBits, true)
    else (f.signBit neg + f.infBits - 1, true)

def Num.neg : Num → Num
  | .nan => .nan
  | .inf s => .inf (!s)
  | .fin s m e => .fin (!s) m e

def Num.mul : Num → Num → Num
  | .nan, _ | _, .nan => .nan
  | .inf s, .inf t => .inf (s != t)
  | .inf s, .fin t m _ => if m = 0 then .nan else .inf (s != t)
  | .fin s m _, .inf t => if m = 0 then .nan else .inf (s != t)
  | .fin s m e, .fin t n g => .fin (s != t) (m * n) (e + g)

def Num.scale (n : Int) : Num → Num
  | .fin s m e => .fin s m (e + n)
  | x => x

/-- The integer that `±m × 2^e` is in units of 2^q, for q ≤ e. -/
def units (neg : Bool) (m : Nat) (e q : Int) : Int :=
  let v : Int := (m <<< (e - q).toNat : Nat)
  if neg then -v else v

/-- The exact sum of terms, with the sign of a zero result by R235. -/
def sumNum (rnd : Nat) (ts : List Num) : Num :=
  if ts.any Num.isNan then .nan else
  let infs := ts.filterMap fun t => match t with | .inf s => some s | _ => none
  match infs with
  | s :: rest => if rest.all (· == s) then .inf s else .nan
  | [] =>
    let q := ts.foldl (fun q t => match t with | .fin _ _ e => min q e | _ => q) 0
    let v := ts.foldl (fun v t => match t with | .fin s m e => v + units s m e q | _ => v) (0 : Int)
    if v = 0 then
      let signs := ts.map fun t => match t with | .fin s m _ => (s, m == 0) | _ => (false, false)
      if signs.all (fun p => p.2) && signs.all (fun p => p.1 == (signs.headD (false, false)).1)
      then .fin ((signs.headD (false, false)).1) 0 0 else .fin (rnd == 2) 0 0
    else .fin (v < 0) v.natAbs q

/-- Integer square root: the bits of the result from bit `n` down. -/
def isqrtFrom : Nat → Nat → Nat → Nat
  | 0, r, _ => r
  | n + 1, r, a => isqrtFrom n (if (r + 2 ^ n) * (r + 2 ^ n) ≤ a then r + 2 ^ n else r) a

/-- A square root of `m × 2^e` that rounds like the exact one: 130 bits and a sticky bit. -/
def sqrtFin (m : Nat) (e : Int) : Num :=
  let t := 260 - Nat.log2 m
  let t := if (e - t) % 2 = 0 then t else t + 1
  let a := m <<< t
  let r := isqrtFrom 140 0 a
  .fin false (2 * r + (if r * r = a then 0 else 1)) ((e - t) / 2 - 1)

/-- A quotient of positive finite values that rounds like the exact one. -/
def divFin (neg : Bool) (m : Nat) (e : Int) (n : Nat) (g : Int) : Num :=
  let sh := 140 + Nat.log2 n
  let a := m <<< sh
  .fin neg (2 * (a / n) + (if a % n = 0 then 0 else 1)) (e - g - sh - 1)

/-- Division (R235, R238): the value, and whether it raises invalid or division by zero. -/
def Num.div : Num → Num → Num × Bool
  | .nan, _ | _, .nan => (.nan, false)
  | .inf _, .inf _ => (.nan, true)
  | .inf s, .fin t _ _ => (.inf (s != t), false)
  | .fin s _ _, .inf t => (.fin (s != t) 0 0, false)
  | .fin s m e, .fin t n g =>
    if n = 0 then (if m = 0 then (.nan, true) else (.inf (s != t), true))
    else if m = 0 then (.fin (s != t) 0 0, false) else (divFin (s != t) m e n g, false)

/-- Square root (R235, R335, R238). -/
def Num.sqrt : Num → Num × Bool
  | .nan => (.nan, false)
  | .inf false => (.inf false, false)
  | .inf true => (.nan, true)
  | .fin s m e => if m = 0 then (.fin s 0 0, false) else if s then (.nan, true) else (sqrtFin m e, false)

/-- Compares finite or infinite values: whether a < b. -/
def Num.lt : Num → Num → Bool
  | .nan, _ | _, .nan => false
  | .inf s, .inf t => s && !t
  | .inf s, .fin .. => s
  | .fin .., .inf t => !t
  | .fin s m e, .fin t n g => units s m e (min e g) < units t n g (min e g)

def Num.eq (a b : Num) : Bool := !a.isNan && !b.isNan && !a.lt b && !b.lt a

/-- Zero of the same sign for a subnormal element (R236). -/
def Fmt.flushIn (f : Fmt) (ftz : Bool) (b : Nat) : Nat :=
  if ftz && (b >>> f.fb) % 2 ^ f.eb = 0 then b - b % 2 ^ f.fb else b

/-- A rounded result under `FTZ` (R236), with its conditions. -/
def Fmt.result (f : Fmt) (ftz : Bool) (rnd : Nat) (x : Num) (cond : Bool) : Nat × Bool :=
  let (b, ov) := f.round rnd x
  (f.flushIn ftz b, cond || ov)

/-- Invalid: a NaN made from operands that are not NaN (R238). -/
def invalid (x : Num) (ops : List Num) : Bool := x.isNan && !ops.any Num.isNan

/-- An integral value under a rounding code, as an integer (R254). -/
def roundInt (rnd : Nat) (neg : Bool) (m : Nat) (e : Int) : Int :=
  let k := toGrid (if rnd = 4 then 4 else rnd) neg m e 0
  if neg then -(k : Int) else k

-- ## Tapered formats (R240–R242)

/-- The length of the run of bits equal to the top one in the low `n` bits of `m`. -/
def runLen (b : Bool) : Nat → Nat → Nat
  | 0, _ => 0
  | n + 1, m => if m.testBit n = b then 1 + runLen b n m else 0

/-- The magnitude of a non-zero magnitude field of `n` bits with `es` exponent bits (R240). -/
def taperMag (n es m : Nat) : Nat × Int :=
  let b := m.testBit (n - 1)
  let k := runLen b n m
  let r : Int := if b then k - 1 else -(k : Int)
  let left := n - k - 1
  let tail := m % 2 ^ left
  let e := if es = 0 then 0 else if left = 0 then 0 else (tail >>> (left - 1)) % 2
  let w := if es = 0 then left else left - 1
  (2 ^ w + tail % 2 ^ w, r * (2 ^ es : Nat) + e - w)

/-- Bits and exponent width of T8, T6, T4 by type code (R234, R240). -/
def taperBits (t : Nat) : Nat := if t = 12 then 8 else if t = 13 then 6 else 4
def taperEs (t : Nat) : Nat := if t = 14 then 0 else 1

def taperDec (t b : Nat) : Num :=
  let n := taperBits t
  let b := b % 2 ^ n
  let m := b % 2 ^ (n - 1)
  if m = 0 then (if b = 0 then .fin false 0 0 else .nan)
  else let (k, e) := taperMag (n - 1) (taperEs t) m
    .fin (b.testBit (n - 1)) k e

/-- Conversion of a real to Tn (R242). -/
def taperEnc (t rnd : Nat) : Num → Nat
  | .nan | .inf _ => 2 ^ (taperBits t - 1)
  | .fin neg m e =>
    let n := taperBits t
    let top := 2 ^ (n - 1) - 1
    let mag := fun k => if k = 0 then Num.fin false 0 0 else let (a, g) := taperMag (n - 1) (taperEs t) k; Num.fin false a g
    let x := Num.fin false m e
    let lo := (List.range (top + 1)).foldl (fun b k => if x.lt (mag k) then b else k) 0
    let k :=
      if lo = top || rnd = 1 then lo
      else
        let two := x.scale 1
        let mid := sumNum 0 [mag lo, mag (lo + 1)]
        if two.lt mid then lo else if mid.lt two then lo + 1 else if lo % 2 = 0 then lo else lo + 1
    if k = 0 then 0 else k + (if neg then 2 ^ (n - 1) else 0)

/-- Scale bytes (R243). -/
def scaleDec (b : Nat) : Num := if b = 255 then .nan else .fin false 1 ((b : Int) - 127)
def scaleEnc : Num → Nat
  | .nan | .inf _ => 255
  | .fin _ m e => if m = 0 then 0 else (max 0 (min 254 (127 + e + Nat.log2 m))).toNat

-- ## Conversions (R254, R255)

def isInt (t : Nat) : Bool := t ≤ 1 || (5 ≤ t && t ≤ 10)
def isIeee (t : Nat) : Bool := (2 ≤ t && t ≤ 4) || t = 11

/-- The exact value of a source element (R254). -/
def elemNum (t : Nat) (ftz : Bool) (b : Nat) : Num :=
  if isInt t then
    let v := intVal (isSigned' t) (wid t) b
    .fin (v < 0) v.natAbs 0
  else if isIeee t then (fmtOf t).dec ((fmtOf t).flushIn ftz b)
  else if t = 15 then scaleDec b else taperDec t b
where
  isSigned' (t : Nat) : Bool := t = 0 || t = 5 || t = 7 || t = 9
  wid (t : Nat) : Nat := if t ≤ 2 then 32 else if t ≤ 6 then 16 else if t ≤ 8 then 8 else 64

/-- Writes an exact value to a destination element (R254, R255), with its conditions. -/
def convElem (src dst : Nat) (ftz sat : Bool) (rnd b : Nat) : Nat × Bool :=
  let x := elemNum src ftz b
  if isIeee dst then (fmtOf dst).result ftz rnd x false
  else if isInt dst then
    let sg := dst = 0 || dst = 5 || dst = 7 || dst = 9
    let w := if dst ≤ 2 then 32 else if dst ≤ 6 then 16 else if dst ≤ 8 then 8 else 64
    let indef := if sg then 2 ^ (w - 1) else 2 ^ w - 1
    match x with
    | .nan => (if sat then 0 else indef, true)
    | .inf neg => (if sat then wrap w (if neg then intMin sg w else intMax sg w) else indef, true)
    | .fin neg m e =>
      let v := roundInt rnd neg m e
      if intMin sg w ≤ v && v ≤ intMax sg w then (wrap w v, false)
      else if isInt src then (intRes sat sg w v, false)
      else (if sat then intRes true sg w v else indef, true)
  else if dst = 15 then (scaleEnc x, false) else (taperEnc dst rnd x, false)

/-- Canonical bits of a value rounded to nearest even (engines, `FADD`, `RVADD`: R99, R371). -/
def Fmt.rne (f : Fmt) (x : Num) : Nat := (f.round 0 x).1
def Fmt.addRne (f : Fmt) (a b : Nat) : Nat := f.rne (sumNum 0 [f.dec a, f.dec b])

end Sys2Proof.Machine
end

