-- ==== Sys2Proof/Machine/Special.lean ====
section
/-!
DEFINITION. The special functions of R252 and R253. The spec bounds each result and fixes no value inside the bound:
the result is the exact value, computed here in fixed point far more finely than the bound, plus a free offset that
`Config.special` gives for the input and that the model holds to the bound (log 9).
-/
namespace Sys2Proof.Machine

/-- Fixed point with 96 fraction bits. -/
def fxOne : Int := 2 ^ 96
def fxMul (a b : Int) : Int := a * b / 2 ^ 96
/-- ln 2 and π with 96 fraction bits. -/
def fxLn2 : Int := 54916777467707473351141471128
def fxPi : Int := 248902613312231085230521944622

/-- Taylor sum of e^y: `n` terms from term `t` of index `i`. -/
def expTerms : Nat → Int → Int → Int → Int
  | 0, _, _, _ => 0
  | n + 1, y, i, t => t + expTerms n y (i + 1) (fxMul t y / (i + 1))

/-- A value as fixed point, rounded down: it stays on its side of every dyadic value. -/
def toFx (neg : Bool) (m : Nat) (e : Int) : Int :=
  let v : Int := if neg then -m else m
  if 0 ≤ e + 96 then v * 2 ^ (e + 96).toNat else v / 2 ^ (-(e + 96)).toNat

/-- `m × 2^e` is an integer. -/
def isIntegral (m : Nat) (e : Int) : Bool := 0 ≤ e || m % 2 ^ (-e).toNat = 0

/-- The value next below 1. -/
def belowOne (neg : Bool) : Num := .fin neg (2 ^ 96 - 1) (-96)

/-- 2^x for fixed-point x, as a dyadic; exponents far outside every format are held. -/
def exp2Fx (x : Int) : Num :=
  let n := x / 2 ^ 96
  let r := x % 2 ^ 96
  .fin false (expTerms 40 (fxMul r fxLn2) 0 fxOne).toNat (max (-4000) (min 4000 n) - 96)

/-- 2^x, with large arguments held. -/
def exp2Num (neg : Bool) (m : Nat) (e : Int) : Num :=
  if 12 < e + Nat.log2 m then .fin false 1 (if neg then -4000 else 4000) else exp2Fx (toFx neg m e)

/-- Σ t^(2i+1)/(2i+1). -/
def atanhTerms : Nat → Int → Int → Int → Int
  | 0, _, _, _ => 0
  | n + 1, t2, p, i => p / i + atanhTerms n t2 (fxMul p t2) (i + 2)

/-- log2 of `m × 2^e`, in fixed point. -/
def log2Fx (m : Nat) (e : Int) : Int :=
  let l := Nat.log2 m
  let z := toFx false m (-(l : Int))
  let t := (z - fxOne) * fxOne / (z + fxOne)
  (e + l) * fxOne + 2 * atanhTerms 40 (fxMul t t) t 1 * fxOne / fxLn2

/-- Alternating Taylor sum: `sin` from the term y at index 1, `cos` from 1 at index 0. -/
def trigTerms : Nat → Int → Int → Int → Int
  | 0, _, _, _ => 0
  | n + 1, y2, i, t => t + trigTerms n y2 (i + 2) (-(fxMul t y2) / ((i + 1) * (i + 2)))

def ofFx (v : Int) : Num := .fin (v < 0) v.natAbs (-96)

/-- x less its nearest integer, in fixed point: turns in [−1/2, 1/2] (R252). -/
def turns (neg : Bool) (m : Nat) (e : Int) : Int :=
  let v := if 0 ≤ e then 0 else toFx neg (m % 2 ^ (-e).toNat) e
  let r := v % fxOne
  if fxOne < 2 * r then r - fxOne else r

/-- tanh x: a series near 0, else from e^2x; it stays below |x| and 1 as the exact one does. -/
def tanhNum (neg : Bool) (m : Nat) (e : Int) : Num :=
  let top := e + Nat.log2 m
  if top < -12 then
    let x2 := fxMul (toFx false m e) (toFx false m e)
    let x4 := fxMul x2 x2
    let r := fxOne - x2 / 3 + 2 * x4 / 15 - 17 * fxMul x4 x2 / 315
    (Num.fin neg m e).mul (ofFx (min r (fxOne - 1)))
  else if 6 < top then belowOne neg
  else
    let u := 2 * toFx false m e * fxOne / fxLn2
    match exp2Fx u with
    | .fin _ k g =>
      let one := Num.fin false 1 0
      match sumNum 0 [.fin false k g, one.neg], sumNum 0 [.fin false k g, one] with
      | .fin _ a c, .fin _ b d => divFin neg a c b d
      | x, _ => x
    | x => x

/-- 1 / (1 + e^−x). -/
def sigmNum (neg : Bool) (m : Nat) (e : Int) : Num :=
  if 12 < e + Nat.log2 m then (if neg then .fin false 1 (-4000) else belowOne false)
  else
    match exp2Fx (toFx neg m e * fxOne / fxLn2) with
    | .fin _ k g =>
      match sumNum 0 [.fin false k g, .fin false 1 0] with
      | .fin _ b d => divFin false k g b d
      | x => x
    | x => x

/-- Function numbers: 0 rcp, 1 rsq, 2 exp2, 3 log2, 4 sin, 5 cos, 6 tanh, 7 sigm. Special values of R253: the exact
result and the conditions of R238. -/
def specialExact (fn : Nat) (x : Num) : Option (Num × Bool) :=
  match fn, x with
  | _, .nan => some (.nan, false)
  | 0, .inf s => some (.fin s 0 0, false)
  | 0, .fin s 0 _ => some (.inf s, true)
  | 1, .inf false => some (.fin false 0 0, false)
  | 1, .inf true => some (.nan, true)
  | 1, .fin s 0 _ => some (.inf s, true)
  | 1, .fin true _ _ => some (.nan, true)
  | 2, .inf true => some (.fin false 0 0, false)
  | 2, .inf false => some (.inf false, false)
  | 2, .fin _ 0 _ => some (.fin false 1 0, false)
  | 3, .inf false => some (.inf false, false)
  | 3, .inf true => some (.nan, true)
  | 3, .fin _ 0 _ => some (.inf true, true)
  | 3, .fin true _ _ => some (.nan, true)
  | 3, .fin false m e => if (Num.fin false m e).eq (.fin false 1 0) then some (.fin false 0 0, false) else none
  | 4, .inf _ => some (.nan, true)
  | 4, .fin s 0 _ => some (.fin s 0 0, false)
  | 4, .fin _ m e => if isIntegral m (e + 1) then some (.fin false 0 0, false) else none
  | 5, .inf _ => some (.nan, true)
  | 5, .fin _ m e =>
    if isIntegral m e then some (.fin false 1 0, false)
    else if isIntegral m (e + 2) && !isIntegral m (e + 1) then some (.fin false 0 0, false) else none
  | 6, .inf s => some (.fin s 1 0, false)
  | 6, .fin s 0 _ => some (.fin s 0 0, false)
  | 7, .inf true => some (.fin false 0 0, false)
  | 7, .inf false => some (.fin false 1 0, false)
  | 7, .fin _ 0 _ => some (.fin false 1 (-1), false)
  | _, _ => none

/-- The exact value, to far below the bound, for an ordinary input. -/
def specialValue (fn : Nat) (x : Num) : Num :=
  match x with
  | .fin s m e =>
    match fn with
    | 0 => divFin s 1 0 m e
    | 1 => match sqrtFin m e with
      | .fin _ k g => divFin false 1 0 k g
      | y => y
    | 2 => exp2Num s m e
    | 3 => ofFx (log2Fx m e)
    | 4 => ofFx (trigTerms 40 (fxMul (2 * fxMul (turns s m e) fxPi) (2 * fxMul (turns s m e) fxPi)) 1
        (2 * fxMul (turns s m e) fxPi))
    | 5 => ofFx (trigTerms 40 (fxMul (2 * fxMul (turns s m e) fxPi) (2 * fxMul (turns s m e) fxPi)) 0 fxOne)
    | 6 => tanhNum s m e
    | _ => sigmNum s m e
  | y => y

/-- The bound in units of half an ulp (R252): `none` where it is absolute, 2^−22. -/
def specialUlps (fn : Nat) (x : Num) : Option Nat :=
  match fn with
  | 0 | 1 => some 2
  | 3 => if x.lt (.fin false 1 (-1)) || (Num.fin false 2 0).lt x then some 4 else none
  | 4 | 5 => none
  | _ => some 4

/-- The offset, in [−1, 1] over 2^64. -/
def specialOffset (fn t b : Nat) : Int := max (-(2 ^ 64)) (min (2 ^ 64) (Config.special fn t b))

/-- The exponent of an `f32` ulp of a value. -/
def ulpExp (x : Num) : Int :=
  match x with
  | .fin _ m e => if m = 0 then -149 else max (e + Nat.log2 m) (-126) - 23
  | _ => 0

/-- How far a result may lie from the exact value `y` (R252). -/
def specialBound (fn : Nat) (x y : Num) : Num :=
  match specialUlps fn x with
  | some k => .fin false k (ulpExp y - 1)
  | none => .fin false 1 (-22)

/-- The rounding that keeps a value inside [lo, hi]: to nearest, or, where that would leave the interval, inward; of one that overflows, the
effective one (R235). -/
def insideRnd (f : Fmt) (rnd : Nat) (v lo hi : Num) : Nat :=
  match f.dec (f.round 0 v).1 with
  | .fin s m e => if hi.lt (.fin s m e) then 2 else if (Num.fin s m e).lt lo then 3 else 0
  | _ => rnd

/-- A special function on an element (R252, R253): the result's bits and its conditions. An `f32` result is any `f32` value within the
bound of the exact one; a 16-bit result is rounded once from an intermediate value within it. -/
def special (fn t : Nat) (ftz : Bool) (rnd b : Nat) : Nat × Bool :=
  let f := fmtOf t
  let b := f.flushIn ftz b
  let x := f.dec b
  match specialExact fn x with
  | some (y, cond) => f.result ftz rnd y cond
  | none =>
    let y := specialValue fn x
    let w := specialBound fn x y
    let off := specialOffset fn t b
    let v := sumNum 0 [y, w.mul (.fin (off < 0) off.natAbs (-64))]
    if t = 2 then f.result ftz (insideRnd f rnd v (sumNum 0 [y, w.neg]) (sumNum 0 [y, w])) v false
    else f.result ftz rnd v false

end Sys2Proof.Machine
end

