-- ==== Sys2Proof/Machine/VecBody.lean ====
section
/-!
DEFINITION. The common frame of vector instructions (R330) as a body: accepted types, operand fields, destination and
the value of a lane. An instruction and a `VEXEC` word (R348) run the same body.
-/
namespace Sys2Proof.Machine

/-- Destination of a vector instruction. -/
inductive Dst where
  | v (d regs : Nat)
  | p (d : Nat)
  deriving DecidableEq, Repr

/-- What an element operation reads besides its operands. -/
structure VEnv where
  t : Nat
  rnd : Nat
  sat : Bool
  ftz : Bool
  deriving DecidableEq, Repr

/-- A vector instruction: `lane x e b l` is the value of lane `l`, where `b` gives the lane values of operand `B`. -/
structure VBody where
  /-- Accepted effective types; none where the type is ignored (R331). -/
  types : Option (List Nat)
  ops : Nat → List Opnd
  dst : Nat → Dst
  /-- Operand `B` by field value, and its registers per lane. -/
  bfield : Option Nat := none
  lane : Warp → Eff → (Nat → Nat) → Nat → Nat × Bool
  /-- `VSEL`: every lane of the fragment is written (R334). -/
  sel : Bool := false
  /-- No active lane: nothing is written under either policy (R345). -/
  needsActive : Bool := false
  /-- It rounds: it does not ignore a prefix's `RND` (R277). -/
  rounds : Bool := false

def intTypes : List Nat := [0, 1, 5, 6, 7, 8, 9, 10]
def signedTypes : List Nat := [0, 5, 7, 9]
def bitTypes : List Nat := List.range 12
def fieldTypes : List Nat := [0, 1, 9, 10]
def floatTypes : List Nat := [2, 3, 4, 11]
def specialTypes : List Nat := [2, 3, 4]

def envOf (x : Warp) (e : Eff) : VEnv := { t := e.type, rnd := e.rnd, sat := mSat x.mode, ftz := mFtz x.mode }

/-- Elementwise with sources `A` and `B`. -/
def ew2 (d a b : BitVec 8) (types : List Nat) (f : VEnv → Nat → Nat → Nat × Bool) : VBody :=
  { types := some types
    ops := fun t => [vDst (typeRegs t) d, vOp (typeRegs t) a 1, vOp (typeRegs t) b 2]
    dst := fun t => .v d.toNat (typeRegs t)
    bfield := some b.toNat
    lane := fun x e bv l =>
      let va := x.laneN (typeRegs e.type) a.toNat l
      let vb := bv l
      mapElems e.type fun k => f (envOf x e) (elemAt e.type va k) (elemAt e.type vb k) }

/-- Elementwise with source `A`. -/
def ew1 (d a : BitVec 8) (types : List Nat) (f : VEnv → Nat → Nat × Bool) : VBody :=
  { types := some types
    ops := fun t => [vDst (typeRegs t) d, vOp (typeRegs t) a 1]
    dst := fun t => .v d.toNat (typeRegs t)
    lane := fun x e _ l =>
      let va := x.laneN (typeRegs e.type) a.toNat l
      mapElems e.type fun k => f (envOf x e) (elemAt e.type va k) }

/-- Elementwise with sources `A`, `B` and the prefix's `C` (R277). -/
def ew3 (p : VPfx) (d a b : BitVec 8) (types : List Nat) (f : VEnv → Nat → Nat → Nat → Nat × Bool) : VBody :=
  { types := some types
    ops := fun t => [vDst (typeRegs t) d, vOp (typeRegs t) a 1, vOp (typeRegs t) b 2, vOp (typeRegs t) p.c 3]
    dst := fun t => .v d.toNat (typeRegs t)
    bfield := some b.toNat
    lane := fun x e bv l =>
      let va := x.laneN (typeRegs e.type) a.toNat l
      let vb := bv l
      let vc := x.laneN (typeRegs e.type) p.c.toNat l
      mapElems e.type fun k => f (envOf x e) (elemAt e.type va k) (elemAt e.type vb k) (elemAt e.type vc k) }

/-- The immediate as an element (R333): its low bits, or extended to 64 bits by sign or zero (R278). -/
def immElem (t : Nat) (sx : Bool) (imm : Word) : Nat :=
  if elemBits t = 64 then (if sx then (imm.signExtend 64).toNat else imm.toNat) else imm.toNat % 2 ^ elemBits t

/-- Elementwise with source `A` and an immediate (R333). -/
def ewI (d a : BitVec 8) (sx : Bool) (imm : Word) (types : List Nat) (f : VEnv → Nat → Nat → Nat × Bool) : VBody :=
  ew1 d a types fun v x => f v x (immElem v.t sx imm)

/-- Predicate destination with sources `A` and `B` (R338). -/
def cmp2 (d a b : BitVec 8) (types : List Nat) (f : VEnv → Nat → Nat → Bool) : VBody :=
  { types := some types
    ops := fun t => [pDst d, vOp (typeRegs t) a 1, vOp (typeRegs t) b 2]
    dst := fun _ => .p d.toNat
    bfield := some b.toNat
    lane := fun x e bv l => (if f (envOf x e) (x.laneN (typeRegs e.type) a.toNat l) (bv l) then 1 else 0, false) }

/-- The lanes that a body acts in. -/
def VBody.mask (y : VBody) (act : Mask) (e : Eff) : Mask := if y.sel then act else e.mask

/-- Runs a body on a warp (R330); `act` are the lanes it may act in, `reach` those that the zero policy leaves alone. -/
def VBody.run (y : VBody) (x : Warp) (act reach : Mask) (e : Eff) (bv : Nat → Nat) : Except FaultInfo Warp :=
  let m := y.mask act e
  let raised := maskOf ((lanesOf m).filter fun l => (y.lane x e bv l).2)
  if mFpx x.mode && raised != 0#32 then .error { code := 0x16, einfo := raised, lanes := some m }
  else if y.needsActive && m == 0#32 then .ok x else
  let zero := e.zero && !y.sel
  match y.dst e.type with
  | .v d regs => .ok (x.writeGroup d regs reach m zero fun l => (y.lane x e bv l).1)
  | .p d => .ok (x.setP d (writeMask (x.pred d) reach m zero
      (maskOf ((lanesOf m).filter fun l => (y.lane x e bv l).1 = 1))))

/-- Lane values of operand `B` from its field. -/
def VBody.bvals (y : VBody) (x : Warp) (e : Eff) (l : Nat) : Nat :=
  match y.bfield with
  | some b => x.laneN (typeRegs e.type) b l
  | none => 0

-- ## Accumulator fragments (R210, R342, R343)

/-- The slots that a command not yet complete reads or writes. -/
def SbRange.hasOperand (id : Nat) : SbRange → Bool
  | .operand lo hi => lo ≤ id && id < hi
  | _ => false
def SbRange.hasAcc (id : Nat) : SbRange → Bool
  | .acc lo hi => lo ≤ id && id < hi
  | _ => false
def SbRange.hasSlot (id : Nat) (r : SbRange) : Bool := if id < 0x100 then r.hasOperand id else r.hasAcc id

/-- Ranges of a step (R400). -/
def MStep.reads (m : MStep) : List SbRange :=
  if m.op = 0xD6 then [] else
  .operand (min m.a m.b) (max m.a m.b + 1) :: (if m.op = 0xD9 then [.acc m.p (m.p + 1)] else [])
def MStep.write (m : MStep) : SbRange := .acc m.dst (m.dst + 1)

/-- Step `i` of iteration `k` of a sequencer (R404). -/
def Sequencer.step (q : Sequencer) (k i : Nat) : Option MStep :=
  (q.body[i]?).map fun m =>
    let add := fun (v : Nat) (d : Int) => (((v : Int) + k * d) % 65536).toNat
    { m with a := add m.a q.inc.1, b := add m.b q.inc.2.1, dst := add m.dst q.inc.2.2 }

/-- The steps a sequencer still holds. -/
def Sequencer.rest (q : Sequencer) : List MStep :=
  (List.range q.count).flatMap fun k => (List.range q.body.length).filterMap fun i =>
    if k < q.iter || (k = q.iter && i < q.idx) then none else q.step k i

/-- Commands of a block not yet complete. -/
def State.cmdsOf (s : State) (b : Nat) : List Command := (s.cmds.filter fun c => c.2.warp.blk = b).map Prod.snd

/-- The remaining steps of a block's sequencer. -/
def Image.steps (i : Image) : List MStep :=
  match i.seq with
  | some q => q.rest
  | none => []

/-- A slot's busy bit: a matrix command that writes it is queued or running, or remains in the sequencer (R210, R404). -/
def slotBusy (s : State) (b : Nat) (i : Image) (id : Nat) : Bool :=
  (s.cmdsOf b).any (fun c => match c.kind with | .step m => m.dst = id | _ => false) || i.steps.any fun m => m.dst = id

/-- Some command still to complete reads the slot (R400). -/
def slotRead (s : State) (b : Nat) (i : Image) (id : Nat) : Bool :=
  (s.cmdsOf b).any (fun c => c.reads.any (SbRange.hasSlot id)) || i.steps.any fun m => m.reads.any (SbRange.hasSlot id)

/-- The address of an element of an accumulator slot in `amem`. -/
def accAddr (id e : Nat) : Nat := 16384 * id + e

def Image.acc (i : Image) (id e : Nat) : Word := (find i.amem (accAddr id e)).getD 0#32
def Image.setAcc (i : Image) (id e : Nat) (v : Word) : Image := { i with amem := put i.amem (accAddr id e) v }

/-- An accumulator-fragment operand: slot, fragment (R342). -/
def VPfx.acc (p : Option VPfx) : Option Nat :=
  match p with
  | some q => if q.acb then some (0x100 + (q.c.extractLsb' 4 4).toNat) else none
  | none => none

/-- Operand fields with `ACB` = 1: `B` is of kind s, and `D` = 0xC0 names the fragment (R277, R343). -/
def accOps (b : Nat) (os : List Opnd) : List Opnd :=
  os.filterMap fun o =>
    if o.code = 0 && o.val = 0xC0 then none
    else if o.code = 2 then some { k := .s, val := b, code := 2 } else some o

/-- The checks of R342, then the body with the fragment as `B` and perhaps as destination. -/
def accRun (c : Ctx) (y : VBody) (e : Eff) (id b d : Nat) : Res :=
  let i := c.b.img
  let f := (c.x.sf b).toNat
  let size := match i.grant with | some g => g.m * g.n | none => 0
  if !i.claimed.contains id then .fault { code := 0x0A, einfo := BitVec.ofNat 32 id }
  else if !(e.type = 0 || e.type = 1 || e.type = 2) then .fault (illegalType e.type e.rnd)
  else if size / 32 ≤ f then .fault { code := 0x03, einfo := BitVec.ofNat 32 (f % 256 + 512) }
  else if slotBusy c.s c.w.blk i id then .hold .matrix
  else if d = 0xC0 && slotRead c.s c.w.blk i id then .hold .matrix
  else
    let bv := fun l => (i.acc id (32 * f + l)).toNat
    if d = 0xC0 then
      let m := y.mask c.f.mask e
      let raised := maskOf ((lanesOf m).filter fun l => (y.lane c.x e bv l).2)
      if mFpx c.x.mode && raised != 0#32 then .fault { code := 0x16, einfo := raised, lanes := some m } else
      let zero := e.zero && !y.sel
      .done (c.s.setImg c.w.blk fun i => (List.range 32).foldl (fun i l =>
        if m.getLsbD l then i.setAcc id (32 * f + l) (BitVec.ofNat 32 (y.lane c.x e bv l).1)
        else if zero then i.setAcc id (32 * f + l) 0#32 else i) i)
    else
      match y.run c.x c.f.mask 0#32 e bv with
      | .error i => .fault i
      | .ok x => .done (c.s.setWarp c.w fun _ => x)

/-- The lanes that a fault's record names, where the fault does not say (R290). -/
def Res.inLanes (m : Mask) : Res → Res
  | .fault i => .fault { i with lanes := some (i.lanes.getD m) }
  | r => r

/-- Check 5 for an instruction that may ignore its type (R286, R331). -/
def typeCheck (p : Option VPfx) (e : Eff) (types : Option (List Nat)) (rounds : Bool) : Option FaultInfo :=
  typeBad p e (types.getD [e.type]) rounds

/-- A vector instruction (R330): checks 5 and 6 of R286, the interlock and flags, then its body. -/
def vec (p : Option VPfx) (y : VBody) (c : Ctx) : Res :=
  let e := effOf c.x c.f.mask p
  Res.inLanes e.mask <|
  match typeCheck p e y.types y.rounds with
  | some i => .fault i
  | none =>
    match VPfx.acc p, y.bfield with
    | some id, some b =>
      let d := match y.dst e.type with | .v d _ => d | .p _ => 0
      let os := accOps b (y.ops e.type)
      checkRange c (os ++ gpOp p) <| checkReady c (os ++ gpRead c.x p) <| accRun c y e id b d
    | _, _ =>
      let os := y.ops e.type
      checkRange c (os ++ gpOp p) <| checkReady c (os ++ gpRead c.x p) <|
        match y.run c.x c.f.mask 0#32 e (y.bvals c.x e) with
        | .error i => .fault i
        | .ok x => .done (c.s.setWarp c.w fun _ => x)

end Sys2Proof.Machine
end

