-- ==== Sys2Proof/Machine/Vector.lean ====
section
/-!
DEFINITION. Vector arithmetic, comparison, conversion and predicate instructions (R332–R341): the body of each and its
meaning over the common frame.
-/
namespace Sys2Proof.Machine

/-- An exact integer result under R239. -/
def sRes (v : VEnv) (x : Int) : Nat × Bool := (intRes v.sat (isSigned v.t) (elemBits v.t) x, false)
def iv (v : VEnv) (a : Nat) : Int := intVal (isSigned v.t) (elemBits v.t) a

/-- A floating-point operation on decoded operands: flushed inputs, exact value, one rounding, conditions (R235–R238). -/
def fop2 (f : Num → Num → Num × Bool) (v : VEnv) (a b : Nat) : Nat × Bool :=
  let m := fmtOf v.t
  let x := m.dec (m.flushIn v.ftz a)
  let y := m.dec (m.flushIn v.ftz b)
  let (r, cond) := f x y
  m.result v.ftz v.rnd r (cond || invalid r [x, y])

def fadd (v : VEnv) : Nat → Nat → Nat × Bool := fop2 (fun x y => (sumNum v.rnd [x, y], false)) v
def fsub (v : VEnv) : Nat → Nat → Nat × Bool := fop2 (fun x y => (sumNum v.rnd [x, y.neg], false)) v
def fmul (v : VEnv) : Nat → Nat → Nat × Bool := fop2 (fun x y => (x.mul y, false)) v
def fdiv (v : VEnv) : Nat → Nat → Nat × Bool := fop2 Num.div v

/-- `VFMA` (R335): invalid for ∞ × 0 even when c is NaN. -/
def ffma (v : VEnv) (a b c : Nat) : Nat × Bool :=
  let m := fmtOf v.t
  let x := m.dec (m.flushIn v.ftz a)
  let y := m.dec (m.flushIn v.ftz b)
  let z := m.dec (m.flushIn v.ftz c)
  let p := x.mul y
  let r := sumNum v.rnd [p, z]
  m.result v.ftz v.rnd r (invalid p [x, y] || invalid r [x, y, z])

/-- `VFMIN`, `VFMAX` (R237): −0 below +0, a NaN operand gives the other. -/
def fminmax (isMax : Bool) (v : VEnv) (a b : Nat) : Nat × Bool :=
  let m := fmtOf v.t
  let a := m.flushIn v.ftz a
  let b := m.flushIn v.ftz b
  let x := m.dec a
  let y := m.dec b
  let less := x.lt y || (x.eq y && a.testBit (m.width - 1) && !b.testBit (m.width - 1))
  (if x.isNan then (if y.isNan then m.nanBits else b) else if y.isNan then a else if less != isMax then a else b, false)

def fsqrt (v : VEnv) (a : Nat) : Nat × Bool :=
  let m := fmtOf v.t
  let (r, cond) := (m.dec (m.flushIn v.ftz a)).sqrt
  m.result v.ftz v.rnd r cond

/-- `VROUND` (R335). -/
def fround (v : VEnv) (a : Nat) : Nat × Bool :=
  let m := fmtOf v.t
  let a := m.flushIn v.ftz a
  match m.dec a with
  | .nan => (m.nanBits, false)
  | .inf _ => (a, false)
  | .fin s k e => if k = 0 || 0 ≤ e then (a, false) else ((m.round 0 (.fin s (roundInt v.rnd s k e).natAbs 0)).1, false)

/-- `VFRAC` (R335). -/
def ffrac (v : VEnv) (a : Nat) : Nat × Bool :=
  let m := fmtOf v.t
  match m.dec (m.flushIn v.ftz a) with
  | .nan => (m.nanBits, false)
  | .inf _ => (m.nanBits, true)
  | .fin s k e => m.result v.ftz 0 (if 0 ≤ e then .fin s 0 0 else .fin s (k % 2 ^ (-e).toNat) e) false

/-- `VSCALE` (R335); amounts beyond every format are held. -/
def fscale (v : VEnv) (a b : Nat) : Nat × Bool :=
  let m := fmtOf v.t
  let n := max (-5000) (min 5000 (sextInt (elemBits v.t) b))
  m.result v.ftz v.rnd ((m.dec (m.flushIn v.ftz a)).scale n) false

/-- `VCLASS` (R336), on the raw input. -/
def fclass (v : VEnv) (a : Nat) : Nat × Bool :=
  let m := fmtOf v.t
  let sub := (a >>> m.fb) % 2 ^ m.eb = 0
  let k := match m.dec a with
    | .nan => 8
    | .inf true => 0
    | .inf false => 7
    | .fin s n _ => if n = 0 then (if s then 3 else 4) else if sub then (if s then 2 else 5) else (if s then 1 else 6)
  (2 ^ k, false)

/-- The value of a compared operand. -/
def cmpNum (v : VEnv) (a : Nat) : Num := elemNum v.t v.ftz a

/-- Registers of a `VCVT` group of `e` elements (R337). -/
def perReg (t : Nat) : Nat := if t = 9 || t = 10 || t = 11 then 1 else elemCount t
def cvtElems (dst src : Nat) : Nat := max (perReg src) (perReg dst)
def cvtRegs (e t : Nat) : Nat := e / perReg t * typeRegs t

/-- Registers `r`, `r`+1, … of one lane as one number. -/
def Warp.laneGroup (x : Warp) (r l : Nat) : Nat → Nat
  | 0 => 0
  | n + 1 => (x.lane r l).toNat + 2 ^ 32 * Warp.laneGroup x (r + 1) l n

/-- A scalar source of more than two registers is out of range (R337). -/
def cvtSrc (n : Nat) (a : BitVec 8) : Opnd := if 2 < n && 0xC0 ≤ a.toNat then { k := .vd n, val := a.toNat, code := 1 } else vOp n a 1

/-- `VCVT` (R337, R254, R255). -/
def vcvtBody (d a : BitVec 8) (dst src : BitVec 4) : VBody :=
  let e := cvtElems dst.toNat src.toNat
  let nd := cvtRegs e dst.toNat
  let ns := cvtRegs e src.toNat
  { types := none
    ops := fun _ => [vDst nd d, cvtSrc ns a]
    dst := fun _ => .v d.toNat nd
    rounds := true
    lane := fun x f _ l =>
      let v := x.laneGroup a.toNat l ns
      let rs := (List.range e).map fun k => convElem src.toNat dst.toNat (mFtz x.mode) (mSat x.mode) f.rnd (elemAt src.toNat v k)
      (packElems dst.toNat (rs.map Prod.fst), rs.any Prod.snd) }

/-- Source type of `VPACK` by packed type (R339). -/
def packSrc (t : Nat) : Nat := if t ≤ 4 then 2 else if t = 5 then 0 else if t = 6 then 1 else if t = 7 then 5 else 6
def packTypes : List Nat := [3, 4, 5, 6, 7, 8]

def vpackBody (d a b : BitVec 8) : VBody :=
  { types := some packTypes
    ops := fun _ => [vDst 1 d, vOp 1 a 1, vOp 1 b 2]
    dst := fun _ => .v d.toNat 1
    bfield := some b.toNat
    rounds := true
    lane := fun x e bv l =>
      let st := packSrc e.type
      let v := (x.lane a.toNat l).toNat + 2 ^ 32 * bv l
      let rs := (List.range (elemCount e.type)).map fun k =>
        convElem st e.type (mFtz x.mode) (mSat x.mode) e.rnd (elemAt st v k)
      (packElems e.type (rs.map Prod.fst), rs.any Prod.snd) }

def vunpkBody (d a : BitVec 8) : VBody :=
  { types := some packTypes
    ops := fun _ => [vDst 2 d, vOp 1 a 1]
    dst := fun _ => .v d.toNat 2
    lane := fun x e _ l =>
      let st := packSrc e.type
      let v := (x.lane a.toNat l).toNat
      (packElems st ((List.range (elemCount e.type)).map fun k =>
        (convElem e.type st (mFtz x.mode) (mSat x.mode) 0 (elemAt e.type v k)).1), false) }

/-- `VDOT4`, `VDOT2` (R340, R251). -/
def vdotBody (types : List Nat) (p : VPfx) (d a b : BitVec 8) : VBody :=
  { types := some types
    ops := fun _ => [vDst 1 d, vOp 1 a 1, vOp 1 b 2, vOp 1 p.c 3]
    dst := fun _ => .v d.toNat 1
    bfield := some b.toNat
    lane := fun x e bv l =>
      let v := envOf x e
      let va := (x.lane a.toNat l).toNat
      let vc := (x.lane p.c.toNat l).toNat
      let ks := List.range (elemCount e.type)
      if isIeee e.type then
        let m := fmtOf e.type
        let dec := fun k u => m.dec (m.flushIn v.ftz (elemAt e.type u k))
        let ps := ks.map fun k => (dec k va).mul (dec k (bv l))
        let cc := f32.dec (f32.flushIn v.ftz vc)
        let srcs := ks.map (fun k => dec k va) ++ ks.map (fun k => dec k (bv l))
        let r := sumNum e.rnd (ps ++ [cc])
        f32.result v.ftz e.rnd r (ks.any (fun k => invalid ((dec k va).mul (dec k (bv l))) [dec k va, dec k (bv l)])
          || invalid r (cc :: srcs))
      else
        let sg := isSigned e.type
        let w := elemBits e.type
        let sum := ks.foldl (fun t k => t + intVal sg w (elemAt e.type va k) * intVal sg w (elemAt e.type (bv l) k))
          (intVal sg 32 vc)
        (intRes v.sat sg 32 sum, false) }

/-- `VLANEID`, `VIOTA` (R334). -/
def laneidBody (d : BitVec 8) : VBody :=
  { types := none, ops := fun _ => [vDst 1 d], dst := fun _ => .v d.toNat 1, lane := fun _ _ _ l => (l, false) }
def viotaBody (d : BitVec 8) : VBody :=
  { types := none, ops := fun _ => [vDst 1 d], dst := fun _ => .v d.toNat 1
    lane := fun _ e _ l => (((List.range l).filter fun k => e.mask.getLsbD k).length, false) }

/-- `VSEL` (R334). -/
def vselBody (d a b : BitVec 8) : VBody :=
  { types := some bitTypes
    ops := fun t => [vDst (typeRegs t) d, vOp (typeRegs t) a 1, vOp (typeRegs t) b 2]
    dst := fun t => .v d.toNat (typeRegs t)
    bfield := some b.toNat
    sel := true
    lane := fun x e bv l => (if e.g.getLsbD l then x.laneN (typeRegs e.type) a.toNat l else bv l, false) }

/-- Predicate logic (R341). -/
def plogBody (d : BitVec 8) (src : List (BitVec 8)) (f : List Bool → Bool) : VBody :=
  { types := none
    ops := fun _ => pDst d :: (src.zipIdx.map fun a => pOp a.1 (a.2 + 1))
    dst := fun _ => .p d.toNat
    lane := fun x _ _ l => (if f (src.map fun a => (x.pred a.toNat).getLsbD l) then 1 else 0, false) }

def vaddBody (d a b : BitVec 8) : VBody := ew2 d a b intTypes fun v a b => sRes v (iv v a + iv v b)
def execVadd (p : Option VPfx) (d a b : BitVec 8) (s : State) := runInstr s (vec p (vaddBody d a b))

def vsubBody (d a b : BitVec 8) : VBody := ew2 d a b intTypes fun v a b => sRes v (iv v a - iv v b)
def execVsub (p : Option VPfx) (d a b : BitVec 8) (s : State) := runInstr s (vec p (vsubBody d a b))

def vmulBody (d a b : BitVec 8) : VBody := ew2 d a b intTypes fun v a b => sRes v (iv v a * iv v b)
def execVmul (p : Option VPfx) (d a b : BitVec 8) (s : State) := runInstr s (vec p (vmulBody d a b))

def vmulhBody (d a b : BitVec 8) : VBody := ew2 d a b intTypes fun v a b => (wrap (elemBits v.t) (iv v a * iv v b / (2 ^ elemBits v.t : Nat)), false)
def execVmulh (p : Option VPfx) (d a b : BitVec 8) (s : State) := runInstr s (vec p (vmulhBody d a b))

def vmadBody (p : VPfx) (d a b : BitVec 8) : VBody := ew3 p d a b intTypes fun v a b c => sRes v (iv v a * iv v b + iv v c)
def execVmad (p : VPfx) (d a b : BitVec 8) (s : State) := runInstr s (vec (some p) (vmadBody p d a b))

def vandBody (d a b : BitVec 8) : VBody := ew2 d a b bitTypes fun _ a b => (a &&& b, false)
def execVand (p : Option VPfx) (d a b : BitVec 8) (s : State) := runInstr s (vec p (vandBody d a b))

def vorBody (d a b : BitVec 8) : VBody := ew2 d a b bitTypes fun _ a b => (a ||| b, false)
def execVor (p : Option VPfx) (d a b : BitVec 8) (s : State) := runInstr s (vec p (vorBody d a b))

def vxorBody (d a b : BitVec 8) : VBody := ew2 d a b bitTypes fun _ a b => (a ^^^ b, false)
def execVxor (p : Option VPfx) (d a b : BitVec 8) (s : State) := runInstr s (vec p (vxorBody d a b))

def vshlBody (d a b : BitVec 8) : VBody := ew2 d a b intTypes fun v a b => (shlElem (elemBits v.t) a (b % 256), false)
def execVshl (p : Option VPfx) (d a b : BitVec 8) (s : State) := runInstr s (vec p (vshlBody d a b))

def vshrBody (d a b : BitVec 8) : VBody := ew2 d a b intTypes fun v a b => (shrElem (isSigned v.t) (elemBits v.t) a (b % 256), false)
def execVshr (p : Option VPfx) (d a b : BitVec 8) (s : State) := runInstr s (vec p (vshrBody d a b))

def vminBody (d a b : BitVec 8) : VBody := ew2 d a b intTypes fun v a b => (intMinMax (isSigned v.t) false (elemBits v.t) a b, false)
def execVmin (p : Option VPfx) (d a b : BitVec 8) (s : State) := runInstr s (vec p (vminBody d a b))

def vmaxBody (d a b : BitVec 8) : VBody := ew2 d a b intTypes fun v a b => (intMinMax (isSigned v.t) true (elemBits v.t) a b, false)
def execVmax (p : Option VPfx) (d a b : BitVec 8) (s : State) := runInstr s (vec p (vmaxBody d a b))

def vabsBody (d a : BitVec 8) : VBody := ew1 d a signedTypes fun v a => sRes v (iv v a).natAbs
def execVabs (p : Option VPfx) (d a : BitVec 8) (s : State) := runInstr s (vec p (vabsBody d a))

def vnegBody (d a : BitVec 8) : VBody := ew1 d a signedTypes fun v a => sRes v (-(iv v a))
def execVneg (p : Option VPfx) (d a : BitVec 8) (s : State) := runInstr s (vec p (vnegBody d a))

def vclzBody (d a : BitVec 8) : VBody := ew1 d a intTypes fun v a => (clz (elemBits v.t) a, false)
def execVclz (p : Option VPfx) (d a : BitVec 8) (s : State) := runInstr s (vec p (vclzBody d a))

def vpopcBody (d a : BitVec 8) : VBody := ew1 d a intTypes fun v a => (popCount (elemBits v.t) a, false)
def execVpopc (p : Option VPfx) (d a : BitVec 8) (s : State) := runInstr s (vec p (vpopcBody d a))

def vmovBody (d a : BitVec 8) : VBody := ew1 d a bitTypes fun _ a => (a, false)
def execVmov (p : Option VPfx) (d a : BitVec 8) (s : State) := runInstr s (vec p (vmovBody d a))

def vbrevBody (d a : BitVec 8) : VBody := ew1 d a intTypes fun v a => (bitReverse (elemBits v.t) a, false)
def execVbrev (p : Option VPfx) (d a : BitVec 8) (s : State) := runInstr s (vec p (vbrevBody d a))

def vaddiBody (d a : BitVec 8) (imm : Word) : VBody := ewI d a true imm intTypes fun v a b => sRes v (iv v a + iv v b)
def execVaddi (x : Option (BitVec 24)) (p : Option VPfx) (d a i : BitVec 8) (s : State) :=
  runInstr s (vec p (vaddiBody d a (immOf x true i)))

def vandiBody (d a : BitVec 8) (imm : Word) : VBody := ewI d a false imm bitTypes fun _ a b => (a &&& b, false)
def execVandi (x : Option (BitVec 24)) (p : Option VPfx) (d a i : BitVec 8) (s : State) :=
  runInstr s (vec p (vandiBody d a (immOf x false i)))

def voriBody (d a : BitVec 8) (imm : Word) : VBody := ewI d a false imm bitTypes fun _ a b => (a ||| b, false)
def execVori (x : Option (BitVec 24)) (p : Option VPfx) (d a i : BitVec 8) (s : State) :=
  runInstr s (vec p (voriBody d a (immOf x false i)))

def vxoriBody (d a : BitVec 8) (imm : Word) : VBody := ewI d a false imm bitTypes fun _ a b => (a ^^^ b, false)
def execVxori (x : Option (BitVec 24)) (p : Option VPfx) (d a i : BitVec 8) (s : State) :=
  runInstr s (vec p (vxoriBody d a (immOf x false i)))

def vshliBody (d a : BitVec 8) (n : BitVec 6) : VBody := ew1 d a intTypes fun v a => (shlElem (elemBits v.t) a n.toNat, false)
def execVshli (p : Option VPfx) (d a : BitVec 8) (n : BitVec 6) (s : State) := runInstr s (vec p (vshliBody d a n))

def vshriBody (d a : BitVec 8) (n : BitVec 6) : VBody := ew1 d a intTypes fun v a => (shrElem (isSigned v.t) (elemBits v.t) a n.toNat, false)
def execVshri (p : Option VPfx) (d a : BitVec 8) (n : BitVec 6) (s : State) := runInstr s (vec p (vshriBody d a n))

def vbfeBody (d a b : BitVec 8) : VBody := ew2 d a b fieldTypes fun v a b => (bfe (isSigned v.t) (elemBits v.t) a (b % 256) (b / 256 % 256), false)
def execVbfe (p : Option VPfx) (d a b : BitVec 8) (s : State) := runInstr s (vec p (vbfeBody d a b))

def vbfiBody (p : VPfx) (d a b : BitVec 8) : VBody := ew3 p d a b fieldTypes fun v a b c => (bfi (elemBits v.t) a c (b % 256) (b / 256 % 256), false)
def execVbfi (p : VPfx) (d a b : BitVec 8) (s : State) := runInstr s (vec (some p) (vbfiBody p d a b))

def vfaddBody (d a b : BitVec 8) : VBody := { ew2 d a b floatTypes fadd with rounds := true }
def execVfadd (p : Option VPfx) (d a b : BitVec 8) (s : State) := runInstr s (vec p (vfaddBody d a b))

def vfsubBody (d a b : BitVec 8) : VBody := { ew2 d a b floatTypes fsub with rounds := true }
def execVfsub (p : Option VPfx) (d a b : BitVec 8) (s : State) := runInstr s (vec p (vfsubBody d a b))

def vfmulBody (d a b : BitVec 8) : VBody := { ew2 d a b floatTypes fmul with rounds := true }
def execVfmul (p : Option VPfx) (d a b : BitVec 8) (s : State) := runInstr s (vec p (vfmulBody d a b))

def vfmaBody (p : VPfx) (d a b : BitVec 8) : VBody := { ew3 p d a b floatTypes ffma with rounds := true }
def execVfma (p : VPfx) (d a b : BitVec 8) (s : State) := runInstr s (vec (some p) (vfmaBody p d a b))

def vfminBody (d a b : BitVec 8) : VBody := ew2 d a b floatTypes (fminmax false)
def execVfmin (p : Option VPfx) (d a b : BitVec 8) (s : State) := runInstr s (vec p (vfminBody d a b))

def vfmaxBody (d a b : BitVec 8) : VBody := ew2 d a b floatTypes (fminmax true)
def execVfmax (p : Option VPfx) (d a b : BitVec 8) (s : State) := runInstr s (vec p (vfmaxBody d a b))

def vfabsBody (d a : BitVec 8) : VBody := ew1 d a floatTypes fun v a => (a % 2 ^ (elemBits v.t - 1), false)
def execVfabs (p : Option VPfx) (d a : BitVec 8) (s : State) := runInstr s (vec p (vfabsBody d a))

def vfnegBody (d a : BitVec 8) : VBody := ew1 d a floatTypes fun v a => (a ^^^ 2 ^ (elemBits v.t - 1), false)
def execVfneg (p : Option VPfx) (d a : BitVec 8) (s : State) := runInstr s (vec p (vfnegBody d a))

def vfdivBody (d a b : BitVec 8) : VBody := { ew2 d a b floatTypes fdiv with rounds := true }
def execVfdiv (p : Option VPfx) (d a b : BitVec 8) (s : State) := runInstr s (vec p (vfdivBody d a b))

def vfsqrtBody (d a : BitVec 8) : VBody := { ew1 d a floatTypes fsqrt with rounds := true }
def execVfsqrt (p : Option VPfx) (d a : BitVec 8) (s : State) := runInstr s (vec p (vfsqrtBody d a))

def vrcpBody (d a : BitVec 8) : VBody := { ew1 d a specialTypes fun v a => special 0 v.t v.ftz v.rnd a with rounds := true }
def execVrcp (p : Option VPfx) (d a : BitVec 8) (s : State) := runInstr s (vec p (vrcpBody d a))

def vrsqBody (d a : BitVec 8) : VBody := { ew1 d a specialTypes fun v a => special 1 v.t v.ftz v.rnd a with rounds := true }
def execVrsq (p : Option VPfx) (d a : BitVec 8) (s : State) := runInstr s (vec p (vrsqBody d a))

def vexp2Body (d a : BitVec 8) : VBody := { ew1 d a specialTypes fun v a => special 2 v.t v.ftz v.rnd a with rounds := true }
def execVexp2 (p : Option VPfx) (d a : BitVec 8) (s : State) := runInstr s (vec p (vexp2Body d a))

def vlog2Body (d a : BitVec 8) : VBody := { ew1 d a specialTypes fun v a => special 3 v.t v.ftz v.rnd a with rounds := true }
def execVlog2 (p : Option VPfx) (d a : BitVec 8) (s : State) := runInstr s (vec p (vlog2Body d a))

def vsinBody (d a : BitVec 8) : VBody := { ew1 d a specialTypes fun v a => special 4 v.t v.ftz v.rnd a with rounds := true }
def execVsin (p : Option VPfx) (d a : BitVec 8) (s : State) := runInstr s (vec p (vsinBody d a))

def vcosBody (d a : BitVec 8) : VBody := { ew1 d a specialTypes fun v a => special 5 v.t v.ftz v.rnd a with rounds := true }
def execVcos (p : Option VPfx) (d a : BitVec 8) (s : State) := runInstr s (vec p (vcosBody d a))

def vtanhBody (d a : BitVec 8) : VBody := { ew1 d a specialTypes fun v a => special 6 v.t v.ftz v.rnd a with rounds := true }
def execVtanh (p : Option VPfx) (d a : BitVec 8) (s : State) := runInstr s (vec p (vtanhBody d a))

def vsigmBody (d a : BitVec 8) : VBody := { ew1 d a specialTypes fun v a => special 7 v.t v.ftz v.rnd a with rounds := true }
def execVsigm (p : Option VPfx) (d a : BitVec 8) (s : State) := runInstr s (vec p (vsigmBody d a))

def vroundBody (d a : BitVec 8) : VBody := { ew1 d a floatTypes fround with rounds := true }
def execVround (p : Option VPfx) (d a : BitVec 8) (s : State) := runInstr s (vec p (vroundBody d a))

def vfracBody (d a : BitVec 8) : VBody := ew1 d a floatTypes ffrac
def execVfrac (p : Option VPfx) (d a : BitVec 8) (s : State) := runInstr s (vec p (vfracBody d a))

def vclassBody (d a : BitVec 8) : VBody := ew1 d a floatTypes fclass
def execVclass (p : Option VPfx) (d a : BitVec 8) (s : State) := runInstr s (vec p (vclassBody d a))

def vscaleBody (d a b : BitVec 8) : VBody := { ew2 d a b floatTypes fscale with rounds := true }
def execVscale (p : Option VPfx) (d a b : BitVec 8) (s : State) := runInstr s (vec p (vscaleBody d a b))

def vcmpeqBody (d a b : BitVec 8) : VBody := cmp2 d a b [0, 1, 2, 9, 10, 11] fun v a b => (cmpNum v a).eq (cmpNum v b)
def execVcmpeq (p : Option VPfx) (d a b : BitVec 8) (s : State) := runInstr s (vec p (vcmpeqBody d a b))

def vcmpneBody (d a b : BitVec 8) : VBody := cmp2 d a b [0, 1, 2, 9, 10, 11] fun v a b => !(cmpNum v a).eq (cmpNum v b)
def execVcmpne (p : Option VPfx) (d a b : BitVec 8) (s : State) := runInstr s (vec p (vcmpneBody d a b))

def vcmpltBody (d a b : BitVec 8) : VBody := cmp2 d a b [0, 1, 2, 9, 10, 11] fun v a b => (cmpNum v a).lt (cmpNum v b)
def execVcmplt (p : Option VPfx) (d a b : BitVec 8) (s : State) := runInstr s (vec p (vcmpltBody d a b))

def vcmpleBody (d a b : BitVec 8) : VBody := cmp2 d a b [0, 1, 2, 9, 10, 11] fun v a b => (cmpNum v a).lt (cmpNum v b) || (cmpNum v a).eq (cmpNum v b)
def execVcmple (p : Option VPfx) (d a b : BitVec 8) (s : State) := runInstr s (vec p (vcmpleBody d a b))

def vcmpunBody (d a b : BitVec 8) : VBody := cmp2 d a b [2, 11] fun v a b => (cmpNum v a).isNan || (cmpNum v b).isNan
def execVcmpun (p : Option VPfx) (d a b : BitVec 8) (s : State) := runInstr s (vec p (vcmpunBody d a b))

/-- `VMOVI` (R333). -/
def vmoviBody (d : BitVec 8) (imm : Word) : VBody :=
  { types := some bitTypes
    ops := fun t => [vDst (typeRegs t) d]
    dst := fun t => .v d.toNat (typeRegs t)
    lane := fun _ e _ _ => mapElems e.type fun _ => (immElem e.type true imm, false) }
def execVmovi (x : Option (BitVec 24)) (p : Option VPfx) (d i : BitVec 8) (s : State) :=
  runInstr s (vec p (vmoviBody d (immOf x true i)))

def execVsel (p : Option VPfx) (d a b : BitVec 8) (s : State) := runInstr s (vec p (vselBody d a b))
def execVlaneid (p : Option VPfx) (d : BitVec 8) (s : State) := runInstr s (vec p (laneidBody d))
def execViota (p : Option VPfx) (d : BitVec 8) (s : State) := runInstr s (vec p (viotaBody d))
def execVcvt (p : Option VPfx) (d a : BitVec 8) (dst src : BitVec 4) (s : State) := runInstr s (vec p (vcvtBody d a dst src))
def execVpack (p : Option VPfx) (d a b : BitVec 8) (s : State) := runInstr s (vec p (vpackBody d a b))
def execVunpk (p : Option VPfx) (d a : BitVec 8) (s : State) := runInstr s (vec p (vunpkBody d a))
def vdot4Body (p : VPfx) (d a b : BitVec 8) : VBody := vdotBody [7, 8] p d a b
def execVdot4 (p : VPfx) (d a b : BitVec 8) (s : State) := runInstr s (vec (some p) (vdot4Body p d a b))
def vdot2Body (p : VPfx) (d a b : BitVec 8) : VBody := { vdotBody [3, 4, 5, 6] p d a b with rounds := true }
def execVdot2 (p : VPfx) (d a b : BitVec 8) (s : State) := runInstr s (vec (some p) (vdot2Body p d a b))

def pandBody (d a b : BitVec 8) : VBody := plogBody d [a, b] fun v => v.all (fun x => x)
def execPand (p : Option VPfx) (d a b : BitVec 8) (s : State) := runInstr s (vec p (pandBody d a b))
def porBody (d a b : BitVec 8) : VBody := plogBody d [a, b] fun v => v.any (fun x => x)
def execPor (p : Option VPfx) (d a b : BitVec 8) (s : State) := runInstr s (vec p (porBody d a b))
def pxorBody (d a b : BitVec 8) : VBody := plogBody d [a, b] fun v => v.foldl xor false
def execPxor (p : Option VPfx) (d a b : BitVec 8) (s : State) := runInstr s (vec p (pxorBody d a b))
def pnotBody (d a : BitVec 8) : VBody := plogBody d [a] fun v => !v.headD false
def execPnot (p : Option VPfx) (d a : BitVec 8) (s : State) := runInstr s (vec p (pnotBody d a))
def pmovBody (d a : BitVec 8) : VBody := plogBody d [a] fun v => v.headD false
def execPmov (p : Option VPfx) (d a : BitVec 8) (s : State) := runInstr s (vec p (pmovBody d a))
def psetiBody (d : BitVec 8) (i : Bool) : VBody := plogBody d [] fun _ => i
def execPseti (p : Option VPfx) (d : BitVec 8) (i : Bool) (s : State) := runInstr s (vec p (psetiBody d i))

end Sys2Proof.Machine
end

