-- ==== Sys2Proof/Machine/Lane.lean ====
section
/-!
DEFINITION. Cross-lane instructions (R344–R346) and execute-from-vector (R347–R351).
-/
namespace Sys2Proof.Machine

/-- A shuffle (R344): `from l n` is the source lane. -/
def shflBody (d a b : BitVec 8) (src : Nat → Nat → Nat) : VBody :=
  { types := some bitTypes
    ops := fun t => [vDst (typeRegs t) d, vOp (typeRegs t) a 1, vOp (typeRegs t) b 2]
    dst := fun t => .v d.toNat (typeRegs t)
    lane := fun x e _ l => (x.laneN (typeRegs e.type) a.toNat (src l ((x.lane b.toNat l).toNat % 32)), false) }

def execVshfl (p : Option VPfx) (d a b : BitVec 8) (s : State) := runInstr s (vec p (shflBody d a b fun _ n => n))
def execVshflx (p : Option VPfx) (d a b : BitVec 8) (s : State) := runInstr s (vec p (shflBody d a b fun l n => l ^^^ n))
def execVshflu (p : Option VPfx) (d a b : BitVec 8) (s : State) :=
  runInstr s (vec p (shflBody d a b fun l n => if n ≤ l then l - n else l))
def execVshfld (p : Option VPfx) (d a b : BitVec 8) (s : State) :=
  runInstr s (vec p (shflBody d a b fun l n => if l + n ≤ 31 then l + n else l))

/-- `VBCAST` (R344). -/
def vbcastBody (d a b : BitVec 8) : VBody :=
  { types := some bitTypes
    ops := fun t => [vDst (typeRegs t) d, vOp (typeRegs t) a 1, sOp b 2]
    dst := fun t => .v d.toNat (typeRegs t)
    lane := fun x e _ _ => (x.laneN (typeRegs e.type) a.toNat ((x.sf b.toNat).toNat % 32), false) }

def execVbcast (p : Option VPfx) (d a b : BitVec 8) (s : State) := runInstr s (vec p (vbcastBody d a b))

-- ## Reductions and scans (R249, R250, R345)

/-- Combines two elements by operation 0–5, with its conditions. -/
def redOp (v : VEnv) (op a b : Nat) : Nat × Bool :=
  match op with
  | 0 => if isIeee v.t then fadd { v with rnd := 0 } a b else sRes v (iv v a + iv v b)
  | 1 => if isIeee v.t then fminmax false v a b else (intMinMax (isSigned v.t) false (elemBits v.t) a b, false)
  | 2 => if isIeee v.t then fminmax true v a b else (intMinMax (isSigned v.t) true (elemBits v.t) a b, false)
  | 3 => (a &&& b, false)
  | 4 => (a ||| b, false)
  | _ => (a ^^^ b, false)

/-- Combines two nodes; an absent one passes its sibling through (R249). -/
def redNode (v : VEnv) (op : Nat) : Option (Nat × Bool) → Option (Nat × Bool) → Option (Nat × Bool)
  | none, y => y
  | x, none => x
  | some (a, c), some (b, d) => let (r, e) := redOp v op a b; some (r, c || d || e)

/-- One level of the pairwise tree. -/
def redLevel (v : VEnv) (op : Nat) : List (Option (Nat × Bool)) → List (Option (Nat × Bool))
  | x :: y :: rest => redNode v op x y :: redLevel v op rest
  | rest => rest

/-- The tree over an aligned block of 2^n leaves. -/
def redTree (v : VEnv) (op : Nat) : Nat → List (Option (Nat × Bool)) → Option (Nat × Bool)
  | 0, l => l.headD none
  | n + 1, l => redTree v op n (redLevel v op l)

/-- A leaf: an active lane's element, a subnormal input flushed under `FTZ` (R236), a NaN canonical (R237). -/
def redLeaf (v : VEnv) (op a : Nat) : Nat :=
  let f := fmtOf v.t
  if isIeee v.t && op ≤ 2 then (if (f.dec a).isNan then f.nanBits else f.flushIn v.ftz a) else a

/-- The blocks of lanes 0 to i, largest first, combined from the lowest upward (R250). -/
def scanFrom (v : VEnv) (op : Nat) (ls : List (Option (Nat × Bool))) : Nat → Nat → Nat → Option (Nat × Bool) → Option (Nat × Bool)
  | 0, _, _, acc => acc
  | n + 1, start, len, acc =>
    if len.testBit n then
      scanFrom v op ls n (start + 2 ^ n) len (redNode v op acc (redTree v op n ((ls.drop start).take (2 ^ n))))
    else scanFrom v op ls n start len acc

/-- Types of `VRED` and `VSCAN` by operation (R331). -/
def redTypes (op : Nat) : List Nat := if op ≤ 2 then bitTypes else intTypes

def redBody (scan : Bool) (d a op : BitVec 8) : VBody :=
  { types := some (redTypes op.toNat)
    ops := fun t => [vDst (typeRegs t) d, vOp (typeRegs t) a 1]
    dst := fun t => .v d.toNat (typeRegs t)
    needsActive := true
    rounds := true
    lane := fun x e _ l =>
      let v := envOf x e
      mapElems e.type fun k =>
        let ls := (List.range 32).map fun i =>
          if e.mask.getLsbD i then
            some (redLeaf v op.toNat (elemAt e.type (x.laneN (typeRegs e.type) a.toNat i) k), false) else none
        (if scan then scanFrom v op.toNat ls 6 0 (l + 1) none else redTree v op.toNat 5 ls).getD (0, false) }

def execVred (p : Option VPfx) (d a op : BitVec 8) (s : State) := runInstr s (vec p (redBody false d a op))
def execVscan (p : Option VPfx) (d a op : BitVec 8) (s : State) := runInstr s (vec p (redBody true d a op))

-- ## Match by key (R346)

/-- The key of a lane: `f32` zeros and NaNs are each one key. -/
def matchKey (t a : Nat) : Nat := if t = 2 then (match f32.dec a with
  | .nan => f32.nanBits
  | .fin _ 0 _ => 0
  | _ => a) else a

def matchMask (x : Warp) (e : Eff) (a l : Nat) : Mask :=
  maskOf ((lanesOf e.mask).filter fun i => matchKey e.type (x.lane a i).toNat = matchKey e.type (x.lane a l).toNat)

def vmatchBody (d a : BitVec 8) : VBody :=
  { types := some [0, 1, 2]
    ops := fun _ => [vDst 1 d, vOp 1 a 1]
    dst := fun _ => .v d.toNat 1
    lane := fun x e _ l => ((matchMask x e a.toNat l).toNat, false) }

/-- The predicate that the prefix's `C` names (R277, R346, R358). -/
def predC (p : Option VPfx) : Nat := match p with | some q => (q.c.extractLsb' 0 6).toNat | none => 0
def predCOp (p : Option VPfx) : List Opnd :=
  [{ k := .p, val := predC p, code := 3, reads := false, writes := true }]

def vmatch (p : Option VPfx) (d a : BitVec 8) (c : Ctx) : Res :=
  let e := effOf c.x c.f.mask p
  Res.inLanes e.mask <|
  match typeBad p e [0, 1, 2] with
  | some i => .fault i
  | none =>
    let os := [vDst 1 d, vOp 1 a 1] ++ predCOp p
    checkRange c (os ++ gpOp p) <| checkReady c (os ++ gpRead c.x p) <|
      match (vmatchBody d a).run c.x c.f.mask 0#32 e (fun _ => 0) with
      | .error i => .fault i
      | .ok y =>
        let leaders := maskOf ((lanesOf e.mask).filter fun l => lowLane (matchMask c.x e a.toNat l) = l)
        .done (c.s.setWarp c.w fun _ => y.setP (predC p) (writeMask (y.pred (predC p)) 0#32 e.mask e.zero leaders))

def execVmatch (p : Option VPfx) (d a : BitVec 8) (s : State) := runInstr s (vmatch p d a)

-- ## Scratchpad accesses of a lane (R204, R360)

/-- Bytes per lane and registers per lane of `W` (R353). -/
def widthOf (w : BitVec 3) : Nat := 2 ^ w.toNat
def widthRegs (w : BitVec 3) : Nat := if w.toNat = 4 then 4 else if w.toNat = 3 then 2 else 1

/-- The scratchpad address of a lane (R273). -/
def localAddr (x : Warp) (a : BitVec 8) (m : MFld) (l : Nat) : Nat :=
  (x.sreg (48 + 2 * m.bp.toNat) + x.lane a.toNat l).toNat

/-- The alignment and range faults of a scratchpad access (R204, R354, R360). -/
def scratchBad (x : Warp) (size : Nat) (a : BitVec 8) (m : MFld) (mask : Mask) : Option FaultInfo :=
  let n := widthOf m.w
  let bad := maskOf ((lanesOf mask).filter fun l => localAddr x a m l % n != 0)
  let out := maskOf ((lanesOf mask).filter fun l => size < localAddr x a m l + n)
  if bad != 0#32 then some { code := 0x05, einfo := bad, lanes := some mask }
  else if out != 0#32 then some { code := 0x09, einfo := out, lanes := some mask } else none

/-- A loaded value extended to its registers (R353). -/
def extendLoad (t w v : Nat) : Nat := if w < 4 && isSigned t then wrap 32 (sextInt (8 * w) v) else v

/-- A register group of one lane as a number. -/
def Warp.groupN (x : Warp) (v regs l : Nat) : Nat := x.laneGroup v l regs

/-- Reads the scratchpad into a register group (R360). -/
def ldsRun (x : Warp) (scratch : Memory) (d a : BitVec 8) (m : MFld) (e : Eff) (reach : Mask) : Warp :=
  x.writeGroup d.toNat (widthRegs m.w) reach e.mask e.zero fun l =>
    extendLoad e.type (widthOf m.w) (scratch.readNat (localAddr x a m l) (widthOf m.w))

/-- Writes register groups to the scratchpad, lanes ascending (R5, R360). -/
def stsRun (x : Warp) (scratch : Memory) (d a : BitVec 8) (m : MFld) (mask : Mask) : Memory :=
  (lanesOf mask).foldl (fun mem l =>
    mem.storeNat (localAddr x a m l) (widthOf m.w) (x.groupN d.toNat (widthRegs m.w) l)) scratch

-- ## Execute-from-vector (R347–R351)

/-- Opcodes that a lane word may have (R347). -/
def wordOpOk (op : Nat) : Bool :=
  inRange op 0x40 0x5D || inRange op 0x60 0x7F || inRange op 0x80 0x85 || op = 0xA3 || op = 0xA4

/-- What a lane word does: a vector body, or a scratchpad access. -/
inductive WordAct where
  | body (y : VBody)
  | lds (d a : BitVec 8) (m : MFld)
  | sts (d a : BitVec 8) (m : MFld)

/-- The body of a vector instruction. -/
def bodyOf : Instr → Option VBody
  | .vcvt _ d a dst src => some (vcvtBody d a dst src)
  | .vpack _ d a b => some (vpackBody d a b)
  | .vunpk _ d a => some (vunpkBody d a)
  | .viota _ d => some (viotaBody d)
  | .vsel _ d a b => some (vselBody d a b)
  | .vadd _ d a b => some (vaddBody d a b)
  | .vsub _ d a b => some (vsubBody d a b)
  | .vmul _ d a b => some (vmulBody d a b)
  | .vmulh _ d a b => some (vmulhBody d a b)
  | .vmad p d a b => some (vmadBody p d a b)
  | .vand _ d a b => some (vandBody d a b)
  | .vor _ d a b => some (vorBody d a b)
  | .vxor _ d a b => some (vxorBody d a b)
  | .vshl _ d a b => some (vshlBody d a b)
  | .vshr _ d a b => some (vshrBody d a b)
  | .vmin _ d a b => some (vminBody d a b)
  | .vmax _ d a b => some (vmaxBody d a b)
  | .vabs _ d a => some (vabsBody d a)
  | .vneg _ d a => some (vnegBody d a)
  | .vclz _ d a => some (vclzBody d a)
  | .vpopc _ d a => some (vpopcBody d a)
  | .vmov _ d a => some (vmovBody d a)
  | .vbrev _ d a => some (vbrevBody d a)
  | .vaddi x _ d a i => some (vaddiBody d a (immOf x true i))
  | .vandi x _ d a i => some (vandiBody d a (immOf x false i))
  | .vori x _ d a i => some (voriBody d a (immOf x false i))
  | .vxori x _ d a i => some (vxoriBody d a (immOf x false i))
  | .vshli _ d a n => some (vshliBody d a n)
  | .vshri _ d a n => some (vshriBody d a n)
  | .vbfe _ d a b => some (vbfeBody d a b)
  | .vbfi p d a b => some (vbfiBody p d a b)
  | .vfadd _ d a b => some (vfaddBody d a b)
  | .vfsub _ d a b => some (vfsubBody d a b)
  | .vfmul _ d a b => some (vfmulBody d a b)
  | .vfma p d a b => some (vfmaBody p d a b)
  | .vfmin _ d a b => some (vfminBody d a b)
  | .vfmax _ d a b => some (vfmaxBody d a b)
  | .vfabs _ d a => some (vfabsBody d a)
  | .vfneg _ d a => some (vfnegBody d a)
  | .vfdiv _ d a b => some (vfdivBody d a b)
  | .vfsqrt _ d a => some (vfsqrtBody d a)
  | .vrcp _ d a => some (vrcpBody d a)
  | .vrsq _ d a => some (vrsqBody d a)
  | .vexp2 _ d a => some (vexp2Body d a)
  | .vlog2 _ d a => some (vlog2Body d a)
  | .vsin _ d a => some (vsinBody d a)
  | .vcos _ d a => some (vcosBody d a)
  | .vtanh _ d a => some (vtanhBody d a)
  | .vsigm _ d a => some (vsigmBody d a)
  | .vround _ d a => some (vroundBody d a)
  | .vfrac _ d a => some (vfracBody d a)
  | .vclass _ d a => some (vclassBody d a)
  | .vscale _ d a b => some (vscaleBody d a b)
  | .vcmpeq _ d a b => some (vcmpeqBody d a b)
  | .vcmpne _ d a b => some (vcmpneBody d a b)
  | .vcmplt _ d a b => some (vcmpltBody d a b)
  | .vcmple _ d a b => some (vcmpleBody d a b)
  | .vcmpun _ d a b => some (vcmpunBody d a b)
  | .vmovi x _ d i => some (vmoviBody d (immOf x true i))
  | .vdot4 p d a b => some (vdot4Body p d a b)
  | .vdot2 p d a b => some (vdot2Body p d a b)
  | .pand _ d a b => some (pandBody d a b)
  | .por _ d a b => some (porBody d a b)
  | .pxor _ d a b => some (pxorBody d a b)
  | .pnot _ d a => some (pnotBody d a)
  | .pmov _ d a => some (pmovBody d a)
  | .pseti _ d i => some (psetiBody d i)
  | .vlaneid _ d => some (laneidBody d)
  | _ => none

/-- The word under the `VEXEC`'s prefix, when it passes checks 2 to 4 of R286. -/
def wordAct (p : Option VPfx) (w : Word) : Option WordAct :=
  if !wordOpOk (opcode w) then none else
  match build (opcode w) { v := p } w with
  | some (i, true) =>
    if !(i.fieldsOk && i.pfxOk) then none else
    match i with
    | .lds _ _ d a m => some (.lds d a m)
    | .sts _ _ d a m => some (.sts d a m)
    | i => (bodyOf i).map .body
  | _ => none

/-- A word is permitted (R347): checks 4 to 6 of R286 under its controls. -/
def wordOk (x : Warp) (p : Option VPfx) (e : Eff) (w : Word) : Bool :=
  match wordAct p w with
  | none => false
  | some (.body y) => (typeCheck p e y.types y.rounds).isNone && (badOpnd x.vregs.length (y.ops e.type)).isNone
  | some (.lds d a m) =>
    (typeBad p e bitTypes).isNone && (badOpnd x.vregs.length [vDst (widthRegs m.w) d, vOp 1 a 1]).isNone
  | some (.sts d a m) =>
    (typeBad p e bitTypes).isNone && (badOpnd x.vregs.length [{ vOp (widthRegs m.w) d 0 with code := 0 }, vOp 1 a 1]).isNone

/-- The fields a word reads and writes. -/
def wordOpnds (e : Eff) : WordAct → List Opnd
  | .body y => y.ops e.type
  | .lds d a m => [vDst (widthRegs m.w) d, vOp 1 a 1, { k := .s, val := 0xC0 + 48 + 2 * m.bp.toNat, code := 0 }]
  | .sts d a m => [vOp (widthRegs m.w) d 0, vOp 1 a 1, { k := .s, val := 0xC0 + 48 + 2 * m.bp.toNat, code := 0 }]

/-- What a `VEXEC` has changed so far: warp and scratchpad, whether a word stored, and the values its `LDS` words
returned. -/
structure VexecSt where
  x : Warp
  scratch : Memory
  stored : Bool := false
  loaded : List (Nat × Word) := []

/-- Issues one word in lanes `m` of `act` (R348). A `VSEL` word chooses by the guard as it stands when the word issues (log 82). -/
def wordRun (p : Option VPfx) (size : Nat) (act m : Mask) (w : Word) (t : VexecSt) : Except FaultInfo VexecSt :=
  let e0 := effOf t.x m p
  let e := { e0 with mask := m }
  match wordAct p w with
  | none => .ok t
  | some u =>
    match flagFault t.x (wordOpnds e u) with
    | some i => .error i
    | none =>
      match u with
      | .body y => (y.run t.x m (act &&& ~~~ m) e (y.bvals t.x e)).map fun x => { t with x := x }
      | .lds d a f =>
        match scratchBad t.x size a f m with
        | some i => .error i
        | none =>
          let x := ldsRun t.x t.scratch d a f e (act &&& ~~~ m)
          .ok { t with x := x, loaded := t.loaded ++ (lanesOf m).flatMap fun l =>
            (List.range (widthRegs f.w)).map fun r => (4 * l + r, x.lane (d.toNat + r) l) }
      | .sts d a f =>
        match scratchBad t.x size a f m with
        | some i => .error i
        | none => .ok { t with scratch := stsRun t.x t.scratch d a f m, stored := true }

/-- The distinct words over the active lanes, ascending, with their lanes. -/
def wordGroups (x : Warp) (a : Nat) (act : Mask) : List (Word × Mask) :=
  (sortBy (fun w : Word => w.toNat) (dedup ((lanesOf act).map fun l => x.lane a l))).map fun w =>
    (w, maskOf ((lanesOf act).filter fun l => x.lane a l = w))

/-- A `VEXEC` has issued all its words: it completes, and its stores and returned values enter the spin detector (R181, R351). -/
def VexecRun.finish (r : VexecRun) (f : Frag) : Frag :=
  { f.stores r.stored with vx := none, iter := if r.loaded.isEmpty then f.iter else f.iter ++ [(0, 0, r.loaded)] }

/-- The issue slots of a `VEXEC` that has begun (R348, R349, R351): one word each, once the registers that it uses are written and the cycles
that the instruction occupies its warp for are over. A word that faults ends it. -/
def vexecWord (p : Option VPfx) (c : Ctx) (r : VexecRun) : Res :=
  if c.s.now < r.ready then .hold .reg else
  match r.left with
  | [] => .done (c.s.setFrag c.w c.f.id r.finish)
  | (w, m) :: rest =>
    let os := (wordAct p w).toList.flatMap (wordOpnds (effOf c.x c.f.mask p))
    if (os.flatMap Opnd.regs).any fun r => c.x.pending.contains r then .hold .reg else
    match wordRun p (c.k.scratch * 256) r.act m w { x := c.x, scratch := c.b.img.scratch, stored := r.stored, loaded := r.loaded } with
    | .error i =>
      let s := c.s.setWarp c.w fun x => { x.setFrag c.f.id r.finish with vexecDone := BitVec.ofNat 32 r.done }
      .faultIn c s { i with lanes := some (i.lanes.getD r.act) }
    | .ok t =>
      let r := { r with left := rest, done := r.done + 1, stored := t.stored, loaded := t.loaded }
      let s := (c.s.setImg c.w.blk fun i => { i with scratch := t.scratch }).setWarp c.w fun _ => t.x
      if rest.isEmpty then .done (s.setFrag c.w c.f.id r.finish) else .issued (s.setFrag c.w c.f.id fun f => { f with vx := some r })

/-- `VEXEC`, and `VEXECQ` with its predicate (R348–R350): it reads and checks its words and occupies its warp for 2 cycles; its words issue in
the slots that follow (R351). That its beginning takes no slot, so that another warp of the quadrant may issue in that cycle, is read from
R351's count of slots (log 55). -/
def vexec (me : Instr) (p : Option VPfx) (q : Option (BitVec 8)) (a : BitVec 8) (c : Ctx) : Res :=
  match c.f.vx with
  | some r => vexecWord p c r
  | none =>
  let e := effOf c.x c.f.mask p
  Res.inLanes e.mask <|
  match typeCheck p e none false with
  | some i => .fault i
  | none =>
    let os := (match q with | some d => [pDst d] | none => []) ++ [{ vDst 1 a with code := 1, reads := true, writes := false }]
    checkRange c (os ++ gpOp p) <| checkReady c (os ++ gpRead c.x p) <| c.ordered fun c =>
      let act := e.mask
      let bad := maskOf ((lanesOf act).filter fun l => !wordOk c.x p e (c.x.lane a.toNat l))
      if q.isNone && bad != 0#32 then
        .faultIn c (c.s.setWarp c.w fun x => { x with vexecDone := 0#32 }) { code := 0x0D, einfo := bad, lanes := some act }
      else
        let x := match q with
          | some d => c.x.setP d.toNat (writeMask (c.x.pred d.toNat) 0#32 act false bad)
          | none => c.x
        let go := act &&& ~~~ bad  -- R348: the illegal lanes leave ACT and follow the policy
        let r : VexecRun :=
          { instr := me, word := c.s.word, nwords := c.s.nwords, base := c.s.base, act := go, left := wordGroups c.x a.toNat go
            ready := c.s.now + 2 * c.s.cycleTicks c.g }
        .issued { c.s.setWarp c.w fun _ => x.setFrag c.f.id fun f => { f with vx := some r } with held := some .reg }

def execVexec (p : Option VPfx) (a : BitVec 8) (s : State) := runInstr s (vexec (.vexec p a) p none a)
def execVexecq (p : Option VPfx) (d a : BitVec 8) (s : State) := runInstr s (vexec (.vexecq p d a) p (some d) a)

end Sys2Proof.Machine
end

