-- ==== Sys2Proof/Machine/Access.lean ====
section
/-!
DEFINITION. Outstanding accesses (R216, R217): class counters, the outstanding-transaction table, the write-combining
buffer (R207), and the issue of an instruction's accesses.
-/
namespace Sys2Proof.Machine

/-- Lanes by the line of their physical address, lines in the order of their lowest lanes. -/
def byLine (pas : List (Nat × Nat)) : List (Nat × List (Nat × Nat)) :=
  (dedup (pas.map fun p => p.2 / 128)).map fun n => (n, pas.filter fun p => p.2 / 128 = n)

-- ## Counters and the outstanding-transaction table

/-- The line that an access's entry names. -/
def Access.entry (a : Access) : Option (Nat × Nat) :=
  match a.kind with
  | .pref _ => none
  | .remote .. => some (a.instr, a.fa / 128)
  | _ => a.line.map fun n => (a.instr, n)

/-- Entries of a cluster's outstanding-transaction table in use (R217). -/
def State.ottUsed (s : State) (g : Nat) : Nat :=
  (s.blocks.map fun b => if b.2.cluster = some g then
    (b.2.img.warps.map fun x => (dedup (x.accesses.filterMap Access.entry)).length).sum else 0).sum

/-- Adds to class counter `n` (R216): 0 loads, 1 stores, 2 copies, 3 tile operations. -/
def Counter.add (k : Counter) (d : Int) : Counter := { k with count := ((k.count : Int) + d).toNat }
def Warp.addClass (x : Warp) (n : Nat) (d : Int) : Warp :=
  { x with classes := x.classes.setIfInBounds n ((vget x.classes n {}).add d) }
def Warp.addTag (x : Warp) (n : Nat) (d : Int) : Warp :=
  { x with tags := x.tags.setIfInBounds n ((vget x.tags n {}).add d) }

/-- The VD's `%clock` (R167). -/
def State.vclock (s : State) (v : Nat) : Nat := (s.vd v).clock / 60

/-- Takes a quadrant's armed sample for the access of an instruction's lowest lane (R262). -/
def Ctx.sample (c : Ctx) : Option (Nat × Nat) :=
  ((vget (c.s.cl c.g).smp (c.w.wi % 4) {}).armed).map fun q => (q, c.s.vclock c.vd)

/-- Clears a quadrant's armed sample. -/
def State.disarm (s : State) (g q : Nat) : State :=
  s.setCl g fun k => { k with smp := k.smp.setIfInBounds q { vget k.smp q {} with armed := none } }

/-- What the spin detector notes of an instruction's accesses (R181). -/
inductive Spin where
  | load
  | store
  | none
  deriving DecidableEq, Repr

/-- What the record of an access says if it fails (R290): an atomic's type is 2, a load's 0, which gives none. -/
def Access.acc (a : Access) : ErrAccess :=
  match a.kind with
  | .near .. | .far .. => { atype := 2, log2w := Nat.log2 a.width, va := a.va, lanes := maskOf (a.lanes.map fun l => l.1) }
  | _ => {}

/-- Numbers the accesses of the groups of one instruction from `n`; each group is one count of its class. -/
def numbered (c : Ctx) : Nat → List (List Access) → List Access
  | _, [] => []
  | n, g :: gs =>
    (g.zipIdx.map fun (a : Access × Nat) =>
      { a.1 with id := n + 1 + a.2, instr := n, pc := c.pc, frag := c.f.id, vd := c.vd, die := c.die,
                 inc := if a.1.weight then 0 else (a.1.line.map c.s.lineInc).getD 0 }) ++
    numbered c (n + 1 + g.length) gs

/-- Issues the accesses of one instruction (R216, R217): they take their entries at once, the class counter counts each
group once, and the spin detector notes a load or a store (R181). -/
def Ctx.issueGroups (c : Ctx) (s : State) (cls : Nat) (spin : Spin) (gs : List (List Access)) : Res :=
  let as := numbered c s.nextId gs
  if as.isEmpty then .done s
  else if c.x.classFull cls gs.length then .hold .counter
  else if 256 < s.ottUsed c.g + (dedup (as.filterMap Access.entry)).length then .hold .ott
  else
    let n := s.nextId
    let s := { s with nextId := n + gs.length + as.length }
    .done (s.setWarp c.w fun x =>
      ({ x with accesses := x.accesses ++ as }.addClass cls gs.length).setFrag c.f.id fun f =>
        match spin with
        | .load => { f with iter := f.iter ++ [(n, as.length, [])] }
        | .store => f.stores true
        | .none => f)

def Ctx.issue (c : Ctx) (s : State) (cls : Nat) (load : Bool) (as : List Access) : Res :=
  c.issueGroups s cls (if load then .load else .store) (if as.isEmpty then [] else [as])

-- ## The write-combining buffer (R207)

/-- The bytes that a store access writes in its line, lanes ascending (R5). -/
def Access.lineBytes (a : Access) (d : LineData) : LineData :=
  a.lanes.foldl (fun d l => setLineBytes d (l.2 % 128) (leBytes a.width ((a.args.find? fun g => g.1 = l.1).getD (0, 0, 0)).2.1)) d
def Access.lineMask (a : Access) : ByteMask := a.lanes.foldl (fun m l => m ||| byteMask (l.2 % 128) a.width) 0#128

/-- Puts a store's bytes into the buffer: into the entry of its line, or a new one. -/
def Cluster.store (k : Cluster) (w : WarpRef) (a : Access) (line : Nat) : Cluster :=
  if k.wcb.any fun e => e.line = line && e.vd = a.vd then
    { k with wcb := modFirst (fun e => e.line = line && e.vd = a.vd) (fun e =>
        { e with data := a.lineBytes e.data, mask := e.mask ||| a.lineMask, bypass := e.bypass || a.bypass
                 owners := e.owners ++ [(w, a.id)] }) k.wcb }
  else
    { k with wcb := k.wcb ++ [{ line, data := a.lineBytes 0#1024, mask := a.lineMask, vd := a.vd, bypass := a.bypass,
                                owners := [(w, a.id)], inc := a.inc }] }

/-- An atomic or a strong load of the warp to one of the lines is outstanding: a store to the line comes after it (R223, log 48). -/
def Warp.strongOut (x : Warp) (lines : List Nat) : Bool :=
  x.accesses.any fun a => !a.weight && a.line.any lines.contains &&
    match a.kind with
    | .near .. | .far .. => true
    | .load _ | .sload => a.bypass
    | _ => false

/-- A store's lines fit the buffer's 64 entries, and what they merge with was translated under the same key incarnation (R37). -/
def State.wcbRoom (s : State) (g v : Nat) (lines : List Nat) : Bool :=
  let k := s.cl g
  (lines.all fun n => k.wcb.all fun e => e.line != n || e.vd != v || e.inc = s.lineInc n) &&
  k.wcb.length + (lines.filter fun n => !k.wcb.any fun e => e.line = n && e.vd = v).length ≤ 64

-- ## Order prefix (R220, R280)

def ordOf (o : Option OPfx) : Nat := match o with | some q => q.ord.toNat | none => 0
def scopeOf (o : Option OPfx) (d : Nat) : Nat := match o with | some q => q.scope.toNat | none => d
/-- A strong access at device scope or wider bypasses L1 (R359). -/
def strongDv (o : Option OPfx) : Bool := match o with | some q => 2 ≤ q.scope.toNat | none => false
/-- Scope + 1 of the acquire that an access performs; 0 for none. -/
def acqOf (o : Option OPfx) (d : Nat) : Nat := if ordOf o % 2 = 1 then scopeOf o d + 1 else 0

/-- Waits for the release that an access performs first (R227). -/
def Ctx.releasing (c : Ctx) (o : Option OPfx) (d : Nat) (f : Ctx → Res) : Res :=
  if ordOf o / 2 != 1 then f c
  else if c.s.released c.g c.vd c.w c.x (scopeOf o d) then f { c with s := c.s.passRemotes c.w (scopeOf o d) } else .hold .counter

-- ## Proof mode (R269, R270)

/-- A load's accesses take places in the block's proof log, in issue order. -/
def Ctx.logged (c : Ctx) (s : State) (as : List Access) : State × List Access :=
  if c.b.proof.isNone || c.b.logFull then (s, as) else
  let n := match s.blk c.w.blk with | some b => b.log.length | none => 0
  (s.setBlk c.w.blk fun b => { b with log := b.log ++ as.map fun _ => { wi := c.w.wi, vals := [] } },
   as.zipIdx.map fun a => { a.1 with log := some (n + a.2) })

/-- Takes the warp's next logged values under re-execution. -/
def takeLog (wi : Nat) : List LogEntry → Option (List Nat × List LogEntry)
  | [] => none
  | e :: es => if e.wi = wi then some (e.vals, es) else (takeLog wi es).map fun r => (r.1, e :: r.2)

def State.popLog (s : State) (w : WarpRef) : Option (List Nat × State) :=
  (s.blk w.blk).bind fun b => b.replay.bind fun r => (takeLog w.wi r.2.2).map fun t =>
    (t.1, s.setBlk w.blk fun b => { b with replay := some (r.1, r.2.1, t.2) })

/-- Under re-execution stores, atomics, copies to memory, `KICK`, `LAUNCH` and `MARK` act on nothing outside (R270). -/
def Ctx.replaying (c : Ctx) : Bool := c.b.replay.isSome

/-- Writes a load's lanes, extended to their register group (R353, R85). -/
def Warp.loadLanes (x : Warp) (d : Nat × Bool) (width : Nat) (sx : Bool) (vals : List (Nat × Nat)) : Warp :=
  let regs := (width + 3) / 4
  let ext := fun (v : Nat) => if sx && width < 4 then wrap 32 (sextInt (8 * width) v) else v
  if d.2 then
    match vals with
    | [] => x
    | (_, v) :: _ => (List.range regs).foldl (fun x r => x.setSf (d.1 + r) (BitVec.ofNat 32 (v >>> (32 * r)))) x
  else x.writeGroup d.1 regs 0#32 (maskOf (vals.map fun v => v.1)) false fun l =>
    ext ((vals.find? fun v => v.1 = l).getD (0, 0)).2

/-- A load under re-execution: its values come from the log (R270). -/
def Ctx.serve (c : Ctx) (as : List Access) : Res :=
  .done (as.foldl (fun s a =>
    match s.popLog c.w, a.dst with
    | some (vals, s), some d => s.setWarp c.w fun x =>
        let sx := match a.kind with | .load b => b | _ => false
        x.loadLanes d a.width sx ((a.lanes.map fun l => l.1).zip vals)
    | some (_, s), none => s
    | none, _ => s) c.s)

end Sys2Proof.Machine
end

