-- ==== Sys2Proof/Machine/Memory.lean ====
section
/-!
DEFINITION. Loads and stores of global memory, the scratchpad and the weight store (R353–R361), prefetch, flush and page
requests (R362), and the scalar accesses (R319).
-/
namespace Sys2Proof.Machine

-- ## Addresses (R273, R353)

/-- The base pair `s48+2·BP` by operand field value. -/
def baseField (bp : Nat) : Nat := 0xC0 + 48 + 2 * bp

/-- The global address of a lane. -/
def globalAddr (x : Warp) (a : BitVec 8) (m : MFld) (l : Nat) : Nat :=
  if m.x then (x.lane64 a.toNat l).toNat
  else (x.spair (baseField m.bp.toNat) + (x.lane a.toNat l).signExtend 64).toNat

/-- The fields that a global address reads. -/
def addrOps (a : BitVec 8) (m : MFld) : List Opnd :=
  if m.x then [vOp 2 a 1] else [vOp 1 a 1, { k := .sp, val := baseField m.bp.toNat, code := 1 }]
/-- The fields that a scratchpad address or a weight-store offset reads. -/
def localOps (a : BitVec 8) (m : MFld) : List Opnd :=
  [vOp 1 a 1, { k := .s, val := baseField m.bp.toNat, code := 1 }]

/-- Active lanes with their global addresses. -/
def globalLanes (x : Warp) (a : BitVec 8) (m : MFld) (mask : Mask) : List (Nat × Nat) :=
  (lanesOf mask).map fun l => (l, globalAddr x a m l)

/-- The alignment check of R354. -/
def misaligned (n : Nat) (lanes : List (Nat × Nat)) : Option FaultInfo :=
  let bad := maskOf ((lanes.filter fun l => l.2 % n != 0).map fun l => l.1)
  if bad = 0#32 then none else some { code := 0x05, einfo := bad }

/-- The frame of R354: types, registers, interlock and flags, then `f` under the effective controls; the zero policy
zeroes the destination's inactive lanes. -/
def memFrame (p : Option VPfx) (os : List Opnd) (c : Ctx) (f : Ctx → Eff → Res) (cls : Nat := 0) : Res :=
  let e := effOf c.x c.f.mask p
  Res.inLanes e.mask <|
  match typeBad p e bitTypes with
  | some i => .fault i
  | none => checkRange c (os ++ gpOp p) <| checkReady (cls := some cls) c (os ++ gpRead c.x p) <| c.ordered fun c => f c e

/-- The zero policy on a load's destination group: inactive lanes receive 0 (R330). -/
def Warp.zeroLanes (x : Warp) (d regs : Nat) (e : Eff) : Warp :=
  if e.zero then x.writeGroup d regs 0#32 e.mask true fun l => x.groupN d regs l else x

-- ## Global loads and stores

/-- The accesses of a load, one for each line. -/
def loadAccesses (o : Option OPfx) (d : BitVec 8) (m : MFld) (t : Nat) (pas : List (Nat × Nat)) : List Access :=
  (byLine pas).map fun g =>
    { id := 0, kind := .load (isSigned t), line := some g.1, lanes := g.2, width := widthOf m.w, dst := some (d.toNat, false)
      pc := 0#64, frag := 0, bypass := strongDv o, stream := m.c, acq := acqOf o 2, instr := 0 }

/-- `LDG` (R356, R359). -/
def ldg (o : Option OPfx) (p : Option VPfx) (d a : BitVec 8) (m : MFld) (c : Ctx) : Res :=
  memFrame p (vDst (widthRegs m.w) d :: addrOps a m) c fun c e =>
    let lanes := globalLanes c.x a m e.mask
    match misaligned (widthOf m.w) lanes with
    | some i => .fault i
    | none => c.access 0 m.w.toNat lanes fun s pas =>
      let s := s.setWarp c.w fun x => x.zeroLanes d.toNat (widthRegs m.w) e
      let as := loadAccesses o d m e.type pas
      if c.replaying then { c with s := s }.serve as else
      let (s, as) := c.logged s as
      match c.sample, as with
      | some q, f :: r => c.issue (s.disarm c.g (c.w.wi % 4)) 0 true ({ f with sample := some q } :: r)
      | _, _ => c.issue s 0 true as

def execLdg (o : Option OPfx) (p : Option VPfx) (d a : BitVec 8) (m : MFld) (s : State) := runInstr s (ldg o p d a m)

/-- `STG` (R357, R359). -/
def stg (o : Option OPfx) (p : Option VPfx) (d a : BitVec 8) (m : MFld) (c : Ctx) : Res :=
  memFrame (cls := 1) p ({ vOp (widthRegs m.w) d 0 with code := 0 } :: addrOps a m) c fun c e =>
    let lanes := globalLanes c.x a m e.mask
    match misaligned (widthOf m.w) lanes with
    | some i => .fault i
    | none => c.releasing o 2 fun c => c.access 1 m.w.toNat lanes fun s pas =>
      if c.replaying then .done s else
      let as := (byLine pas).map fun g =>
        { id := 0, kind := .store, line := some g.1, lanes := g.2, width := widthOf m.w, pc := 0#64, frag := 0, instr := 0
          args := g.2.map fun l => (l.1, c.x.groupN d.toNat (widthRegs m.w) l.1, 0)
          bypass := m.c || strongDv o : Access }
      let ls := as.filterMap fun a => a.line
      if !s.wcbRoom c.g c.vd ls || c.x.strongOut ls then .hold .counter else
      let (s, as) := match c.sample, as with
        | some q, f :: r => (s.disarm c.g (c.w.wi % 4), { f with sample := some q } :: r)
        | _, _ => (s, as)
      match c.issue s 1 false as with
      | .done s => .done (match s.warp c.w with
        | none => s
        | some x => (x.accesses.drop c.x.accesses.length).foldl (fun s a =>
            s.setCl c.g fun k => k.store c.w a (a.line.getD 0)) s)
      | r => r

def execStg (o : Option OPfx) (p : Option VPfx) (d a : BitVec 8) (m : MFld) (s : State) := runInstr s (stg o p d a m)

/-- The lanes' translations as reads; while a walk goes on the instruction waits. -/
def Ctx.walked (c : Ctx) (lanes : List (Nat × Nat)) (f : State → List (Nat × Nat × Tr) → Res) : Res :=
  let (s, ts) := transLanes c.place c.vd c.k.asid 0 c.s lanes
  if ts.any fun t => t.2.2 = .busy then .busy s else f s ts

/-- `LDGNF` (R155, R358): a lane on a non-present page loads zero, and the residency predicate says which lanes are on
resident pages. -/
def ldgnf (o : Option OPfx) (p : VPfx) (d a : BitVec 8) (m : MFld) (c : Ctx) : Res :=
  memFrame (some p) (vDst (widthRegs m.w) d :: addrOps a m ++ predCOp (some p)) c fun c e =>
    let lanes := globalLanes c.x a m e.mask
    match misaligned (widthOf m.w) lanes with
    | some i => .fault i
    | none =>
      match c.watched 0 (widthOf m.w) lanes with
      | some i => c.stop i
      | none =>
        c.walked lanes fun s ts =>
        let gone := ts.filter fun t => match t.2.2 with | .replay _ _ absent => absent | _ => false
        let rest := ts.filter fun t => match t.2.2 with | .replay _ _ absent => !absent | _ => true
        match rest.findSome? fun t => match t.2.2 with
          | .perm e => some (t.2.1, 0x07, BitVec.ofNat 32 e) | .lost => some (t.2.1, 0x10, c.pc.setWidth 32) | _ => none with
        | some (va, code, x) =>
          .faultIn c s { code, einfo := x, log2w := m.w.toNat, va := BitVec.ofNat 64 va
                         lanes := some e.mask }
        | none =>
          if !(replays rest).isEmpty then c.parkOn s (pageRecords (replays rest) (c.recBase 0 m.w.toNat)) else
          let away := maskOf (gone.map fun t => t.1)
          let n := widthRegs m.w
          let s := s.setWarp c.w fun x =>
            let x := x.zeroLanes d.toNat n e
            let x := if away = 0#32 then x else x.writeGroup d.toNat n 0#32 away false fun _ => 0
            x.setP (predC (some p)) (writeMask (x.pred (predC (some p))) 0#32 e.mask e.zero (e.mask &&& ~~~ away))
          let as := loadAccesses o d m e.type
            (rest.filterMap fun t => match t.2.2 with | .ok pa => some (t.1, pa) | _ => none)
          if c.replaying then { c with s := s }.serve as else
          let (s, as) := c.logged s as
          match c.sample, as with
          | some q, f :: r => c.issue (s.disarm c.g (c.w.wi % 4)) 0 true ({ f with sample := some q } :: r)
          | _, _ => c.issue s 0 true as

def execLdgnf (o : Option OPfx) (p : VPfx) (d a : BitVec 8) (m : MFld) (s : State) := runInstr s (ldgnf o p d a m)

-- ## Scratchpad and weight store

/-- `LDS` (R360): the window is read at issue. -/
def lds (_o : Option OPfx) (p : Option VPfx) (d a : BitVec 8) (m : MFld) (c : Ctx) : Res :=
  memFrame p (vDst (widthRegs m.w) d :: localOps a m) c fun c e =>
    match scratchBad c.x (256 * c.k.scratch) a m e.mask with
    | some i => .fault i
    | none =>
      .done (c.s.setWarp c.w fun x =>
        let y := ldsRun x c.b.img.scratch d a m e 0#32
        y.setFrag c.f.id fun f => { f with
          iter := if e.mask = 0#32 then f.iter else f.iter ++ [(0, 0, (lanesOf e.mask).flatMap fun l =>
            (List.range (widthRegs m.w)).map fun r => (4 * l + r, y.lane (d.toNat + r) l))] })

def execLds (o : Option OPfx) (p : Option VPfx) (d a : BitVec 8) (m : MFld) (s : State) := runInstr s (lds o p d a m)

/-- `STS` (R360). -/
def sts (o : Option OPfx) (p : Option VPfx) (d a : BitVec 8) (m : MFld) (c : Ctx) : Res :=
  memFrame p ({ vOp (widthRegs m.w) d 0 with code := 0 } :: localOps a m) c fun c e =>
    match scratchBad c.x (256 * c.k.scratch) a m e.mask with
    | some i => .fault i
    | none => c.releasing o 1 fun c =>
      let s := c.s.setImg c.w.blk fun i => { i with scratch := stsRun c.x i.scratch d a m e.mask }
      .done (s.setFrag c.w c.f.id fun f => f.stores (e.mask != 0#32))

def execSts (o : Option OPfx) (p : Option VPfx) (d a : BitVec 8) (m : MFld) (s : State) := runInstr s (sts o p d a m)

/-- The region of a VD on a die (R72). -/
def State.region (s : State) (d v : Nat) : Region := look (s.die d).regions v { base := 0, size := 0, valid := false }

/-- Seal state after a read by kernel `k`, or the refusal's `%einfo` (R73). -/
def Seal.read (k : Nat) : Seal → Except Word Seal
  | .idle => .ok (.sealed [k])
  | .sealed ks => .ok (.sealed (if ks.contains k then ks else ks ++ [k]))
  | .filling _ => .error 1#32
/-- Seal state after a write by kernel `k` (R73). -/
def Seal.write (k : Nat) : Seal → Except Word Seal
  | .idle => .ok (.filling k)
  | .sealed _ => .error 0#32
  | .filling j => if j = k then .ok (.filling k) else .error 1#32

def State.seal (s : State) (d v : Nat) : Seal := look (s.die d).seals v .idle

/-- `LDW` (R72, R73, R361). -/
def ldw (p : Option VPfx) (d a : BitVec 8) (m : MFld) (c : Ctx) : Res :=
  memFrame p (vDst (widthRegs m.w) d :: localOps a m) c fun c e =>
    let lanes := (lanesOf e.mask).map fun l => (l, localAddr c.x a m l)
    let r := c.s.region c.die c.vd
    match misaligned (widthOf m.w) lanes with
    | some i => .fault i
    | none =>
      if lanes.isEmpty then .done (c.s.setWarp c.w fun x => x.zeroLanes d.toNat (widthRegs m.w) e)
      else if !r.valid || lanes.any fun l => r.size * 2 ^ 20 ≤ l.2 then .fault { code := 0x07, einfo := 6#32 }
      else match (c.s.seal c.die c.vd).read c.b.kernel with
      | .error x => .fault { code := 0x15, einfo := x }
      | .ok q =>
        let s := c.s.setDie c.die fun x => { x with seals := put x.seals c.vd q }
        let s := s.setWarp c.w fun x => x.zeroLanes d.toNat (widthRegs m.w) e
        let as := (loadAccesses none d m e.type (lanes.map fun l => (l.1, r.base * 2 ^ 20 + l.2))).map fun a =>
          { a with weight := true }
        if c.replaying then { c with s := s }.serve as else
        let (s, as) := c.logged s as
        c.issue s 0 true as

def execLdw (p : Option VPfx) (d a : BitVec 8) (m : MFld) (s : State) := runInstr s (ldw p d a m)

-- ## PREF, CFLUSH, PGREQ (R362)

/-- The lines of the lanes that translate as reads; lanes that fail are skipped. -/
def someLines (ts : List (Nat × Nat × Tr)) : List (Nat × List (Nat × Nat)) :=
  byLine (ts.filterMap fun t => match t.2.2 with | .ok pa => some (t.1, pa) | _ => none)

/-- The frame of R362: type and rounding are ignored. -/
def lineFrame (p : Option VPfx) (a : BitVec 8) (m : MFld) (c : Ctx) (f : Ctx → Eff → List (Nat × Nat) → Res) : Res :=
  let e := effOf c.x c.f.mask p
  Res.inLanes e.mask <|
  match typeCheck p e none false with
  | some i => .fault i
  | none => checkRange c (addrOps a m ++ gpOp p) <| checkReady c (addrOps a m ++ gpRead c.x p) <| c.ordered fun c =>
      f c e (globalLanes c.x a m e.mask)

/-- `PREF`: the fills are under way and counted nowhere. -/
def pref (p : Option VPfx) (a : BitVec 8) (m : MFld) (c : Ctx) : Res :=
  lineFrame p a m c fun c _ lanes =>
    c.walked lanes fun s ts =>
    let as := (someLines ts).zipIdx.map fun g =>
      { id := s.nextId + g.2, kind := .pref (!m.c), line := some g.1.1, lanes := [], width := 0, pc := c.pc
        frag := c.f.id, vd := c.vd, die := c.die, instr := s.nextId + g.2, inc := s.lineInc g.1.1 : Access }
    .done ({ s with nextId := s.nextId + as.length }.setWarp c.w fun x => { x with accesses := x.accesses ++ as })

def execPref (p : Option VPfx) (a : BitVec 8) (m : MFld) (s : State) := runInstr s (pref p a m)

/-- `CFLUSH`: counts as a store until every line is done; it is none for the spin detector (R181). -/
def cflush (p : Option VPfx) (a : BitVec 8) (m : MFld) (c : Ctx) : Res :=
  lineFrame p a m c fun c _ lanes =>
    c.walked lanes fun s ts =>
    let as := (someLines ts).map fun g =>
      { id := 0, kind := .flush m.c, line := some g.1, lanes := [], width := 0, pc := 0#64, frag := 0, instr := 0 : Access }
    c.issueGroups s 1 .none (if as.isEmpty then [] else [as])

def execCflush (p : Option VPfx) (a : BitVec 8) (m : MFld) (s : State) := runInstr s (cflush p a m)

/-- `PGREQ`: a record for each distinct non-present page, without waiting (R155). -/
def pgreq (p : Option VPfx) (a : BitVec 8) (m : MFld) (c : Ctx) : Res :=
  lineFrame p a m c fun c _ lanes =>
    c.walked lanes fun s ts =>
    let gone := ts.filter fun t => match t.2.2 with | .replay _ _ absent => absent | _ => false
    .done (s.report c.vd (pageRecords ((replays gone).map fun f => (f.1, f.2.1, 0x06, f.2.2.2)) (c.recBase 8 7)))

def execPgreq (p : Option VPfx) (a : BitVec 8) (m : MFld) (s : State) := runInstr s (pgreq p a m)

-- ## Scalar accesses (R319)

/-- The data field of `SLD` and `SST`: a pair for `W` = 3. -/
def scalarData (d : BitVec 8) (w : BitVec 3) : Opnd := if w = 3#3 then spOp d 0 else sOp d 0

/-- The frame of a scalar access by lane L. The record of a fault that is no memory fault holds the fragment's mask (R290). -/
def scalarMem (os : List Opnd) (a : BitVec 8) (n log2w atype : Nat) (c : Ctx) (f : Ctx → State → Nat → Nat → Res) : Res :=
  guarded c os <| c.ordered fun c =>
    let l := lowLane c.f.mask
    let va := (c.x.spair a.toNat).toNat
    let bit := laneBit l
    if va % n != 0 then
      .fault { code := 0x05, einfo := bit }
    else
      c.access (who := if atype = 0 then c.f.mask else bit) atype log2w [(l, va)] fun s pas => f c s l (pas.headD (l, 0)).2

/-- `SLD`. -/
def sld (o : Option OPfx) (d a : BitVec 8) (w : BitVec 3) (st : Bool) (c : Ctx) : Res :=
  scalarMem [{ scalarData d w with reads := false, writes := true }, spOp a 1] a (2 ^ w.toNat) w.toNat 0 c fun c s l pa =>
    let as := [{ id := 0, kind := .sload, line := some (pa / 128), lanes := [(l, pa)], width := 2 ^ w.toNat
                 dst := some (d.toNat, true), pc := 0#64, frag := 0, bypass := strongDv o, stream := st, acq := acqOf o 2
                 instr := 0 : Access }]
    if c.replaying then { c with s := s }.serve as else
    let (s, as) := c.logged s as
    c.issue s 0 true as

def execSld (o : Option OPfx) (d a : BitVec 8) (w : BitVec 3) (c : Bool) (s : State) := runInstr s (sld o d a w c)

/-- `SST`. -/
def sst (o : Option OPfx) (d a : BitVec 8) (w : BitVec 3) (st : Bool) (c : Ctx) : Res :=
  scalarMem [scalarData d w, spOp a 1] a (2 ^ w.toNat) w.toNat 1 c fun c s l pa =>
    { c with s := s }.releasing o 2 fun c =>
    let s := c.s
    if c.replaying then .done s else
    let v := if w = 3#3 then (c.x.spair d.toNat).toNat else (c.x.sf d.toNat).toNat
    let a := { id := s.nextId + 1, kind := .store, line := some (pa / 128), lanes := [(l, pa)], width := 2 ^ w.toNat
               args := [(l, v, 0)], pc := c.pc, frag := c.f.id, vd := c.vd, bypass := st || strongDv o, instr := 0
               inc := s.lineInc (pa / 128) : Access }
    if !s.wcbRoom c.g c.vd [pa / 128] || c.x.strongOut [pa / 128] then .hold .counter else
    match c.issue s 1 false [a] with
    | .done s => .done (s.setCl c.g fun k => k.store c.w a (pa / 128))
    | r => r

def execSst (o : Option OPfx) (d a : BitVec 8) (w : BitVec 3) (c : Bool) (s : State) := runInstr s (sst o d a w c)

end Sys2Proof.Machine
end

