-- ==== Sys2Proof/Machine/Net.lean ====
section
/-!
DEFINITION. Op ids (R56), and finding outstanding accesses.
-/
namespace Sys2Proof.Machine

/-- Every outstanding access with its warp. -/
def State.allAccesses (s : State) : List (WarpRef × Access) :=
  s.blocks.flatMap fun (b : Nat × Block) => b.2.img.warps.zipIdx.flatMap fun (x : Warp × Nat) =>
    x.1.accesses.map fun a => ({ blk := b.1, wi := x.2 }, a)

/-- Op ids that a message names, with their modules. -/
def MsgKind.opIds : MsgKind → List (Nat × Nat)
  | .atomic _ _ _ _ _ ms => ms.map fun m => (m.module, m.op)
  | .reply n o _ _ => [(n, o)]
  | .query n o => [(n, o)]
  | .answer n o _ _ => [(n, o)]
  | _ => []

/-- Completion signals that are being written, with their VDs (R128). -/
def State.sigRuns (s : State) : List (Nat × SigRun) :=
  s.vds.flatMap fun (v : Nat × Vd) =>
    ((v.2.queues.flatMap fun (q : Nat × Queue) => q.2.started.filterMap fun p => p.sig) ++ (v.2.kill.bind fun k => k.sig).toList).map
      fun r => (v.1, r)

/-- A request with this op id is outstanding: an access or a completion signal waits for it, or it, its reply, a query or an answer is
on the way (R56). -/
def State.opUsed (s : State) (o : Nat) : Bool :=
  (s.sigRuns.any fun r => r.2.op = some o) ||
  (s.allAccesses.any fun a => a.2.ops.any fun p => p.2 = o) ||
  (s.net.msgs.any fun (m : Nat × Msg) => m.2.kind.opIds.contains (s.fabric.module, o)) ||
  s.coh.stations.any fun (x : Nat × Station) => x.2.groups.any fun g => g.members.any fun m => m.op = o && m.module = s.fabric.module

/-- The first of `k` op ids from sequence number `n` on that is not outstanding, else the n-th. -/
def State.freeOp (s : State) (e n : Nat) : Nat → Nat
  | 0 => n
  | k + 1 => if s.opUsed (65536 * e + n) then s.freeOp e ((n + 1) % 65536) k else n

/-- The next op id of an endpoint (R56): its number above a 16-bit sequence number, which skips those still outstanding. -/
def State.opId (s : State) (e : Endpoint) : State × Nat :=
  let n := s.freeOp (endpointIndex e) (look s.coh.opSeq (endpointIndex e) 0) 65536
  ({ s with coh := { s.coh with opSeq := put s.coh.opSeq (endpointIndex e) ((n + 1) % 65536) } }, 65536 * (endpointIndex e) + n)

/-- Takes an op id for each of a list of lanes. -/
def State.opIds (e : Endpoint) : State → List Nat → State × List (Nat × Nat)
  | s, [] => (s, [])
  | s, l :: ls =>
    let (s, o) := s.opId e
    let (s, os) := State.opIds e s ls
    (s, (l, o) :: os)

end Sys2Proof.Machine
end

