-- ==== Sys2Proof/Machine/Atomic.lean ====
section
/-!
DEFINITION. Atomics: the operations (R371), near and far global atomics (R372–R374), scratchpad atomics, and the scalar
fetch-and-add (R320).
-/
namespace Sys2Proof.Machine

/-- Operations in opcode order: `ADD`, `MIN`, `MAX`, `AND`, `OR`, `XOR`, `EXCH`, `INCW`, `FADD`, `CAS`. -/
def atomTypes (op : Nat) : List Nat :=
  if op ≤ 2 then fieldTypes else if op = 7 then [0, 1] else if op = 8 then floatTypes else bitTypes

/-- The new value from the old value `x`, the argument and the comparand (R371). -/
def atomNew (op t x a c : Nat) : Nat :=
  let w := if typeRegs t = 2 then 64 else 32
  match op with
  | 0 => (x + a) % 2 ^ w
  | 1 => intMinMax (isSigned t) false w x a
  | 2 => intMinMax (isSigned t) true w x a
  | 3 => x &&& a
  | 4 => x ||| a
  | 5 => x ^^^ a
  | 6 => a
  | 7 => if a ≤ x then 0 else x + 1
  | 8 => packElems t ((List.range (elemCount t)).map fun k => (fmtOf t).addRne (elemAt t x k) (elemAt t a k))
  | _ => if x = c then a else x

/-- Check 5 of an atomic: its type fits the operation and has the width that `W` selects (R371). -/
def atomTypesAt (op : Nat) (w : BitVec 3) : List Nat :=
  (atomTypes op).filter fun t => (typeRegs t = 2) == (w = 3#3)

def nrOf (o : Option OPfx) : Bool := match o with | some q => q.nr | none => false
def farOf (o : Option OPfx) : Bool := match o with | some q => q.far | none => false

/-- The comparand field of `CAS` (R280). -/
def cmpOps (op n : Nat) (o : Option OPfx) : List Opnd :=
  match o with
  | some q => if op = 9 then [vOp n q.c 3] else []
  | none => []
def cmpVal (x : Warp) (op n : Nat) (o : Option OPfx) (l : Nat) : Nat :=
  match o with
  | some q => if op = 9 then x.groupN q.c.toNat n l else 0
  | none => 0

/-- The frame of an atomic: R354 with the types of R371. -/
def atomFrame (op : Nat) (o : Option OPfx) (p : Option VPfx) (d : BitVec 8) (addr : List Opnd) (m : MFld) (c : Ctx)
    (f : Ctx → Eff → Res) : Res :=
  let e := effOf c.x c.f.mask p
  let n := widthRegs m.w
  let os := { vDst n d with reads := true, writes := !nrOf o } :: addr ++ cmpOps op n o
  Res.inLanes e.mask <|
  match typeBad p e (atomTypesAt op m.w) with
  | some i => .fault i
  | none => checkRange c (os ++ gpOp p) <| checkReady (cls := some (if nrOf o then 1 else 0)) c (os ++ gpRead c.x p) <|
    c.ordered fun c => f c e

/-- Combinable far atomics (R55). -/
def combinable (op t : Nat) : Bool := (op = 0 && (t = 0 || t = 1 || t = 9)) || (op = 7 && (t = 0 || t = 1))

/-- Cuts a list into pieces of at most 8 (R374). -/
def eights {α : Type} : Nat → List α → List (List α)
  | 0, _ => []
  | n + 1, l => if l.isEmpty then [] else l.take 8 :: eights n (l.drop 8)

/-- The requests that a far access sends: lanes of one address in ascending order, up to 8 members each where they
combine, which `INCW`s of one bound do (R57), else each lane alone (R374). -/
def farRequests (op t : Nat) (bound : Nat → Nat) (lanes : List (Nat × Nat)) : List (List (Nat × Nat)) :=
  if combinable op t then
    (dedup (lanes.map fun l => (l.2, bound l.1))).flatMap fun k =>
      let same := lanes.filter fun l => l.2 = k.1 && bound l.1 = k.2
      eights (same.length + 1) same
  else lanes.map fun l => [l]

/-- Sends the requests of a far access (R54): one message for each, with the members' op ids and arguments. -/
def sendFar (c : Ctx) (op t width : Nat) (nr : Bool) (s : State) (a : Access) : State × Access :=
  let (s, ids) := State.opIds (.cluster c.g) s (a.lanes.map fun l => l.1)
  let arg := fun (l : Nat) => (a.args.find? fun g => g.1 = l).getD (0, 0, 0)
  let id := fun (l : Nat) => ((ids.find? fun g => g.1 = l).getD (0, 0)).2
  let bound := fun (l : Nat) => if op = 7 then (arg l).2.1 else 0
  let s := (farRequests op t bound a.lanes).foldl (fun s r =>
    let pa := (r.headD (0, 0)).2
    s.send { src := .cluster c.g, dst := homeOf (pa / 128), line := pa / 128, vd := c.vd, inc := s.inc pa
             kind := .atomic op t pa width (bound (r.headD (0, 0)).1) (r.map fun l =>
               { op := id l.1, arg := (arg l.1).2.1, cmp := (arg l.1).2.2, nr, module := s.fabric.module, src := .cluster c.g
                 rbk := a.acq = 6 }) }) s
  (s, { a with ops := ids, time := s.now, timer := s.now, read := a.line.any fun l => !s.ready l })

def sendAllFar (c : Ctx) (op t width : Nat) (nr : Bool) : State → List Access → State × List Access
  | s, [] => (s, [])
  | s, a :: as =>
    let (s, a) := sendFar c op t width nr s a
    let (s, as) := sendAllFar c op t width nr s as
    (s, a :: as)

/-- An earlier access of the warp to one of the lines is still to be performed; a far atomic or a `WAITSIG` follows it (R223). -/
def Warp.follows (x : Warp) (lines : List (Option Nat)) : Bool :=
  x.accesses.any fun b => !b.weight && lines.contains b.line &&
    match b.kind with
    | .pref _ | .remote .. => false
    | _ => true

/-- A far atomic may be sent: its cluster's L1 holds no written bytes of its lines, which other warps may have released to this one
(R223). -/
def Ctx.maySend (c : Ctx) (s : State) (as : List Access) : Bool :=
  as.all fun a => !a.line.any fun l => s.l1Written c.g l

/-- Issues the accesses of a global atomic. -/
def atomIssue (c : Ctx) (s : State) (far : Bool) (op t : Nat) (nr : Bool) (as : List Access) : Res :=
  if c.replaying then (if nr then .done s else { c with s := s }.serve as) else
  if far && (c.x.follows (as.map fun a => a.line) || !c.maySend s as) then .hold .counter else
  let (s, as) := if nr then (s, as) else c.logged s as
  let (s, as) := match c.sample, as with
    | some q, f :: r => (s.disarm c.g (c.w.wi % 4), { f with sample := some q } :: r)
    | _, _ => (s, as)
  let (s, as) := if far then sendAllFar c op t (if typeRegs t = 2 then 8 else 4) nr s as else (s, as)
  c.issue s (if nr then 1 else 0) false as

/-- `ATOMG` (R371–R374). -/
def atomg (op : Nat) (o : Option OPfx) (p : Option VPfx) (d a : BitVec 8) (m : MFld) (c : Ctx) : Res :=
  atomFrame op o p d (addrOps a m) m c fun c e =>
    let n := widthRegs m.w
    let lanes := globalLanes c.x a m e.mask
    match misaligned (widthOf m.w) lanes with
    | some i => .fault i
    | none => c.releasing o 2 fun c => c.access 2 m.w.toNat lanes fun s pas =>
      let s := if nrOf o then s else s.setWarp c.w fun x => x.zeroLanes d.toNat n e
      atomIssue c s (farOf o) op e.type (nrOf o) <| (byLine pas).map fun g =>
        { id := 0, kind := if farOf o then .far op e.type else .near op e.type, line := some g.1, lanes := g.2
          width := widthOf m.w, dst := if nrOf o then none else some (d.toNat, false), pc := 0#64, frag := 0, instr := 0
          args := g.2.map fun l => (l.1, c.x.groupN d.toNat n l.1, cmpVal c.x op n o l.1), acq := acqOf o 2
          va := ((lanes.find? fun l => (g.2.head?).any fun h => h.1 = l.1).getD (0, 0)).2 }

def execAtomgAdd (o : Option OPfx) (p : Option VPfx) (d a : BitVec 8) (m : MFld) (s : State) := runInstr s (atomg 0 o p d a m)
def execAtomgMin (o : Option OPfx) (p : Option VPfx) (d a : BitVec 8) (m : MFld) (s : State) := runInstr s (atomg 1 o p d a m)
def execAtomgMax (o : Option OPfx) (p : Option VPfx) (d a : BitVec 8) (m : MFld) (s : State) := runInstr s (atomg 2 o p d a m)
def execAtomgAnd (o : Option OPfx) (p : Option VPfx) (d a : BitVec 8) (m : MFld) (s : State) := runInstr s (atomg 3 o p d a m)
def execAtomgOr (o : Option OPfx) (p : Option VPfx) (d a : BitVec 8) (m : MFld) (s : State) := runInstr s (atomg 4 o p d a m)
def execAtomgXor (o : Option OPfx) (p : Option VPfx) (d a : BitVec 8) (m : MFld) (s : State) := runInstr s (atomg 5 o p d a m)
def execAtomgExch (o : Option OPfx) (p : Option VPfx) (d a : BitVec 8) (m : MFld) (s : State) := runInstr s (atomg 6 o p d a m)
def execAtomgIncw (o : Option OPfx) (p : Option VPfx) (d a : BitVec 8) (m : MFld) (s : State) := runInstr s (atomg 7 o p d a m)
def execAtomgFadd (o : Option OPfx) (p : Option VPfx) (d a : BitVec 8) (m : MFld) (s : State) := runInstr s (atomg 8 o p d a m)
def execAtomgCas (o : OPfx) (p : Option VPfx) (d a : BitVec 8) (m : MFld) (s : State) := runInstr s (atomg 9 (some o) p d a m)

-- ## Scratchpad atomics

/-- The lanes apply in ascending order, each to what its predecessor left (R372, R374): the window and the old values. -/
def atomsRun (op t width : Nat) : Memory → List (Nat × Nat × Nat × Nat) → Memory × List (Nat × Nat)
  | mem, [] => (mem, [])
  | mem, (l, addr, a, c) :: r =>
    let x := mem.readNat addr width
    let (mem, olds) := atomsRun op t width (mem.storeNat addr width (atomNew op t x a c)) r
    (mem, (l, x) :: olds)

/-- `ATOMS` (R371, R372, R374). -/
def atoms (op : Nat) (o : Option OPfx) (p : Option VPfx) (d a : BitVec 8) (m : MFld) (c : Ctx) : Res :=
  atomFrame op o p d (localOps a m) m c fun c e =>
    match scratchBad c.x (256 * c.k.scratch) a m e.mask with
    | some i => .fault i
    | none => c.releasing o 1 fun c =>
      let n := widthRegs m.w
      let (mem, olds) := atomsRun op e.type (widthOf m.w) c.b.img.scratch ((lanesOf e.mask).map fun l =>
        (l, localAddr c.x a m l, c.x.groupN d.toNat n l, cmpVal c.x op n o l))
      let s := c.s.setImg c.w.blk fun i => { i with scratch := mem }
      .done (s.setWarp c.w fun x =>
        let x := if nrOf o then x else x.writeGroup d.toNat n 0#32 e.mask e.zero fun l =>
          ((olds.find? fun v => v.1 = l).getD (0, 0)).2
        x.setFrag c.f.id fun f => f.stores (e.mask != 0#32))

def execAtomsAdd (o : Option OPfx) (p : Option VPfx) (d a : BitVec 8) (m : MFld) (s : State) := runInstr s (atoms 0 o p d a m)
def execAtomsMin (o : Option OPfx) (p : Option VPfx) (d a : BitVec 8) (m : MFld) (s : State) := runInstr s (atoms 1 o p d a m)
def execAtomsMax (o : Option OPfx) (p : Option VPfx) (d a : BitVec 8) (m : MFld) (s : State) := runInstr s (atoms 2 o p d a m)
def execAtomsAnd (o : Option OPfx) (p : Option VPfx) (d a : BitVec 8) (m : MFld) (s : State) := runInstr s (atoms 3 o p d a m)
def execAtomsOr (o : Option OPfx) (p : Option VPfx) (d a : BitVec 8) (m : MFld) (s : State) := runInstr s (atoms 4 o p d a m)
def execAtomsXor (o : Option OPfx) (p : Option VPfx) (d a : BitVec 8) (m : MFld) (s : State) := runInstr s (atoms 5 o p d a m)
def execAtomsExch (o : Option OPfx) (p : Option VPfx) (d a : BitVec 8) (m : MFld) (s : State) := runInstr s (atoms 6 o p d a m)
def execAtomsCas (o : OPfx) (p : Option VPfx) (d a : BitVec 8) (m : MFld) (s : State) := runInstr s (atoms 9 (some o) p d a m)

/-- `SATOM` (R320): a far 32-bit fetch-and-add by lane L. -/
def satom (o : Option OPfx) (d a : BitVec 8) (c : Ctx) : Res :=
  scalarMem [{ sOp d 0 with writes := !nrOf o }, spOp a 1] a 4 2 2 c fun c s l pa =>
    { c with s := s }.releasing o 2 fun c =>
    atomIssue c c.s true 0 0 (nrOf o)
      [{ id := 0, kind := .far 0 0, line := some (pa / 128), lanes := [(l, pa)], width := 4
         dst := if nrOf o then none else some (d.toNat, true), pc := 0#64, frag := 0, instr := 0
         args := [(l, (c.x.sf d.toNat).toNat, 0)], acq := acqOf o 2, va := (c.x.spair a.toNat).toNat }]

def execSatom (o : Option OPfx) (d a : BitVec 8) (s : State) := runInstr s (satom o d a)

end Sys2Proof.Machine
end

