-- ==== Sys2Proof/Machine/Complete.lean ====
section
/-!
DEFINITION. How an outstanding access ends: registers written or flagged (R85), error records (R389), class counters
(R216), the spin detector's values (R181) and the proof log (R269).
-/
namespace Sys2Proof.Machine

/-- The class that counts an access (R216). -/
def Access.cls (a : Access) : Option Nat :=
  match a.kind with
  | .pref _ => none
  | _ => if a.dst.isSome then some 0 else some 1

/-- Stages that a completed request passed (R262): L1 alone; die L2 too; the way to the home's LLC slice, which a far atomic takes from its
cluster; the memory controller where the home had to read the line (log 32). -/
def Access.stages (a : Access) : List Nat :=
  match a.kind with
  | .far .. => [0, 0, 1, 1, 1, a.read.toNat]
  | _ => if a.hit then [1, 0, 0, 0, 0, 0] else if a.asked then [1, 1, 1, 1, 1, a.read.toNat] else [1, 1, 0, 0, 0, 0]

/-- A sampled request's record is due when its part completes (R262). -/
def State.sampled (s : State) (w : WarpRef) (a : Access) : State :=
  match a.sample, s.blk w.blk, s.warp w with
  | some (seq, clock), some b, some x =>
    let store := match a.kind with | .load _ => false | _ => true
    { s with
      samples := s.samples ++ [{ id := a.id, vd := a.vd, die := a.die, g := b.cluster.getD 0, q := w.wi % 4, slot := x.slot
                                 seq, clock, pc := a.pc, store }]
      agenda := s.agenda ++ [(.memreqRecord, .times w a.id a.stages)] }
  | _, _, _ => s

/-- An access is done: its entry is freed, and with its instruction's last part the class counter falls. -/
def State.finish (s : State) (w : WarpRef) (a : Access) : State :=
  (s.sampled w a).setWarp w fun x =>
    let x := { x with accesses := x.accesses.filter fun b => b.id != a.id }
    if x.accesses.any fun b => b.instr = a.instr then x else
    match a.cls with
    | some n => x.addClass n (-1)
    | none => x

/-- The values returned to the spin detector by one part of a load (R181). -/
def Warp.spinVals (x : Warp) (a : Access) : Warp :=
  match a.dst with
  | none => x
  | some (d, sc) =>
    let regs := (a.width + 3) / 4
    let vals := (a.lanes.map fun l => l.1).flatMap fun l => (List.range regs).map fun r =>
      (4 * l + r, if sc then x.sf (d + r) else x.lane (d + r) l)
    { x with frags := x.frags.map fun (f : Frag) => { f with iter := f.iter.map fun i =>
        if i.1 = a.instr && i.2.1 != 0 then (i.1, i.2.1 - 1, i.2.2 ++ vals) else i } }

/-- The registers that an access writes. -/
def Access.regs (a : Access) : List Nat :=
  match a.dst with
  | some (d, _) => (List.range ((a.width + 3) / 4)).map (d + ·)
  | none => []

/-- A register that instruction `a` flags again: it keeps its first flag (R85). What the parts of one instruction say is one flag, whose
masks of lost lanes add up (R63); a flag that an earlier instruction set keeps beside it what this one failed with. -/
def ErrRec.more (f : ErrRec) (a : Access) (code : Nat) (einfo : Word) : ErrRec :=
  if f.cmd = a.instr then (if f.code = 0x11 && code = 0x11 then { f with einfo := f.einfo ||| einfo } else f)
  else match f.again with
    | some (c, e, p, i, m) =>
      if i = a.instr then { f with again := some (c, if c = 0x11 && code = 0x11 then e ||| einfo else e, p, i, m) }
      else { f with again := some (code, einfo, a.pc, a.instr, a.acc) }
    | none => { f with again := some (code, einfo, a.pc, a.instr, a.acc) }

/-- Flags the destination registers of a failed access (R85). -/
def Warp.flagAll (x : Warp) (a : Access) (code : Nat) (einfo : Word) : Warp :=
  { x with flags := a.regs.foldl (fun m r =>
      if r = 0xC0 then m else match find m r with
        | some f => put m r (f.more a code einfo)
        | none => put m r { code, einfo, pc := a.pc, cmd := a.instr, acc := a.acc }) x.flags }

/-- What stays of a register's flag when instruction `a` writes lanes of it: what its own failed lanes set. -/
def ErrRec.own (f : ErrRec) (a : Access) : Option ErrRec :=
  if f.cmd = a.instr then some f else
  match f.again with
  | some (code, einfo, pc, cmd, acc) => if cmd = a.instr then some { code, einfo, pc, cmd, acc } else none
  | none => none

/-- Writes values to a load's lanes, keeping the flags that its own failed lanes set. -/
def Warp.land (x : Warp) (a : Access) (vals : List (Nat × Nat)) : Warp :=
  match a.dst with
  | none => x
  | some d =>
    if vals.isEmpty then x else
    let own := a.regs.filterMap fun r => ((find x.flags r).bind fun f => f.own a).map fun f => (r, f)
    let sx := match a.kind with | .load b => b | _ => false
    let y := x.loadLanes d a.width sx vals
    { y with flags := own.foldl (fun m f => put m f.1 f.2) y.flags }

/-- Fills an error record that is not valid (R389). -/
def Counter.fill (k : Counter) (e : ErrRec) : Counter := if k.err.isSome then k else { k with err := some e }

/-- Notes an access's values (R269). -/
def State.note (s : State) (w : WarpRef) (a : Access) (vals : List Nat) : State := s.noteAt w.blk a.log vals

/-- Ends an access whose values have come (or a part without values): `bad` are lanes that failed, with the code and
`%einfo` of the flag (R63, R85). -/
def State.complete (s : State) (w : WarpRef) (a : Access) (vals : List (Nat × Nat)) (bad : Option (Nat × Word)) : State :=
  let s := s.note w a (vals.map fun v => v.2)
  let s := s.setWarp w fun x =>
    if x.exited = allLanes then x else
    let x := x.land a vals
    let x := match bad, a.dst with
      | some (code, e), some _ => x.flagAll a code e
      | some (code, e), none =>
        let k := (vget x.classes 1 {}).fill { code, einfo := e, pc := a.pc, cmd := a.instr, acc := a.acc }
        { x with classes := x.classes.setIfInBounds 1 k }
      | none, _ => x
    x.spinVals a
  s.finish w a

/-- Finds an outstanding access. -/
def State.access (s : State) (w : WarpRef) (id : Nat) : Option Access :=
  (s.warp w).bind fun x => x.accesses.find? fun a => a.id = id

/-- Changes an outstanding access. -/
def State.setAccess (s : State) (w : WarpRef) (id : Nat) (f : Access → Access) : State :=
  s.setWarp w fun x => { x with accesses := modFirst (fun a => a.id = id) f x.accesses }

/-- `MEMORY_ERROR`'s `%einfo` (R287). -/
def memError (a : Access) : Nat × Word := (0x10, a.pc.setWidth 32)

end Sys2Proof.Machine
end

