-- ==== Sys2Proof/Machine/Scalar.lean ====
section
/-!
DEFINITION. Scalar arithmetic and logic (R305–R308), the mode register, predicates and single lanes (R309, R311, R312).
-/
namespace Sys2Proof.Machine

def execSadd (d a b : BitVec 8) (s : State) := runInstr s (scalarR d a b (· + ·))
def execSsub (d a b : BitVec 8) (s : State) := runInstr s (scalarR d a b (· - ·))
def execSmul (d a b : BitVec 8) (s : State) := runInstr s (scalarR d a b (· * ·))
def execSmulh (d a b : BitVec 8) (s : State) := runInstr s (scalarR d a b mulHighS)
def execSmulhn (d a b : BitVec 8) (s : State) := runInstr s (scalarR d a b mulHighU)
def execSand (d a b : BitVec 8) (s : State) := runInstr s (scalarR d a b (· &&& ·))
def execSor (d a b : BitVec 8) (s : State) := runInstr s (scalarR d a b (· ||| ·))
def execSxor (d a b : BitVec 8) (s : State) := runInstr s (scalarR d a b (· ^^^ ·))
def execSshl (d a b : BitVec 8) (s : State) := runInstr s (scalarR d a b fun a b => shl32 a (b.extractLsb' 0 6))
def execSshr (d a b : BitVec 8) (s : State) := runInstr s (scalarR d a b fun a b => shr32 a (b.extractLsb' 0 6))
def execSsra (d a b : BitVec 8) (s : State) := runInstr s (scalarR d a b fun a b => sra32 a (b.extractLsb' 0 6))
def execSmin (d a b : BitVec 8) (s : State) := runInstr s (scalarR d a b fun a b => if a.slt b then a else b)
def execSmax (d a b : BitVec 8) (s : State) := runInstr s (scalarR d a b fun a b => if a.slt b then b else a)
def execSminn (d a b : BitVec 8) (s : State) := runInstr s (scalarR d a b fun a b => if a.ult b then a else b)
def execSmaxn (d a b : BitVec 8) (s : State) := runInstr s (scalarR d a b fun a b => if a.ult b then b else a)
def execSeq (d a b : BitVec 8) (s : State) := runInstr s (scalarR d a b fun a b => ofBool (a == b))
def execSlt (d a b : BitVec 8) (s : State) := runInstr s (scalarR d a b fun a b => ofBool (a.slt b))
def execSltn (d a b : BitVec 8) (s : State) := runInstr s (scalarR d a b fun a b => ofBool (a.ult b))
def execSle (d a b : BitVec 8) (s : State) := runInstr s (scalarR d a b fun a b => ofBool (a.sle b))

/-- `SSEL` reads `sd` before it writes it (R305). -/
def scalarSel (d a b : BitVec 8) (c : Ctx) : Res :=
  guarded c [{ sDst d with reads := true }, sOp a 1, sOp b 2]
    (c.writeS d (if c.x.sf d.toNat != 0#32 then c.x.sf a.toNat else c.x.sf b.toNat))

def execSsel (d a b : BitVec 8) (s : State) := runInstr s (scalarSel d a b)

/-- 64-bit addition over pairs (R308). -/
def scalarAdd64 (d a b : BitVec 8) (c : Ctx) : Res :=
  guarded c [spDst d, spOp a 1, spOp b 2]
    (.done (c.s.setWarp c.w fun x => x.setPair d.toNat (c.x.spair a.toNat + c.x.spair b.toNat)))

def execSadd64 (d a b : BitVec 8) (s : State) := runInstr s (scalarAdd64 d a b)

def execSaddi (x : Option (BitVec 24)) (d a i : BitVec 8) (s : State) := runInstr s (scalarI d a (immOf x true i) (· + ·))
def execSandi (x : Option (BitVec 24)) (d a i : BitVec 8) (s : State) := runInstr s (scalarI d a (immOf x false i) (· &&& ·))
def execSori (x : Option (BitVec 24)) (d a i : BitVec 8) (s : State) := runInstr s (scalarI d a (immOf x false i) (· ||| ·))
def execSxori (x : Option (BitVec 24)) (d a i : BitVec 8) (s : State) := runInstr s (scalarI d a (immOf x false i) (· ^^^ ·))
def execSshli (d a : BitVec 8) (n : BitVec 6) (s : State) := runInstr s (scalarU d a fun a => shl32 a n)
def execSshri (d a : BitVec 8) (n : BitVec 6) (s : State) := runInstr s (scalarU d a fun a => shr32 a n)
def execSsrai (d a : BitVec 8) (n : BitVec 6) (s : State) := runInstr s (scalarU d a fun a => sra32 a n)

/-- `SMOVI` (R306). -/
def scalarMovi (d : BitVec 8) (imm : Word) (c : Ctx) : Res := guarded c [sDst d] (c.writeS d imm)

def execSmovi (x : Option (BitVec 24)) (d i : BitVec 8) (s : State) := runInstr s (scalarMovi d (immOf x true i))
def execSpopc (d a : BitVec 8) (s : State) := runInstr s (scalarU d a fun a => BitVec.ofNat 32 (popCount 32 a.toNat))
def execSclz (d a : BitVec 8) (s : State) := runInstr s (scalarU d a fun a => BitVec.ofNat 32 (clz 32 a.toNat))
def execSffs (d a : BitVec 8) (s : State) := runInstr s (scalarU d a fun a => BitVec.ofNat 32 (ffs 32 a.toNat))
def execSmov (d a : BitVec 8) (s : State) := runInstr s (scalarU d a fun a => a)

/-- The checks of a value for the mode register (R309). -/
def modeBad (v : Word) : Option FaultInfo :=
  if 5 ≤ mRnd v then some (illegalType (mType v) (mRnd v))
  else if 48 ≤ mGp v then some { code := 0x03, einfo := BitVec.ofNat 32 (mGp v + 256 * 4) }
  else none

/-- What the mode register keeps of a value: bits 17:0 (R283, R309). -/
def modeKeep (v : Word) : Word := v &&& 0x3FFFF#32

/-- `SETMODE` ignores the guard (R304, R309). -/
def setmode (a : BitVec 8) (c : Ctx) : Res :=
  checkRange c [sOp a 1] <| checkReady c [sOp a 1] <|
    match modeBad (c.x.sf a.toNat) with
    | some i => .fault i
    | none => .done (c.s.setWarp c.w fun x => { x with mode := modeKeep (c.x.sf a.toNat) })

def execSetmode (a : BitVec 8) (s : State) := runInstr s (setmode a)

def getmode (d : BitVec 8) (c : Ctx) : Res :=
  checkRange c [sDst d] <| checkReady c [sDst d] <| c.writeS d c.x.mode

def execGetmode (d : BitVec 8) (s : State) := runInstr s (getmode d)

/-- `PRD` (R311). -/
def prd (d a : BitVec 8) (c : Ctx) : Res := guarded c [sDst d, pOp a 1] (c.writeS d (c.x.pred a.toNat))

def execPrd (d a : BitVec 8) (s : State) := runInstr s (prd d a)

/-- `PWR` (R311). -/
def pwr (d a : BitVec 8) (c : Ctx) : Res :=
  guarded c [pDst d, sOp a 1]
    (.done (c.s.setWarp c.w fun x =>
      x.setP d.toNat (writeMask (x.pred d.toNat) allLanes c.f.mask false (c.x.sf a.toNat))))

def execPwr (d a : BitVec 8) (s : State) := runInstr s (pwr d a)

/-- `VGETL` (R312). -/
def vgetl (d a b : BitVec 8) (c : Ctx) : Res :=
  guarded c [sDst d, vOp 1 a 1, sOp b 2]
    (c.writeS d (c.x.lane a.toNat ((c.x.sf b.toNat).extractLsb' 0 5).toNat))

def execVgetl (d a b : BitVec 8) (s : State) := runInstr s (vgetl d a b)

/-- `VSETL` (R312). -/
def vsetl (d a b : BitVec 8) (c : Ctx) : Res :=
  guarded c [vDst 1 d, sOp a 1, sOp b 2]
    (let l := ((c.x.sf b.toNat).extractLsb' 0 5).toNat
     if c.f.mask.getLsbD l then
      .done (c.s.setWarp c.w fun x => x.setV d.toNat ((x.vreg d.toNat).setIfInBounds l (c.x.sf a.toNat)))
     else .done c.s)

def execVsetl (d a b : BitVec 8) (s : State) := runInstr s (vsetl d a b)

end Sys2Proof.Machine
end

