-- ==== Sys2Proof/Machine/Control.lean ====
section
/-!
DEFINITION. Control flow: branches (R313–R315), `SYNCW` (R316), `YIELD` and `SLEEP` (R317), `EXIT` (R318), traps (R326)
and the return from the handler (R327).
-/
namespace Sys2Proof.Machine

/-- `NOP` (R318). -/
def nop (c : Ctx) : Res := .done c.s

def execNop (s : State) := runInstr s nop

-- ## Branches

/-- The branch target: base word's address + 4 × offset (R274). -/
def Ctx.target {n : Nat} (c : Ctx) (off : BitVec n) : DWord := c.basePc + 4#64 * off.signExtend 64

/-- A branch taken or not; a negative offset makes a taken one backward (R181). -/
def Ctx.branch {n : Nat} (c : Ctx) (taken : Bool) (off : BitVec n) : Res :=
  if taken then .goto c.s (c.target off) off.msb else .goto c.s c.nextPc false

def bra (off : BitVec 24) (c : Ctx) : Res := c.branch true off
def execBra (off : BitVec 24) (s : State) := runInstr s (bra off)

/-- Checks of an operand of a branch: range, interlock, flags. -/
def checked (c : Ctx) (os : List Opnd) (f : Res) : Res := checkRange c os (checkReady c os f)

/-- `BRS` and `BRSZ` (R313). -/
def branchS (z : Bool) (sel : BitVec 6) (off : BitVec 17) (c : Ctx) : Res :=
  checked c [{ k := .sx, val := sel.toNat, code := 0 }] (c.branch ((c.x.sreg sel.toNat == 0#32) == z) off)

def execBrs (sel : BitVec 6) (off : BitVec 17) (s : State) := runInstr s (branchS false sel off)
def execBrsz (sel : BitVec 6) (off : BitVec 17) (s : State) := runInstr s (branchS true sel off)

/-- The predicate of a branch, complemented by `NEG` (R313). -/
def Ctx.branchMask (c : Ctx) (sel : BitVec 6) (neg : Bool) : Mask :=
  c.f.mask &&& (if neg then ~~~ c.x.pred sel.toNat else c.x.pred sel.toNat)

def selOp (sel : BitVec 6) : List Opnd := [{ k := .p, val := sel.toNat, code := 0 }]

/-- `BRANY` (R313). -/
def brany (sel : BitVec 6) (neg : Bool) (off : BitVec 17) (c : Ctx) : Res :=
  checked c (selOp sel) (c.branch (c.branchMask sel neg != 0#32) off)
/-- `BRALL` (R313). -/
def brall (sel : BitVec 6) (neg : Bool) (off : BitVec 17) (c : Ctx) : Res :=
  checked c (selOp sel) (c.branch (c.branchMask sel neg == c.f.mask) off)

def execBrany (sel : BitVec 6) (neg : Bool) (off : BitVec 17) (s : State) := runInstr s (brany sel neg off)
def execBrall (sel : BitVec 6) (neg : Bool) (off : BitVec 17) (s : State) := runInstr s (brall sel neg off)

/-- `CALL` (R314). -/
def call (off : BitVec 24) (c : Ctx) : Res :=
  checkReady c [{ k := .sp, val := 0xC0 + 62, code := 0, reads := false, writes := true }]
    (.goto (c.s.setWarp c.w fun x => x.setPair (0xC0 + 62) (c.pc + 4#64)) (c.target off) false)

def execCall (off : BitVec 24) (s : State) := runInstr s (call off)

/-- A jump to an address in a scalar pair (R271, R314). -/
def Ctx.jump (c : Ctx) (v : Nat) : Res :=
  let a := c.x.spair v
  if a &&& 3#64 != 0#64 then .fault { code := 0x05, einfo := 0#32 } else .goto c.s a false

def ret (c : Ctx) : Res := checkReady c [{ k := .sp, val := 0xC0 + 62, code := 0 }] (c.jump (0xC0 + 62))
def execRet (s : State) := runInstr s ret

def jmpr (a : BitVec 8) (c : Ctx) : Res := checked c [spOp a 1] (c.jump a.toNat)
def execJmpr (a : BitVec 8) (s : State) := runInstr s (jmpr a)

-- ## Divergence

/-- The split of R200 and R202: a fragment for the taken lanes, the rest stay. -/
def splitWarp (c : Ctx) (taken : Mask) (target : DWord) (rejoin : Option DWord) (stamp : Nat) (x : Warp) : Warp :=
  let x := x.makeRoom stamp
  let f := { id := x.nextFrag, entry := x.freeEntry, pc := target, mask := taken
             rejoin := if rejoin.isSome then rejoin else c.f.rejoin
             parent := if rejoin.isSome then some c.f.id else c.f.parent
             inHandler := c.f.inHandler : Frag }
  let f := if (target - c.basePc).msb then f.spin c.basePc else f
  let x := { x with frags := x.frags ++ [f], nextFrag := x.nextFrag + 1 }
  (x.setFrag c.f.id fun g => { g with mask := g.mask &&& ~~~ taken }).arrive f.id

/-- `BRV` (R315); where the table is full, its spill is written first (R202, R203). -/
def brv (rejoin : Option (BitVec 24)) (sel : BitVec 6) (neg : Bool) (off : BitVec 17) (c : Ctx) : Res :=
  checked c (selOp sel) <|
    let t := c.branchMask sel neg
    if t == c.f.mask then c.branch true off
    else if t == 0#32 then c.branch false off
    else if 76 ≤ c.x.frags.length then .fault { code := 0x0E, einfo := 0#32 }
    else
      let go := fun (s : State) =>
        let u := s.setWarp c.w (splitWarp c t (c.target off) (rejoin.map c.target) s.nextId)
        Res.goto { u with nextId := u.nextId + 1 } c.nextPc false
      if c.x.freeEntry.isSome then go c.s else c.ring c.s c.x.freeSlot go

def execBrv (rejoin : Option (BitVec 24)) (sel : BitVec 6) (neg : Bool) (off : BitVec 17) (s : State) :=
  runInstr s (brv rejoin sel neg off)

/-- `SYNCW` (R316): it counts when its group merges (R256). -/
def syncw (c : Ctx) : Res :=
  .issued ((leave c c.s fun f => f.park .sync).setWarp c.w fun x => x.syncTest c.f.parent c.f.rejoin)

def execSyncw (s : State) := runInstr s syncw

-- ## Waiting

/-- `YIELD` (R317). -/
def yieldFrag (c : Ctx) : Res := .park c.s .ready

def execYield (s : State) := runInstr s yieldFrag

/-- `SLEEP` (R317). -/
def sleep (a : BitVec 8) (c : Ctx) : Res :=
  checked c [sOp a 1] (if c.x.sf a.toNat = 0#32 then .park c.s .ready
    else .park c.s (.sleep (c.s.ns + (c.x.sf a.toNat).toNat)))

def execSleep (a : BitVec 8) (s : State) := runInstr s (sleep a)

-- ## Exit

/-- An error record: class counters 0–3 (R216), tags at 4 (R215). -/
def Warp.counter (x : Warp) (n : Nat) : Counter := if n < 4 then vget x.classes n {} else vget x.tags (n - 4) {}

/-- Drops the error records that name command `cmd` (R389). -/
def Warp.clearErr (x : Warp) (cmd : Nat) : Warp :=
  let drop := fun (k : Counter) => if k.err.any fun e => e.cmd = cmd then { k with err := none } else k
  { x with tags := x.tags.map drop, classes := x.classes.map drop }

/-- Takes the first valid error record among the counters named, clearing it and the other record of the same command
(R389); without one, `f`. -/
def takeErr (c : Ctx) (ns : List Nat) (f : Res) : Res :=
  match ns.findSome? fun n => (c.x.counter n).err with
  | some e => .faultIn c (c.s.setWarp c.w fun x => x.clearErr e.cmd) e.fault
  | none => f

/-- Handler state ends when every fragment in the handler has exited (R327). -/
def Warp.handlerGone (x : Warp) : Warp :=
  if x.handler && !x.frags.any (fun f => f.inHandler && f.mask != 0#32) then
    { x with handler := false, frags := x.frags.map fun (f : Frag) =>
        { f with inHandler := false, wait := if f.wait = Wait.handler then .ready else f.wait } }
  else x

/-- The lanes of the fragment end (R318). -/
def exitLanes (c : Ctx) (x : Warp) : Warp :=
  let x := { x with exited := x.exited ||| c.f.mask }
  let x := x.setFrag c.f.id fun f => { f.park .children with mask := 0#32, lastRan := c.s.now }
  (Warp.endFrag (x.frags.length + 1) x c.f.id).handlerGone

/-- `EXIT` (R318); the warp's last one waits and takes an error first. -/
def exit (c : Ctx) : Res :=
  let go := Res.moved ((c.s.setWarp c.w (exitLanes c)).afterExit c.w c.b.kernel c.k.warps)
  if (c.x.exited ||| c.f.mask) != 0xFFFFFFFF#32 then go else
  if (List.range 8).any fun k => (c.x.counter (4 + k)).count != 0 then .wait c.s (.tags 0xFF) else
  if [1, 2, 3].any fun k => (c.x.counter k).count != 0 then .wait c.s (.counters 511 0 0 0) else
  takeErr c ([1, 2, 3] ++ (List.range 8).map (4 + ·)) go

def execExit (s : State) := runInstr s exit

-- ## Traps and the handler

/-- `TRAP` (R326, R289). -/
def trap (code : BitVec 24) (c : Ctx) : Res :=
  .fault { code := 0x12, einfo := code.setWidth 32, epc := some c.nextPc }

def execTrap (code : BitVec 24) (s : State) := runInstr s (trap code)

/-- `BRK` (R265, R326); a warp that a debugger has released passes over it once (R267). -/
def brk (code : BitVec 24) (c : Ctx) : Res :=
  if c.x.passStop then .done c.s else c.stop { code := 0x13, einfo := code.setWidth 32, epc := some c.nextPc }

def execBrk (code : BitVec 24) (s : State) := runInstr s (brk code)

/-- `ERET` (R327). -/
def eret (c : Ctx) : Res :=
  if !c.f.inHandler then .fault { code := 0x01, einfo := c.s.base }
  else if c.x.epc &&& 3#64 != 0#64 then .fault { code := 0x05, einfo := 0#32 }
  else .moved (leaveHandler c)

def execEret (s : State) := runInstr s eret

/-- The lanes in which an instruction is active that check 2, 3 or 4 of R286 refuses: a vector instruction's guard is that of the vector
prefix right before its base word, else the mode's (R290; log 17). -/
def Ctx.refusedMask (c : Ctx) : Mask :=
  if acceptsV (opcode c.s.base) then (effOf c.x c.f.mask c.s.pfx).mask else c.f.mask

/-- A base word that failed check 2 or 4 (R285, R286). -/
def illegalOpcode (w : BitVec 32) (c : Ctx) : Res := .fault { code := 0x01, einfo := w, lanes := some c.refusedMask }

def execIllegalOpcode (w : BitVec 32) (s : State) := runInstr s (illegalOpcode w)

end Sys2Proof.Machine
end

