-- ==== Sys2Proof/Machine/Sync.lean ====
section
/-!
DEFINITION. Fences, barriers and signal waits (R375–R379), and the waits on counters and tags (R390–R392).
-/
namespace Sys2Proof.Machine

/-- The fragment notes a store, atomic, barrier, `KICK`, `LAUNCH` or copy in its iteration (R181). -/
def Ctx.noted (c : Ctx) (s : State) : State := s.setFrag c.w c.f.id fun f => f.stores true

/-- `FENCE` (R375): an acquire follows the warp's earlier strong reads (R224). -/
def fence (o : OPfx) (c : Ctx) : Res :=
  guarded c [] <| c.ordered fun c => c.releasing (some o) 2 fun c =>
    let acq := o.ord.toNat % 2 = 1
    if acq && c.x.accesses.any fun a => a.dst.isSome then .hold .counter else
    if acq && !c.s.canAcquire c.g c.vd o.scope.toNat then .hold .counter
    else takeErr c [1] (.done (if acq then c.s.acquire c.g c.die c.vd o.scope.toNat else c.s))

def execFence (o : OPfx) (s : State) := runInstr s (fence o)

/-- Waits for an acquire that is due, and for the release that an arrival makes (R226). -/
def Ctx.arriving (c : Ctx) (scope : Nat) (f : Ctx → Res) : Res :=
  c.ordered fun c =>
    if c.s.released c.g c.vd c.w c.x scope then takeErr c [1] (f { c with s := c.s.passRemotes c.w scope }) else .hold .counter

/-- `BAR` (R377): the fragment parks behind it, and then its arrival is counted, which ends the wait if the phase completes. -/
def bar (a : BitVec 8) (b : BitVec 4) (c : Ctx) : Res :=
  guarded c [sOp a 1] <| c.arriving 1 fun c =>
    let s := parkBehind c (c.noted c.s) (.bar b.toNat (look c.b.img.bars b.toNat {}).phase)
    .issued (c.arrive s b.toNat (c.x.sf a.toNat).toNat)

def execBar (a : BitVec 8) (k : BitVec 4) (s : State) := runInstr s (bar a k)

/-- `BARARV` (R377). -/
def bararv (a : BitVec 8) (b : BitVec 4) (c : Ctx) : Res :=
  guarded c [sOp a 1] <| c.arriving 1 fun c =>
    .issued (c.arrive (retireTo c (c.noted c.s) c.nextPc id) b.toNat (c.x.sf a.toNat).toNat)

def execBararv (a : BitVec 8) (k : BitVec 4) (s : State) := runInstr s (bararv a k)

/-- `BARWAIT` (R377): the phase of the warp's last arrival, else the current one. -/
def barwait (a : BitVec 8) (b : BitVec 4) (c : Ctx) : Res :=
  guarded c [sOp a 1] <| takeErr c [1] <|
    let now := (look c.b.img.bars b.toNat {}).phase
    let phase := look c.x.arrived b.toNat now
    if phase < now then .done (c.noted c.s) else .park (c.noted c.s) (.bar b.toNat phase)

def execBarwait (a : BitVec 8) (k : BitVec 4) (s : State) := runInstr s (barwait a k)

/-- `GBAR` (R172, R378). -/
def gbar (c : Ctx) : Res :=
  guarded c [] <|
    if !c.k.coop then .fault { code := 0x0F, einfo := 1#32 } else c.arriving 2 fun c =>
      .issued (c.garrive (parkBehind c (c.noted c.s) (.gbar c.k.gphase)))

def execGbar (s : State) := runInstr s gbar

/-- `WAITSIG` (R379): a failing test parks the fragment at the instruction, which a passing retest completes. The warp's own earlier
accesses to the word's line come first, and so do bytes in L1 (R223); die L2 reads the word with a token, outside any engine's window
(R35, R230). The acquire of a test that passes is made before the warp's next access or arrival (R226). -/
def waitsig (a b : BitVec 8) (c : Ctx) : Res :=
  guarded c [spOp a 1, spOp b 2] <|
    let va := (c.x.spair a.toNat).toNat
    if va % 8 != 0 then .fault { code := 0x05, einfo := 0#32 } else
    c.ordered fun c => c.access (who := c.f.mask) 0 3 [(lowLane c.f.mask, va)] fun s pas =>
      let pa := (pas.headD (0, 0)).2
      let h := some (Holder.die c.die)
      if c.x.follows [some (pa / 128)] || s.l1Written c.g (pa / 128) then .hold .counter
      else if !s.l2May c.die (pa / 128) false then
        .busy (s.want h (pa / 128) false c.vd (s.lineInc (pa / 128)) [])
      else if s.isLost (pa / 128) || (s.tokens h (pa / 128)).lost then .fault { code := 0x10, einfo := c.pc.setWidth 32 }
      else if s.dieNat c.die pa 8 < (c.x.spair b.toNat).toNat then .wait s (.sig va pa (c.x.spair b.toNat))
      else .done (s.setWarp c.w fun x => { x with acquire := true })

def execWaitsig (a b : BitVec 8) (s : State) := runInstr s (waitsig a b)

-- ## Counters and tags

/-- `WAITC` (R390): a class's error is taken where its count was not 0 at issue or its field is 0. -/
def waitc (ld st cp tl : BitVec 6) (c : Ctx) : Res :=
  guarded c [] <|
    let lims := [ld.toNat, st.toNat, cp.toNat, tl.toNat]
    let at0 := c.f.waited.getD ((List.range 4).filter fun k => (c.x.counter k).count != 0)
    if (List.range 4).any fun k => (lims[k]?).getD 0 < (c.x.counter k).count then
      .wait (c.s.setFrag c.w c.f.id fun f => { f with waited := some at0 }) (.counters ld.toNat st.toNat cp.toNat tl.toNat)
    else
      let s := c.s.setFrag c.w c.f.id fun f => { f with waited := none }
      takeErr { c with s := s } ([1, 2, 3].filter fun k => at0.contains k || lims[k]? = some 0) (.done s)

def execWaitc (ld st cp tl : BitVec 6) (s : State) := runInstr s (waitc ld st cp tl)

/-- `WAITT` (R391): the lowest named tag's error is taken, the other named tags' records are cleared. -/
def waitt (m : BitVec 8) (c : Ctx) : Res :=
  guarded c [] <|
    let ts := (List.range 8).filter fun k => m.getLsbD k
    if ts.any fun k => (c.x.counter (4 + k)).count != 0 then .wait c.s (.tags m.toNat) else
    match ts.findSome? fun k => (c.x.counter (4 + k)).err with
    | none => .done c.s
    | some e => .faultIn c (c.s.setWarp c.w fun x =>
        let x := x.clearErr e.cmd
        { x with tags := ts.foldl (fun t k => t.setIfInBounds k { vget t k {} with err := none }) x.tags }) e.fault

def execWaitt (mask : BitVec 8) (s : State) := runInstr s (waitt mask)

/-- `TAGQ` (R392). -/
def tagq (d : BitVec 8) (c : Ctx) : Res :=
  guarded c [sDst d] <| c.writeS d <| BitVec.ofNat 32 <|
    ((List.range 8).map fun k =>
      (if (c.x.counter (4 + k)).count != 0 then 2 ^ k else 0) + (if (c.x.counter (4 + k)).err.isSome then 2 ^ (8 + k) else 0)).sum

def execTagq (d : BitVec 8) (s : State) := runInstr s (tagq d)

end Sys2Proof.Machine
end

