-- ==== Sys2Proof/Machine/System.lean ====
section
/-!
DEFINITION. Special registers (R292, R293, R310), queries (R321, R322), `LAUNCH` and `KICK` (R323–R325), queue offers
(R113), sample records (R260, R261) and `MARK` (R329).
-/
namespace Sys2Proof.Machine

-- ## Special registers

/-- `%wrefresh` of a die (R74): elapsed whole nanoseconds count from the phase's start. -/
def State.wrefresh (s : State) (d : Nat) : Word :=
  let x := s.die d
  BitVec.ofNat 32 (x.phase + 8 * (x.phaseNs - 1 - (s.now - x.phaseStart) / ticksPerNs) + (if x.phaseNs = 256 then 4096 else 0))

/-- `%gshape` (R292, R394). -/
def Image.gshape (i : Image) : Word :=
  match i.grant with
  | some g => BitVec.ofNat 32 (g.m + 256 * g.n + 65536 * g.type)
  | none => 0#32

/-- The 64-bit special registers: the low index and the value (R292). -/
def Ctx.wide (c : Ctx) (i : Nat) : Option DWord :=
  match i with
  | 0x0C => some (BitVec.ofNat 64 (c.s.vclock c.vd))
  | 0x0E => some (BitVec.ofNat 64 c.s.ns)
  | 0x10 => some c.x.rwc
  | 0x18 => some (if c.f.inHandler then c.x.epc else 0#64)
  | _ => none

/-- The 32-bit special registers (R292). -/
def Ctx.special (c : Ctx) (i : Nat) : Word :=
  let h := fun (v : Word) => if c.f.inHandler then v else 0#32
  match i with
  | 0x00 => BitVec.ofNat 32 c.w.wi
  | 0x01 => BitVec.ofNat 32 c.b.x
  | 0x02 => BitVec.ofNat 32 c.b.y
  | 0x03 => BitVec.ofNat 32 c.b.z
  | 0x04 => BitVec.ofNat 32 c.k.grid.1
  | 0x05 => BitVec.ofNat 32 c.k.grid.2.1
  | 0x06 => BitVec.ofNat 32 c.k.grid.2.2
  | 0x07 => BitVec.ofNat 32 c.k.warps
  | 0x08 => BitVec.ofNat 32 c.b.vdie
  | 0x09 => BitVec.ofNat 32 (c.s.vd c.vd).nvdie
  | 0x0A => BitVec.ofNat 32 (c.g % 16)
  | 0x0B => BitVec.ofNat 32 c.vd
  | 0x12 => c.s.wrefresh c.die
  | 0x13 => c.b.img.gshape
  | 0x14 => c.k.launchSeq
  | 0x15 => BitVec.ofNat 32 c.x.frags.length
  | 0x16 => c.x.vexecDone
  | 0x17 => BitVec.ofNat 32 (256 * c.k.scratch)
  | 0x1A => h c.x.ecause
  | 0x1B => h c.x.einfo
  | 0x1C => h c.x.emode
  | _ => c.x.latch

/-- The 64-bit value that a read of `.lo` sees: `%clock` and `%time` go through the proof log (R310). -/
def Ctx.wideLogged (c : Ctx) (i : Nat) (v : DWord) : State × DWord :=
  if i != 0x0C && i != 0x0E then (c.s, v)
  else match c.s.popLog c.w with
    | some (vals, s) => (s, BitVec.ofNat 64 (vals.headD 0))
    | none =>
      (c.s.logValue c.w v.toNat, v)

/-- `SRD` (R292, R293, R310): a `.lo` register fills the latch, a `.hi` register reads it. -/
def srd (d i : BitVec 8) (c : Ctx) : Res :=
  if 0x1D ≤ i.toNat then .fault { code := 0x01, einfo := c.s.base } else
  guarded c [sDst d] <|
    match c.wide i.toNat with
    | some v =>
      let (s, v) := c.wideLogged i.toNat v
      .done (s.setWarp c.w fun x => { x with latch := v.extractLsb' 32 32 }.setSf d.toNat (v.extractLsb' 0 32))
    | none => c.writeS d (if i = 0x19#8 && !c.f.inHandler then 0#32 else c.special i.toNat)

def execSrd (d i : BitVec 8) (s : State) := runInstr s (srd d i)

/-- `SWR` (R292, R310). -/
def swr (a i : BitVec 8) (c : Ctx) : Res :=
  if 0x1D ≤ i.toNat then .fault { code := 0x01, einfo := c.s.base } else
  guarded c [sOp a 1] <|
    let v := c.x.sf a.toNat
    if !c.f.inHandler then .done c.s
    else if i = 0x18#8 then .done (c.s.setWarp c.w fun x => { x with epc := x.epc.extractLsb' 32 32 ++ v })
    else if i = 0x19#8 then .done (c.s.setWarp c.w fun x => { x with epc := v ++ x.epc.extractLsb' 0 32 })
    else if i = 0x1C#8 then
      match modeBad v with
      | some f => .fault f
      | none => .done (c.s.setWarp c.w fun x => { x with emode := modeKeep v })
    else .done c.s

def execSwr (a i : BitVec 8) (s : State) := runInstr s (swr a i)

-- ## Queries

/-- Hop distance of two physical dies (R18). -/
def hops (a b : Nat) : Nat :=
  if a = b then 0 else if a / 4 = b / 4 then 2
  else
    let d := max (a / 4) (b / 4) - min (a / 4) (b / 4)
    2 + min d (8 - d)

/-- `VDQUERY` (R321). -/
def vdquery (d a b : BitVec 8) (c : Ctx) : Res :=
  guarded c [sDst d, sOp a 1, sOp b 2] <| c.writeS d <|
    let v := c.s.vd c.vd
    let i := (c.x.sf a.toNat).toNat
    let j := (c.x.sf b.toNat).toNat
    if v.nvdie ≤ i || v.nvdie ≤ j then 0xFFFFFFFF#32
    else BitVec.ofNat 32 (hops ((v.pdie i).getD 0) ((v.pdie j).getD 0))

def execVdquery (d a b : BitVec 8) (s : State) := runInstr s (vdquery d a b)

/-- Entry `i` of a VD's capability table (R95). -/
def State.cap (s : State) (v i : Nat) : Nat := if i < 4096 then (look (s.vd v).caps i 0#256).toNat else 0

/-- `CAPQ` (R322). -/
def capq (d a : BitVec 8) (c : Ctx) : Res :=
  guarded c [sDst d, sOp a 1] <| c.writeS d <|
    let e := c.s.cap c.vd (c.x.sf a.toNat).toNat
    if bit e 31 then BitVec.ofNat 32 (1 + 2 * bits e 27 22 + 65536 * bits e 47 32) else 0#32

def execCapq (d a : BitVec 8) (s : State) := runInstr s (capq d a)

-- ## Queue offers

/-- A started `WAIT_SIGNAL` is to be tested again (R127). -/
def Packet.retest (p : Packet) : Packet := if p.bytes.head? = some 3#8 then { p with progress := 0 } else p

/-- An offer of a tail to a queue (R113), at which the slot at `HEAD` is read and a `WAIT_SIGNAL` tested again (R124, R127); a VD that
is being reset or has failed ignores it (R120). -/
def State.offer (s : State) (v q : Nat) (w : Word) : State :=
  match (s.vd v).state with
  | .killing | .faulted | .free => s
  | _ => s.setQueue v q fun (k : Queue) =>
    let d := w - k.tail
    let k := { k with reread := true, started := k.started.map Packet.retest }
    if !k.enabled then { k with diskick := true }
    else if d = 0#32 then k
    else if d.msb then { k with stale := k.stale + 1#32 }
    else if (w - k.head).toNat ≤ 2 ^ k.log2 then { k with tail := w }
    else { k with overkick := true }

/-- `KICK` (R325). -/
def kick (a b : BitVec 8) (c : Ctx) : Res :=
  guarded c [sOp a 1, sOp b 2] <|
    let q := (c.x.sf a.toNat).toNat
    let s := c.noted c.s
    .done (if c.replaying || 64 ≤ q then s else s.offer c.vd q (c.x.sf b.toNat))

def execKick (a b : BitVec 8) (s : State) := runInstr s (kick a b)

-- ## LAUNCH

/-- The child's packet (R323): 16 words, the header with the device's type and lap. -/
def childPacket (x : Warp) (a lap : Nat) : List Byte :=
  let word := fun (k : Nat) => (x.sf (a + k)).toNat
  let header := 1 + 256 * bits (word 0) 13 8 + 32768 * bits (word 0) 15 15 + 65536 * lap
  leBytes 4 header ++ (List.range 15).flatMap fun k => leBytes 4 (if k < 13 then word (k + 1) else 0)

/-- The number after a launch sequence number: 0 is skipped (R174). -/
def nextSeq (n : Word) : Word := if n + 1#32 = 0#32 then 1#32 else n + 1#32

/-- The head write of a number to a VD's device-launch ring: the packet is published (R173). -/
def State.publish (s : State) (v asid : Nat) (bs : List Byte) (pa : Nat) : State :=
  let s := s.platenPoke pa bs v
  let seq := (s.vd v).launchSeq
  (s.setQueue v 64 fun k =>
    { k with kids := put k.kids k.tail.toNat (asid, seq), tail := k.tail + 1#32, reread := true }).setVd v
      fun x => { x with launchSeq := nextSeq seq }

/-- `LAUNCH` (R173–R176, R324); under re-execution the log gives its number, and nothing is published (R270). -/
def launch (d a : BitVec 8) (c : Ctx) : Res :=
  guarded c [sDst d, { k := .sg, val := a.toNat, code := 1 }] <|
    let v := c.s.vd c.vd
    let q := c.s.queue c.vd 64
    match c.s.popLog c.w with
    | some (vals, s) => .done (c.noted (s.setWarp c.w fun x => x.setSf d.toNat (BitVec.ofNat 32 (vals.headD 0))))
    | none =>
      if c.replaying then .done (c.noted c.s)
      else if v.dlq = 0#64 || q.stopped || !q.enabled then .fault { code := 0x07, einfo := 5#32 }
      else if 2 ^ q.log2 ≤ (q.tail - q.head).toNat then .hold .counter
      else if !c.s.released c.g c.vd c.w c.x 2 then .hold .counter
      else
        let va := q.ring.toNat + 64 * (q.tail.toNat % 2 ^ q.log2)
        let lap := (q.tail.toNat >>> q.log2) % 65536
        match c.s.translate c.place c.vd 0 va 1 with
        | (s, .perm e) =>
          .faultIn c s { code := 0x07, einfo := BitVec.ofNat 32 e, atype := 1, log2w := 6, va := BitVec.ofNat 64 va }
        | (s, .replay code s2 _) =>
          c.parkOn s [{ c.recBase 1 6 with va := BitVec.ofNat 64 va, code, stage2 := s2, lanes := c.f.mask, asid := 0 }]
        | (s, .busy) => .busy s
        | (s, .lost) => .faultIn c s { code := 0x10, einfo := c.pc.setWidth 32, atype := 1, log2w := 6, va := BitVec.ofNat 64 va }
        | (s, .ok pa) =>
          if !s.agentMay (pa / 128) true then .busy ((s.agentAsk (pa / 128) true c.vd []).getD s) else
          let s := s.publish c.vd c.k.asid (childPacket c.x a.toNat lap) pa
          let s := s.logValue c.w v.launchSeq.toNat
          .done (c.noted (s.setWarp c.w fun x => x.setSf d.toNat v.launchSeq))

def execLaunch (d a : BitVec 8) (s : State) := runInstr s (launch d a)

-- ## Sample records

/-- Writes a 32-byte record to a VD's sample ring through stage 2, or drops it (R261). -/
def State.sampleRecord (s : State) (v : Nat) (bs : List Byte) : State :=
  let x := s.vd v
  let n := bits x.smpcfg.toNat 28 24
  let tail := x.smptail + BitVec.ofNat 32 (s.posted.filter fun p => p.tail && p.vd = v).length
  if (tail - x.smphead).toNat = 2 ^ n then s.dropSample v else
  let a := 4096 * bits x.smpbase.toNat 47 12 + 32 * (tail.toNat % 2 ^ n)
  s.post [{ vd := v, dest := .guest a, bytes := bs, tail := true }]

/-- The 32 bytes of a record (R260, R262, R263). -/
def sampleBytes (clock pc : Nat) (v die g q slot reason : Nat) (flag : Bool) (rwc blk last : Nat) : List Byte :=
  leBytes 8 clock ++ leBytes 8 pc ++
  leBytes 4 (v + 1024 * die + 32768 * (g % 16) + 524288 * q + 2097152 * slot + 33554432 * reason + (if flag then 2 ^ 31 else 0)) ++
  leBytes 4 rwc ++ leBytes 4 blk ++ leBytes 4 last

/-- `MARK` (R263, R329). -/
def mark (x : Option (BitVec 24)) (a i : BitVec 8) (c : Ctx) : Res :=
  guarded c [sOp a 1] <|
    if !bit (c.s.vd c.vd).smpcfg.toNat 0 || c.replaying then .done c.s else
    let q := c.w.wi % 4
    let s := c.s.setVd c.vd fun v => { v with smpSeq := put v.smpSeq (4 * c.g + q) (look v.smpSeq (4 * c.g + q) 0 + 1) }
    .done (s.sampleRecord c.vd (sampleBytes (s.vclock c.vd) (bits c.pc.toNat 47 0) c.vd c.die c.g q c.x.slot 14 false
      c.x.rwc.toNat (c.x.sf a.toNat + immOf x false i).toNat
      (look (c.s.vd c.vd).smpSeq (4 * c.g + q) 0)))

def execMark (x : Option (BitVec 24)) (a i : BitVec 8) (s : State) := runInstr s (mark x a i)

end Sys2Proof.Machine
end

