-- ==== Sys2Proof/Machine/Fabric.lean ====
section
/-!
DEFINITION. Remote operations (R380–R385) with the checks of R96, planes (R90), and the sending of requests (R97, R101).
-/
namespace Sys2Proof.Machine

-- ## Planes and sending

/-- The exclusive or of 4-bit groups from bit 7 up to bit 47 (R90). -/
def planeOf (fa : Nat) : Nat :=
  (List.range 11).foldl (fun p i => p ^^^ bits fa (min 47 (10 + 4 * i)) (7 + 4 * i)) 0

/-- The port that carries a plane; none when it has no path (R101). -/
def State.carrierOf (s : State) (p : Nat) : Option Nat :=
  let c := look s.fabric.carrier p p
  if c < 16 then some c else none

/-- Units outstanding on an entry of a VD's capability table (R97), those of an aborted kernel's requests among them. -/
def State.unitsOut (s : State) (v cap : Nat) : Nat :=
  let mine := fun (a : Access) => a.vd = v && a.cap = cap && a.sent = 1
  (s.allAccesses.filter fun a => mine a.2).length + (s.fabric.orphans.filter fun a => mine a.2).length

/-- Kinds of remote operation: 0 RLD, 1 RST, 2 RATOM, 3 RVADD, 4 RWSIG, 5 RRED. -/
def Access.remoteKind (a : Access) : Option Nat := match a.kind with | .remote k _ => some k | _ => none

/-- The line and byte mask that a remote request carries; an `RVADD`'s mask is that of its lanes (R384). -/
def Access.payload (a : Access) : LineData × ByteMask := (a.lineBytes 0#1024, a.lineMask)

/-- The packet of a remote access, from its capability's entry as it stands (R91): an `RATOM` carries its members, the others their
line. Its port is named when it is sent. -/
def State.request (s : State) (k : Nat) (a : Access) : OutReq :=
  let e := s.cap a.vd a.cap
  let t := match a.kind with | .remote _ t => t | _ => 0
  { kind := k, plane := a.plane, port := a.plane, srcModule := s.fabric.module, srcVd := a.vd
    op := ((a.ops.headD (0, 0)).2), module := bits e 11 0, vd := bits e 21 12, group := if k = 5 then bits e 63 48 else 0
    fa := if k = 2 then (a.lanes.headD (0, 0)).2 else a.fa, sig := if k = 4 then bits e 127 64 + bits e 255 192 else 0
    type := if k = 2 then (if a.width = 8 then 1 else 0) else t
    data := if k = 0 || k = 2 then 0#1024 else a.payload.1, mask := if k = 0 || k = 2 then 0#128 else a.payload.2
    members := if k = 2 then a.ops.map fun o => (o.2, ((a.args.find? fun g => g.1 = o.1).getD (0, 0, 0)).2.1) else []
    nr := a.dst.isNone }

/-- An access's packet as it goes out now, on the port that carries its plane. -/
def State.fabricPacket (s : State) (a : Access) : Option OutReq :=
  a.req.map fun q => { q with port := (s.carrierOf a.plane).getD a.plane }

/-- An access once its packet goes out: its timers start (R62, R98), and it takes its place in the order of sending, which it keeps
(R100). -/
def Access.sending (a : Access) (now n : Nat) : Access :=
  { a with sent := 1, time := now, timer := now, order := if a.order = 0 then n else a.order }

/-- Puts an access's packet on the fabric. -/
def State.transmit (s : State) (w : WarpRef) (a : Access) : State :=
  match s.fabricPacket a with
  | none => s
  | some q =>
    (({ s with nextId := s.nextId + 1 }).emit (.fabric q)).setAccess w a.id fun a => a.sending s.now s.nextId

/-- Two packets go to one peer: one endpoint, or one reduction group (R93, R95). -/
def OutReq.samePeer (q o : OutReq) : Bool :=
  if q.kind = 5 || o.kind = 5 then q.kind = 5 && o.kind = 5 && q.group = o.group else q.module = o.module && q.vd = o.vd

/-- An earlier request is still unsent that must go first: one on the same entry (R97), or the same warp's for the same line of the same
peer, under whatever entry (R92). -/
def State.unsentBefore (s : State) (w : WarpRef) (a : Access) : Bool :=
  let peers := fun (b : Access) => b.req.any fun q => a.req.any q.samePeer
  s.allAccesses.any fun b => b.2.sent = 0 && b.2.remoteKind.isSome && b.2.id < a.id && b.2.vd = a.vd &&
    (b.2.cap = a.cap || (b.1 = w && b.2.fa / 128 = a.fa / 128 && peers b.2))

/-- An unsent request may go now: its port is up and no restore stops its plane (R100, R101), none before it is unsent, and its
allowance has a unit left (R97). -/
def State.maySend (s : State) (w : WarpRef) (a : Access) (p : Nat) : Bool :=
  (look s.fabric.ports p {}).state = 2 && !(look s.fabric.ports a.plane {}).restoring && !s.unsentBefore w a &&
  s.unitsOut a.vd a.cap < bits (s.cap a.vd a.cap) 47 32

/-- Sends a request of a warp if it may go (R97, R100); without a path it ends with `LINK_TIMEOUT` (R101). -/
def State.trySend (s : State) (w : WarpRef) (a : Access) : State :=
  if a.remoteKind.isNone || a.sent != 0 then s else
  match s.carrierOf a.plane with
  | none => s.complete w a [] (some (0x17, 0#32))
  | some p => if s.maySend w a p then s.transmit w a else s

/-- An unsent request would not stay so. -/
def State.unstuck (s : State) (w : WarpRef) (a : Access) : Bool :=
  a.remoteKind.isSome && a.sent = 0 && match s.carrierOf a.plane with | none => true | some p => s.maySend w a p

/-- Sends whatever can be sent, oldest first. -/
def State.sendAll (s : State) : State :=
  (sortBy (fun a : WarpRef × Access => a.2.id) (s.allAccesses.filter fun a => a.2.sent = 0 && a.2.remoteKind.isSome)).foldl
    (fun s a => s.trySend a.1 a.2) s

-- ## Checks (R96, R381)

/-- The permission bit of an operation (R95). -/
def permBit (k : Nat) : Nat := if k = 0 then 22 else if k = 1 then 23 else if k = 2 then 24 else if k = 3 then 25 else if k = 4 then 27 else 26

/-- The checks of R96 on one peer group: lanes with their offsets, access size. -/
def Ctx.capBad (c : Ctx) (k i size : Nat) (offs : List Nat) : Option FaultInfo :=
  let e := c.s.cap c.vd i
  let perm := some { code := 0x07, einfo := BitVec.ofNat 32 (7 + 4096 * i) : FaultInfo }
  if 4096 ≤ i || !bit e 31 then some { code := 0x0B, einfo := BitVec.ofNat 32 i }
  else if bits e 47 32 = 0 then some { code := 0x0C, einfo := BitVec.ofNat 32 i }
  else if !bit e (permBit k) then perm
  else if offs.any (fun o => bits e 191 128 < o + size) then perm
  else if k = 4 && bits e 191 128 < bits e 255 192 + 8 then perm
  else none

def remoteTypes (k : Nat) : List Nat :=
  if k ≤ 1 then bitTypes else if k = 2 then [0, 1, 9] else if k = 4 then List.range 9 else [2, 4]

/-- The active lanes by capability index, ascending: index and lanes with their offsets. -/
def peerGroups (x : Warp) (a b : BitVec 8) (mask : Mask) : List (Nat × List (Nat × Nat)) :=
  let ls := (lanesOf mask).map fun l => ((x.lane b.toNat l).toNat, l, (x.lane a.toNat l).toNat)
  (sortBy (fun i => i) (dedup (ls.map fun l => l.1))).map fun i => (i, (ls.filter fun l => l.1 = i).map fun l => l.2)

/-- −0.0 in each element: what an inactive lane contributes to `RRED` (R384). -/
def negZero (t : Nat) : Nat := if t = 2 then 0x80000000 else 0x80008000

/-- The requests of a peer group (R382–R384). -/
def groupAccesses (k t n : Nat) (nr : Bool) (d : BitVec 8) (acq : Nat) (c : Ctx) (g : Nat × List (Nat × Nat)) : List Access :=
  let e := c.s.cap c.vd g.1
  let base := bits e 127 64
  let size := 4 * n
  let val := fun (l : Nat) => c.x.groupN d.toNat n l
  let mk := fun (fa : Nat) (lanes : List (Nat × Nat)) (args : List (Nat × Nat × Nat)) =>
    { id := 0, kind := .remote k t, line := none, lanes, width := size, pc := 0#64, frag := 0, instr := 0, args
      dst := if k = 0 || (k = 2 && !nr) then some (d.toNat, false) else none
      cap := g.1, fa := fa / 128 * 128, plane := planeOf fa, acq := acq : Access }
  let lanes := g.2.map fun l => (l.1, (base + l.2) % 2 ^ 64)
  if k ≤ 1 then
    (byLine lanes).map fun f => mk (128 * f.1) f.2 (if k = 1 then f.2.map fun l => (l.1, val l.1, 0) else [])
  else if k = 2 then
    (farRequests 0 t (fun _ => 0) lanes).map fun r => mk (r.headD (0, 0)).2 r (r.map fun l => (l.1, val l.1, 0))
  else
    let fa := (lanes.headD (0, 0)).2
    let on := (lanes.map fun l => l.1)
    if k = 5 then
      [mk fa ((List.range 32).map fun l => (l, fa + 4 * l))
        ((List.range 32).map fun l => (l, if on.contains l then val l else negZero t, 0))]
    else [mk fa (on.map fun l => (l, fa + 4 * l)) (on.map fun l => (l, val l, 0))]

/-- The requests of an instruction take their op ids (R56), and their packets are made of the capability entries as they stand (R91). -/
def tagOps (c : Ctx) : State → List Access → State × List Access
  | s, [] => (s, [])
  | s, a :: as =>
    let (s, ids) := State.opIds (.cluster c.g) s (if a.remoteKind = some 2 then a.lanes.map fun l => l.1 else [0])
    let (s, as) := tagOps c s as
    let a := { a with ops := ids, vd := c.vd }
    (s, { a with req := a.remoteKind.map fun k => s.request k a } :: as)

/-- A remote instruction (R380, R381). -/
def remote (k : Nat) (o : Option OPfx) (p : Option VPfx) (d a b : BitVec 8) (c : Ctx) : Res :=
  let e := effOf c.x c.f.mask p
  let n := typeRegs e.type
  let nr := nrOf o
  let dOp := if k = 0 then vDst n d else if k = 2 then { vDst n d with reads := true, writes := !nr }
    else { vOp n d 0 with code := 0 }
  let os := [dOp, vOp 1 a 1, vOp 1 b 2]
  Res.inLanes e.mask <|
  match typeBad p e (remoteTypes k) with
  | some i => .fault i
  | none => checkRange c (os ++ gpOp p) <| checkReady (cls := some (if k = 0 || (k = 2 && !nr) then 0 else 1)) c (os ++ gpRead c.x p) <|
    c.ordered fun c =>
    let gs := peerGroups c.x a b e.mask
    let size := if k ≤ 2 then 4 * n else 128
    let offs := fun (g : Nat × List (Nat × Nat)) =>
      if k ≤ 2 then g.2.map fun l => l.2 else (g.2.take 1).map fun l => l.2
    match gs.findSome? fun g => c.capBad k g.1 size (offs g) with
    | some i => .fault i
    | none =>
      let bad := maskOf (gs.flatMap fun g => ((if k ≤ 2 then g.2 else g.2.take 1).filter fun l =>
        l.2 % (if k ≤ 2 then 4 * n else 128) != 0).map fun l => l.1)
      if bad != 0#32 then .fault { code := 0x05, einfo := bad } else
      c.releasing o 2 fun c =>
      let s := if k = 0 || (k = 2 && !nr) then c.s.setWarp c.w fun x => x.zeroLanes d.toNat n e else c.s
      let as := gs.map (groupAccesses k e.type n nr d (acqOf o 2) c)
      if c.replaying then (if k = 0 || (k = 2 && !nr) then { c with s := s }.serve as.flatten else .done s) else
      let (s, flat) := if k = 0 || (k = 2 && !nr) then c.logged s as.flatten else (s, as.flatten)
      let (s, flat) := tagOps c s flat
      let as := as.foldl (fun (r : List (List Access) × List Access) g => (r.1 ++ [r.2.take g.length], r.2.drop g.length)) ([], flat)
      match c.issueGroups s (if k = 0 || (k = 2 && !nr) then 0 else 1) (if k = 0 then .none else .store) as.1 with
      | .done s => .done s.sendAll
      | r => r

def execRld (o : Option OPfx) (p : Option VPfx) (d a b : BitVec 8) (s : State) := runInstr s (remote 0 o p d a b)
def execRst (o : Option OPfx) (p : Option VPfx) (d a b : BitVec 8) (s : State) := runInstr s (remote 1 o p d a b)
def execRatom (o : Option OPfx) (p : Option VPfx) (d a b : BitVec 8) (s : State) := runInstr s (remote 2 o p d a b)
def execRvadd (o : Option OPfx) (p : Option VPfx) (d a b : BitVec 8) (s : State) := runInstr s (remote 3 o p d a b)
def execRwsig (o : Option OPfx) (p : Option VPfx) (d a b : BitVec 8) (s : State) := runInstr s (remote 4 o p d a b)
def execRred (o : Option OPfx) (p : Option VPfx) (d a b : BitVec 8) (s : State) := runInstr s (remote 5 o p d a b)

/-- A packet went to the peer of a capability's entry: its (`MODULE`, `PEERVD`), or, where those are ignored, its reduction group (R95,
log 59). -/
def toPeer (e : Nat) (q : OutReq) : Bool :=
  if bit e 26 then q.kind = 5 && q.group = bits e 63 48
  else q.kind != 5 && q.module = bits e 11 0 && q.vd = bits e 21 12

/-- `RFENCE` (R385): waits until no remote operation of the warp to the entry's peer is outstanding; of the errors it
delivers `LINK_TIMEOUT` only (R98). -/
def rfence (a : BitVec 8) (c : Ctx) : Res :=
  guarded c [sOp a 1] <|
    let i := (c.x.sf a.toNat).toNat
    let e := c.s.cap c.vd i
    if 4096 ≤ i || !bit e 31 then .fault { code := 0x0B, einfo := BitVec.ofNat 32 i }
    else if c.x.accesses.any fun a => a.remoteKind.isSome && a.req.any (toPeer e) then .hold .counter
    else if (c.x.counter 1).err.any fun e => e.code = 0x17 then takeErr c [1] (.done c.s) else .done c.s

def execRfence (a : BitVec 8) (s : State) := runInstr s (rfence a)

end Sys2Proof.Machine
end

