-- ==== Sys2Proof/Machine/Fetch.lean ====
section
/-!
DEFINITION. Instruction fetch (R206, R286 check 1, R265).
-/
namespace Sys2Proof.Machine

/-- What fetching a word comes to. -/
inductive Fetched where
  | word (w : Word)
  /-- The line is not in the instruction cache (R410). -/
  | miss (line : Nat) (pc : DWord)
  | fault (i : FaultInfo)
  /-- A watch of this number stops it. -/
  | stop (k : Nat)
  | park (r : FRecord)
  /-- The table walk for its address goes on. -/
  | busy (pc : DWord)
  deriving DecidableEq, Repr

/-- Word `k` of a line. -/
def lineWord (d : LineData) (k : Nat) : Word := d.extractLsb' (32 * k) 32

/-- Fetches the word at `pc` for the issuing warp; what a park or a fault records is its instruction's first word (R271). -/
def Ctx.fetch (c : Ctx) (s : State) (pc : DWord) : State × Fetched :=
  match if c.x.passStop then none else watchHit (s.vd c.vd) 0 pc.toNat 4 with
  | some k => (s, .stop k)
  | none =>
    match s.translate c.place c.vd c.k.asid pc.toNat 3 with
    | (s, .perm e) => (s, .fault { code := 0x07, einfo := BitVec.ofNat 32 e, atype := 3, log2w := 2, va := pc })
    | (s, .replay code s2 _) => (s, .park { c.recBase 3 2 with va := pc, code, stage2 := s2, lanes := c.f.mask })
    | (s, .busy) => (s, .busy pc)
    | (s, .lost) => (s, .fault { code := 0x10, einfo := pc.setWidth 32 })
    | (s, .ok pa) =>
      match find (s.cl c.g).icache (pa / 128) with
      | some d => (s, .word (lineWord d (pa / 4 % 32)))
      | none =>
        if s.isLost (pa / 128) then (s, .fault { code := 0x10, einfo := pc.setWidth 32 })
        else (s, .miss (pa / 128) pc)

/-- What an instruction comes to whose word is not there. -/
def Ctx.noWord (c : Ctx) (s : State) : Fetched → Res
  | .word _ => .done s
  | .miss _ pc => .hold (.fetch pc.toNat)
  | .fault i => .faultIn c s i
  | .stop k => c.stop { code := 0x14, einfo := BitVec.ofNat 32 k }
  | .park r => c.parkOn s [r]
  | .busy pc => .issued { s with held := some (.fetch pc.toNat) }

/-- Fetches `n` consecutive words. -/
def Ctx.fetchN (c : Ctx) : Nat → State → DWord → State × Except Fetched (List Word)
  | 0, s, _ => (s, .ok [])
  | n + 1, s, pc =>
    match c.fetch s pc with
    | (s, .word w) =>
      match c.fetchN n s (pc + 4#64) with
      | (s, .ok ws) => (s, .ok (w :: ws))
      | r => r
    | (s, f) => (s, .error f)

end Sys2Proof.Machine
end

