-- ==== Sys2Proof/Machine/Copy.lean ====
section
/-!
DEFINITION. Engine commands (R211–R216): the range-overlap scoreboard, and the issue of `CPA` (R363, R364) and `TCOPY`
(R366–R370).
-/
namespace Sys2Proof.Machine

-- ## The scoreboard (R213, R214)

def overlap (a b c d : Nat) : Bool := a < d && c < b

/-- Two ranges of one block share something. -/
def SbRange.meets : SbRange → SbRange → Bool
  | .scratch a b, .scratch c d => overlap a b c d
  | .operand a b, .operand c d => overlap a b c d
  | .acc a b, .acc c d => overlap a b c d
  | _, _ => false

/-- What a command's entries record: block, whether it writes, range. A multicast writes in its receivers (R370). -/
def Command.uses (c : Command) : List (Nat × Bool × SbRange) :=
  let multi := match c.kind with | .tcopy d => d.multicast | _ => false
  c.reads.map (fun r => (c.warp.blk, false, r)) ++
  match c.write with
  | none => []
  | some r => (if multi then c.receivers else [c.warp.blk]).map fun b => (b, true, r)

/-- What a step of a block's sequencer will record. -/
def MStep.uses (b : Nat) (m : MStep) : List (Nat × Bool × SbRange) := m.reads.map (fun r => (b, false, r)) ++ [(b, true, m.write)]

def usesConflict (a b : List (Nat × Bool × SbRange)) : Bool :=
  a.any fun x => b.any fun y => x.1 = y.1 && (x.2.1 || y.2.1) && x.2.2.meets y.2.2

/-- Clusters in whose scoreboards a command holds an entry: of a block that is away they stand in its image (R213, R406). -/
def State.sbClusters (s : State) (c : Command) : List Nat :=
  dedup ((c.warp.blk :: c.receivers).filterMap fun b => (s.blk b).bind Block.cluster)

/-- Entries of a cluster's scoreboard in use. -/
def State.sbUsed (s : State) (g : Nat) : Nat := (s.cmds.filter fun c => (s.sbClusters c.2).contains g).length

/-- A step that a sequencer still holds conflicts with the command (R405). -/
def State.seqHolds (s : State) (c : Command) : Bool :=
  (dedup (c.warp.blk :: c.receivers)).any fun b =>
    match s.blk b with
    | none => false
    | some x => x.img.steps.any fun m => usesConflict (m.uses b) c.uses

def CmdKind.isCopy : CmdKind → Bool
  | .tcopy _ => true
  | _ => false
def CmdKind.isCpa : CmdKind → Bool
  | .cpa .. => true
  | _ => false
def CmdKind.isStep : CmdKind → Bool
  | .step _ => true
  | _ => false

/-- Commands of a kind that wait on a cluster. -/
def State.queued (s : State) (g : Nat) (p : CmdKind → Bool) : Nat :=
  (s.cmds.filter fun c => c.2.cluster = g && !c.2.started && p c.2.kind).length

/-- An instruction that cannot go on yet but keeps the state it has made (R368). -/
def holdIn (s : State) (r : Stall) : Res := .parked { s with held := some r }

/-- Queues a command: it takes its scoreboard entries, of which a scoreboard takes one a cycle (R405), and counts in its tag and class
(R213, R215, R216). What holds it is named in the order of R259. -/
def Ctx.enqueue (c : Ctx) (s : State) (cmd : Command) (cls : Nat) : Res :=
  let full := cmd.kind.isCopy && 32 ≤ s.queued c.g CmdKind.isCopy || cmd.kind.isCpa && 64 ≤ s.queued c.g CmdKind.isCpa
  let gs := s.sbClusters cmd
  if cmd.tag.any fun t => 255 ≤ (c.x.counter (4 + t)).count then holdIn s .tag
  else if full || c.x.classFull cls 1 then holdIn s .counter
  else if gs.any (fun g => 32 ≤ s.sbUsed g || (s.cl g).sbAt = some s.now) || s.seqHolds cmd then holdIn s .sb
  else
    let s := gs.foldl (fun s g => s.setCl g fun k => { k with sbAt := some s.now }) s
    let s := { s with nextId := s.nextId + 1, cmds := put s.cmds s.nextId { cmd with order := s.nextId } }
    .done (s.setWarp c.w fun x =>
      let x := x.addClass cls 1
      match cmd.tag with
      | some t => x.addTag t 1
      | none => x)

/-- A new command of the issuing warp. -/
def Ctx.command (c : Ctx) (kind : CmdKind) : Command :=
  { kind, cluster := c.g, warp := c.w, tag := none, pc := c.pc, order := 0 }

/-- A copy's place in the proof log (R269). -/
def Ctx.logOne (c : Ctx) (s : State) : State × Option Nat :=
  if c.b.proof.isNone || c.b.logFull then (s, none) else
  (s.setBlk c.w.blk fun b => { b with log := b.log ++ [{ wi := c.w.wi, vals := [] }] }, some c.b.log.length)

/-- Source bytes of a copy from memory: the log serves them under re-execution (R270), else they take a place in it. -/
def Ctx.logSource (c : Ctx) (s : State) (cmd : Command) : State × Command :=
  match s.popLog c.w with
  | some (vals, s) => (s, { cmd with served := some vals })
  | none =>
    let (s, l) := c.logOne s
    (s, { cmd with log := l })

-- ## CPA (R363, R364)

/-- A lane's count of valid bytes. -/
def cpaCount (p : Option VPfx) (x : Warp) (size l : Nat) : Nat :=
  match p with
  | some q => if q.c = 0 then size else min size (bits (x.lane q.c.toNat l).toNat 5 0)
  | none => size

/-- The count vector's field (R363). -/
def cpaCOp (p : Option VPfx) : List Opnd :=
  match p with
  | some q => if q.c = 0 then [] else [{ k := .v 1, val := q.c.toNat, code := 3 }]
  | none => []

/-- `CPA`. -/
def cpa (p : Option VPfx) (d a : BitVec 8) (size tag : BitVec 3) (bpc : BitVec 2) (c : Ctx) : Res :=
  let e := effOf c.x c.f.mask p
  let n := 4 * 2 ^ size.toNat
  let os := [{ vOp 1 d 0 with code := 0 }, vOp 1 a 1, { k := .sp, val := 0xC0 + 56 + 2 * bpc.toNat, code := 1 }] ++ cpaCOp p
  Res.inLanes e.mask <|
  checkRange c (os ++ gpOp p) <| checkReady (cls := some 2) c (os ++ gpRead c.x p) <| c.ordered fun c =>
    let spad := fun (l : Nat) => (c.x.lane d.toNat l).toNat
    let gadr := fun (l : Nat) => (c.x.spair (0xC0 + 56 + 2 * bpc.toNat) + (c.x.lane a.toNat l).signExtend 64).toNat
    let ls := lanesOf e.mask
    if ls.isEmpty then .done c.s else
    let bad := maskOf (ls.filter fun l => spad l % n != 0 || gadr l % n != 0)
    if bad != 0#32 then .fault { code := 0x05, einfo := bad } else
    let bad := maskOf (ls.filter fun l => 256 * c.k.scratch < spad l + n)
    if bad != 0#32 then .fault { code := 0x09, einfo := bad } else
    let lanes := ls.map fun l => (l, spad l, gadr l, cpaCount p c.x n l)
    let lo := ls.foldl (fun m l => min m (spad l)) (spad (ls.headD 0))
    let hi := ls.foldl (fun m l => max m (spad l)) 0 + n
    let cmd := { c.command (.cpa lanes n []) with tag := some tag.toNat, write := some (.scratch lo hi) }
    let (s, cmd) := c.logSource (c.noted c.s) cmd
    match c.enqueue s cmd 2 with
    | .parked _ => c.enqueue c.s cmd 2
    | r => r

def execCpa (p : Option VPfx) (d a : BitVec 8) (size tag : BitVec 3) (bpc : BitVec 2) (s : State) :=
  runInstr s (cpa p d a size tag bpc)

-- ## TCOPY (R366–R370)

/-- The number in `n` bytes of a descriptor from byte `k`. -/
def descNat (bs : List Byte) (k n : Nat) : Nat := leNat ((bs.drop k).take n)

/-- A copy descriptor's fields (R367). -/
def copyDesc (bs : List Byte) : CopyDesc :=
  let dkind := descNat bs 49 1
  { skind := descNat bs 48 1, dkind
    src := if descNat bs 48 1 = 0 then descNat bs 0 8 else descNat bs 0 4
    dst := if dkind = 0 then descNat bs 8 8 else if dkind = 3 then 8192 * descNat bs 8 2 + descNat bs 10 4 else descNat bs 8 4
    xb := descNat bs 16 4, yn := descNat bs 20 2, zn := descNat bs 22 2
    srs := sextInt 64 (descNat bs 24 8), sps := sextInt 64 (descNat bs 32 8)
    drs := sextInt 32 (descNat bs 40 4), dps := sextInt 32 (descNat bs 44 4)
    mcast := descNat bs 50 2, bar := descNat bs 52 1, multicast := bit (descNat bs 53 1) 0 }

/-- Reserved bytes of a descriptor hold zero. -/
def descReserved (bs : List Byte) : Bool := descNat bs 53 1 / 2 = 0 && (bs.drop 54).all fun b => b = 0#8

/-- The routes of R367. -/
def CopyDesc.routeOk (d : CopyDesc) : Bool := d.skind ≤ 2 && d.dkind ≤ 3 && !(d.dkind = 1 && d.skind != 0)

/-- The bounding box of a side: lowest address, and the address past the highest. -/
def CopyDesc.box (d : CopyDesc) (base : Nat) (rs ps : Int) : Int × Int :=
  let y := ((d.yn : Int) - 1) * rs
  let z := ((d.zn : Int) - 1) * ps
  (base + min 0 y + min 0 z, base + max 0 y + max 0 z + d.xb)
def CopyDesc.srcBox (d : CopyDesc) : Int × Int := d.box d.src d.srs d.sps
def CopyDesc.dstBox (d : CopyDesc) : Int × Int := d.box d.dst d.drs d.dps

/-- A box lies in [0, n). -/
def boxIn (b : Int × Int) (n : Nat) : Bool := 0 ≤ b.1 && b.2 ≤ n

/-- The first operand slot of a box that is not claimed (R209). -/
def unclaimed (claimed : List Nat) (b : Int × Int) : Option Nat :=
  if b.1 < 0 then some ((b.1 / 8192) % 2 ^ 32).toNat else
  let lo := b.1.toNat / 8192
  let n := (b.2.toNat - 1) / 8192 + 1 - lo
  ((List.range (min n 129)).map (lo + ·)).find? fun k => 0x100 ≤ k || !claimed.contains k

/-- Member `k` of a block's tile (R370), while it has not exited. -/
def State.tileMember (s : State) (b : Block) (k : Kernel) (m : Nat) : Option Nat :=
  let (sx, sy, sz) := k.shifts
  let x := b.x / 2 ^ sx * 2 ^ sx + m % 2 ^ sx
  let y := b.y / 2 ^ sy * 2 ^ sy + m / 2 ^ sx % 2 ^ sy
  let z := b.z / 2 ^ sz * 2 ^ sz + m / 2 ^ (sx + sy)
  if 2 ^ sz ≤ m / 2 ^ (sx + sy) then none else
  (s.blocks.find? fun (o : Nat × Block) =>
    o.2.kernel = b.kernel && o.2.x = x && o.2.y = y && o.2.z = z && o.2.place != .exited).map Prod.fst

/-- The receivers that a descriptor names. -/
def State.members (s : State) (b : Block) (k : Kernel) (d : CopyDesc) : List Nat :=
  if d.multicast then (List.range 16).filterMap fun m => if bit d.mcast m then s.tileMember b k m else none else []

/-- The checks of R368 from the second on: a fault, or the seal state after check 5. -/
def Ctx.copyBad (c : Ctx) (bs : List Byte) (d : CopyDesc) : Except FaultInfo (Option Seal) :=
  let illegal := { code := 0x01, einfo := c.s.base : FaultInfo }
  let size := 256 * c.k.scratch
  if !descReserved bs || !d.routeOk then .error illegal
  else if d.xb = 0 || 2 ^ 24 < d.xb || d.yn = 0 || d.zn = 0 || 2 ^ 32 < d.xb * d.yn * d.zn then .error illegal
  else if d.multicast && d.dkind ≤ 1 then .error illegal
  else if (d.skind = 2 && !boxIn d.srcBox size) || (d.dkind = 2 && !boxIn d.dstBox size) then
    .error { code := 0x09, einfo := 0#32 }
  else match if d.dkind = 3 then unclaimed c.b.img.claimed d.dstBox else none with
  | some k => .error { code := 0x0A, einfo := BitVec.ofNat 32 k }
  | none =>
    let r := c.s.region c.die c.vd
    let inRegion := fun (b : Int × Int) => r.valid && boxIn b (r.size * 2 ^ 20)
    if (d.skind = 1 && !inRegion d.srcBox) || (d.dkind = 1 && !inRegion d.dstBox) then
      .error { code := 0x07, einfo := 6#32 }
    else
      let q := c.s.seal c.die c.vd
      match if d.dkind = 1 then some (q.write c.b.kernel) else if d.skind = 1 then some (q.read c.b.kernel) else none with
      | some (.error x) => .error { code := 0x15, einfo := x }
      | some (.ok q) => .ok (some q)
      | none => .ok none

/-- The command of a descriptor (R368). -/
def Ctx.copyCommand (c : Ctx) (tag : Nat) (d : CopyDesc) : Command :=
  { c.command (.tcopy d) with
    tag := some tag
    receivers := c.s.members c.b c.k d
    reads := if d.skind = 2 then [.scratch d.srcBox.1.toNat d.srcBox.2.toNat] else []
    write := if d.dkind = 2 then some (.scratch d.dstBox.1.toNat d.dstBox.2.toNat)
      else if d.dkind = 3 then some (.operand (d.dstBox.1.toNat / 8192) ((d.dstBox.2.toNat - 1) / 8192 + 1)) else none }

/-- `TCOPY`. -/
def tcopy (t a : BitVec 8) (c : Ctx) : Res :=
  guarded c [sOp a 1] <|
    let off := (c.x.sf a.toNat).toNat
    if 7 < t.toNat then .fault { code := 0x01, einfo := c.s.base }
    else if off % 64 != 0 then .fault { code := 0x05, einfo := 0#32 }
    else if 256 * c.k.scratch < off + 64 then .fault { code := 0x09, einfo := 0#32 }
    else
      let bs := c.b.img.scratch.bytes off 64
      let d := copyDesc bs
      match c.copyBad bs d with
      | .error i => .fault i
      | .ok q => c.ordered fun c =>
        let s := match q with
          | some q => c.s.setDie c.die fun x => { x with seals := put x.seals c.vd q }
          | none => c.s
        let cmd := c.copyCommand t.toNat d
        let (s', cmd') := if d.skind = 2 then (c.noted s, cmd) else c.logSource (c.noted s) cmd
        if c.replaying && d.dkind ≤ 1 then .done s' else
        match c.enqueue s' cmd' 2 with
        | .parked _ => c.enqueue s cmd 2
        | r => r

def execTcopy (d a : BitVec 8) (s : State) := runInstr s (tcopy d a)

end Sys2Proof.Machine
end

