-- ==== Sys2Proof/Machine/Matrix.lean ====
section
/-!
DEFINITION. The matrix and slot instructions (R393–R404) as they issue, and the arithmetic of a step (R244–R248, R399).
-/
namespace Sys2Proof.Machine

-- ## Shape grants and slots (R393–R396)

/-- A requested extent rounded up to 32, 64, 96 or 128 (R393). -/
def roundExtent (n : Nat) : Nat := if n ≤ 32 then 32 else if n ≤ 64 then 64 else if n ≤ 96 then 96 else 128

/-- The granted extents: in power mode 2, N falls until M × N ≤ 8,192 (R25). -/
def grantShape (mode m n : Nat) : Nat × Nat :=
  let (m, n) := (roundExtent m, roundExtent n)
  if mode = 2 && 8192 < m * n then (m, ([128, 96, 64, 32].find? fun k => m * k ≤ 8192).getD 32) else (m, n)

/-- Operand type codes of R393. -/
def grantTypes : List Nat := [3, 4, 7, 12, 13, 14]

/-- Matrix work of a block is outstanding: steps or `MSTORE`s, or steps in its sequencer (R394). -/
def State.matrixBusy (s : State) (b : Nat) (i : Image) : Bool :=
  (s.cmdsOf b).any (fun c => match c.kind with | .step _ | .mstore .. => true | _ => false) || !i.steps.isEmpty

/-- `TSHAPE` (R25, R393, R394). -/
def tshape (d a : BitVec 8) (t : BitVec 4) (c : Ctx) : Res :=
  guarded c [sDst d, sOp a 1] <|
    if !grantTypes.contains t.toNat then .fault { code := 0x04, einfo := t.setWidth 32 }
    else if c.s.matrixBusy c.w.blk c.b.img then .hold .matrix
    else
      let v := (c.x.sf a.toNat).toNat
      let (m, n) := grantShape c.s.power.mode (bits v 7 0) (bits v 15 8)
      let g : Grant := { m, n, type := t.toNat }
      let s := c.s.setImg c.w.blk fun i => { i with grant := some g }
      .done (s.setWarp c.w fun x => x.setSf d.toNat (BitVec.ofNat 32 (m + 256 * n + 65536 * t.toNat)))

def execTshape (d a : BitVec 8) (t : BitVec 4) (s : State) := runInstr s (tshape d a t)

/-- The lowest run of `n` free slots among `count` ids from `base` (R395). -/
def freeRun (claimed : List Nat) (base count n : Nat) : Option Nat :=
  if n = 0 || count < n then none else
  ((List.range (count - n + 1)).map (base + ·)).find? fun i => (List.range n).all fun k => !claimed.contains (i + k)

/-- `SCLAIM` (R209, R395). -/
def sclaim (d a : BitVec 8) (acc : Bool) (c : Ctx) : Res :=
  guarded c [sDst d, sOp a 1] <|
    let n := (c.x.sf a.toNat).toNat
    match freeRun c.b.img.claimed (if acc then 0x100 else 0) (if acc then c.k.aslots else c.k.oslots) n with
    | none => c.writeS d 0xFFFFFFFF#32
    | some i =>
      let s := c.s.setImg c.w.blk fun g => { g with claimed := g.claimed ++ (List.range n).map (i + ·) }
      .done (s.setWarp c.w fun x => x.setSf d.toNat (BitVec.ofNat 32 i))

def execSclaim (d a : BitVec 8) (acc : Bool) (s : State) := runInstr s (sclaim d a acc)

/-- `SREL` (R396). -/
def srel (a b : BitVec 8) (c : Ctx) : Res :=
  guarded c [sOp a 1, sOp b 2] <|
    let i := (c.x.sf a.toNat).toNat
    let n := (c.x.sf b.toNat).toNat
    match ((List.range (min n 273)).map (i + ·)).find? fun k => !c.b.img.claimed.contains k with
    | some k => .fault { code := 0x0A, einfo := BitVec.ofNat 32 k }
    | none =>
      let ids := (List.range n).map (i + ·)
      if ids.any fun k => slotBusy c.s c.w.blk c.b.img k || slotRead c.s c.w.blk c.b.img k ||
          (c.s.cmdsOf c.w.blk).any fun m => m.write.any (SbRange.hasSlot k) then .hold .matrix
      else .done (c.s.setImg c.w.blk fun g => { g with claimed := g.claimed.filter fun k => !ids.contains k })

def execSrel (a b : BitVec 8) (s : State) := runInstr s (srel a b)

-- ## Matrix steps (R398, R400)

/-- A step accepts a grant's type (R393). -/
def stepAccepts (op t : Nat) : Bool :=
  if op = 0xD6 then true else if op = 0xD7 then t = 3 || t = 4 || t = 7 else t = 12 || t = 13 || t = 14

/-- A slot id is claimed and of its kind. -/
def slotOk (claimed : List Nat) (acc : Bool) (id : Nat) : Bool := claimed.contains id && (0x100 ≤ id) == acc

/-- The first slot of a step that is not the block's (R398): destination, A, B, P. -/
def MStep.badSlot (m : MStep) (claimed : List Nat) : Option Nat :=
  let ids := [(m.dst, true)] ++ (if m.op = 0xD6 then [] else [(m.a, false), (m.b, false)]) ++
    (if m.op = 0xD9 then [(m.p, true)] else [])
  (ids.find? fun i => !slotOk claimed i.2 i.1).map Prod.fst

/-- A step's slots from its scalars (R398). -/
def stepOf (op : Nat) (vd va vb : Word) : MStep :=
  { op, dst := bits vd.toNat 15 0, p := bits vd.toNat 31 16, a := bits va.toNat 15 0, b := bits vb.toNat 15 0 }

/-- Steps of a block with an entry that have not started (R218). -/
def State.stepQueue (s : State) (b : Nat) : Nat :=
  (s.cmds.filter fun c => c.2.warp.blk = b && c.2.kind.isStep && !c.2.started).length

/-- `MZERO`, `MMA`, `MMAZ`, `MSCACC` (R398). -/
def matrixStep (op : Nat) (os : List Opnd) (d a b : BitVec 8) (c : Ctx) : Res :=
  guarded c os <|
    let m := stepOf op (c.x.sf d.toNat) (c.x.sf a.toNat) (c.x.sf b.toNat)
    let t := match c.b.img.grant with | some g => g.type | none => 0
    if c.b.img.grant.isNone || !stepAccepts op t then .fault { code := 0x04, einfo := BitVec.ofNat 32 t } else
    match m.badSlot c.b.img.claimed with
    | some id => .fault { code := 0x0A, einfo := BitVec.ofNat 32 id }
    | none =>
      if c.x.classFull 3 1 then .hold .counter
      else if !c.b.img.steps.isEmpty || 8 ≤ c.s.stepQueue c.w.blk then .hold .matrix
      else c.enqueue c.s { c.command (.step m) with reads := m.reads, write := some m.write } 3

def execMzero (d : BitVec 8) (s : State) := runInstr s (matrixStep 0xD6 [sOp d 0] d 0xC0#8 0xC0#8)
def execMma (d a b : BitVec 8) (s : State) := runInstr s (matrixStep 0xD7 [sOp d 0, sOp a 1, sOp b 2] d a b)
def execMmaz (d a b : BitVec 8) (s : State) := runInstr s (matrixStep 0xD8 [sOp d 0, sOp a 1, sOp b 2] d a b)
def execMscacc (d a b : BitVec 8) (s : State) := runInstr s (matrixStep 0xD9 [sOp d 0, sOp a 1, sOp b 2] d a b)

-- ## MLOOP (R404)

/-- A body word's step with its operand fields, when it is a legal matrix step. -/
def bodyStep (w : Word) : Option (Nat × List Opnd × BitVec 8 × BitVec 8 × BitVec 8) :=
  match decodeBase [] w with
  | .ok (.mzero d) _ => some (0xD6, [sOp d 0], d, 0xC0#8, 0xC0#8)
  | .ok (.mma d a b) _ => some (0xD7, [sOp d 0, sOp a 1, sOp b 2], d, a, b)
  | .ok (.mmaz d a b) _ => some (0xD8, [sOp d 0, sOp a 1, sOp b 2], d, a, b)
  | .ok (.mscacc d a b) _ => some (0xD9, [sOp d 0, sOp a 1, sOp b 2], d, a, b)
  | _ => none

/-- The steps that a fetched body stands for, with the checks of R404 in order. -/
def loopBody (c : Ctx) (ws : List Word) : Except FaultInfo (List MStep × List Opnd) :=
  match ws.find? fun w => (bodyStep w).isNone with
  | some w => .error { code := 0x01, einfo := w }
  | none =>
    let bs := ws.filterMap bodyStep
    let t := match c.b.img.grant with | some g => g.type | none => 0
    if c.b.img.grant.isNone || bs.any fun b => !stepAccepts b.1 t then .error { code := 0x04, einfo := BitVec.ofNat 32 t }
    else .ok (bs.map fun b => stepOf b.1 (c.x.sf b.2.2.1.toNat) (c.x.sf b.2.2.2.1.toNat) (c.x.sf b.2.2.2.2.toNat),
      bs.flatMap fun b => b.2.1)

/-- `MLOOP`. -/
def mloop (n : BitVec 2) (a b : BitVec 8) (c : Ctx) : Res :=
  guarded c [sOp a 1, sOp b 2] <|
    match c.fetchN (n.toNat + 1) c.s c.nextPc with
    | (s, .error f) => c.noWord s f
    | (s, .ok ws) =>
      match loopBody c ws with
      | .error i => .fault i
      | .ok (body, os) =>
        checked c os <|
          let inc := (c.x.sf b.toNat).toNat
          let q : Sequencer :=
            { body, count := bits (c.x.sf a.toNat).toNat 15 0, warp := c.w, pc := c.pc
              inc := (sextInt 8 (bits inc 7 0), sextInt 8 (bits inc 15 8), sextInt 8 (bits inc 23 16)) }
          match q.rest.findSome? fun m => m.badSlot c.b.img.claimed with
          | some id => .fault { code := 0x0A, einfo := BitVec.ofNat 32 id }
          | none =>
            let next := c.nextPc + BitVec.ofNat 64 (4 * (n.toNat + 1))
            if q.count != 0 && c.x.classFull 3 1 then .hold .counter
            else if !c.b.img.steps.isEmpty then .hold .matrix
            else if q.count = 0 then .goto s next false
            else
              let s := s.setImg c.w.blk fun i => { i with seq := some q }
              .goto (s.setWarp c.w fun x => x.addClass 3 1) next false

def execMloop (n : BitVec 2) (a b : BitVec 8) (s : State) := runInstr s (mloop n a b)

-- ## MSTORE (R402, R403)

/-- `MSTORE`; like every command it follows an acquire of the warp (R227, R230). -/
def mstore (d a b : BitVec 8) (c : Ctx) : Res :=
  guarded c [sOp d 0, spOp a 1, sOp b 2] <| c.ordered fun c =>
    let v := (c.x.sf d.toNat).toNat
    let kind := bits v 23 22
    let out := bits v 25 24
    let slot := bits v 15 0
    if bits v 21 19 != 0 || bits v 31 26 != 0 || kind % 2 = 1 || out = 3 then .fault { code := 0x01, einfo := c.s.base } else
    match c.b.img.grant with
    | none => .fault { code := 0x04, einfo := 0#32 }
    | some g =>
      let e := if out = 0 then 4 else 2
      let stride := (c.x.sf b.toNat).toNat
      let addr := if kind = 0 then (c.x.spair a.toNat).toNat else (c.x.sf a.toNat).toNat
      let last := addr + (g.m - 1) * stride + g.n * e
      if g.type = 7 && out != 0 then .fault { code := 0x04, einfo := 7#32 }
      else if !slotOk c.b.img.claimed true slot then .fault { code := 0x0A, einfo := BitVec.ofNat 32 slot }
      else if addr % e != 0 || stride % e != 0 then .fault { code := 0x05, einfo := 0#32 }
      else if kind = 2 && 256 * c.k.scratch < last then .fault { code := 0x09, einfo := 0#32 }
      else if c.replaying && kind = 0 then .done c.s
      else c.enqueue c.s
        { c.command (.mstore slot kind out addr stride) with
          tag := some (bits v 18 16), reads := [.acc slot (slot + 1)]
          write := if kind = 2 then some (.scratch addr last) else none } 3

def execMstore (d a b : BitVec 8) (s : State) := runInstr s (mstore d a b)

-- ## What a step computes (R244–R248, R397, R399)

/-- Byte `k` of an operand slot. -/
def Image.operand (i : Image) (id k : Nat) : Nat := (i.omem.read (8192 * id + k)).toNat

/-- Bytes of a block record (R244). -/
def recBytes (t : Nat) : Nat := if t = 12 then 33 else if t = 13 then 25 else 17

/-- Element `k` of record or row `r` of an operand slot (R244, R397). -/
def Image.elem (i : Image) (t id r k : Nat) : Num :=
  let byte := i.operand id
  let at' := r * recBytes t + 1
  if t = 12 then taperDec 12 (byte (at' + k))
  else if t = 13 then
    let g := at' + 3 * (k / 4)
    taperDec 13 (((byte g + 256 * byte (g + 1) + 65536 * byte (g + 2)) >>> (6 * (k % 4))) % 64)
  else if t = 14 then taperDec 14 ((byte (at' + k / 2) >>> (4 * (k % 2))) % 16)
  else (fmtOf t).dec (byte (64 * r + 2 * k) + 256 * byte (64 * r + 2 * k + 1))

/-- The exact products of row `r` of A and column `c` of B. -/
def Image.products (i : Image) (t a b r c : Nat) : List Num :=
  (List.range 32).map fun k => (i.elem t a r k).mul (i.elem t b c k)

/-- The scale of `MSCACC` (R247): a scale byte of 255 gives NaN. -/
def Image.scaled (i : Image) (t a b r c : Nat) (p : Num) : Num :=
  let sa := i.operand a (r * recBytes t)
  let sb := i.operand b (c * recBytes t)
  if sa = 255 || sb = 255 then .nan else p.scale ((sa : Int) - 127 + (sb : Int) - 127)

/-- One element of a step's result (R399); an `MMAZ` sum of zero is +0 (R245). -/
def Image.result (i : Image) (g : Grant) (m : MStep) (r c : Nat) : Word :=
  let old := fun (slot : Nat) => (i.acc slot (r * g.n + c)).toNat
  BitVec.ofNat 32 <|
  if m.op = 0xD8 then f32.rne (sumNum 0 (.fin false 0 0 :: i.products g.type m.a m.b r c))
  else if m.op = 0xD9 then f32.rne (sumNum 0 [f32.dec (old m.dst), i.scaled g.type m.a m.b r c (f32.dec (old m.p))])
  else if g.type = 7 then
    wrap 32 ((old m.dst : Int) + ((List.range 32).map fun k =>
      sextInt 8 (i.operand m.a (32 * r + k)) * sextInt 8 (i.operand m.b (32 * c + k))).sum)
  else f32.rne (sumNum 0 (f32.dec (old m.dst) :: i.products g.type m.a m.b r c))

/-- The accumulators after a step (R399). -/
def Image.step (i : Image) (m : MStep) : Image :=
  if m.op = 0xD6 then { i with amem := i.amem.filter fun e => e.1 / 16384 != m.dst } else
  match i.grant with
  | none => i
  | some g => (List.range (g.m * g.n)).foldl (fun j k => j.setAcc m.dst k (i.result g m (k / g.n) (k % g.n))) i

end Sys2Proof.Machine
end

