-- ==== Sys2Proof/Machine/Router.lean ====
section
/-!
DEFINITION. The package network (R9–R18): routers, links, free positions, injection and movement.
-/
namespace Sys2Proof.Machine

-- ## Topology (R9–R11)

/-- Draws `n` elements of a list without putting one back, the k-th by the number `draw k`. -/
def drawn {α : Type} (draw : Nat → Nat) : Nat → List α → List α
  | 0, _ => []
  | n + 1, l =>
    match l[draw n % l.length]? with
    | some x => x :: drawn draw n (l.eraseIdx (draw n % l.length))
    | none => []

/-- The places of a mesh of `w` columns that do not attach to the spoke. -/
def innerPlaces (w : Nat) : List (Nat × Nat) := (List.range 4).flatMap fun y => (List.range w).map fun x => (x, y + 1)

/-- Where a die's agents stand (R11: each of these routers serves exactly one): a compute die's 16 clusters and then its 16 L2
slices, a memory die's 16 slices. Which router serves which is the model's free choice (log 7). -/
def meshPlaces (die w : Nat) : List (Nat × Nat) := drawn (Config.meshDraw die) (4 * w) (innerPlaces w)

/-- The place of a die's agent `k`. -/
def meshPlace (die w k : Nat) : Nat × Nat := ((meshPlaces die w)[k]?).getD (0, 1)

/-- The router that serves an endpoint (R11); the platen's endpoints sit at their sectors (R9). A memory die's mirror table is
reached at the router of the die's slice 16m, which R11 leaves open (log 7). -/
def routerOf : Endpoint → Router
  | .cluster g => let p := meshPlace (g / 16) 8 (g % 16); .compute (g / 16) p.1 p.2
  | .l2 d i => let p := meshPlace d 8 (16 + i % 16); .compute d p.1 p.2
  | .llc i => let p := meshPlace (32 + i / 16) 4 (i % 16); .memory (i / 16) p.1 p.2
  | .mirror m => let p := meshPlace (32 + m) 4 0; .memory m p.1 p.2
  | .arbiter i => .sector i
  | .port p => .sector (p / 2)
  | .expander p => .sector (if p = 0 then 3 else 7)
  | .proxy | .control => .sector 0

/-- The sector of a router's die. -/
def sectorOf : Router → Nat
  | .compute d _ _ => d / 4
  | .memory m _ _ => m / 2
  | .sector i => i

/-- Ring steps between sectors (R18). -/
def ringDist (a b : Nat) : Nat := let d := max a b - min a b; min d (8 - d)

/-- Absolute difference. -/
def gap (a b : Nat) : Nat := max a b - min a b

/-- Steps from a router to its die's spoke and onto the sector, or from the sector down to it. -/
def toSector : Router → Nat
  | .compute _ _ y => y + 1
  | .memory _ _ y => y + 1
  | .sector _ => 0

/-- Routers on an unloaded path. -/
def dist (a b : Router) : Nat :=
  match a, b with
  | .compute d x y, .compute e u v => if d = e then gap x u + gap y v else toSector a + ringDist (d / 4) (e / 4) + toSector b
  | .memory d x y, .memory e u v => if d = e then gap x u + gap y v else toSector a + ringDist (d / 2) (e / 2) + toSector b
  | _, _ => toSector a + ringDist (sectorOf a) (sectorOf b) + toSector b

/-- Neighbours in a mesh of `w` columns and 5 rows. -/
def meshNext (w x y : Nat) : List (Nat × Nat) :=
  (if x = 0 then [] else [(x - 1, y)]) ++ (if x + 1 = w then [] else [(x + 1, y)]) ++
  (if y = 0 then [] else [(x, y - 1)]) ++ (if y = 4 then [] else [(x, y + 1)])

-- ## Links (R10, R18)

/-- A link out of a router: to a router, or down the one spoke of a die (compute die d, or 32 + m for memory die m). -/
inductive Link where
  | hop (r : Router)
  | down (die : Nat)
  deriving DecidableEq, Repr

/-- The die of a router: 32 + m for memory die m, none for the platen. -/
def dieOf : Router → Option Nat
  | .compute d _ _ => some d
  | .memory m _ _ => some (32 + m)
  | .sector _ => none

/-- Flits that a die's spoke takes down in network cycle `c` (R10): 6 TB/s are 125 flits of 80 bytes in 4 cycles of 2.4 GHz, 12 TB/s
125 in 2 cycles. In which cycle a spoke carries the odd flit is the model's choice, staggered over a sector's dies (log 7). -/
def spokeDown (die c : Nat) : Nat :=
  if die < 32 then 31 + (if (c + die) % 4 = 0 then 1 else 0) else 62 + (if (c + die) % 2 = 0 then 1 else 0)

/-- Flits that the spoke takes up in a cycle: as many as came down it 26 cycles before and reach the die now. -/
def spokeUp (die c : Nat) : Nat := spokeDown die (c + 2)

/-- Network cycles from a router to the next: the spoke 24 after 1 in the attach router and 2 in the crossbar, a step of the ring 12
after 2 in the crossbar, as R18's table and the example before it need; a hop of a mesh 1, which no rule gives and the model chooses
(log 7). -/
def linkTime : Router → Router → Nat
  | .sector _, .sector _ => 14
  | .sector _, _ => 26
  | _, .sector _ => 25
  | _, _ => 1

/-- The attach router of a die in column `x`. -/
def attach (die x : Nat) : Router := if die < 32 then .compute die x 0 else .memory (die - 32) x 0

/-- Columns of a die's mesh. -/
def columns (die : Nat) : Nat := if die < 32 then 8 else 4

/-- The column of a router on a die. -/
def columnOf : Router → Nat
  | .compute _ x _ | .memory _ x _ => x
  | .sector _ => 0

/-- Where a link leads a flit: down a spoke to the attach router in its destination's column, on a bounce to the one that it came
from, else to column 0 (log 7). -/
def landing (dst : Router) (came : Option Router) : Link → Router
  | .hop r => r
  | .down k =>
    if dieOf dst = some k then attach k (columnOf dst)
    else match came with
      | some c => if dieOf c = some k then attach k (columnOf c) else attach k 0
      | none => attach k 0

/-- A link shortens the path to `dst`; at ring distance 4 only the ascending direction does (R18). -/
def productive (r dst : Router) (l : Link) : Bool :=
  let out := landing dst none l
  dist out dst < dist r dst &&
  match r, out with
  | .sector i, .sector j => !(ringDist i (sectorOf dst) = 4 && j != (i + 1) % 8)
  | .compute .., .sector _ | .memory .., .sector _ => sectorOf r != sectorOf dst || dist r dst = toSector r + toSector dst
  | _, _ => true

-- ## Ages (R12, R13)

/-- The network time base. -/
def State.cycle (s : State) : Nat := s.now / 15

/-- The die of an endpoint as it orders equal ages: compute dies 0–31, then memory die m as 32 + m, then the platen as 48. R13 says
"source die, lower first" and gives dies of different kinds no common numbers, so this order is the model's choice (log 7). -/
def endpointDie : Endpoint → Nat
  | .cluster g => g / 16
  | .l2 d _ => d
  | .llc i => 32 + i / 16
  | .mirror m => 32 + m
  | .arbiter _ | .proxy | .port _ | .expander _ | .control => 48

/-- The rank of a flit: older first, then source die, then source endpoint (R13). -/
def State.rank (s : State) (f : Flit) : Nat :=
  let e := match find s.net.msgs f.msg with | some m => m.src | none => .proxy
  let elapsed := (s.cycle % 2 ^ 48 + 2 ^ 48 - f.age) % 2 ^ 48
  ((2 ^ 48 - 1 - elapsed) * 64 + endpointDie e) * 2 ^ 32 + Config.endpointNumber (endpointIndex e) % 2 ^ 32

/-- Where a flit is going. -/
def State.goal (s : State) (f : Flit) : Endpoint :=
  match find s.net.msgs f.msg with
  | some m => m.dst
  | none => .proxy

/-- The flits that have reached a router and leave it in this cycle, oldest first. -/
def State.flitsAt (s : State) (r : Router) : List Flit :=
  sortBy s.rank ((s.net.flying.filter fun p => p.2 = r && p.1.ready ≤ s.cycle).map Prod.fst)

-- ## Free positions (R10, R13)

/-- The links of a router's mesh. That each carries one flit in a network cycle is the model's choice: no rule gives a mesh link's
width (log 7). -/
def meshLinks : Router → List (Link × Nat)
  | .compute d x y => (meshNext 8 x y).map fun p => (.hop (.compute d p.1 p.2), 1)
  | .memory m x y => (meshNext 4 x y).map fun p => (.hop (.memory m p.1 p.2), 1)
  | .sector _ => []

/-- Positions of a die's spoke that attach router `r` may still fill in this cycle: those that the other attach routers have not
filled, less those that they need so as to hold no flit (R13). How the attach routers share the one spoke is the model's choice
(log 7). -/
def State.spokeRoom (s : State) (die : Nat) (r : Router) : Nat :=
  let used := (s.net.flying.filter fun p => p.1.ready = s.cycle + 25 && p.1.came.any fun c => dieOf c = some die).length
  let needs := ((List.range (columns die)).map fun x =>
    if attach die x = r then 0 else (s.flitsAt (attach die x)).length - (meshLinks (attach die x)).length).sum
  spokeUp die s.cycle - used - needs

/-- The spokes of a sector, by die. -/
def spokesOf (i : Nat) : List Nat := (List.range 4).map (fun k => 4 * i + k) ++ (List.range 2).map fun k => 32 + 2 * i + k

/-- The outputs of a router with the flits that each may take in this cycle. -/
def State.outputs (s : State) (r : Router) : List (Link × Nat) :=
  match r with
  | .sector i =>
    [(.hop (.sector ((i + 1) % 8)), Config.ringWidth + 1), (.hop (.sector ((i + 7) % 8)), Config.ringWidth + 1)] ++
    (spokesOf i).map fun d => (.down d, spokeDown d s.cycle)
  | .compute d _ y => meshLinks r ++ if y = 0 then [(.hop (.sector (d / 4)), s.spokeRoom d r)] else []
  | .memory m _ y => meshLinks r ++ if y = 0 then [(.hop (.sector (m / 2)), s.spokeRoom (32 + m) r)] else []

/-- The flits that a router can send on in this cycle. -/
def State.outputRoom (s : State) (r : Router) : Nat := ((s.outputs r).map Prod.snd).sum

-- ## Injection (R14)

/-- `FLIT_INJECTION`: an endpoint's first waiting flit enters its router, if an output is free for it beside the flits that leave in
this cycle. -/
def flitInjection (s : State) : Option State :=
  match s.focus with
  | .endpoint e =>
    let r := routerOf e
    let mine := s.net.waiting.find? fun f => (find s.net.msgs f.msg).any fun m => m.src = e
    match mine with
    | none => none
    | some f =>
      if s.outputRoom r ≤ (s.flitsAt r).length then none else
      some { s with net := { s.net with
        waiting := s.net.waiting.erase f
        flying := s.net.flying ++ [({ f with age := s.cycle % 2 ^ 48, ready := s.cycle }, r)] } }
  | _ => none

def execFlitInjection (s : State) := runDevice s flitInjection

-- ## Movement (R13, R16)

/-- Takes one position on a link. -/
def takeOut (o : Link) (outs : List (Link × Nat)) : List (Link × Nat) :=
  modFirst (fun p => p.1 = o) (fun p => (p.1, p.2 - 1)) outs

/-- The link that a flit takes among those with a free position: a productive one, the spoke it came on or its direction of travel
at a sector (R16), else any, the first. None is the case of a router with more flits than outputs, which R13 rules out. -/
def chooseOut (r : Router) (dst : Router) (came : Option Router) (outs : List (Link × Nat)) : Option Link :=
  let free := (outs.filter fun p => 0 < p.2).map Prod.fst
  match free.find? fun o => productive r dst o with
  | some o => some o
  | none =>
    let back := match r, came with
      | .sector i, some (.sector j) => some (Link.hop (.sector ((2 * i + 8 - j) % 8)))
      | .sector _, some c => (dieOf c).map Link.down
      | _, _ => none
    match back with
    | some b => if free.contains b then some b else free.head?
    | none => free.head?

/-- Assigns flits to links, oldest first. -/
def assign (s : State) (r : Router) : List (Link × Nat) → List Flit → List (Flit × Router)
  | _, [] => []
  | outs, f :: fs =>
    match chooseOut r (routerOf (s.goal f)) f.came outs with
    | some o =>
      let on := landing (routerOf (s.goal f)) f.came o
      ({ f with came := some r, ready := s.cycle + linkTime r on }, on) :: assign s r (takeOut o outs) fs
    | none => (f, r) :: assign s r outs fs

/-- `FLIT_ARRIVAL`: a router sends on every flit that has reached it. -/
def flitArrival (s : State) : Option State :=
  match s.focus with
  | .router r =>
    let fs := s.flitsAt r
    if fs.isEmpty then none else
    let rest := s.net.flying.filter fun p => !(p.2 = r && p.1.ready ≤ s.cycle)
    some { s with net := { s.net with flying := rest ++ assign s r (s.outputs r) fs } }
  | _ => none

def execFlitArrival (s : State) := runDevice s flitArrival

-- ## Classes and delivered messages (R12)

/-- Message classes (R12): 0 request, 1 forward, 2 response, 3 persistent, 4 data. R12 lists the classes and puts no message into them:
which message has which class is the model's choice (log 7). -/
def MsgKind.cls : MsgKind → Nat
  | .request .. | .atomic .. | .query .. | .kill _ => 0
  | .forward .. => 1
  | .tokens data => if data then 4 else 2
  | .persist .. | .activate .. | .deactivate .. | .done _ => 3
  | .ack .. | .reply .. | .answer .. | .killAck _ => 2

/-- Takes a delivered message out of the network. -/
def State.takeMsg (s : State) (i : Nat) : Option (Msg × State) :=
  if !s.net.inbox.contains i then none else
  (find s.net.msgs i).map fun m =>
    (m, { s with net := { s.net with inbox := s.net.inbox.erase i, msgs := del s.net.msgs i } })

/-- The age of the oldest flit, as elapsed network cycles; what is not injected yet counts from its sending (R52). -/
def State.oldestFlit (s : State) : Nat :=
  (s.net.flying.map fun p => (s.cycle % 2 ^ 48 + 2 ^ 48 - p.1.age) % 2 ^ 48).foldl max 0

end Sys2Proof.Machine
end

