-- ==== Sys2Proof/Machine/Token.lean ====
section
/-!
DEFINITION. Token coherence (R32–R53): requests, the home, holders, persistent requests, evictions.
-/
namespace Sys2Proof.Machine

-- ## Persistent requests in force (R45, R46)

/-- The number of a mirror table: dies, the host proxy, memory dies. -/
def mirrorOf (line : Nat) : Option Holder → Nat
  | some h => (hIdx h)
  | none => if hostLine line then 32 else 33 + mdieOf (128 * line)

/-- The persistent request in force for a line at a mirror table, with its arbiter: the lowest-numbered one. -/
def State.inForce (s : State) (mirror line : Nat) : Option (Nat × PReq) :=
  (List.range 8).findSome? fun a => (find s.coh.mirror (64 * mirror + 8 * a + line % 8)).bind fun q =>
    if q.line = line then some (a, q) else none

-- ## Sending tokens (R35, R36)

/-- A holder handles no request for a line now: its own access is not done, or an ownership buffer holds the line (R41, R42). -/
def State.keeps (s : State) (h : Holder) (line : Nat) : Bool := s.serving (some h) line || s.windowed h line

/-- The home of a line keeps it likewise. -/
def State.homeKeeps (s : State) (line : Nat) : Bool := s.serving none line || (hostLine line && s.buffered line)

/-- Holder `h` sends `n` of its tokens, with the owner token and data when `own`, to an agent. -/
def State.sendHeld (s : State) (h : Holder) (line : Nat) (dst : Endpoint) (n : Nat) (own data : Bool) (v : Nat)
    (evict : Bool := false) : State :=
  let t := s.held' h line
  let s := s.setHeld h line { t with tokens := t.tokens - n, owner := t.owner && !own, dirty := t.dirty && !own }
  s.send { src := (hEnd line h), dst, kind := .tokens data, line, vd := v, inc := t.inc, tokens := n, owner := own
           dirty := own && t.dirty, lost := t.lost && data, evict }

/-- All of a holder's tokens, with data when it has the owner token and either it is dirty or the receiver is not the
home (R35). -/
def State.sendAllHeld (s : State) (h : Holder) (line : Nat) (dst : Endpoint) (v : Nat) : State :=
  let t := s.held' h line
  if t.tokens = 0 then s
  else s.sendHeld h line dst t.tokens t.owner (t.owner && (t.dirty || dst != homeOf line)) v

/-- The home sends `n` of its tokens to a holder; its locator notes the holder (R38, R39). -/
def State.sendHome (s : State) (line : Nat) (tgt : Holder) (n : Nat) (own data : Bool) (v : Nat) : State :=
  let t := s.homeTag line
  let s := s.setHome line { t with tokens := t.tokens - n, owner := t.owner && !own }
  let lost := data && s.isLost line
  let s := if data then s.passOn line else s
  (s.hint line tgt true).send { src := homeOf line, dst := (hEnd line tgt), kind := .tokens data, line, vd := v
                                inc := s.lineInc line, tokens := n, owner := own, lost }

/-- A holder obeys the persistent request in force for a line: all its tokens go to the requester (R46), the proxy's once it
has recalled the line from the host (R49). -/
def State.obey (s : State) (h : Holder) (line : Nat) : State :=
  if s.keeps h line then s else
  match s.inForce (hIdx h) line with
  | some (_, q) =>
    if q.req = h then s
    else if h = .proxy && (find s.cxl.hostLines line).isSome && 0 < (s.held' h line).tokens then
      (if s.recalling line then s else s.backInvalidate line (s.held' h line).ctx .home)
    else s.sendAllHeld h line (hEnd line q.req) (s.held' h line).ctx
  | none => s

/-- A frame is about to take another key id: its homes gather the tokens and answer no transient request (R32, R34; log 77). -/
def State.gathering (s : State) (line : Nat) : Bool := s.hbm.rekeying.contains (line / 32) && !hostLine line

/-- The home obeys likewise; the owner token goes once its data is at hand (R81, R84). -/
def State.obeyHome (s : State) (line : Nat) : State :=
  if s.homeKeeps line then s else
  match s.inForce (mirrorOf line none) line with
  | some (_, q) =>
    let t := s.homeTag line
    if t.tokens = 0 then s
    else if t.owner && !s.ready line then s.readHbm line q.vd
    else (if t.owner then s.fillLlc line q.vd false else s).sendHome line q.req t.tokens t.owner t.owner q.vd
  | none => s

-- ## TRANSIENT_REQUEST (R38, R39)

/-- The home's answer from its own tokens: tokens sent, owner token, data. -/
def homeAnswer (write : Bool) (t : Tag) (alone : Bool) : Nat × Bool × Bool :=
  if write then (t.tokens, t.owner, t.owner)
  else if t.tokens = 64 && alone then (64, true, true)
  else if t.owner && 2 ≤ t.tokens then (1, false, true)
  else if t.owner then (t.tokens, true, true)
  else (0, false, false)

/-- `TRANSIENT_REQUEST`. Whether a locator has an entry for the line (R39) is seen before the home's own answer sets a bit: R39 does
not say it, and the choice is the model's (log 7). -/
def transientRequest (s : State) : Option State :=
  match s.focus with
  | .msg i => (s.takeMsg i).bind fun (m, s') =>
    match m.kind with
    | .request write first req =>
      if m.inc != s.lineInc m.line then some s' else
      if s.gathering m.line || s.homeKeeps m.line then none else
      if (s.inForce (mirrorOf m.line none) m.line).isSome then some s' else
      let t := s.homeTag m.line
      let mask := s.locator m.line
      let alone := match mask with | some k => k = 0 || k = 2 ^ (hIdx req) | none => true
      let (n, own, data) := homeAnswer write t alone
      if data && !s.ready m.line then
        if s.reading m.line then none else some (s.readHbm m.line m.vd)
      else
        let s := if data then s'.fillLlc m.line m.vd false else s'
        let s := if n = 0 then s else s.sendHome m.line req n own data m.vd
        let done := if write then n = 64 else data
        some (if done then s else s.forwards m.line write (if first then some (mask.getD (2 ^ 33 - 1)) else none) (some req) m.vd)
    | _ => none
  | _ => none

def execTransientRequest (s : State) := runDevice s transientRequest

-- ## FORWARDED_REQUEST (R40, R42, R46, R49)

/-- A holder's answer to a forwarded request. -/
def State.answerForward (s : State) (h : Holder) (line : Nat) (write : Bool) (dst : Endpoint) (v : Nat) : State :=
  let t := s.held' h line
  if write then s.sendAllHeld h line dst v
  else if t.owner && 2 ≤ t.tokens then s.sendHeld h line dst 1 false true v
  else if t.owner then s.sendHeld h line dst t.tokens true true v
  else s

/-- Where the tokens for a requester go. -/
def reqEndpoint (line : Nat) : Option Holder → Endpoint
  | some r => (hEnd line r)
  | none => homeOf line

/-- `FORWARDED_REQUEST`. -/
def forwardedRequest (s : State) : Option State :=
  match s.focus with
  | .msg i => (s.takeMsg i).bind fun (m, s') =>
    match m.kind, holderAt m.line m.dst with
    | .forward write req, some h =>
      if s.keeps h m.line then none
      else if (s.inForce (hIdx h) m.line).isSome then some s'
      else
        let t := s.held' h m.line
        let gives := if write then 0 < t.tokens else t.owner
        if h = .proxy && gives && (find s.cxl.hostLines m.line).isSome then
          some (s'.backInvalidate m.line m.vd (.answer write req))
        else some (s'.answerForward h m.line write (reqEndpoint m.line req) m.vd)
    | _, _ => none
  | _ => none

def execForwardedRequest (s : State) := runDevice s forwardedRequest

-- ## HOLDER_EVICTION and LLC_EVICTION (R36)

/-- `HOLDER_EVICTION`: all tokens of a line go home; the proxy recalls the line from the host first (R49). -/
def holderEviction (s : State) : Option State :=
  match s.focus with
  | .held h line =>
    let t := s.held' h line
    if t.tokens = 0 || s.keeps h line then none
    else if h = .proxy && (find s.cxl.hostLines line).isSome then
      if s.recalling line then none else some (s.backInvalidate line t.ctx .home)
    else some (s.sendHeld h line (homeOf line) t.tokens t.owner (t.owner && t.dirty) t.ctx true)
  | _ => none

def execHolderEviction (s : State) := runDevice s holderEviction

/-- `LLC_EVICTION`: token count and owner bit stay in the metadata columns; a written line goes to HBM4E. -/
def llcEviction (s : State) : Option State :=
  match s.focus with
  | .line line => (find s.coh.llc line).map fun _ => s.evictLlc line
  | _ => none

def execLlcEviction (s : State) := runDevice s llcEviction

-- ## TOKEN_ARRIVAL (R41, R46, R50)

/-- The arbiter of a holder's sector (R43). R9 gives the host port's sector and not the proxy's: that the proxy's requests go to arbiter 0
is the model's choice (log 7). -/
def arbiterOf : Holder → Nat
  | .die d => d / 4
  | .proxy => 0

/-- The step that ends a thread's access at its die. -/
def Access.ends (a : Access) : Instr :=
  match a.kind with
  | .load _ | .sload | .pref _ => .loadReturn
  | .near .. => if a.dst.isSome then .loadReturn else .storeAck
  | _ => .storeAck

/-- The steps of a holder that a satisfied request lets run at once, before it handles what it received since (R41): accesses of the
die to the line, stores on their way to its L2, accesses that these held back, and engine writes. -/
def State.users (s : State) (h : Option Holder) (line : Nat) : List (Instr × Focus) :=
  match h with
  | some (.die d) =>
    let accesses := (s.allAccesses.filter fun a => a.2.line = some line && a.2.die = d && !a.2.weight).map
      fun a => (a.2.ends, Focus.access a.1 a.2.id)
    let drains := ((List.range 16).filter fun k => let c := s.cl (16 * d + k)
      c.wcb.any (fun e => e.line = line) || (find c.l1 line).any fun l => l.dirty != 0).map
        fun k => (Instr.wcbDrain, Focus.clusterLine (16 * d + k) line)
    accesses ++ drains ++ drains ++ accesses ++
    (s.cmds.filter fun c => c.2.cluster / 16 = d && c.2.window.any fun w => w.2.1 = line).map
        fun _ => (Instr.engineWriteLanded, Focus.held (.die d) line)
  | some .proxy => []
  | none => ((look s.coh.stations (locSlice line) {}).groups.zipIdx.filter fun g => g.1.line = line && !g.1.applied).map
      fun g => (.groupApply, .group (locSlice line) g.2 true)

/-- The set of a line in a die L2 (R70): slice, and 2,048 sets of 16 ways by bits 21:11 of the address. R70 names no index bits and no
replacement rule: that the least recently used line of a full set leaves is the model's choice too (log 12). -/
def l2Set (line : Nat) : Nat := l2Slice line + 16 * (line / 16 % 2048)

/-- The least recently used of a holder's lines that `p` selects, that it may give up now. -/
def State.lruHeld (s : State) (h : Holder) (p : Nat → Bool) : List (Instr × Focus) :=
  match sortBy (fun e : Nat × Tag => e.2.used)
    ((look s.coh.held (hIdx h) []).filter fun (e : Nat × Tag) => p e.1 && !s.keeps h e.1) with
  | e :: _ => [(.holderEviction, .held h e.1)]
  | [] => []

/-- The line that a die L2 evicts to hold a new one: beyond 16 in a set (R70). -/
def State.overfull (s : State) (h : Holder) (line : Nat) : List (Instr × Focus) :=
  match h with
  | .proxy => []
  | .die _ =>
    if ((look s.coh.held (hIdx h) []).filter fun (e : Nat × Tag) => l2Set e.1 = l2Set line).length ≤ 16 then []
    else s.lruHeld h fun l => l2Set l = l2Set line && l != line

/-- Tokens join a holder's tag. -/
def joinTag (s : State) (m : Msg) (t : Tag) : Tag :=
  let data := match m.kind with | .tokens d => d | _ => false
  { tokens := t.tokens + m.tokens, owner := t.owner || m.owner, valid := t.valid || data, dirty := t.dirty || m.dirty
    lost := t.lost || m.lost, inc := m.inc, ctx := m.vd, used := s.now }

/-- A persistent request whose access is done and that is in force ends: its requester deactivates it (R47). -/
def State.endPersistent (s : State) (h : Holder) (line : Nat) : State :=
  match s.coh.reqs.find? fun r => r.h = some h && r.line = line && r.persistent && r.finished, s.inForce (hIdx h) line with
  | some r, some (_, q) =>
    if q.req != h then s else
    ({ s with coh := { s.coh with reqs := s.coh.reqs.erase r } }).send
      { src := (hEnd line h), dst := .arbiter (arbiterOf h), kind := .done (line % 8), line, vd := r.vd }
  | _, _ => s

/-- Requests of an agent for a line that are now satisfied are served: what they let run comes before all else, and then their end, after
which what the agent received since is handled (R41). An access that another rule still holds back asks anew later (log 68). -/
def State.settleReqs (s : State) (h : Option Holder) (line : Nat) : State :=
  let mine := fun (r : TokReq) => r.h = h && r.line = line && !r.served && s.satisfied h line r.write
  let ended := s.coh.reqs.filter mine
  if ended.isEmpty then s else
  let us := s.users h line ++ dedup (ended.flatMap fun r => r.users)
  let last := (Instr.persistentActivation, match h with | some g => Focus.held g line | none => Focus.line line)
  let reqs := s.coh.reqs.map fun (r : TokReq) => if mine r then { r with served := true } else r
  { s with agenda := us ++ last :: s.agenda, coh := { s.coh with reqs } }

/-- The accesses of an agent's served requests for a line are done: a transient one ends, a persistent one waits to be in force (R41, R47). -/
def State.finishReqs (s : State) (h : Option Holder) (line : Nat) : State :=
  let mine := fun (r : TokReq) => r.h = h && r.line = line && r.served
  let left := (s.coh.reqs.filter fun r => !mine r || r.persistent).map fun (r : TokReq) => if mine r then { r with finished := true } else r
  { s with coh := { s.coh with reqs := left } }

/-- What waits for a line's tokens at the proxy goes on: walks (R146), and writes of the device itself. -/
def State.resume (s : State) (line : Nat) : State :=
  (s.walks.filter fun w => w.line = line).foldl (fun s w => (s.translate w.place w.vd w.asid w.va w.atype).1) (s.resumePosts line)

/-- Data that reaches a die L2 replaces an older copy of the line (R106). -/
def State.freshen (s : State) (h : Holder) (line : Nat) : State :=
  match h with
  | .die d => if hostLine line then { s with cxl := { s.cxl with stale := upd s.cxl.stale d [] fun m => del m line } } else s
  | .proxy => s

/-- `TOKEN_ARRIVAL`. -/
def tokenArrival (s : State) : Option State :=
  match s.focus with
  | .msg i => (s.takeMsg i).bind fun (m, s) =>
    match m.kind with
    | .tokens data =>
      if m.inc != s.lineInc m.line then some s else
      match holderAt m.line m.dst with
      | some h =>
        let s := s.setHeld h m.line (joinTag s m (s.held' h m.line))
        let s := if data then s.freshen h m.line else s
        let s := ({ s with agenda := s.agenda ++ s.overfull h m.line }).settleReqs (some h) m.line
        some ((if h = .proxy then s.resume m.line else s).obey h m.line)
      | none =>
        let home : Tag := returnTag { tokens := m.tokens, owner := m.owner, valid := data, lost := m.lost } (s.homeTag m.line)
        let s := s.setHome m.line { home with inc := m.inc, ctx := m.vd }
        let s := if data && m.dirty then s.fillLlc m.line m.vd true else s
        let s := if m.lost && !hostLine m.line then { s with hbm := { s.hbm with lost := s.hbm.lost ++ [m.line] } } else s
        let s := match holderAt m.line m.src with | some h => if m.evict then s.hint m.line h false else s | none => s
        let s := s.settleReqs none m.line
        let s := if hostLine m.line then s.resume m.line else s
        some (s.obeyHome m.line)
    | _ => none
  | _ => none

def execTokenArrival (s : State) := runDevice s tokenArrival

-- ## REQUEST_REISSUE (R43)

/-- The key incarnation that a reissue carries: the one in force where the frame still belongs to the request's VD, as after a
rekey (R78), else the translation's (R37). -/
def State.reissueInc (s : State) (r : TokReq) : Nat :=
  if !hostLine r.line && (s.tag (128 * r.line)).bound && find s.keySlots (s.tag (128 * r.line)).key = some r.vd
  then s.lineInc r.line else r.inc

/-- `REQUEST_REISSUE`: at 1 µs and 2 µs to the home, at 3 µs to the arbiter. A request of a full proxy is sent when there is room, and
evicts the least recently used line until then (R49). -/
def requestReissue (s : State) : Option State :=
  let set := fun (r : TokReq) (f : TokReq → TokReq) => { s with coh := { s.coh with reqs := modFirst (fun q => q = r) f s.coh.reqs } }
  match s.focus with
  | .held h line => (s.coh.reqs.find? fun r => r.h = some h && r.line = line && !r.persistent && !r.served && !s.satisfied r.h line r.write &&
      (r.issues = 0 || r.time + 1000 * ticksPerNs * r.issues ≤ s.now)).bind fun r =>
    let r' := { r with inc := s.reissueInc r }
    if r.issues = 0 then
      if s.proxyRoom line then
        let r' := { r' with issues := 1, time := s.now }
        some ((set r fun _ => r').issueReq r' true)
      else
        match s.lruHeld h (· ≠ line) with
        | [] => none
        | l => some { s with agenda := s.agenda ++ l }
    else if r.issues < 3 then
      let r' := { r' with issues := r.issues + 1 }
      some ((set r fun _ => r').issueReq r' false)
    else
      some ((set r fun _ => { r' with persistent := true }).send
        { src := (hEnd line h), dst := .arbiter (arbiterOf h), kind := .persist r.write h, line, vd := r.vd, inc := r'.inc })
  | .line line => (s.coh.reqs.find? fun r => r.h.isNone && r.line = line &&
      r.time + 1000 * ticksPerNs * r.issues ≤ s.now).map fun r =>
    (set r fun q => { q with issues := q.issues + 1 }).issueReq r false
  | _ => none

def execRequestReissue (s : State) := runDevice s requestReissue

-- ## Persistent requests (R44–R48)

def State.bank (s : State) (a b : Nat) : Bank := look s.coh.banks (8 * a + b) {}
def State.setBank (s : State) (a b : Nat) (k : Bank) : State := { s with coh := { s.coh with banks := put s.coh.banks (8 * a + b) k } }

/-- Every mirror table's endpoint (R45). -/
def State.mirrors (s : State) (line : Nat) : List Endpoint :=
  ((List.range 32).filter s.dieEnabled).map (fun d => Endpoint.l2 d (l2Slice line)) ++
  (List.range 16).map Endpoint.mirror ++ [.proxy]

/-- The mirror table at an endpoint. -/
def mirrorAt : Endpoint → Nat
  | .l2 d _ => d
  | .mirror m => 33 + m
  | _ => 32

/-- A higher-numbered arbiter has a request for the line active, as the platen's mirror table shows (R48). -/
def State.higherActive (s : State) (a line : Nat) : Bool :=
  (List.range 8).any fun o => a < o && (find s.coh.mirror (64 * 32 + 8 * o + line % 8)).any fun q => q.line = line

/-- Activates the head of a bank's FIFO, if the bank is free and R48 lets it (R45). The active request leaves the FIFO, which then
has room for 64 more: R44 does not say whether it still takes one of the 64 places, and the choice is the model's (log 7). -/
def State.activate (s : State) (a b : Nat) : State :=
  let k := s.bank a b
  match k.active, k.fifo with
  | none, q :: rest =>
    if k.last = some q.line && s.higherActive a q.line then s else
    let tgt := s.mirrors q.line
    let s := s.setBank a b { k with fifo := rest, active := some q, acks := tgt.length, deactivating := false }
    tgt.foldl (fun s e => s.send { src := .arbiter a, dst := e, kind := .activate a b q.write q.req, line := q.line, vd := q.vd }) s
  | _, _ => s

/-- `PERSISTENT_REQUEST`: one that finds the FIFO full is refused at ejection (R44). -/
def persistentRequest (s : State) : Option State :=
  match s.focus with
  | .msg i => (s.takeMsg i).bind fun (m, s) =>
    match m.kind, m.dst with
    | .persist write req, .arbiter a =>
      let b := m.line % 8
      let k := s.bank a b
      if 64 ≤ k.fifo.length then none else
      some ((s.setBank a b { k with fifo := k.fifo ++ [{ line := m.line, req, write, vd := m.vd }] }).activate a b)
    | _, _ => none
  | _ => none

def execPersistentRequest (s : State) := runDevice s persistentRequest

/-- What the request in force for a line makes of the agents at a mirror table's endpoint (R46, R47). -/
def State.underForce (s : State) (e : Endpoint) (line : Nat) : State :=
  if mirrorAt e = mirrorOf line none then s.obeyHome line
  else match holderAt line e with
    | some h => (s.endPersistent h line).obey h line
    | none => s

/-- `PERSISTENT_ACTIVATION` at a mirror table (R45, R46), or of what is in force at an agent whose own access is done (R41), or where the
home's data has come. -/
def persistentActivation (s : State) : Option State :=
  match s.focus with
  | .msg i => (s.takeMsg i).bind fun (m, s) =>
    match m.kind with
    | .activate a b write req =>
      let n := mirrorAt m.dst
      let s := { s with coh := { s.coh with mirror := put s.coh.mirror (64 * n + 8 * a + b) { line := m.line, req, write, vd := m.vd } } }
      let s := s.send { src := m.dst, dst := .arbiter a, kind := .ack a b, line := m.line }
      some (s.underForce m.dst m.line)
    | _ => none
  | .held h line => s.news (((s.finishReqs (some h) line).endPersistent h line).obey h line)
  | .line line => s.news ((s.finishReqs none line).obeyHome line)
  | _ => none

def execPersistentActivation (s : State) := runDevice s persistentActivation

/-- `PERSISTENT_DEACTIVATION`: the arbiter broadcasts a requester's deactivation of its active request once the activation is
acknowledged; a mirror table drops the entry and acknowledges, and the request in force after it is obeyed (R46, R47). -/
def persistentDeactivation (s : State) : Option State :=
  match s.focus with
  | .msg i => (s.takeMsg i).bind fun (m, s) =>
    match m.kind, m.dst with
    | .done b, .arbiter a =>
      let k := s.bank a b
      if !k.active.any (fun q => q.line = m.line && hEnd q.line q.req = m.src) || k.deactivating then some s
      else if k.acks != 0 then none else
      let tgt := s.mirrors m.line
      let s := s.setBank a b { k with acks := tgt.length, deactivating := true }
      some (tgt.foldl (fun s e => s.send { src := .arbiter a, dst := e, kind := .deactivate a b, line := m.line }) s)
    | .deactivate a b, e =>
      let s := { s with coh := { s.coh with mirror := del s.coh.mirror (64 * mirrorAt e + 8 * a + b) } }
      some ((s.send { src := e, dst := .arbiter a, kind := .ack a b, line := m.line }).underForce e m.line)
    | _, _ => none
  | _ => none

def execPersistentDeactivation (s : State) := runDevice s persistentDeactivation

/-- `DEACTIVATION_ACKS_DONE`: an acknowledgement arrives; with a deactivation's last one the bank is free and the next
request is activated as R48 permits, then or later. -/
def deactivationAcksDone (s : State) : Option State :=
  match s.focus with
  | .msg i => (s.takeMsg i).bind fun (m, s) =>
    match m.kind with
    | .ack a b =>
      let k := s.bank a b
      let k := { k with acks := k.acks - 1 }
      if k.acks = 0 && k.deactivating then
        some ((s.setBank a b { k with active := none, deactivating := false, last := some m.line }).activate a b)
      else some (s.setBank a b k)
    | _ => none
  | .bank a b => if (s.bank a b).active.isSome || (s.bank a b).fifo.isEmpty then none else some (s.activate a b)
  | _ => none

def execDeactivationAcksDone (s : State) := runDevice s deactivationAcksDone

end Sys2Proof.Machine
end

