-- ==== Sys2Proof/Machine/Station.lean ====
section
/-!
DEFINITION. Combining stations (R54–R63): arrival, application, reply, and the outcome log with its queries.
-/
namespace Sys2Proof.Machine

def State.station (s : State) (i : Nat) : Station := look s.coh.stations i {}
def State.setStation (s : State) (i : Nat) (f : Station → Station) : State :=
  { s with coh := { s.coh with stations := upd s.coh.stations i {} f } }

-- ## ATOMIC_STATION_ARRIVAL (R54–R58)

/-- Function classes (R57): 0 addition, 1 `INCW`, 2 alone. -/
def classOf (op t : Nat) : Nat := if !combinable op t then 2 else if op = 7 then 1 else 0

/-- A request's key incarnation is not in force, and the frame no longer belongs to its VD (R50); after a rekey it does (R78). -/
def State.stale (s : State) (m : Msg) : Bool :=
  m.inc != s.lineInc m.line &&
  !((s.tag (128 * m.line)).bound && find s.keySlots (s.tag (128 * m.line)).key = some m.vd)

/-- The entry that a far atomic would be; one of host or expander memory is never combined (R373). -/
def State.groupFor (s : State) (m : Msg) : Option Group :=
  match m.kind with
  | .atomic op type addr width bound members =>
    if s.stale m then none else
    some { line := m.line, addr, width, inc := m.inc, cls := if hostLine m.line then 2 else classOf op type, op, type, bound
           members, vd := m.vd, time := s.now }
  | _ => none

/-- Decombining records in use (R54). -/
def Station.records (x : Station) : Nat := (x.groups.filter fun g => g.record).length

/-- Entries of the queue: groups that have not left the station (R54, R58). -/
def Station.queued (x : Station) : Nat := (x.groups.filter fun g => !g.applied).length

/-- An arriving request joins a waiting entry that it may merge with, the first of them, or allocates one behind the others
(R57, R58); none where the queue is full (R54), which the host proxy's has no bound for. A request of several members (R374) merges only
while the total stays at most 8 (R102); that it takes no record when it allocates an entry, but with the entry's first merge, is the
model's choice (log 7): R57 speaks of merges into an entry of a single member. -/
def Station.enter (x : Station) (g : Group) : Option Station :=
  let fits := fun (o : Group) => !o.applied && o.cls = g.cls && g.cls != 2 && o.addr = g.addr && o.width = g.width &&
    o.inc = g.inc && (g.cls = 0 || o.bound = g.bound) && o.members.length + g.members.length ≤ 8 &&
    (o.record || x.records < 128)
  match x.groups.find? fits with
  | some o =>
    some { x with groups := modFirst (fun p => p = o) (fun p => { p with members := p.members ++ g.members, record := true }) x.groups }
  | none => if 64 ≤ x.queued && !hostLine g.line then none else some { x with groups := x.groups ++ [g] }

/-- `ATOMIC_STATION_ARRIVAL`: a request of a frame that its VD no longer owns is discarded (R50). -/
def atomicStationArrival (s : State) : Option State :=
  match s.focus with
  | .msg i => (s.takeMsg i).bind fun (m, s) =>
    match m.kind, s.groupFor m with
    | .atomic .., some g => ((s.station (locSlice m.line)).enter g).map fun x => s.setStation (locSlice m.line) fun _ => x
    | .atomic .., none => some s
    | _, _ => none
  | _ => none

def execAtomicStationArrival (s : State) := runDevice s atomicStationArrival

-- ## GROUP_APPLY (R58–R60, R85)

/-- The members in arrival order, each on what its predecessors left (R59): old values and the final one. -/
def applyMembers (op t : Nat) : Nat → List Member → List Nat × Nat
  | x, [] => ([], x)
  | x, m :: ms =>
    let (rs, y) := applyMembers op t (atomNew op t x m.arg m.cmp) ms
    (x :: rs, y)

/-- A group may leave its station now (R58, R60): for a member whose acquire has scope RBK, the VD's clusters have drained (R228), and no
copy agent's ownership buffer holds the line at a home there (R42). -/
def State.mayLeave (s : State) (x : Station) (k : Nat) (g : Group) : Bool :=
  !g.applied && !(hostLine g.line && s.buffered g.line) && !((x.groups.take k).any fun o => o.addr = g.addr && !o.applied) &&
  (!(g.members.any fun m => m.rbk) || s.rbkDrained g.vd) &&
  x.recent.all fun r => r.2 + 12 ≤ s.now && (r.1 != g.line || r.2 + 48 ≤ s.now)

/-- `GROUP_APPLY`: with 64 tokens at the home; without them the home asks for them. -/
def groupApply (s : State) : Option State :=
  match s.focus with
  | .group i k _ => ((s.station i).groups[k]?).bind fun g =>
    if !s.mayLeave (s.station i) k g then none
    else if !s.satisfied none g.line true then
      if s.wanted none g.line true [] then none else some (s.want none g.line true g.vd g.inc [])
    else if !s.ready g.line then
      if s.reading g.line then none else some (s.readHbm g.line g.vd)
    else
      let leave := fun (rs : List Nat) (s : State) => s.setStation i fun x =>
        { groups := modAt x.groups k fun g => { g with applied := true, results := rs }
          log := (x.log ++ (g.members.zip rs).map fun m => (m.1.op, m.1.module, m.2)).drop (x.log.length + rs.length - 256)
          recent := (x.recent.filter fun r => s.now < r.2 + 48) ++ [(g.line, s.now)] }
      if s.isLost g.line then some (leave [] s) else
      let (rs, y) := applyMembers g.op g.type (s.mem.readNat g.addr g.width) g.members
      let s := (s.poke g.addr (leBytes g.width y)).fillLlc g.line g.vd true
      some (leave rs s)
  | _ => none

def execGroupApply (s : State) := runDevice s groupApply

-- ## Replies of stations (R60)

/-- Replies to the members of a group, each to the endpoint that its request came from. -/
def State.replyAll (s : State) (g : Group) : State :=
  g.members.zipIdx.foldl (fun s (m : Member × Nat) =>
    s.send { src := homeOf g.line, dst := m.1.src, line := g.line, vd := g.vd, inc := g.inc
             kind := .reply m.1.module m.1.op (if m.1.nr then none else some ((g.results[m.2]?).getD 0)) g.results.isEmpty }) s

/-- Changes the completion signals that are being written. -/
def State.mapSigs (s : State) (f : SigRun → SigRun) : State :=
  { s with vds := mapv s.vds fun x =>
    { x with
      queues := mapv x.queues fun q => { q with started := q.started.map fun p => { p with sig := p.sig.map f } }
      kill := x.kill.map fun k => { k with sig := k.sig.map f } } }

/-- A queue engine's far atomic has its reply, or is known to be applied: the signal's next part follows (R128). -/
def State.signalWritten (s : State) (op : Nat) : State :=
  s.mapSigs fun r => if r.op = some op then { r with op := none, phase := r.phase + 1 } else r

/-- A request waits at its port, in arrival order. -/
def State.hold (s : State) (h : HeldReq) : State :=
  let same := fun (o : HeldReq) => o.q = h.q && o.kind = h.kind
  let held := if s.fabric.held.any same then modFirst same (fun _ => h) s.fabric.held else s.fabric.held ++ [h]
  { s with fabric := { s.fabric with held } }
def State.unhold (s : State) (h : HeldReq) : State :=
  { s with fabric := { s.fabric with held := s.fabric.held.filter fun o => !(o.q = h.q && o.kind = h.kind) } }

/-- The port at which a request of a plane arrives (R100). -/
def State.portFor (s : State) (plane : Nat) : Endpoint := .port ((s.carrierOf plane).getD plane)

/-- A signal's request that has written its line and sent its increment (R94). -/
def HeldReq.signalOut (h : HeldReq) : Bool := 4 ≤ h.kind && h.kind ≤ 5 && h.half = 1

-- ## Replies at the requester (R60, R62, R63)

/-- The access that waits for an op id. -/
def State.byOp (s : State) (op : Nat) : Option (WarpRef × Access) :=
  s.allAccesses.find? fun a => a.2.ops.any fun o => o.2 = op

/-- An L1 copy no longer stands for the line, except for its written bytes (R230, R373). -/
def State.refreshL1 (s : State) (g line : Nat) : State :=
  match find (s.cl g).l1 line with
  | some l => if l.dirty = 0#128 then s.setCl g fun k => { k with l1 := del k.l1 line }
    else s.setCl g fun k => { k with l1 := put k.l1 line { l with data := mergeLine (s.dieLine (g / 16) line) l.data l.dirty } }
  | none => s

/-- One member's outcome: a value, or a failure with its code, of which the first stands (R85). `ATOMIC_OUTCOME_LOST` collects the mask
of its lanes (R63). -/
def Access.outcome (a : Access) (op : Nat) (v : Nat) (code : Option Nat) : Access :=
  let lanes := (a.ops.filter fun o => o.2 = op).map fun o => o.1
  let a := { a with ops := a.ops.filter fun o => o.2 != op }
  match code with
  | none => { a with got := a.got ++ lanes.map fun l => (l, v) }
  | some c =>
    match a.failed with
    | some (0x11, m) => if c = 0x11 then { a with failed := some (0x11, m ||| maskOf lanes) } else a
    | some _ => a
    | none => { a with failed := some (c, if c = 0x11 then maskOf lanes else a.pc.setWidth 32) }

/-- The acquire that an access performs (R227). -/
def State.acqReady (s : State) (g v acq : Nat) : Bool := acq < 3 || s.canAcquire g v (acq - 1)
def State.acqDone (s : State) (g d v acq : Nat) : State := if acq < 3 then s else s.acquire g d v (acq - 1)

/-- An access made at a home or at another module, all of whose outcomes have come, completes with the acquire of its own prefix
(R231), which at RBK has drained the clusters before (R228); the cluster's L1 copy, older than the thread's own atomic, goes (R223). None
while the acquire has to wait. -/
def State.farDone (s : State) (w : WarpRef) (a : Access) : Option State :=
  let finish := fun (s : State) =>
    s.complete w { a with acq := 0 } (if a.dst.isSome then sortBy (fun g => g.1) a.got else []) a.failed
  let acq := if a.acq = 6 then 3 else a.acq
  match (s.blk w.blk).bind Block.cluster with
  | none => some (finish s)
  | some g =>
    if !s.acqReady g a.vd acq then none else
    let s := match a.line with | some line => s.refreshL1 g line | none => s
    some ((finish s).acqDone g a.die a.vd acq)

/-- Gives a member its outcome; with its last member the access completes, at once or when its acquire can be made. -/
def State.memberDone (s : State) (op v : Nat) (code : Option Nat) : State :=
  match s.byOp op with
  | none => s
  | some (w, a) =>
    let b := a.outcome op v code
    let b := if b.ops.isEmpty && b.remoteKind.isSome then { b with sent := 3 } else b
    let s := s.setAccess w a.id fun _ => b
    if b.ops.isEmpty then (s.farDone w b).getD s else s

/-- A reply arrives at its requester; one that comes after an answer finds no access and is discarded (R62). -/
def State.replyArrives (s : State) (op : Nat) (v : Option Nat) (bad : Bool) : State :=
  s.memberDone op (v.getD 0) (if bad then some 0x10 else none)

-- ## GROUP_REPLY (R60, R61)

/-- The signal's request whose increment has this op id of a module (R94). -/
def State.signalOf (s : State) (module op : Nat) : Option HeldReq :=
  s.fabric.held.find? fun h => h.signalOut && h.q.srcModule = module && h.q.op = op

/-- A signal's increment has its reply, or is known to be applied, which acknowledges the request (R94): to its module, or, of a
reduction, to the cluster that waits (R104). -/
def State.signalDone (s : State) (h : HeldReq) (bad : Bool) : State :=
  let s := s.unhold h
  if h.kind = 5 then s.replyArrives h.q.op none bad else s.emit (.fabricReply h.q.srcModule h.q.op bad [])

/-- `GROUP_REPLY`: the station splits the reply by its record, or discards it when the record fails its check (R61). A reply that
reaches a fabric port goes on to its module (R91), one that reaches the control block is a queue engine's (R128). -/
def groupReply (s : State) : Option State :=
  match s.focus with
  | .group i k ok => ((s.station i).groups[k]?).bind fun g =>
    if !g.applied then none else
    let s' := s.setStation i fun x => { x with groups := x.groups.eraseIdx k }
    some (if g.record && !ok then s' else s'.replyAll g)
  | .msg i => (s.takeMsg i).bind fun (m, s) =>
    match m.kind, m.dst with
    | .reply n op v bad, .port _ => some <| match s.signalOf n op with
      | some h => s.signalDone h bad
      | none => s.emit (.fabricReply n op bad v.toList)
    | .reply _ op _ _, .control => some (s.signalWritten op)
    | _, _ => none
  | _ => none

def execGroupReply (s : State) := runDevice s groupReply

-- ## Outcome queries (R62)

/-- 20 µs in ticks. -/
def combineTimer : Nat := 20000 * ticksPerNs

/-- The cluster whose number stands in an op id of this module (R56). -/
def opEndpoint (op : Nat) : Endpoint := .cluster (op / 65536)

/-- A combinable request that its requester waits for (R62). -/
def Access.queries (a : Access) : Bool :=
  !a.ops.isEmpty && match a.kind with
    | .far op t => combinable op t && !a.line.any hostLine
    | .remote 2 _ => a.sent = 1
    | _ => false

/-- `COMBINE_TIMER_EXPIRY`: an outcome query for each member without a reply, over the fabric for another module's (R102); the timer
starts again. A queue engine's fetch-and-add on a completion signal (R128) is one of those requests, and so is a fabric port's on a signal
word (R94). -/
def combineTimerExpiry (s : State) : Option State :=
  match s.focus with
  | .access w id => (s.access w id).bind fun a =>
    if !a.queries || s.now < a.timer + combineTimer then none else
    let s := s.setAccess w id fun a => { a with timer := s.now }
    some (a.ops.foldl (fun s o =>
      match a.line with
      | some line => s.send { src := opEndpoint o.2, dst := homeOf line, kind := .query s.fabric.module o.2, line, vd := a.vd
                              inc := s.lineInc line }
      | none => match s.fabricPacket a with
        | some q => s.emit (.fabric { q with kind := 6, op := o.2, data := 0#1024, mask := 0#128, members := [] })
        | none => s) s)
  | .op op =>
    (s.sigRuns.find? fun r => r.2.op = some op && r.2.phase = 2 && !hostLine (r.2.pa / 128)).bind fun (v, r) =>
      if s.now < r.time + combineTimer then none else
      let line := r.pa / 128
      some ((s.mapSigs fun q => if q.op = some op then { q with time := s.now } else q).send
        { src := .control, dst := homeOf line, kind := .query s.fabric.module op, line, vd := v, inc := s.lineInc line })
  | .remote q =>
    (s.fabric.held.find? fun h => h.q = q && h.signalOut && !hostLine (h.sigPa / 128)).bind fun h =>
      if s.now < h.timer + combineTimer then none else
      let line := h.sigPa / 128
      some ((s.hold { h with timer := s.now }).send
        { src := s.portFor q.plane, dst := homeOf line, kind := .query q.srcModule q.op, line, vd := q.vd, inc := s.lineInc line })
  | _ => none

def execCombineTimerExpiry (s : State) := runDevice s combineTimerExpiry

/-- What a station says of an op id (R62): 0 pending, in a queue entry or a live record, 1 the value logged last, 2 unknown. -/
def Station.lookup (x : Station) (module op : Nat) : Nat × Nat :=
  if x.groups.any fun g => (!g.applied || g.record) && g.members.any fun m => m.op = op && m.module = module then (0, 0) else
  match x.log.reverse.find? fun e => e.1 = op && e.2.1 = module with
  | some e => (1, e.2.2)
  | none => (2, 0)

/-- What a requester does with an answer (R62, R63). -/
def State.answered (s : State) (op what v : Nat) : State :=
  match s.byOp op with
  | none => s
  | some (w, a) =>
    if what = 0 then s.setAccess w a.id fun a => { a with timer := s.now }
    else if what = 1 || a.dst.isNone then s.memberDone op v none
    else s.memberDone op 0 (some 0x11)

end Sys2Proof.Machine
end

