-- ==== Sys2Proof/Machine/Cache.lean ====
section
/-!
DEFINITION. The cluster's side of memory (R206, R207, R216, R227, R359): loads that return, stores that are acknowledged,
written bytes on their way to die L2, instruction-cache fills, and the retest of `WAITSIG`.
-/
namespace Sys2Proof.Machine

-- ## L1 (R206)

/-- A line's bytes in its VD's L1 copy. -/
def State.l1Line (s : State) (g line v : Nat) : Option L1Line := (find (s.cl g).l1 line).bind fun l => if l.vd = v then some l else none

/-- Room for a line in its L1 set of 16 ways: a clean line of the set leaves if it is full; none while all are written. -/
def Cluster.l1Room (k : Cluster) (line : Nat) : Option Cluster :=
  let set := k.l1.filter fun e => e.1 % 128 = line % 128 && e.1 != line
  if set.length < 16 then some k else
  match set.find? fun e => e.2.dirty = 0#128 with
  | some e => some { k with l1 := del k.l1 e.1 }
  | none => none

/-- Fills an L1 line from the line's value, where there is room. -/
def State.fillL1 (s : State) (g line v : Nat) : State :=
  match (s.cl g).l1Room line with
  | some k => { s with clusters := put s.clusters g { k with l1 := put k.l1 line { data := s.dieLine (g / 16) line, vd := v } } }
  | none => s

/-- A die L2 writes a line that it holds with all its tokens: the line is dirty. -/
def State.markDirty (s : State) (d line : Nat) : State :=
  s.setHeld (.die d) line { s.held' (.die d) line with dirty := true, used := s.now }

-- ## Order within a warp

/-- Earlier accesses of the warp to the line that this one waits for. -/
def Warp.before (x : Warp) (a : Access) : Bool :=
  x.accesses.any fun b => b.id < a.id && b.line = a.line && b.weight = a.weight &&
    match b.kind, a.kind with
    | .pref _, _ | _, .pref _ => false
    | .store, .load _ | .store, .sload => a.bypass
    | _, _ => true

/-- The warp's own bytes of a line that wait in the write-combining buffer, over what L1 or die L2 gives (R207). -/
def State.ownBytes (s : State) (g line : Nat) (w : WarpRef) (x : Warp) (a : Access) (d : LineData) : LineData :=
  let mine := ((s.cl g).wcb.filter fun e => e.line = line && e.vd = a.vd).flatMap fun e =>
    (e.owners.filter fun o => o.1 = w && o.2 < a.id).map fun o => o.2
  (x.accesses.filter fun b => mine.contains b.id).foldl (fun d b => b.lineBytes d) d

/-- The value of each lane of an access from its line. -/
def Access.laneValues (a : Access) (d : LineData) : List (Nat × Nat) :=
  a.lanes.map fun l => (l.1, bits d.toNat (8 * (l.2 % 128) + 8 * a.width - 1) (8 * (l.2 % 128)))

-- ## LOAD_RETURN (R85, R216, R227, R359)

/-- Asks for tokens on behalf of an access, if they are lacking. -/
def State.ask (s : State) (w : WarpRef) (a : Access) (line : Nat) (write : Bool) : Option State :=
  if s.satisfied (some (.die a.die)) line write || s.wanted (some (.die a.die)) line write [] then none
  else some ((s.want (some (.die a.die)) line write a.vd a.inc []).setAccess w a.id fun a => { a with asked := true, read := !s.ready line })

/-- A load of a line by cluster `g`. -/
def State.loadLine (s : State) (g : Nat) (w : WarpRef) (x : Warp) (a : Access) (line : Nat) : Option State :=
  if x.before a || !s.acqReady g a.vd a.acq then none else
  let finish := fun (s : State) (d : LineData) =>
    ((s.complete w { a with acq := 0 } (a.laneValues (s.ownBytes g line w x a d)) none)).acqDone g a.die a.vd a.acq
  match if a.bypass then none else s.l1Line g line a.vd with
  | some l => some (((s.complete w { a with acq := 0, hit := true } (a.laneValues (s.ownBytes g line w x a l.data)) none)).acqDone
      g a.die a.vd a.acq)
  | none =>
    if a.bypass && s.l1Written g line then none
    else if !s.l2May a.die line false then s.ask w a line false
    else if s.isLost line || (s.held' (.die a.die) line).lost then
      some ((s.complete w { a with acq := 0 } [] (some (memError a))).acqDone g a.die a.vd a.acq)
    else some (finish (if a.bypass || a.stream then s else s.fillL1 g line a.vd) (s.dieLine a.die line))

/-- A near atomic of a line (R373): lanes in ascending order, with all tokens at die L2. -/
def State.nearLine (s : State) (g : Nat) (w : WarpRef) (x : Warp) (a : Access) (line op t : Nat) : Option State :=
  if x.before a || s.l1Written g line || !s.acqReady g a.vd a.acq then none
  else if !s.l2May a.die line true then s.ask w a line true
  else if s.isLost line || (s.held' (.die a.die) line).lost then
    some ((s.complete w { a with acq := 0 } [] (some (memError a))).acqDone g a.die a.vd a.acq)
  else
    let size := if typeRegs t = 2 then 8 else 4
    let arg := fun (l : Nat) => (a.args.find? fun v => v.1 = l).getD (0, 0, 0)
    let (mem, olds) := atomsRun op t size s.mem (a.lanes.map fun l => (l.1, l.2, (arg l.1).2.1, (arg l.1).2.2))
    let s := a.lanes.foldl (fun s l => s.poke l.2 (mem.bytes l.2 size)) s
    let s := (s.markDirty a.die line).refreshL1 g line
    some ((s.complete w { a with acq := 0 } (if a.dst.isSome then olds else []) none).acqDone g a.die a.vd a.acq)

/-- A weight-store load (R72, R84). -/
def State.loadWeight (s : State) (w : WarpRef) (a : Access) (line : Nat) : Option State :=
  let d := s.die a.die
  if d.wlost.contains line then some (s.complete w a [] (some (memError a)))
  else some (s.complete w a (a.laneValues (lineOf (d.wstore.bytes (128 * line) 128))) none)

/-- An access whose outcome comes back with values. -/
def State.returns (s : State) (op : Nat) : Bool := !(s.byOp op).any fun a => a.2.dst.isNone

/-- `LOAD_RETURN`: of an access to a line, of the values of a far atomic's members, or of a far atomic that has them all and makes its
acquire. -/
def loadReturn (s : State) : Option State :=
  match s.focus with
  | .access w id => (s.warp w).bind fun x => (s.access w id).bind fun a => (s.blk w.blk).bind fun b =>
    b.cluster.bind fun g => a.line.bind fun line =>
      match a.kind with
      | .far .. => if a.dst.isSome && a.ops.isEmpty then s.farDone w a else none
      | .load _ | .sload => if a.weight then s.loadWeight w a line else s.loadLine g w x a line
      | .near op t => if a.dst.isSome then s.nearLine g w x a line op t else none
      | .pref l1 =>
        if !s.l2May a.die line false then s.ask w a line false
        else some ((if l1 && !s.isLost line && (s.l1Line g line a.vd).isNone && !s.l1Written g line
          then s.fillL1 g line a.vd else s).finish w a)
      | _ => none
  | .msg i => (s.takeMsg i).bind fun (m, s) =>
    match m.kind with
    | .reply _ op v bad => if s.returns op && m.dst.isCluster then some (s.replyArrives op v bad) else none
    | _ => none
  | _ => none

def execLoadReturn (s : State) := runDevice s loadReturn

-- ## STORE_ACK (R207, R216, R362)

/-- A store's bytes have reached die L2 with all tokens. -/
def State.storeDone (s : State) (g : Nat) (w : WarpRef) (a : Access) (line : Nat) : Bool :=
  !(s.cl g).wcb.any (fun e => e.owners.any fun o => o = (w, a.id)) &&
  !(find (s.cl g).l1 line).any fun l => l.dirty &&& a.lineMask != 0#128

/-- `STORE_ACK`: of a store, a no-return atomic, or a flush, which is done once the host has what it writes back (R362). -/
def storeAck (s : State) : Option State :=
  match s.focus with
  | .access w id => (s.warp w).bind fun x => (s.access w id).bind fun a => (s.blk w.blk).bind fun b =>
    b.cluster.bind fun g => a.line.bind fun line =>
      match a.kind with
      | .store => if s.storeDone g w a line then some (s.complete w a [] none) else none
      | .flush host =>
        if x.before a || (s.cl g).wcb.any (fun e => e.line = line && e.vd = a.vd) || s.l1Written g line then none
        else if a.sent = 1 then (if s.hasTxn 1 line then none else some (s.complete w a [] none))
        else
          let s := s.setCl g fun k => { k with l1 := del k.l1 line }
          let t := s.held' (.die a.die) line
          some (if host && hostLine line && t.dirty then
              ((s.setHeld (.die a.die) line { t with dirty := false }).cxlStart 1 line a.vd).setAccess w a.id fun a => { a with sent := 1 }
            else s.complete w a [] none)
      | .near op t => if a.dst.isNone then s.nearLine g w x a line op t else none
      | .far .. => if a.dst.isNone && a.ops.isEmpty then s.farDone w a else none
      | _ => none
  | .msg i => (s.takeMsg i).bind fun (m, s) =>
    match m.kind with
    | .reply _ op v bad => if !s.returns op && m.dst.isCluster then some (s.replyArrives op v bad) else none
    | _ => none
  | _ => none

def execStoreAck (s : State) := runDevice s storeAck

-- ## WCB_DRAIN (R207)

/-- Some owner of an entry has an earlier load of the line outstanding, whose value must come first; a store is not issued while an
atomic or a strong load of its warp is (log 48). -/
def State.wcbWaits (s : State) (e : WcbEntry) : Bool :=
  e.owners.any fun o => (s.warp o.1).any fun x => x.accesses.any fun a =>
    a.line = some e.line && a.id < o.2 && match a.kind with | .load _ | .sload => true | _ => false

/-- Writes bytes of a line at die L2 under a mask. -/
def State.pokeMask (s : State) (line : Nat) (d : LineData) (m : ByteMask) : State :=
  (List.range 128).foldl (fun s k => if m.getLsbD k then s.poke (128 * line + k) [lineByte d k] else s) s

/-- Asks for tokens on behalf of a cluster, by a step of it, if they are lacking, with the key incarnation that the access's translation
supplied (R37). -/
def State.askFor (s : State) (me : Instr) (d line v inc : Nat) (write : Bool) : Option State :=
  let us := [(me, s.focus)]
  if s.satisfied (some (.die d)) line write || s.wanted (some (.die d)) line write us then none
  else some (s.want (some (.die d)) line write v inc us)

/-- The same for stores to a line that a cluster's accesses wait for: their samples note it (R262). -/
def State.askStores (s : State) (g line v inc : Nat) (write : Bool) : Option State :=
  let note := fun (a : Access) =>
    if a.kind = .store && a.line = some line && a.vd = v then { a with asked := true, read := a.read || !s.ready line } else a
  let notes := fun (x : Warp) => { x with accesses := x.accesses.map note }
  (s.askFor .wcbDrain (g / 16) line v inc write).map fun t =>
    { t with blocks := mapv t.blocks fun b =>
        if b.cluster = some g then { b with img := { b.img with warps := b.img.warps.map notes } } else b }

/-- The written bytes of an L1 line reach die L2, which holds all tokens. -/
def State.l1ToL2 (s : State) (g line : Nat) : Option State :=
  (find (s.cl g).l1 line).map fun l =>
    let s := (s.pokeMask line l.data l.dirty).markDirty (g / 16) line
    s.setCl g fun k => { k with l1 := put k.l1 line { l with data := s.lineData line, dirty := 0#128 } }

/-- The lowest number of the stores that an entry holds. -/
def WcbEntry.first (e : WcbEntry) : Nat := (e.owners.map fun o => o.2).foldl min ((e.owners.head?.map fun o => o.2).getD 0)

/-- `WCB_DRAIN`: a buffer entry moves into L1, or to die L2 if it bypasses L1 or its line is lost; a line's written bytes in L1 go to die L2. -/
def wcbDrain (s : State) : Option State :=
  match s.focus with
  | .clusterLine g line =>
    let d := g / 16
    match (s.cl g).wcb.find? fun e => e.line = line && !s.wcbWaits e with
    | some e =>
      if e.bypass || ((s.isLost line || (s.held' (.die d) line).lost) && (s.l1Line g line e.vd).isNone) then
        if s.l1Written g line then
          if !s.l2May d line true then s.askStores g line e.vd e.inc true else s.l1ToL2 g line
        else if !s.l2May d line true then s.askStores g line e.vd e.inc true
        else
          let s := s.setCl g fun k => { k with wcb := k.wcb.erase e }
          some (((s.pokeMask line e.data e.mask).markDirty d line).refreshL1 g line)
      else
        match s.l1Line g line e.vd with
        | some l => some (s.setCl g fun k => { k with
            wcb := k.wcb.erase e
            l1 := put k.l1 line { l with
              data := mergeLine l.data e.data e.mask, dirty := l.dirty ||| e.mask, inc := e.inc
              first := if l.dirty = 0#128 then e.first else min l.first e.first } })
        | none =>
          if !s.l2May d line false then s.askStores g line e.vd e.inc false
          else ((s.cl g).l1Room line).map fun k =>
            let l : L1Line := { data := mergeLine (s.dieLine d line) e.data e.mask, dirty := e.mask, first := e.first, inc := e.inc, vd := e.vd }
            { s with clusters := put s.clusters g { k with wcb := k.wcb.erase e, l1 := put k.l1 line l } }
    | none =>
      match find (s.cl g).l1 line with
      | some l =>
        if l.dirty = 0#128 then none
        else if !s.l2May d line true then s.askStores g line l.vd l.inc true
        else s.l1ToL2 g line
      | none => none
  | _ => none
def execWcbDrain (s : State) := runDevice s wcbDrain

-- ## INSTRUCTION_CACHE_FILL (R206, R410)

/-- `INSTRUCTION_CACHE_FILL`: 512 lines; the first listed leaves a full cache. The line comes from the fetch's translation at this very
instant, and so does its key incarnation (R37). -/
def instructionCacheFill (s : State) : Option State :=
  match s.focus with
  | .clusterLine g line =>
    if (find (s.cl g).icache line).isSome || s.isLost line then none
    else if !s.l2May (g / 16) line false then s.askFor .instructionCacheFill (g / 16) line ((s.cl g).vd.getD 0) (s.lineInc line) false
    else some (s.setCl g fun k =>
      { k with icache := put (if 512 ≤ k.icache.length then k.icache.drop 1 else k.icache) line (s.dieLine (g / 16) line) })
  | _ => none

def execInstructionCacheFill (s : State) := runDevice s instructionCacheFill

-- ## WAITSIG_RETEST (R379)

/-- A test of a fragment's `WAITSIG` passes: the instruction completes, and the acquire of its read is due before the warp's next access
(R226, R379). -/
def Warp.passSig (x : Warp) (id : Nat) : Warp :=
  (({ x with rwc := x.rwc + 1#64, acquire := true, passStop := false }.countIssue id).setFrag id fun f => { f with pc := f.pc + 4#64 }).wake id

/-- `WAITSIG_RETEST`: the fragment's `WAITSIG` completes when its word has the value; it runs again to take its fault where the word is lost
or no longer translates. Die L2 reads the word with a token, once L1 holds no written bytes of its line (R35, R223). -/
def waitsigRetest (s : State) : Option State :=
  match s.focus with
  | .frag w f => (s.warp w).bind fun x => (x.frag f).bind fun fr => (s.blk w.blk).bind fun b => (s.kern b.kernel).bind fun k =>
    match fr.wait, b.cluster with
    | .sig va _ v, some g =>
      let (t, r) := s.translate (some (b.die, g)) k.vd k.asid va 0
      match r with
      | .ok pa =>
        let t := t.setFrag w f fun fr => { fr with wait := .sig va pa v }
        if t.l1Written g (pa / 128) then s.news t
        else if !t.l2May b.die (pa / 128) false then
          s.news ((t.askFor .waitsigRetest b.die (pa / 128) k.vd (t.lineInc (pa / 128)) false).getD t)
        else if t.isLost (pa / 128) || (t.held' (.die b.die) (pa / 128)).lost then some (t.setFrag w f fun fr => { fr with wait := .ready })
        else if t.dieNat b.die pa 8 < v.toNat then some t
        else some (t.setWarp w fun x => x.passSig f)
      | .busy => s.news t
      | _ => some (t.setFrag w f fun fr => { fr with wait := .ready })
    | _, _ => none
  | _ => none

def execWaitsigRetest (s : State) := runDevice s waitsigRetest

end Sys2Proof.Machine
end

