-- ==== Sys2Proof/Machine/Engine.lean ====
section
/-!
DEFINITION. What the engines do with queued commands (R211–R219, R230, R364–R370, R398–R406): starts, ownership windows,
landings, completion, power units, and the sequencer.
-/
namespace Sys2Proof.Machine

-- ## Completion (R215, R216, R230, R370, R389)

/-- The class that counts a command (R216). -/
def CmdKind.cls : CmdKind → Nat
  | .tcopy _ | .cpa .. => 2
  | _ => 3

/-- A command has completed: records of its error, its counts, its L1 copies, its receivers' barriers (R370, R389). -/
def State.endCommand (s : State) (id : Nat) : State :=
  match find s.cmds id with
  | none => s
  | some c =>
    let s := { s with cmds := del s.cmds id }
    let s := c.wrote.foldl (fun s line => s.refreshL1 c.cluster line) s
    let s := s.setWarp c.warp fun x =>
      let rec' := c.err.map fun (e : Nat × Word × ErrAccess) =>
        ({ code := e.1, einfo := e.2.1, pc := c.pc, cmd := id, acc := e.2.2 } : ErrRec)
      let fill := fun (k : Counter) => match rec' with | some e => k.fill e | none => k
      let n := c.kind.cls
      let k := fill ((vget x.classes n {}).add (-1))
      let x := { x with classes := x.classes.setIfInBounds n k }
      match c.tag with
      | some t =>
        let k := fill ((vget x.tags t {}).add (-1))
        { x with tags := x.tags.setIfInBounds t k }
      | none => x
    match c.kind with
    | .tcopy d => if d.multicast && d.bar < 16 then c.receivers.foldl (fun s b => s.engineArrive b d.bar) s else s
    | _ => s

/-- Changes a command. -/
def State.setCmd (s : State) (id : Nat) (f : Command → Command) : State := { s with cmds := adj s.cmds id f }

/-- The first error of a command stands, with what its record says of the access that failed (R290). -/
def Command.fail (c : Command) (code : Nat) (e : Word) (acc : ErrAccess := {}) : Command :=
  if c.err.isSome then c else { c with err := some (code, e, acc) }

-- ## ENGINE_COMMAND_START (R214, R370)

/-- An earlier command that still holds an entry conflicts with this one (R214). -/
def State.conflicts (s : State) (c : Command) : Bool :=
  s.cmds.any fun o => o.2.order < c.order && usesConflict o.2.uses c.uses

/-- A receiver that fails its own check (R370). -/
def State.receiverBad (s : State) (d : CopyDesc) (b : Nat) : Option (Nat × Word) :=
  match s.blk b with
  | none => some (0x09, 0#32)
  | some x =>
    let size := match s.kern x.kernel with | some k => 256 * k.scratch | none => 0
    if d.dkind = 2 && !boxIn d.dstBox size then some (0x09, 0#32)
    else if d.dkind = 3 then (unclaimed x.img.claimed d.dstBox).map fun k => (0x0A, BitVec.ofNat 32 k) else none

/-- A multicast that has not started waits for another receiver that is being saved or is away (R187). -/
def State.awaits (s : State) (c : Command) : Bool :=
  (match c.kind with | .tcopy d => d.multicast | _ => false) && !c.started &&
  c.receivers.any fun b => b != c.warp.blk && (s.blk b).any fun x => x.place != .exited && !x.issues

/-- `ENGINE_COMMAND_START` of a copy or an `MSTORE`. -/
def engineCommandStart (s : State) : Option State :=
  match s.focus with
  | .command id => (find s.cmds id).bind fun c =>
    if c.started || c.gone || c.kind.isStep || c.parked.isSome || s.conflicts c ||
      ((s.blk c.warp.blk).bind Block.cluster).isNone then none else
    match c.kind with
    | .tcopy d =>
      if !d.multicast then some (s.setCmd id fun c => { c with started := true }) else
      let live := c.receivers.filter fun b => (s.blk b).any fun x => x.place != .exited
      if s.awaits c then none else
      let bad := live.findSome? (s.receiverBad d)
      some (s.setCmd id fun c =>
        let c := { c with started := true, receivers := live.filter fun b => (s.receiverBad d b).isNone }
        match bad with
        | some e => c.fail e.1 e.2
        | none => c)
    | _ => some (s.setCmd id fun c => { c with started := true })
  | _ => none

def execEngineCommandStart (s : State) := runDevice s engineCommandStart

-- ## Reading sources (R212, R269, R369)

/-- What staging source bytes comes to. -/
inductive Staged where
  | ok (bs : List Nat)
  | park (rs : List FRecord)
  | bad (code : Nat) (einfo : Word) (acc : ErrAccess)
  /-- Tokens, a walk, or another engine's window is waited for. -/
  | wait
  deriving DecidableEq, Repr

/-- Every byte of a copy: source and destination addresses, rows within planes (R367). -/
def CopyDesc.pairs (d : CopyDesc) : List (Int × Int) :=
  (List.range d.zn).flatMap fun (z : Nat) => (List.range d.yn).flatMap fun (y : Nat) =>
    (List.range d.xb).map fun (x : Nat) =>
      ((d.src : Int) + (z : Int) * d.sps + (y : Int) * d.srs + (x : Int),
       (d.dst : Int) + (z : Int) * d.dps + (y : Int) * d.drs + (x : Int))

/-- The record fields of a command's pages (R151). -/
def cmdRecord (c : Command) (v asid slot atype log2w : Nat) : FRecord :=
  { va := 0#64, pc := c.pc, code := 0, atype, log2w, asid
    place := placeWord v (c.cluster / 16) c.cluster (slotNumber c.warp.wi slot) }

/-- The lowest addresses of the lines that a list of virtual addresses touches. -/
def touched (as : List Nat) : List Nat :=
  (dedup (as.map fun a => a / 128)).map fun l => ((as.filter fun a => a / 128 = l).foldl min (128 * l + 127))

/-- Translations of lines by an engine: physical lines by virtual line, or the park with at most 32 records (R151), or the error. -/
def State.engineLines (s : State) (c : Command) (v asid slot atype : Nat) (as : List Nat) :
    State × Except Staged (List (Nat × Nat)) :=
  let (s, ts) := transLanes (some (c.cluster / 16, c.cluster)) v asid atype s ((touched as).map fun a => (0, a))
  if ts.any fun t => t.2.2 = .busy then (s, .error .wait) else
  match ts.findSome? fun t => match t.2.2 with
    | .perm e => some (0x07, BitVec.ofNat 32 e, t.2.1) | .lost => some (0x10, c.pc.setWidth 32, t.2.1) | _ => none with
  | some (code, e, va) => (s, .error (.bad code e { atype, log2w := 7, va }))
  | none =>
    if (replays ts).isEmpty then
      (s, .ok (ts.filterMap fun t => match t.2.2 with | .ok pa => some (t.2.1 / 128, pa / 128) | _ => none))
    else
      (s, .error (.park (((pageRecords (replays ts) (cmdRecord c v asid slot atype 7)).take 32).map fun r => { r with lanes := 0#32 })))

/-- The engine of command `id` reads source lines into its staging buffer, each at its die's L2 with a token and outside any window
(R212, R230): the staged lines, by virtual line, once all are there. -/
def State.readLines (s : State) (me : Instr) (id d v : Nat) (ls : List (Nat × Nat)) : State × Option (NMap LineData) :=
  match find s.cmds id with
  | none => (s, none)
  | some c =>
    let todo := ls.filter fun l => (find c.source l.1).isNone
    let may := todo.filter fun l => s.l2May d l.2 false
    let src := may.foldl (fun m l => put m l.1 (s.dieLine d l.2)) c.source
    let left := todo.filter fun l => !may.contains l
    let s := s.setCmd id fun c => { c with source := src }
    (left.foldl (fun s l => (s.askFor me d l.2 v (s.lineInc l.2) false).getD s) s, if left.isEmpty then some src else none)

/-- A byte of the staged lines. -/
def stagedByte (src : NMap LineData) (a : Nat) : Nat := (lineByte (look src (a / 128) 0#1024) (a % 128)).toNat

/-- Reads global source bytes: translation, then the lines' tokens. -/
def State.readBytes (s : State) (me : Instr) (id : Nat) (c : Command) (k : Kernel) (slot : Nat) (as : List Nat) : State × Staged :=
  let d := c.cluster / 16
  match s.engineLines c k.vd k.asid slot 4 as with
  | (s, .error r) => (s, r)
  | (s, .ok ls) =>
    match ls.find? fun l => s.isLost l.2 || (s.held' (.die d) l.2).lost with
    | some l => (s, .bad 0x10 (c.pc.setWidth 32) { atype := 4, log2w := 7, va := (as.find? fun a => a / 128 = l.1).getD (128 * l.1) })
    | none =>
      match s.readLines me id d k.vd ls with
      | (s, some src) => (s, .ok (as.map (stagedByte src)))
      | (s, none) => (s, .wait)

/-- Stages the source bytes of a copy. -/
def State.stage (s : State) (me : Instr) (id : Nat) (c : Command) (b : Block) (k : Kernel) (slot : Nat) (d : CopyDesc)
    (ps : List (Int × Int)) : State × Staged :=
  match c.served with
  | some vals => (s, .ok vals)
  | none =>
    if d.skind = 2 then (s, .ok (ps.map fun p => (b.img.scratch.read p.1.toNat).toNat))
    else if d.skind = 1 then
      let base := (s.region b.die k.vd).base * 2 ^ 20
      let lost := (s.die b.die).wlost
      if ps.any fun p => lost.contains ((base + p.1.toNat) / 128) then (s, .bad 0x10 (c.pc.setWidth 32) {})
      else (s, .ok (ps.map fun p => ((s.die b.die).wstore.read (base + p.1.toNat)).toNat))
    else s.readBytes me id c k slot (ps.map fun p => (p.1 % 2 ^ 64).toNat)

/-- Bytes that a copy's source and destination share are undefined at the destination (R367). -/
def State.spoil (s : State) (d : CopyDesc) (ps : List (Int × Int)) (bs : List Nat) : State × List Nat :=
  if d.skind != d.dkind then (s, bs) else
  let srcs := d.pairs.map Prod.fst
  let (s, fs) := s.freeBytes bs.length
  (s, ((ps.zip bs).zip fs).map fun t => if srcs.contains t.1.1.2 then t.2 else t.1.2)

-- ## Landing in the scratchpad, slots and the weight store

/-- Writes bytes into a block's scratchpad or operand slots. -/
def Image.land (i : Image) (dkind : Nat) (ws : List (Nat × Nat)) : Image :=
  let put' := fun (m : Memory) => ws.foldl (fun m w => m.write w.1 (BitVec.ofNat 8 w.2)) m
  if dkind = 2 then { i with scratch := put' i.scratch } else { i with omem := put' i.omem }

/-- Writes bytes into a die's weight store; lines written whole are lost no more (R84). -/
def State.landWeight (s : State) (d : Nat) (ws : List (Nat × Nat)) : State :=
  s.setDie d fun x =>
    let full := fun (l : Nat) => (List.range 128).all fun k => ws.any fun w => w.1 = 128 * l + k
    { x with wstore := ws.foldl (fun m w => m.write w.1 (BitVec.ofNat 8 w.2)) x.wstore
             wlost := x.wlost.filter fun l => !full l }

/-- A converted accumulator element (R403). -/
def storeElem (out v : Nat) : Nat := if out = 0 then v else (fmtOf (if out = 1 then 4 else 3)).rne (f32.dec v)

/-- Bytes of an `MSTORE`, rows in ascending order: addresses and values (R403). -/
def storeBytes (i : Image) (g : Grant) (slot out addr stride : Nat) : List (Nat × Nat) :=
  let e := if out = 0 then 4 else 2
  (List.range g.m).flatMap fun r => (List.range g.n).flatMap fun c =>
    (leBytes e (storeElem out (i.acc slot (r * g.n + c)).toNat)).zipIdx.map fun b =>
      ((addr + r * stride + c * e + b.2) % 2 ^ 64, b.1.toNat)

/-- The global destination lines of a command in the order of its windows, by virtual number. -/
def Command.outLines (c : Command) (i : Image) : List Nat :=
  match c.kind, i.grant with
  | .tcopy d, _ => if d.dkind = 0 then dedup (d.pairs.map fun p => (p.2 % 2 ^ 64).toNat / 128) else []
  | .mstore slot kind out addr stride, some g =>
    if kind = 0 then sortBy (fun l => l) (dedup ((storeBytes i g slot out addr stride).map fun b => b.1 / 128)) else []
  | _, _ => []

-- ## Abandoned commands (R187)

/-- Bytes at consecutive addresses make one write within a line. -/
def writeRuns : List (Nat × Nat) → List (Nat × List Nat)
  | [] => []
  | w :: ws =>
    match writeRuns ws with
    | (a, bs) :: r => if w.1 + 1 = a && w.1 / 128 = a / 128 then (w.1, w.2 :: bs) :: r else (w.1, [w.2]) :: (a, bs) :: r
    | [] => [(w.1, [w.2])]

/-- The global bytes that command `id` was to write to some lines are undefined: the device writes free bytes there, with the lines' tokens
(R35, log 10). -/
def State.spoilLines (s : State) (id : Nat) (c : Command) (b : Block) (k : Kernel) (rest : List Nat) : State :=
  let dst : List Nat := match c.kind, b.img.grant with
    | .tcopy d, _ => d.pairs.map fun (p : Int × Int) => (p.2 % 2 ^ 64).toNat
    | .mstore sl _ out addr stride, some g => (storeBytes b.img g sl out addr stride).map Prod.fst
    | _, _ => []
  let dst := dst.filter fun a => rest.contains (a / 128)
  let (s, fs) := s.freeBytes dst.length
  s.post ((writeRuns (dst.zip fs)).map fun w =>
    { vd := k.vd, dest := .virt k.asid w.1, bytes := w.2.map (BitVec.ofNat 8), cmd := some id })

/-- Undefined bytes that a command leaves are still being written: they come before what it writes itself. -/
def State.spoiling (s : State) (id : Nat) : Bool := s.posted.any fun p => p.cmd = some id

/-- Free bytes at the local destination of a copy, in every receiver. -/
def State.landFree (s : State) (c : Command) (b : Block) (k : Kernel) (d : CopyDesc) : State :=
  let (s, fs) := s.freeBytes d.pairs.length
  let ws := (d.pairs.zip fs).map fun t => (t.1.2.toNat, t.2)
  if d.dkind = 1 then s.landWeight b.die (ws.map fun w => (w.1 + (s.region b.die k.vd).base * 2 ^ 20, w.2))
  else (if d.multicast then c.receivers else [c.warp.blk]).foldl (fun s r => s.setImg r fun i => i.land d.dkind ws) s

/-- The destination regions of an abandoned command are undefined. -/
def State.spoilAll (s : State) (id : Nat) (c : Command) (b : Block) (k : Kernel) : State :=
  match c.kind with
  | .tcopy d => if d.dkind = 0 then s.spoilLines id c b k (c.outLines b.img) else s.landFree c b k d
  | .cpa lanes size _ => lanes.foldl (fun s l =>
      let (s, fs) := s.freeBytes size
      s.setImg c.warp.blk fun i => i.land 2 (fs.zipIdx.map fun f => (l.2.1 + f.2, f.1))) s
  | .mstore .. => s.spoilLines id c b k (c.outLines b.img)
  | .step _ => s

/-- A command as it is issued again from its descriptor. -/
def Command.again (c : Command) : Command :=
  { c with
    started := false, parked := none, window := [], incs := [], done := [], wrote := [], source := []
    kind := match c.kind with | .cpa lanes size _ => .cpa lanes size [] | k => k }

/-- A block is being saved. -/
def State.isSaving (s : State) (n : Nat) : Bool := (s.blk n).any fun b => match b.place with | .saving _ => true | _ => false

/-- A command that is parked on a replayable fault while its block or a receiver is being saved is abandoned: its block's save keeps its
descriptor, or it is issued again at once; what its log holds of it is dropped. -/
def State.abandonCmd (s : State) (id : Nat) : State :=
  match find s.cmds id with
  | none => s
  | some c =>
    match s.blk c.warp.blk, (s.blk c.warp.blk).bind fun b => s.kern b.kernel with
    | some b, some k =>
      let s := s.dropWaits fun e => match e.waiter with | some (.command i) => i = id | _ => false
      let s := (s.spoilAll id c b k).setCmd id fun c => { c.again with gone := s.isSaving c.warp.blk }
      match c.log with
      | none => s
      | some i => s.setBlk c.warp.blk fun b => { b with log := modAt b.log i fun e => { e with vals := [] } }
    | _, _ => s

/-- A parked command is a copy or an `MSTORE` of block `n`, or to it: it is abandoned when `n` is saved (R187). -/
def Command.parkedAt (c : Command) (n : Nat) : Bool :=
  c.parked.isSome && !c.kind.isStep && (c.warp.blk = n || c.receivers.contains n)

/-- Parked commands are abandoned as the save of block `n` begins. -/
def State.abandonFor (s : State) (n : Nat) : State := (keys (pick s.cmds fun c => c.parkedAt n)).foldl State.abandonCmd s

/-- A command parks with its records; while the wait table is full it retries (R151). One that parks during a save is abandoned. -/
def State.parkCmd (s : State) (id : Nat) (c : Command) (v : Nat) (rs : List FRecord) : Option State :=
  (s.enterWait (c.cluster / 16) v (.command id) rs).map fun r =>
    let s := r.2.setCmd id fun c => { c with parked := some (c.cluster / 16, r.1) }
    if (c.warp.blk :: c.receivers).any s.isSaving then s.abandonCmd id else s

/-- A copy that does not write global memory, as a whole. -/
def State.copyLocal (s0 : State) (id : Nat) (c : Command) (b : Block) (k : Kernel) (slot : Nat) (d : CopyDesc) : Option State :=
  let ps := d.pairs
  let land := fun (s : State) (bs own : List Nat) =>
    let at' := fun (bs : List Nat) => (ps.zip bs).map fun t => (t.1.2.toNat, t.2)
    if d.dkind = 1 then s.landWeight b.die ((at' bs).map fun w => (w.1 + (s.region b.die k.vd).base * 2 ^ 20, w.2))
    else (if d.multicast then c.receivers else [c.warp.blk]).foldl
      (fun s r => s.setImg r fun i => i.land d.dkind (at' (if r = c.warp.blk then own else bs))) s
  match s0.stage .engineCommandComplete id c b k slot d ps with
  | (s, .wait) => s0.news s
  | (s, .park rs) => s.parkCmd id c k.vd rs
  | (s, .bad code e acc) =>
    let (s, fs) := s.freeBytes ps.length
    some ((land (s.setCmd id fun c => c.fail code e acc) fs fs).endCommand id)
  | (s, .ok bs) =>
    let (s, own) := s.spoil d ps bs
    some ((land (s.noteAt c.warp.blk c.log bs) bs own).endCommand id)

-- ## Lanes of CPA (R364, R365)

/-- One lane: its bytes, a park, or an error. -/
def State.cpaLane (s : State) (id : Nat) (c : Command) (k : Kernel) (slot size : Nat) (l : Nat × Nat × Nat × Nat) : State × Staged :=
  match c.served with
  | some vals =>
    let i := ((List.range (vals.length / (size + 1))).find? fun j => vals[j * (size + 1)]? = some l.1).getD 0
    (s, .ok ((vals.drop (i * (size + 1) + 1)).take size))
  | none =>
    let n := l.2.2.2
    let as := (List.range n).map fun i => (l.2.2.1 + i) % 2 ^ 64
    if n = 0 then (s, .ok (List.replicate size 0)) else
    match s.readBytes .engineCommandComplete id c k slot as with
    | (s, .park rs) => (s, .park (rs.map fun r => { r with lanes := laneBit l.1, log2w := Nat.log2 size }))
    | (s, .ok bs) => (s, .ok (bs ++ List.replicate (size - n) 0))
    | (s, .bad code e acc) => (s, .bad code e { acc with lanes := laneBit l.1, log2w := Nat.log2 size })
    | (s, r) => (s, r)

/-- One record for each page, with the mask of the lanes on it. -/
def mergeRecords (rs : List FRecord) : List FRecord :=
  (dedup (rs.map fun r => r.va.toNat / 4096)).filterMap fun p =>
    let on := rs.filter fun r => r.va.toNat / 4096 = p
    match sortBy (fun r => r.va.toNat) on with
    | [] => none
    | r :: _ => some { r with lanes := on.foldl (fun m r => m ||| r.lanes) 0#32 }

/-- Lands the lanes not yet landed; those that wait for tokens land later, and then those on missing pages park the command. -/
def State.cpaRun (s0 : State) (id : Nat) (c : Command) (k : Kernel) (slot size : Nat) (lanes : List (Nat × Nat × Nat × Nat))
    (landed : List Nat) : Option State :=
  let todo := lanes.filter fun l => !landed.contains l.1
  let (s, ok, rs) := todo.foldl
    (fun (t : State × List Nat × List FRecord) l =>
      match t.1.cpaLane id c k slot size l with
      | (s, .wait) => (s, t.2)
      | (s, .park r) => (s, t.2.1, t.2.2 ++ r)
      | (s, .bad code e acc) =>
        let (s, fs) := s.freeBytes size
        let s := (s.setCmd id fun c => c.fail code e acc).noteAt c.warp.blk c.log (l.1 :: fs)
        (s.setImg c.warp.blk fun i => i.land 2 (fs.zipIdx.map fun f => (l.2.1 + f.2, f.1)), t.2.1 ++ [l.1], t.2.2)
      | (s, .ok bs) =>
        let s := s.noteAt c.warp.blk c.log (l.1 :: bs)
        (s.setImg c.warp.blk fun i => i.land 2 (bs.zipIdx.map fun f => (l.2.1 + f.2, f.1)), t.2.1 ++ [l.1], t.2.2))
    (s0, [], [])
  if ok.length = todo.length then some (s.endCommand id) else
  let s := s.setCmd id fun c => { c with kind := .cpa lanes size (landed ++ ok) }
  let waits := todo.any fun l => !ok.contains l.1 && !rs.any fun r => r.lanes.getLsbD l.1
  if waits then s0.news s else some ((s.parkCmd id c k.vd (mergeRecords rs)).getD s)

-- ## Ownership windows (R212, R369, R403)

/-- The bytes that a command is to write to some of its lines, as read. -/
def State.outBytes (s : State) (id : Nat) (c : Command) (b : Block) (k : Kernel) (slot : Nat) (ls : List Nat) :
    State × Except Staged (List (Nat × Nat)) :=
  match c.kind, b.img.grant with
  | .tcopy d, _ =>
    let ps := d.pairs.filter fun p => ls.contains ((p.2 % 2 ^ 64).toNat / 128)
    match s.stage .ownershipWindow id c b k slot d ps with
    | (s, .ok bs) => (s, .ok ((ps.zip bs).map fun t => ((t.1.2 % 2 ^ 64).toNat, t.2)))
    | (s, r) => (s, .error r)
  | .mstore sl _ out addr stride, some g =>
    (s, .ok ((storeBytes b.img g sl out addr stride).filter fun w => ls.contains (w.1 / 128)))
  | _, _ => (s, .ok [])

/-- The bytes that a command writes once they are staged: the proof log takes them as read (R269), and what source and destination
share is undefined (R367). -/
def State.staged (s : State) (c : Command) (ls : List Nat) (ws : List (Nat × Nat)) : State × List (Nat × Nat) :=
  let s := s.noteAt c.warp.blk c.log (ws.map Prod.snd)
  match c.kind with
  | .tcopy d =>
    let ps := d.pairs.filter fun p => ls.contains ((p.2 % 2 ^ 64).toNat / 128)
    let (s, own) := s.spoil d ps (ws.map Prod.snd)
    (s, (ws.zip own).map fun t => (t.1.1, t.2))
  | _ => (s, ws)

/-- A line's staged bytes and mask. -/
def stagedLine (ws : List (Nat × Nat)) (l : Nat) : LineData × ByteMask :=
  (ws.filter fun w => w.1 / 128 = l).foldl
    (fun r w => (setLineByte r.1 (w.1 % 128) (BitVec.ofNat 8 w.2), r.2 ||| byteMask (w.1 % 128) 1)) (0#1024, 0#128)

/-- A command that ends in an error leaves the bytes not yet written undefined (R369, R403). -/
def State.spoilRest (s : State) (id : Nat) (c : Command) (b : Block) (k : Kernel) (code : Nat) (e : Word) (acc : ErrAccess) : State :=
  let rest := (c.outLines b.img).filter fun l => !c.done.contains l
  (s.setCmd id fun c => { c.fail code e acc with window := [], incs := [], done := c.done ++ rest }).spoilLines id c b k rest

/-- `OWNERSHIP_WINDOW`: stages the next window of up to 64 lines, or asks for the tokens of its lowest line. -/
def ownershipWindow (s : State) : Option State :=
  match s.focus with
  | .command id => (find s.cmds id).bind fun c => (s.blk c.warp.blk).bind fun b => (s.kern b.kernel).bind fun k =>
    if !c.started || c.parked.isSome then none else
    match c.window with
    | w :: _ =>
      s.askFor .ownershipWindow (c.cluster / 16) w.2.1 k.vd (look c.incs w.2.1 0) true
    | [] =>
      let slot := match s.warp c.warp with | some x => x.slot | none => 0
      let ls := ((c.outLines b.img).filter fun l => !c.done.contains l).take 64
      if ls.isEmpty || s.spoiling id then none else
      match s.outBytes id c b k slot ls with
      | (t, .error .wait) => s.news t
      | (s, .error (.park rs)) => s.parkCmd id c k.vd rs
      | (s, .error (.bad code e acc)) => some (s.spoilRest id c b k code e acc)
      | (_, .error (.ok _)) => none
      | (t, .ok ws) =>
        match t.engineLines c k.vd k.asid slot 5 (ws.map Prod.fst) with
        | (t, .error .wait) => s.news t
        | (s, .error (.park rs)) => s.parkCmd id c k.vd rs
        | (s, .error (.bad code e acc)) => some (s.spoilRest id c b k code e acc)
        | (_, .error (.ok _)) => none
        | (s, .ok pls) =>
          let (s, ws) := s.staged c ls ws
          some (s.setCmd id fun c => { c with source := [], incs := pls.foldl (fun m p => put m p.2 (s.lineInc p.2)) [], window := sortBy (fun w => w.2.1) (pls.map fun p =>
            let (d, m) := stagedLine ws p.1
            (p.1, p.2, d, m)) })
  | _ => none

def execOwnershipWindow (s : State) := runDevice s ownershipWindow

/-- A line written whole by an engine is lost no more (R87). -/
def State.heal (s : State) (line : Nat) (m : ByteMask) : State :=
  if m != BitVec.allOnes 128 then s else { s with hbm := { s.hbm with lost := s.hbm.lost.filter (· ≠ line) } }

/-- `ENGINE_WRITE_LANDED`: the lowest line of a window whose tokens the die holds is written and handed to die L2 (R42). -/
def engineWriteLanded (s : State) : Option State :=
  match s.focus with
  | .held (.die d) line =>
    if !s.satisfied (some (.die d)) line true then none else
    match s.cmds.find? fun c => c.2.cluster / 16 = d && (c.2.window.head?).any fun w => w.2.1 = line with
    | none => none
    | some (id, c) =>
      match c.window with
      | [] => none
      | w :: rest =>
        let s := ((s.pokeMask line w.2.2.1 w.2.2.2).markDirty d line).heal line w.2.2.2
        let s := s.setHeld (.die d) line { s.held' (.die d) line with lost := s.isLost line }
        let s := s.setCmd id fun c => { c with window := rest, done := c.done ++ [w.1], wrote := c.wrote ++ [line] }
        some (s.obey (.die d) line)
  | _ => none

def execEngineWriteLanded (s : State) := runDevice s engineWriteLanded

-- ## ENGINE_COMMAND_COMPLETE (R230)

/-- `ENGINE_COMMAND_COMPLETE`: what remains of a started command lands, and it completes; or it parks. -/
def engineCommandComplete (s : State) : Option State :=
  match s.focus with
  | .command id => (find s.cmds id).bind fun c => (s.blk c.warp.blk).bind fun b => (s.kern b.kernel).bind fun k =>
    if !c.started || c.parked.isSome then none else
    let slot := match s.warp c.warp with | some x => x.slot | none => 0
    match c.kind with
    | .step m => some ((s.setImg c.warp.blk fun i => i.step m).endCommand id)
    | .cpa lanes size landed => s.cpaRun id c k slot size lanes landed
    | .tcopy d =>
      if d.dkind = 0 then
        (if c.window.isEmpty && (c.outLines b.img).all c.done.contains && !s.spoiling id then some (s.endCommand id) else none)
      else s.copyLocal id c b k slot d
    | .mstore sl kind out addr stride =>
      if kind = 0 then
        (if c.window.isEmpty && (c.outLines b.img).all c.done.contains && !s.spoiling id then some (s.endCommand id) else none)
      else b.img.grant.map fun g =>
        (s.setImg c.warp.blk fun i => i.land 2 (storeBytes i g sl out addr stride)).endCommand id
  | _ => none

def execEngineCommandComplete (s : State) := runDevice s engineCommandComplete

-- ## Power units (R218, R219, R401)

/-- Operand bytes that a step reads (R397, R401): of A by offset, then of B by offset above 8,192. -/
def stepBytes (i : Image) (m : MStep) : List (Nat × Byte) :=
  match i.grant with
  | none => []
  | some g =>
    let side := fun (base id rows : Nat) =>
      if m.op = 0xD6 then [] else
      if m.op = 0xD9 then (List.range rows).map fun r => (base + r * recBytes g.type, i.omem.read (8192 * id + r * recBytes g.type))
      else (i.omem.bytes (8192 * id) (rows * (if g.type ≤ 4 then 64 else if g.type = 7 then 32 else recBytes g.type))).zipIdx.map
        fun b => (base + b.2, b.1)
    side 0 m.a g.m ++ side 8192 m.b g.n

/-- Bits that differ between two lists of bytes by rising offset, at the offsets of the first; an offset that only the
first holds counts against 0 (log 41). -/
def bitDiff : List (Nat × Byte) → List (Nat × Byte) → Nat
  | [], _ => 0
  | b :: bs, ps =>
    let ps := ps.dropWhile fun p => p.1 < b.1
    let old := match ps with | p :: _ => (if p.1 = b.1 then p.2 else 0#8) | [] => 0#8
    popCount 8 (b.2 ^^^ old).toNat + bitDiff bs ps

/-- The bytes read last, after a step that reads the first list. -/
def overlay : List (Nat × Byte) → List (Nat × Byte) → List (Nat × Byte)
  | [], ps => ps
  | b :: bs, ps =>
    (ps.takeWhile fun p => p.1 < b.1) ++ b :: overlay bs (ps.dropWhile fun p => p.1 ≤ b.1)

/-- Power units of a step (R218). -/
def stepUnits (i : Image) (m : MStep) (prev : List (Nat × Byte)) : Nat :=
  match i.grant with
  | none => 0
  | some g => g.m * g.n / 256 + (bitDiff (stepBytes i m) prev + 1023) / 1024

/-- The heads of a cluster's step queues that the scoreboard allows, oldest first: id, command, units. -/
def State.stepHeads (s : State) (g : Nat) : List (Nat × Command × Nat) :=
  let waiting := sortBy (fun c : Nat × Command => c.2.order) (s.cmds.filter fun c => c.2.cluster = g && c.2.kind.isStep && !c.2.started)
  let heads := waiting.filter fun c => !waiting.any fun o => o.2.warp.blk = c.2.warp.blk && o.2.order < c.2.order
  heads.filterMap fun c =>
    if s.conflicts c.2 then none else
    match c.2.kind, s.blk c.2.warp.blk with
    | .step m, some b => if b.place = .resident g then some (c.1, c.2, stepUnits b.img m (s.cl g).prev) else none
    | _, _ => none

/-- The step that the engine of cluster `g` would start (R219). -/
def State.nextStep (s : State) (g : Nat) : Option (Nat × Command × Nat) :=
  if s.cmds.any fun c => c.2.cluster = g && c.2.kind.isStep && c.2.started then none else
  let hs := s.stepHeads g
  let k := s.cl g
  let pick := if k.mxLevel < k.mxLimit then (sortBy (fun h : Nat × Command × Nat => h.2.2) hs).head? else hs.head?
  pick.bind fun h => if h.2.2 ≤ k.mxLevel then some h else none

/-- `MATRIX_STEP_START`. -/
def matrixStepStart (s : State) : Option State :=
  match s.focus with
  | .command id => (find s.cmds id).bind fun c => (s.nextStep c.cluster).bind fun h =>
    if h.1 != id then none else
    match c.kind, s.blk c.warp.blk with
    | .step m, some b =>
      let s := s.setCl c.cluster fun k =>
        { k with mxLevel := k.mxLevel - h.2.2, prev := overlay (stepBytes b.img m) k.prev }
      some (s.setCmd id fun c => { c with started := true })
    | _, _ => none
  | _ => none

def execMatrixStepStart (s : State) := runDevice s matrixStepStart

/-- `MATRIX_BUDGET_REFILL` (R219). -/
def matrixBudgetRefill (s : State) : Option State :=
  match s.focus with
  | .cluster g => some (s.setCl g fun k => { k with mxLevel := min (2 * k.mxLimit) (k.mxLevel + k.mxLimit) })
  | _ => none

def execMatrixBudgetRefill (s : State) := runDevice s matrixBudgetRefill

-- ## MLOOP_STEP_ISSUE (R404)

/-- The sequencer after it has issued one step; none after the last. -/
def Sequencer.next (q : Sequencer) : Option Sequencer :=
  let q := if q.idx + 1 < q.body.length then { q with idx := q.idx + 1 } else { q with idx := 0, iter := q.iter + 1 }
  if q.iter < q.count then some q else none

/-- `MLOOP_STEP_ISSUE`: the sequencer's next step takes its queue and scoreboard entries, before any warp in its cycle (R405). -/
def mloopStepIssue (s : State) : Option State :=
  match s.focus with
  | .blk n => (s.blk n).bind fun b => b.img.seq.bind fun q => (q.step q.iter q.idx).bind fun m => b.cluster.bind fun g =>
    (s.warp q.warp).bind fun x =>
      if b.place != .resident g || 8 ≤ s.stepQueue n || 32 ≤ s.sbUsed g || (s.cl g).sbAt = some s.now || x.classFull 3 1 then none else
      let s := s.setCl g fun k => { k with sbAt := some s.now }
      let cmd : Command := { kind := .step m, cluster := g, warp := q.warp, tag := none, pc := q.pc, reads := m.reads
                             write := some m.write, order := s.nextId }
      let s := { s with nextId := s.nextId + 1, cmds := put s.cmds s.nextId cmd }
      let s := s.setImg n fun i => { i with seq := q.next }
      some (s.setWarp q.warp fun x => if q.next.isSome then x.addClass 3 1 else x)
  | _ => none

def execMloopStepIssue (s : State) := runDevice s mloopStepIssue

end Sys2Proof.Machine
end

