-- ==== Sys2Proof/Machine/Power.lean ====
section
/-!
DEFINITION. The power manager (R24, R26), junction temperatures (R27) and the weight stores' refresh phases (R74).
-/
namespace Sys2Proof.Machine

/-- `POWER_MODE_CLOCK_SETTLE`: clusters leave the lower of the two clocks (R24). -/
def powerModeClockSettle (s : State) : Option State :=
  match s.power.settle with
  | some (_, t) => if t ≤ s.now then some { s with power := { s.power with settle := none } } else none
  | none => none

def execPowerModeClockSettle (s : State) := runDevice s powerModeClockSettle

/-- The cap of a power mode in milliwatts (R24). -/
def capMilliwatts (m : Nat) : Nat := if m = 0 then 15000000 else if m = 1 then 12000000 else 9000000

/-- The largest budget of a power mode in sixteenths: its cap's share of the default cap, in whole steps. R25 says that the budget is
scaled to the mode and not by what; the figures are the model's choice (log 79). -/
def modeSteps (m : Nat) : Nat := if m = 0 then 16 else if m = 1 then 12 else 9

/-- Sets every cluster's `LIMIT` to 256 × k/16 (R218); `LEVEL` stays within twice it. -/
def State.setBudget (s : State) (k : Nat) : State :=
  let s := { s with power := { s.power with k } }
  (List.range 512).foldl (fun s g => s.setCl g fun c =>
    { c with mxLimit := 16 * k, mxLevel := min c.mxLevel (32 * k) }) s

/-- `POWER_WINDOW_END` (R26). -/
def powerWindowEnd (s : State) : Option State :=
  match s.focus with
  | .power mw =>
    let cap := capMilliwatts s.power.mode
    let low := if 100 * mw ≤ 95 * cap then s.power.low + 1 else 0
    let s := { s with power := { s.power with low } }
    let k := s.power.k
    some (if cap < mw then s.setBudget (max 1 (k - 1))
      else if 10 ≤ low && k < modeSteps s.power.mode then s.setBudget (k + 1) else s)
  | _ => none

def execPowerWindowEnd (s : State) := runDevice s powerWindowEnd

/-- `TEMPERATURE_REPORT` (R27): half clock from 105 °C until below 100 °C, a fatal error of the die at 115 °C. -/
def temperatureReport (s : State) : Option State :=
  match s.focus with
  | .temp d t =>
    if 32 ≤ d then
      some (if 1150 ≤ t then { s with agenda := s.agenda ++ [(.deviceReset, .none)] } else s)
    else if !s.dieEnabled d then none
    else
      let s := s.setDie d fun x => { x with temp := t, hot := if 1050 ≤ t then true else if t < 1000 then false else x.hot }
      some (if 1150 ≤ t then { s with agenda := s.agenda ++ [(.fatalDieError, .die d)] } else s)
  | _ => none

def execTemperatureReport (s : State) := runDevice s temperatureReport

/-- When a die's refresh phase ends. -/
def Die.phaseEnd (d : Die) : Nat := d.phaseStart + ticksPerNs * d.phaseNs

/-- `REFRESH_PHASE_END` (R74): the next phase's length is fixed as it begins. -/
def refreshPhaseEnd (s : State) : Option State :=
  match s.focus with
  | .die d =>
    let x := s.die d
    if s.now < x.phaseEnd then none else
    some (s.setDie d fun x =>
      { x with phase := (x.phase + 1) % 8, phaseStart := x.phaseEnd, phaseNs := if 1050 ≤ x.temp then 256 else 512 })
  | _ => none

def execRefreshPhaseEnd (s : State) := runDevice s refreshPhaseEnd

end Sys2Proof.Machine
end

