-- ==== Sys2Proof/Machine/Hbm.lean ====
section
/-!
DEFINITION. HBM4E behind the homes: counters, encryption and MACs (R75–R78), quota buckets and slots (R81–R83), reads, writes
and errors (R84, R87), and the regeneration of a killed VD's frames (R52).
-/
namespace Sys2Proof.Machine

-- ## Counters and ciphertext (R75–R78)

/-- A line's counter group: slice, then group within the slice (R66). -/
def groupKey (line : Nat) : Nat := sliceOf (128 * line) * 2 ^ 20 + groupOf (128 * line)

/-- The tree node of level 1–6 over a group: its two groups' counter line, then 8 children a level (R77). -/
def nodeIndex (group level : Nat) : Nat := group / 2 / 8 ^ level
def nodeKey (line level : Nat) : Nat :=
  (sliceOf (128 * line) * 8 + level) * 2 ^ 16 + nodeIndex (groupOf (128 * line)) level

def State.group (s : State) (line : Nat) : Counters := look s.hbm.groups (groupKey line) {}
def State.node (s : State) (line level : Nat) : Counters := look s.hbm.nodes (nodeKey line level) {}

def majorMax : Nat := 2 ^ 57 - 1

/-- The 128-bit counter block of a line's 16-byte block `i` (R75): 34, 3, 57, 7 and 8 bits and 19 zeros. -/
def counterBlock (line i major minor gen : Nat) : BitVec 128 :=
  BitVec.ofNat 128 (((((bits (128 * line) 40 7 * 8 + i) * 2 ^ 57 + major) * 128 + minor) * 256 + gen) * 2 ^ 19)

/-- A line's minor counter. -/
def State.minor (s : State) (line : Nat) : Nat := look (s.group line).minors (memberOf (128 * line)) 0

/-- The MAC of a line's ciphertext under its counters (R75). -/
def State.mac (s : State) (line : Nat) (c : LineData) : BitVec 64 :=
  let t := s.tag (128 * line)
  Config.gmac t.key (leBytes 128 c.toNat ++ leBytes 8 (128 * line) ++ leBytes 8 (s.group line).major ++ leBytes 1 (s.minor line) ++
    leBytes 1 t.gen)

/-- A line's ciphertext and MAC under its counters (R75). -/
def State.encrypt (s : State) (line : Nat) (d : LineData) : LineData × BitVec 64 :=
  let t := s.tag (128 * line)
  let pad := (List.range 8).foldl (fun (p : LineData) (i : Nat) =>
    p ||| ((Config.aes t.key (counterBlock line i (s.group line).major (s.minor line) t.gen)).setWidth 1024 <<< (128 * i))) 0#1024
  let c := d ^^^ pad
  (c, s.mac line c)

/-- Encrypts a line and stores it with its MAC. -/
def State.seal' (s : State) (line : Nat) : State :=
  { s with hbm := { s.hbm with cipher := put s.hbm.cipher line (s.encrypt line (s.lineData line)) } }

/-- Re-encrypts the stored lines that `p` selects. -/
def State.reseal (s : State) (p : Nat → Bool) : State :=
  ((keys s.hbm.cipher).filter p).foldl State.seal' s

/-- A line under a frozen group or node: its writes wait (R78). -/
def State.frozen (s : State) (line : Nat) : Bool :=
  (s.group line).frozen || (List.range 6).any fun k => (s.node line (k + 1)).frozen

/-- Frames of a chunk's bound frames that have a line under a counter. -/
def State.framesUnder (s : State) (p : Nat → Bool) : List Nat :=
  (keys (pick s.hbm.tags fun t => t.bound)).filter fun f => (List.range 32).any fun i => p (32 * f + i)

/-- Tells the VDC that the counters over frames are exhausted; nothing where all their VDs are being killed (R136). -/
def State.exhausted (s : State) (fs : List Nat) (key level : Nat) : State :=
  if !fs.isEmpty && fs.all (fun f => (s.vd (s.keyVd (s.tag (4096 * f)).key)).state = .killing) then s else s.emit (.vdc 0x19 0 key level)

/-- Freezes what a counter at its limit covers and tells the VDC (R78). -/
def State.freezeGroup (s : State) (line : Nat) : State :=
  let fs := s.framesUnder fun l => groupKey l = groupKey line
  ({ s with hbm := { s.hbm with groups := upd s.hbm.groups (groupKey line) {} fun g => { g with frozen := true, stale := fs } } }
    ).exhausted fs (groupKey line) 0
def State.freezeNode (s : State) (line level : Nat) : State :=
  let fs := s.framesUnder fun l => nodeKey l level = nodeKey line level
  ({ s with hbm := { s.hbm with nodes := upd s.hbm.nodes (nodeKey line level) {} fun g => { g with frozen := true, stale := fs } } }
    ).exhausted fs (nodeKey line level) level

-- ## MACs of counter lines and nodes (R77)

/-- The place of a counter line (level 0) or a node (levels 1–5) of a slice among the stored MACs. -/
def treeKey (slice level i : Nat) : Nat := (slice * 8 + level) * 2 ^ 20 + i

/-- Counters as the bits of R76 (minors of 7 bits) and R77 (48 bits). -/
def Counters.number (c : Counters) (width : Nat) : Nat := c.minors.foldl (fun n m => n + m.2 * 2 ^ (57 + width * m.1)) c.major

/-- The 128 bytes of a counter line, two groups, or of a node. -/
def State.treeBytes (s : State) (slice level i : Nat) : List Byte :=
  if level = 0 then
    leBytes 64 ((look s.hbm.groups (slice * 2 ^ 20 + 2 * i) {}).number 7) ++
    leBytes 64 ((look s.hbm.groups (slice * 2 ^ 20 + 2 * i + 1) {}).number 7)
  else leBytes 128 ((look s.hbm.nodes ((slice * 8 + level) * 2 ^ 16 + i) {}).number 48)

/-- Its MAC, with its parent's `MAJOR` and its own `MINOR` there. A counter line serves two chunks, and so VDs: that its key is key id
0's, and that its place stands for an address, which R77 does not give, is the model's choice (log 42). -/
def State.treeMac (s : State) (slice level i : Nat) : BitVec 64 :=
  let p := look s.hbm.nodes ((slice * 8 + level + 1) * 2 ^ 16 + i / 8) {}
  Config.gmac 0 (s.treeBytes slice level i ++ leBytes 8 (treeKey slice level i) ++ leBytes 8 p.major ++ leBytes 6 (look p.minors (i % 8) 0))

/-- Stores the MAC of a child. -/
def State.remac (s : State) (slice level i : Nat) : State :=
  { s with hbm := { s.hbm with treeMacs := put s.hbm.treeMacs (treeKey slice level i) (s.treeMac slice level i) } }

/-- The tree above a line checks (R77); a MAC that no write has stored is as bring-up made it. -/
def State.treeOk (s : State) (line : Nat) : Bool :=
  let slice := sliceOf (128 * line)
  (List.range 6).all fun k =>
    let i := nodeIndex (groupOf (128 * line)) k
    (find s.hbm.treeMacs (treeKey slice k i)).all fun m => m = s.treeMac slice k i

/-- After a write of a line the children on its path are MACed anew, and all 8 where their parent's `MAJOR` has moved. -/
def State.remacPath (s : State) (line : Nat) (old : NMap Counters) : State :=
  let slice := sliceOf (128 * line)
  (List.range 6).foldl (fun s k =>
    let i := nodeIndex (groupOf (128 * line)) k
    let moved := (look old (nodeKey line (k + 1)) {}).major != (s.node line (k + 1)).major
    (if moved then (List.range 8).map (8 * (i / 8) + ·) else [i]).foldl (fun s c => s.remac slice k c) s) s

/-- The child's number under its parent of a level. -/
def childOf (line level : Nat) : Nat := nodeIndex (groupOf (128 * line)) (level - 1) % 8

/-- Writing a child increments its parent's minor; a full minor moves to the next `MAJOR` (R77). -/
def Counters.bump (c : Counters) (child limit : Nat) : Counters :=
  let m := look c.minors child 0
  if m < limit then { c with minors := put c.minors child (m + 1) } else { c with major := c.major + 1, minors := [] }

/-- A bump that would pass `MAJOR`'s limit. -/
def Counters.exhausted (c : Counters) (child limit : Nat) : Bool := limit ≤ look c.minors child 0 && majorMax ≤ c.major

/-- The lowest level at which a write of a line cannot advance: 0 the group, 1–6 a node. -/
def State.exhaustedAt (s : State) (line : Nat) : Option Nat :=
  if (s.group line).exhausted (memberOf (128 * line)) 127 then some 0
  else (List.range 6).findSome? fun k =>
    if (s.node line (k + 1)).exhausted (childOf line (k + 1)) (2 ^ 48 - 1) then some (k + 1) else none

/-- The counters of a written line and of the tree above it advance (R76, R77). -/
def State.advance (s : State) (line : Nat) : State :=
  let g := s.group line
  let g' := g.bump (memberOf (128 * line)) 127
  let nodes := (List.range 6).foldl (fun m k =>
    upd m (nodeKey line (k + 1)) {} fun c => c.bump (childOf line (k + 1)) (2 ^ 48 - 1)) s.hbm.nodes
  let old := s.hbm.nodes
  let s := { s with hbm := { s.hbm with groups := put s.hbm.groups (groupKey line) g', nodes } }
  let s := s.remacPath line old
  if g'.major = g.major then s else s.reseal fun l => groupKey l = groupKey line

/-- Ends a request. -/
def State.dropReq (s : State) (id : Nat) : State := { s with hbm := { s.hbm with reqs := s.hbm.reqs.filter fun r => r.id != id } }

/-- `HBM4E_WRITE` (R75–R78): a write in service is encrypted under its next counters, or its counters freeze. -/
def hbm4eWrite (s : State) : Option State :=
  match s.focus with
  | .line line =>
    (s.hbm.reqs.find? fun r => r.line = line && r.write && r.stage = 1).bind fun r =>
      if s.frozen line then none else
      match s.exhaustedAt line with
      | some 0 => some (s.freezeGroup line)
      | some k => some (s.freezeNode line k)
      | none => some (((s.advance line).seal' line).dropReq r.id)
  | _ => none

def execHbm4eWrite (s : State) := runDevice s hbm4eWrite

-- ## Reads (R84)

/-- A stored line's MAC checks against its ciphertext and counters, and the tree above it (R77, R84). -/
def State.macOk (s : State) (line : Nat) : Bool :=
  s.treeOk line && (find s.hbm.cipher line).all fun c => c.2 = s.mac line c.1

/-- A read is over: the home's own steps that waited for the line go on, and it obeys what is in force. -/
def State.endRead (s : State) (r : HbmReq) : State :=
  let s := s.dropReq r.id
  { s with agenda := s.agenda ++ r.users ++ [(.persistentActivation, .line r.line)] }

/-- `HBM4E_READ_COMPLETE`: the line comes to the LLC, or one retry begins; a line that has come to the home meanwhile is read in vain. -/
def hbm4eReadComplete (s : State) : Option State :=
  match s.focus with
  | .lineOk line ok =>
    (s.hbm.reqs.find? fun r => r.line = line && !r.write && r.stage = 1).map fun r =>
      if s.ready line then s.endRead r
      else if ok && s.macOk line then (s.endRead r).fillLlc line r.vd false
      else { s with hbm := { s.hbm with reqs := modFirst (fun q => q.id = r.id) (fun q => { q with stage := 2 }) s.hbm.reqs } }
  | _ => none

def execHbm4eReadComplete (s : State) := runDevice s hbm4eReadComplete

/-- A line is lost (R84, R87). -/
def State.lose (s : State) (line : Nat) : State :=
  if s.isLost line then s else { s with hbm := { s.hbm with lost := s.hbm.lost ++ [line] } }

/-- `HBM4E_READ_RETRY_COMPLETE`: a transient error is logged; after a lasting one the line is lost and its frame retired. A
weight-store line's retry ends likewise; where it fails the line is lost until a write replaces it. -/
def hbm4eReadRetryComplete (s : State) : Option State :=
  match s.focus with
  | .lineOk line ok =>
    (s.hbm.reqs.find? fun r => r.line = line && !r.write && r.stage = 2).map fun r =>
      let s := s.endRead r
      if s.ready line then s
      else if ok && s.macOk line then
        ({ s with hbm := { s.hbm with transientErrors := s.hbm.transientErrors ++ [line] } }).fillLlc line r.vd false
      else
        let s := s.lose line
        ({ s with hbm := { s.hbm with retired := dedup (s.hbm.retired ++ [line / 32]) } }).emit (.vdc 0x10 r.vd (line / 32) 0)
  | .weightRetry d line ok => some (s.setDie d fun x =>
    if ok then { x with wtransient := x.wtransient ++ [line % 2 ^ 22] } else { x with wlost := dedup (x.wlost ++ [line % 2 ^ 22]) })
  | _ => none

def execHbm4eReadRetryComplete (s : State) := runDevice s hbm4eReadRetryComplete

-- ## Slots and quotas (R81–R83)

def State.bucket (s : State) (m v : Nat) : Bucket := look s.hbm.buckets (512 * m + v) {}
def State.setBucket (s : State) (m v : Nat) (f : Bucket → Bucket) : State :=
  { s with hbm := { s.hbm with buckets := upd s.hbm.buckets (512 * m + v) {} f } }

/-- A request is metered: its VD's bucket is enforced and its frame is not the VDC's (R81). -/
def State.metered (s : State) (r : HbmReq) : Bool :=
  r.vd < 512 && (s.bucket (mdieOf (128 * r.line)) r.vd).en && (s.tag (128 * r.line)).key != 0

/-- The class of a waiting request: 0 class A, 1 class B, 2 it waits for a refill (R83). -/
def State.slotClass (s : State) (r : HbmReq) : Nat :=
  let b := s.bucket (mdieOf (128 * r.line)) r.vd
  if r.write || !s.metered r || 0 < b.level then 0 else if b.idle then 1 else 2

/-- The row of a line in its pseudo-channel. -/
def rowOf (line : Nat) : Nat := localOf (128 * line) / 24 / (Config.rowLines + 1)

/-- The choice within a class: the oldest; one to the open row goes first while the oldest has waited under 200 ns. R83 says that it may:
that it always does is the model's choice (log 43). -/
def State.slotChoice (s : State) (ch : Nat) (rs : List HbmReq) : Option HbmReq :=
  match sortBy (fun r => r.time) rs with
  | [] => none
  | r :: rest =>
    if 200 * ticksPerNs ≤ s.now - r.time then some r
    else some (((r :: rest).find? fun q => some (rowOf q.line) = find s.hbm.openRow ch).getD r)

/-- `PSEUDO_CHANNEL_SLOT` (R83): the chosen request goes into service and is charged, with the transfers of counter lines and tree nodes
that it causes (R81). -/
def pseudoChannelSlot (s : State) : Option State :=
  match s.focus with
  | .channel st ch =>
    let n := 192 * st + ch
    let waiting := s.hbm.reqs.filter fun r => r.stage = 0 && stackOf (128 * r.line) = st && pchOf (128 * r.line) = ch
    let a := waiting.filter fun r => s.slotClass r = 0
    let b := waiting.filter fun r => s.slotClass r = 1
    let pick := if a.isEmpty then (s.slotChoice n b).map fun r => (r, true) else (s.slotChoice n a).map fun r => (r, false)
    pick.map fun (r, free) =>
      let s := { s with hbm := { s.hbm with
        openRow := put s.hbm.openRow n (rowOf r.line)
        reqs := modFirst (fun q => q.id = r.id) (fun q => { q with stage := 1, free }) s.hbm.reqs } }
      if !s.metered r then s
      else s.setBucket (mdieOf (128 * r.line)) r.vd fun k =>
        let n := 1 + Config.treeTransfers r.line s.now
        if free then { k with idled := k.idled + BitVec.ofNat 64 n }
        else { k with level := max (-(2 ^ 24)) (k.level - n), used := k.used + BitVec.ofNat 64 n }
  | _ => none

def execPseudoChannelSlot (s : State) := runDevice s pseudoChannelSlot

/-- `QUOTA_REFILL` (R82). -/
def quotaRefill (s : State) : Option State :=
  some { s with hbm := { s.hbm with
    buckets := mapv s.hbm.buckets fun b => { b with level := min (b.depth : Int) (b.level + b.rate) } } }

def execQuotaRefill (s : State) := runDevice s quotaRefill

-- ## SRAM errors (R87)

/-- `SRAM_UNCORRECTABLE_ERROR` in a die L2 or the LLC. -/
def sramUncorrectableError (s : State) : Option State :=
  match s.focus with
  | .sram (some (.die d)) line tagArray =>
    if tagArray then some { s with agenda := s.agenda ++ [(.fatalDieError, .die d)] } else
    let t := s.held' (.die d) line
    if t.tokens = 0 then none
    else if t.dirty then
      let s := s.setHeld (.die d) line { t with lost := true }
      some (s.sendHeld (.die d) line (homeOf line) t.tokens t.owner true t.ctx true)
    else some (s.sendHeld (.die d) line (homeOf line) t.tokens t.owner false t.ctx true)
  | .sram none line tagArray =>
    if tagArray then some { s with agenda := s.agenda ++ [(.deviceReset, .none)] } else
    (find s.coh.llc line).map fun t =>
      let s := { s with coh := { s.coh with llc := del s.coh.llc line } }
      if t.dirty then s.lose line else s
  | _ => none

def execSramUncorrectableError (s : State) := runDevice s sramUncorrectableError

-- ## Clearing and regenerating frames (R50, R52, R80)

/-- The lines of a frame. -/
def frameLines (f : Nat) : List Nat := (List.range 32).map (32 * f + ·)

/-- A group lies under a node: the node's key, the group's. -/
def underNode (n g : Nat) : Bool := n / 2 ^ 16 / 8 = g / 2 ^ 20 && nodeIndex (g % 2 ^ 20) (n / 2 ^ 16 % 8) = n % 2 ^ 16
/-- A node is another or lies under it. -/
def nodeUnder (n m : Nat) : Bool :=
  let l := m / 2 ^ 16 % 8
  let k := n / 2 ^ 16 % 8
  n / 2 ^ 16 / 8 = m / 2 ^ 16 / 8 && l ≤ k && m % 2 ^ 16 / 8 ^ (k - l) = n % 2 ^ 16

/-- A frozen part whose frames are all rekeyed or cleared counts again from zero, with what lies under it, and its lines are encrypted
anew (R78). -/
def State.unfreeze (s : State) (f : Nat) : State :=
  let ended := fun (c : Counters) => c.frozen && c.stale = [f]
  let less := fun (c : Counters) => { c with stale := c.stale.filter (· ≠ f) }
  let gs := keys (pick s.hbm.groups ended)
  let ns := keys (pick s.hbm.nodes ended)
  let goneG := fun (g : Nat) => gs.contains g || ns.any fun n => underNode n g
  let slices := gs.map (· / 2 ^ 20) ++ ns.map (· / 2 ^ 16 / 8)
  let s := { s with hbm := { s.hbm with
    groups := (s.hbm.groups.map fun (e : Nat × Counters) => (e.1, less e.2)).filter fun e => !goneG e.1
    nodes := (s.hbm.nodes.map fun (e : Nat × Counters) => (e.1, less e.2)).filter fun e => !ns.any fun n => nodeUnder n e.1 } }
  let s := s.reseal fun l => goneG (groupKey l)
  ((keys s.hbm.treeMacs).filter fun k => slices.contains (k / 2 ^ 20 / 8)).foldl
    (fun s k => s.remac (k / 2 ^ 20 / 8) (k / 2 ^ 20 % 8) (k % 2 ^ 20)) s

/-- A frame's cleared bits are set: its lines read zero and are lost no more (R80, R87). -/
def State.clearFrame (s : State) (f : Nat) : State :=
  let out := fun (l : Nat) => l / 32 != f
  { s with
    mem := s.mem.filter fun c => c.1 / 4096 != f
    coh := { s.coh with llc := s.coh.llc.filter fun e => out e.1 }
    hbm := { s.hbm with
      written := s.hbm.written.filter out, lost := s.hbm.lost.filter out
      cipher := s.hbm.cipher.filter fun e => out e.1
      reqs := s.hbm.reqs.filter fun r => out r.line } }.unfreeze f

-- ## Frames that take another key id (R32, R34, R78–R80)

/-- A binding of a bound frame to another key id of the same VD rekeys it (R78): its contents stay. -/
def State.rekeys (s : State) (f key : Nat) : Bool :=
  let t := s.tag (4096 * f)
  t.bound && t.key != key && (find s.keySlots key).isSome && find s.keySlots t.key = find s.keySlots key

/-- A step of the home's own waits for a line's data: it reads it, or joins the read that runs (R81, R84). -/
def State.readFor (s : State) (line v : Nat) (u : Instr × Focus) : State :=
  let s := s.readHbm line v
  let join := fun (r : HbmReq) => if r.line = line && !r.write && !r.users.contains u then { r with users := r.users ++ [u] } else r
  { s with hbm := { s.hbm with reqs := s.hbm.reqs.map join } }

/-- What the homes of a frame's lines do with all its tokens, and where it reads them with their data: they gather them first, and answer
no transient request meanwhile; then `k`, and what is in force is obeyed (log 77). None while all is asked for. -/
def State.withFrame (s : State) (me : Instr) (v f : Nat) (k : State → Option State) (data : Bool := false) : Option State :=
  if hbmEnd ≤ 4096 * f then k s else
  let lacking := (frameLines f).filter fun l => !s.satisfied none l true
  let absent := if data then (frameLines f).filter fun l => !s.ready l else []
  let r := if s.hbm.rekeying.contains f then s.hbm.rekeying else s.hbm.rekeying ++ [f]
  let t := { s with hbm := { s.hbm with rekeying := r } }
  if !lacking.isEmpty then s.news (lacking.foldl (fun s l => s.want none l true v (s.lineInc l) [(me, s.focus)]) t)
  else if !absent.isEmpty then s.news (absent.foldl (fun s l => s.readFor l v (me, s.focus)) t)
  else
    let s := { s with hbm := { s.hbm with rekeying := s.hbm.rekeying.filter (· ≠ f) } }
    (k s).map fun t => (frameLines f).foldl State.obeyHome t

/-- A frame whose tokens are all at home is bound: a rekeyed one is encrypted anew, any other is cleared (R78, R80). -/
def State.bind' (s : State) (f key : Nat) : State :=
  let t := s.tag (4096 * f)
  let set := fun (s : State) => { s with
    hbm := { s.hbm with tags := put s.hbm.tags f { t with key, bound := true } }
    coh := { s.coh with home := s.coh.home.filter fun e => e.1 / 32 != f } }
  if s.rekeys f key then ((set s).reseal fun l => l / 32 = f).unfreeze f else set (s.clearFrame f)

/-- Binds a frame, unless it is bound to the key id already, and goes on with `k`. -/
def State.bindFrame (s : State) (me : Instr) (v f key : Nat) (k : State → Option State) : Option State :=
  let t := s.tag (4096 * f)
  if t.bound && t.key = key then k s else s.withFrame me v f fun s => k (s.bind' f key)

/-- The age of the oldest flit that travels, as elapsed network cycles (R52's watermark). -/
def State.watermark (s : State) : Nat :=
  s.net.flying.foldl (fun m p => max m ((s.cycle % 2 ^ 48 + 2 ^ 48 - p.1.age) % 2 ^ 48)) 0

/-- A binding that would mix VDs within a chunk (R79), frames in `but` aside. Key id 0 is the VDC's and no VD's: that a chunk with a
frame bound to it refuses a VD's key id, and the other way round, is the model's choice (log 77). -/
def State.mixes (s : State) (but : List Nat) (f key : Nat) : Bool :=
  s.hbm.tags.any fun t => t.1 != f && !but.contains t.1 && t.1 / 512 = f / 512 && t.2.bound && s.keyVd t.2.key != s.keyVd key

/-- A retired frame is assigned no more (R88). -/
def State.retired (s : State) (f : Nat) : Bool := s.hbm.retired.contains f

/-- `TOKEN_REGENERATION` of a frame of a VD whose key is erased (R52); its value is the new key id and, at bit 10,
`BOUND`. -/
def tokenRegeneration (s : State) : Option State :=
  match s.focus with
  | .frame f value =>
    match s.vds.find? fun v => v.2.kill.any fun k => k.erased && k.frames.contains f with
    | none => none
    | some (v, x) =>
      match x.kill with
      | none => none
      | some k =>
        let killed := (s.now - k.time) / 15
        let key := value % 1024
        if killed ≤ s.watermark || (bit value 10 && (s.retired f || s.mixes k.frames f key)) then none else
        let gen := ((s.tag (4096 * f)).gen + 1) % 256
        let s := s.clearFrame f
        let s := { s with
          hbm := { s.hbm with tags := put s.hbm.tags f { key, gen, bound := bit value 10 } }
          coh := { s.coh with
            home := s.coh.home.filter fun e => e.1 / 32 != f
            held := mapv s.coh.held fun m => m.filter fun (e : Nat × Tag) => e.1 / 32 != f }
          cxl := { s.cxl with hostLines := s.cxl.hostLines.filter fun e => e.1 / 32 != f } }
        let left := k.frames.filter (· ≠ f)
        let s := s.setVd v fun x => { x with kill := some { k with frames := left } }
        some (if left.isEmpty then { s with agenda := s.agenda ++ [(.killAcksComplete, .vd v)] } else s)
  | _ => none

def execTokenRegeneration (s : State) := runDevice s tokenRegeneration

end Sys2Proof.Machine
end

