-- ==== Sys2Proof/Machine/Signal.lean ====
section
/-!
DEFINITION. What platen agents share: interrupts (R130, R131), writes by a platen agent, a queue engine's accesses (R122) and
completion signals (R128, R129).
-/
namespace Sys2Proof.Machine

-- ## Interrupts

/-- A vector of a function's MSI-X table: the PF is function 0, VD v is function v + 1 (R110, R111). -/
def State.vector (s : State) (fn n : Nat) : MsixVec :=
  if fn = 0 then look s.pf.msix n {} else look (s.vd (fn - 1)).msix n {}
def State.setVector (s : State) (fn n : Nat) (f : MsixVec → MsixVec) : State :=
  if fn = 0 then { s with pf := { s.pf with msix := upd s.pf.msix n {} f } }
  else s.setVd (fn - 1) fun v => { v with msix := upd v.msix n {} f }

/-- A function's interrupts are suppressed: its VD is in `KILLING` (R120). What step 7 of R133 raises comes after. -/
def State.silent (s : State) (fn : Nat) : Bool := fn != 0 && (s.vd (fn - 1)).state = .killing

/-- An unmasked vector with its pending bit set sends one message and clears the bit (R131). -/
def State.fire (s : State) (fn n : Nat) : State :=
  let v := s.vector fn n
  if v.masked || !v.pending || s.silent fn then s
  else (s.emit (.msix fn n v.data)).setVector fn n fun v => { v with pending := false }

/-- Sets a vector's pending bit (R131). -/
def State.pend (s : State) (fn n : Nat) : State := (s.setVector fn n fun v => { v with pending := true }).fire fn n

/-- A VD's source goes through its remap entry (R130). -/
def State.deliver (s : State) (v src : Nat) : State :=
  let e := look (s.vd v).remap src 0#32
  if !e.getLsbD 31 then s else s.pend (e.extractLsb' 6 10).toNat (e.extractLsb' 0 6).toNat

/-- A source is raised; a VD in `KILLING` or `FAULTED` raises none (R120). -/
def State.raise (s : State) (v src : Nat) : State :=
  match (s.vd v).state with
  | .killing | .faulted | .free => s
  | _ => s.deliver v src

/-- `MSIX_VECTOR_UNMASK`: function and vector stand in its focus. -/
def msixVectorUnmask (s : State) : Option State :=
  match s.focus with
  | .write fn n _ _ =>
    let v := s.vector fn n
    if v.masked || !v.pending || s.silent fn then none else some (s.fire fn n)
  | _ => none

def execMsixVectorUnmask (s : State) := runDevice s msixVectorUnmask

-- ## A queue engine's accesses (R122, R151)

/-- What an access of a queue engine comes to. -/
inductive QAccess where
  | ok (s : State) (pa : Nat)
  /-- It waits for a replay; its record is on the way. -/
  | park (s : State)
  /-- Its table walk waits for tokens. -/
  | busy (s : State)
  /-- The outcome is not replayable, or a table's line is lost (log 76): the queue stops with `REASON` 7. -/
  | bad (s : State)
  deriving DecidableEq, Repr

/-- The ASID of queue q by an address-space table (R145). -/
def queueAsid (t : NMap (DWord × DWord)) (q : Nat) : Nat :=
  ((List.range 64).find? fun a =>
    let r := look t a (0#64, 0#64)
    r.1.getLsbD 0 && r.2.getLsbD q).getD 0

/-- A queue engine waits for the replay of an access. -/
def State.queueWaits (s : State) (v q : Nat) (r : FRecord) : State :=
  let r : FRecord := { r with atype := 6, log2w := 7, lanes := BitVec.ofNat 32 q, place := BitVec.ofNat 32 v }
  (s.report v [r]).setQueue v q fun k => { k with waiting := some r }

/-- Translates an access of a queue engine for queue `q` under an ASID. -/
def State.queueAccess (s : State) (v q asid va : Nat) (write : Bool) : QAccess :=
  match s.translate none v asid va (if write then 1 else 0) with
  | (s, .ok pa) => .ok s pa
  | (s, .perm _) | (s, .lost) => .bad s
  | (s, .busy) => .busy s
  | (s, .replay code stage2 _) => .park (s.queueWaits v q { va := BitVec.ofNat 64 va, code, stage2, asid })

/-- What a step `me` of a queue engine makes of its access: it waits, `bad` follows, or `f` uses the byte address, once the lines of
`n` bytes from it may be read, or written (R33, R35). -/
def State.queueUse (s : State) (me : Instr) (v q asid va n : Nat) (write : Bool) (bad : State → State)
    (f : State → Nat → Option State) : Option State :=
  match s.queueAccess v q asid va write with
  | .park t => some t
  | .busy t => s.news t
  | .bad t => some (bad t)
  | .ok t pa => t.using me ((linesOf pa n).map fun l => (l, write)) v fun u => f u pa

/-- A queue stops: reason and error source (R123); source 1 when no other is named. -/
def State.stopQueue (s : State) (v q reason src : Nat) : State :=
  (s.setQueue v q fun k => { k with stopped := true, reason }).raise v src

/-- The error source of an enabled queue (R122, R173). -/
def State.errSrc (s : State) (v q : Nat) : Nat := if q = 64 then 1 else (s.queue v q).errSrc

-- ## Consumer domains (R129)

/-- Dirty lines of a VD homed at the host proxy that die L2s hold. -/
def State.hostDirty (s : State) (v : Nat) : List (Nat × Nat) :=
  s.coh.held.flatMap fun (h : Nat × NMap Tag) =>
    (keys (pick h.2 fun t => t.dirty && t.ctx = v)).filterMap fun l => if hostLine l && h.1 < 32 then some (h.1, l) else none

/-- Die L2s write back a VD's dirty host lines. -/
def State.flushHost (s : State) (v : Nat) : State :=
  (s.hostDirty v).foldl (fun s (e : Nat × Nat) =>
    (s.setHeld (.die e.1) e.2 { s.held' (.die e.1) e.2 with dirty := false }).cxlStart 1 e.2 v) s

/-- A VD's writes to host or expander memory that have no completion yet. -/
def State.cxlWrites (s : State) (v : Nat) : Bool := (s.cxl.table ++ s.cxl.waiting).any fun t => t.vd = v && t.kind = 1

/-- Remote operations of a VD, or of one of its kernels, that have no acknowledgement yet: those that an aborted kernel left on the fabric
among them. -/
def State.remotesOut (s : State) (v : Nat) (k : Option Nat) : Bool :=
  let of := fun (kid : Nat) => k.all (· = kid)
  (s.allAccesses.any fun a => a.2.vd = v && a.2.remoteKind.isSome && (k.isNone || (s.blk a.1.blk).any fun b => of b.kernel)) ||
  s.fabric.orphans.any fun o => o.2.vd = v && of o.1

/-- A completion release of a consumer domain: none while it is not done; what it starts is in the state. Domains 1, 2 and 3 are
releases at system scope, the last also at fabric scope (R129, R227). -/
def State.domainRelease (s : State) (v domain : Nat) (k : Option Nat) : Except (Option State) State :=
  if domain = 2 && !(s.hostDirty v).isEmpty then .error (some (s.flushHost v))
  else if domain != 0 && s.cxlWrites v then .error none
  else if domain = 3 && s.remotesOut v k then .error none
  else .ok s

-- ## Completion signals (R128)

/-- The far atomic that writes a signal's next part: `CODE` only while it is 0, or 1 added to `VALUE`. Its old value is of no use to the
engine, so the request returns none (DEDUCED, log 73). -/
def State.sendSignal (s : State) (v code : Nat) (r : SigRun) : State × SigRun :=
  let (s, op) := s.opId .control
  let line := r.pa / 128
  let member := fun (arg : Nat) => [{ op, arg, nr := true, module := s.fabric.module, src := .control : Member }]
  let kind := if r.phase = 1 then MsgKind.atomic 9 1 (r.pa + 8) 1 0 (member code) else .atomic 0 9 r.pa 8 0 (member 1)
  (s.send { src := .control, dst := homeOf line, kind, line, vd := v, inc := s.lineInc line }, { r with op := some op, time := s.now })

/-- What writing a completion signal comes to. -/
inductive Signalled where
  /-- It is written, or dropped (`ok` false). -/
  | done (s : State) (ok : Bool)
  /-- A far atomic of it is out. -/
  | run (s : State) (r : SigRun)
  /-- None of its next part is possible yet. -/
  | wait (s : Option State)
  deriving DecidableEq, Repr

/-- The writing of a signal goes on: the next part when the last has its reply; at its end the line's CXL write, if it has one, is to be
observed too where the consumer is outside the device (R131). -/
def State.goOn (s : State) (v code domain : Nat) (r : SigRun) : Signalled :=
  if r.op.isSome then .wait none
  else if r.phase < 3 then let (s, r) := s.sendSignal v code r; .run s r
  else if domain != 0 && s.hasTxn 1 (r.pa / 128) then .wait none
  else .done s true

/-- A queue engine writes the completion signal of a packet of domain `domain`, as far as `run` says; address 0 names none. -/
def State.signal (s : State) (v q asid va code domain : Nat) (run : Option SigRun) : Signalled :=
  match run with
  | some r => s.goOn v code domain r
  | none =>
    if va = 0 then .done s true else
    match s.queueAccess v q asid va true with
    | .park t => .wait (some t)
    | .busy t => .wait (s.news t)
    | .bad t => .done t false
    | .ok t pa => t.goOn v code domain { pa, phase := if code = 0 then 2 else 1, since := t.nextId }

end Sys2Proof.Machine
end

