-- ==== Sys2Proof/Machine/Select.lean ====
section
/-!
DEFINITION. Which fragment a warp offers (R178, R179), and the records of the fault queue that a halt writes (R265, R291).
-/
namespace Sys2Proof.Machine

/-- A fragment's wait is over (R180): counters and tags are tested here, the other waits end by their own events. -/
def Warp.waitOver (x : Warp) (w : Wait) : Bool :=
  match w with
  | .ready => true
  | .counters ld st cp tl =>
    (x.counter 0).count ≤ ld && (x.counter 1).count ≤ st && (x.counter 2).count ≤ cp && (x.counter 3).count ≤ tl
  | .tags m => (List.range 8).all fun k => !bit m k || (x.counter (4 + k)).count = 0
  | _ => false

/-- The lowest-numbered split-table entry among some fragments. -/
def lowestEntry (fs : List Frag) : Option Frag := (sortBy (fun f => f.entry.getD 100) (fs.filter Frag.inTable)).head?

/-- The fragment that a warp offers (R179): the running one; else the lowest parked, ready and not demoted; else the lowest
demoted and ready. -/
def Warp.chosen (x : Warp) : Option Frag :=
  match x.frags.find? fun f => f.running with
  | some f => some f
  | none =>
    let ok := x.frags.filter fun f => f.inTable && f.mask != 0#32 && x.waitOver f.wait
    match lowestEntry (ok.filter fun f => !f.demoted) with
    | some f => some f
    | none => lowestEntry ok

/-- The fragment that a sample or a dump names (R259). -/
def Warp.sampled (x : Warp) : Option Frag :=
  match x.chosen with
  | some f => some f
  | none => lowestEntry x.frags

/-- The record of a block's halt (R265): code, PC, halt index. -/
def haltRecord (v : Nat) (k : Kernel) (b : Block) (g idx wi : Nat) (x : Warp) : FRecord :=
  { va := 0#64, pc := (x.sampled.map fun f => f.pc).getD 0#64, code := if x.stopCause = 0x14 then 0x14 else 0x13
    token := BitVec.ofNat 32 idx, place := placeWord v b.die g (slotNumber wi x.slot), asid := k.asid
    lanes := (x.sampled.map fun f => f.mask).getD 0#32 }

-- ## Dumps (R266)

/-- A warp's section. -/
def dumpWarp (x : Warp) : List Byte :=
  let lanePreds := fun (l : Nat) => leBytes 6 ((List.range 48).map fun k => if (x.pred k).getLsbD l then 2 ^ k else 0).sum
  ((List.range 64).flatMap fun n => leBytes 4 (x.sreg n).toNat) ++
  ((List.range 32).flatMap lanePreds) ++
  leBytes 8 ((x.sampled.map fun f => f.pc.toNat).getD 0) ++ leBytes 8 x.rwc.toNat ++ leBytes 4 x.mode.toNat ++
  leBytes 4 x.frags.length ++ leBytes 4 x.stopCause ++ leBytes 36 0 ++
  (x.vregs.flatMap fun r => (List.range 32).flatMap fun l => leBytes 4 (vget r l 0#32).toNat)

/-- A block's dump. -/
def dumpBytes (k : Kernel) (b : Block) : List Byte :=
  leBytes 8 k.entry.toNat ++ leBytes 4 b.x ++ leBytes 4 b.y ++ leBytes 4 b.z ++ leBytes 4 b.lin ++
  leBytes 4 (k.warps + 65536 * b.phases) ++ leBytes 36 0 ++ b.img.warps.flatMap dumpWarp

/-- The dump of block `n`, which halts with index `idx`. -/
def State.writeDump (s : State) (n : Nat) (k : Kernel) (b : Block) (idx : Nat) : State :=
  s.s2Write k.vd (4096 * bits (s.vd k.vd).dbgdump.toNat 47 12 + idx * 2 ^ 20) (dumpBytes k b) (some n)

/-- Bytes of a VD's dumps are still on their way (R265). -/
def State.dumping (s : State) (v : Nat) : Bool := s.posted.any fun p => p.vd = v && p.cmd.any fun n => (s.blk n).isSome

end Sys2Proof.Machine
end

