-- ==== Sys2Proof/Machine/Sched.lean ====
section
/-!
DEFINITION. The scheduler (R159–R172, R184–R192, R408): eligibility, grants, affinity, offers, placement, gangs, saves, restores,
block exit.
-/
namespace Sys2Proof.Machine

-- ## Pools and counts

/-- `POOL` of a die in force (R159). -/
def State.poolOf (s : State) (d : Nat) : Nat := if s.dieEnabled d then look s.pool d 0xFFFF else 0

/-- Pool clusters in ascending global number (R160). -/
def State.poolClusters (s : State) : List Nat :=
  (List.range 512).filter fun g => bit (s.poolOf (g / 16)) (g % 16)

/-- A block's VD. -/
def State.vdOf (s : State) (b : Block) : Nat := match s.kern b.kernel with | some k => k.vd | none => 1024

/-- A block is halted, or is being saved for a halt (R265). -/
def State.isHalted (s : State) (v n : Nat) : Bool := (s.vd v).halts.any fun h => h.2 = n

/-- Runnable blocks of a VD placed on a die (R162). -/
def State.runnableOn (s : State) (v d : Nat) : Nat :=
  (s.blocks.filter fun (b : Nat × Block) => b.2.die = d && b.2.place != .exited && s.vdOf b.2 = v && !s.isHalted v b.1).length

/-- A VD's virtual die table binds a physical die. -/
def Vd.binds (x : Vd) (d : Nat) : Bool := (List.range x.nvdie).any fun i => x.pdie i = some d

def Vd.grantTotal (x : Vd) : Nat := (x.granted.map Prod.snd).sum

/-- Eligibility (R162). -/
def State.isEligible (s : State) (v d : Nat) : Bool :=
  let x := s.vd v
  x.state = .active && x.binds d && x.grantTotal < x.maxClusters && look x.granted d 0 < s.runnableOn v d

/-- The eligible VD with the least pass, ties to the lower VD. -/
def State.leastPass (s : State) (d : Nat) : Option Nat :=
  (sortBy (fun v => (s.vd v).pass.toNat) ((keys s.vds).filter fun v => s.isEligible v d)).head?

/-- A VD is granted a cluster of a die and charged its stride. -/
def State.grantTo (s : State) (v d : Nat) : State × Option Nat :=
  (s.setVd v fun x =>
    { x with pass := x.pass + BitVec.ofNat 64 x.stride, granted := put x.granted d (look x.granted d 0 + 1) }, some v)

/-- One pass of the grant loop (R163). -/
def State.grantOne (s : State) (d : Nat) : State × Option Nat :=
  match s.leastPass d with
  | none => (s, none)
  | some v => s.grantTo v d

-- ## Room (R169)

/-- The clusters whose resources a block holds: where it is resident, and where it is about to be restored. -/
def Block.occupies (b : Block) : List Nat := b.cluster.toList ++ b.target.toList

/-- Blocks that hold resources of a cluster, with their kernels. -/
def State.on (s : State) (g : Nat) : List (Block × Kernel) :=
  s.blocks.filterMap fun (b : Nat × Block) =>
    if b.2.occupies.contains g then (s.kern b.2.kernel).map fun k => (b.2, k) else none

/-- Warps of a block of `w` warps in quadrant `q`. -/
def quadWarps (w q : Nat) : Nat := (w + 3 - q) / 4

/-- The lowest place for a window among those taken: base and size. -/
def windowBase (taken : List (Nat × Nat)) (size : Nat) : Option Nat :=
  (sortBy (fun n => n) (0 :: taken.map fun t => t.1 + t.2)).find? fun b =>
    b + size ≤ 524288 && taken.all fun t => t.2 = 0 || size = 0 || b + size ≤ t.1 || t.1 + t.2 ≤ b

/-- The block's window base on a cluster that it fits (R169, R268). -/
def State.fits (s : State) (g : Nat) (b : Block) (k : Kernel) : Option Nat :=
  let bs := s.on g
  let sum := fun (f : Kernel → Nat) => (bs.map fun x => f x.2).sum
  let proofFull := k.proof && b.proof.isNone &&
    bits (s.vd k.vd).prfcfg.toNat 7 0 ≤ (s.blocks.filter fun x => x.2.proof.isSome && s.vdOf x.2 = k.vd).length
  if 16 ≤ bs.length || proofFull ||
    ((List.range 4).any fun q =>
      16 < sum (fun k => quadWarps k.warps q) + quadWarps k.warps q ||
      2048 < sum (fun k => quadWarps k.warps q * k.vregs) + quadWarps k.warps q * k.vregs) ||
    128 < sum (fun k => k.oslots) + k.oslots || 16 < sum (fun k => k.aslots) + k.aslots then none
  else windowBase (bs.map fun x => (if x.1.cluster = some g then x.1.base else x.1.targetBase, 256 * x.2.scratch)) (256 * k.scratch)

/-- Clusters of a die that are granted to a VD and not draining. -/
def State.mapped (s : State) (v d : Nat) : List Nat :=
  (List.range 16).map (16 * d + ·) |>.filter fun g => (s.cl g).vd = some v && (s.cl g).draining.isNone

/-- The mapped cluster with the fewest resident blocks that a block fits, ties to the lowest (R166). -/
def State.bestCluster (s : State) (v : Nat) (b : Block) (k : Kernel) : Option (Nat × Nat) :=
  let ok := (s.mapped v b.die).filterMap fun g => (s.fits g b k).map fun base => (g, base)
  (sortBy (fun p : Nat × Nat => (s.on p.1).length) ok).head?

-- ## Starting a block (R196, R204, R208, R269)

/-- A warp at its start (R196); a device-scope acquire comes first (R175, R226). -/
def startWarp (k : Kernel) (slot : Nat) : Warp :=
  { sregs := ((Vector.replicate 64 0#32).set! 48 (k.arg.extractLsb' 0 32)).set! 49 (k.arg.extractLsb' 32 32)
    vregs := List.replicate k.vregs (Vector.replicate 32 0#32)
    preds := Vector.replicate 48 0#32
    frags := [{ id := 0, entry := some 0, pc := k.entry, mask := 0xFFFFFFFF#32, running := true }]
    slot, acquire := true }

/-- Slots taken in a quadrant of a cluster. -/
def State.slotsTaken (s : State) (g q : Nat) : List Nat :=
  s.blocks.flatMap fun (b : Nat × Block) =>
    if b.2.cluster = some g then
      b.2.img.warps.zipIdx.filterMap fun (x : Warp × Nat) => if x.2 % 4 = q then some x.1.slot else none
    else []

/-- The slot of warp `w` of a block that becomes resident: the lowest free ones of its quadrant in order (R169). -/
def State.slotFor (s : State) (g w : Nat) : Nat :=
  (((List.range 16).filter fun n => !(s.slotsTaken g (w % 4)).contains n)[w / 4]?).getD 0

/-- A free proof entry of a VD (R268). -/
def State.proofEntry (s : State) (v : Nat) : Nat :=
  ((List.range 256).find? fun e => !s.blocks.any fun b => b.2.proof = some e && s.vdOf b.2 = v).getD 0

/-- The place of a new image in a VD's context save area: the lowest that no other image takes (log 78). -/
def State.imagePlace (s : State) (k : Kernel) : Nat :=
  let taken := s.blocks.filterMap fun (b : Nat × Block) => b.2.area.bind fun a =>
    if s.vdOf b.2 = k.vd && b.2.place != .exited then (s.kern b.2.kernel).map fun o => (a, imageBytes o) else none
  ((sortBy (fun n => n) (0 :: taken.map fun t => t.1 + t.2)).find? fun a =>
    taken.all fun t => a + imageBytes k ≤ t.1 || t.1 + t.2 ≤ a).getD 0

/-- An unstarted block becomes resident. -/
def State.start (s : State) (n g base : Nat) (k : Kernel) : State :=
  let area := s.imagePlace k
  let img : Image := { warps := (List.range k.warps).map fun w => startWarp k (s.slotFor g w) }
  let proof := if k.proof then some (s.proofEntry k.vd) else none
  let s := s.setBlk n fun b =>
    { b with place := .resident g, base, area, img, proof, snap := if k.proof then some img else none, log := [], logFull := false }
  if !k.proof then s else
  (match s.blk n with | some b => s.proofWrite k b 0 (imageBytes k) | none => s).setLog n []

/-- A saved block becomes resident on a cluster of its die: the whole image is written, and its abandoned copies are
reissued (R187, R188, R406). -/
def State.restore (s : State) (n g base : Nat) : State :=
  match s.blk n with
  | none => s
  | some b =>
    let ws := b.img.warps.zipIdx.map fun (x : Warp × Nat) => { x.1 with slot := s.slotFor g x.2, acquire := true }
    let s := s.setBlk n fun b =>
      { b with place := .resident g, target := none, base, img := { b.img with warps := ws }, abandoned := [] }
    let s := { s with cmds := mapv s.cmds fun c => if c.warp.blk = n then { c with cluster := g } else c }
    b.abandoned.foldl (fun s c =>
      { s with nextId := s.nextId + 1
               cmds := put s.cmds s.nextId { c with cluster := g } }) s

-- ## Placement (R166)

/-- The order of a die's list: saved blocks in the order of their saves, then by priority, kernel start and block id. -/
def listOrder (k : Block → Option Kernel) (bs : List (Nat × Block)) : List (Nat × Block) :=
  let saved := sortBy (fun b : Nat × Block => b.2.savedAt) (bs.filter fun b => b.2.place = .saved)
  let fresh := bs.filter fun b => b.2.place = .unstarted
  let fresh := sortBy (fun b : Nat × Block => b.2.lin) fresh
  let fresh := sortBy (fun b : Nat × Block => b.2.kernel) fresh
  saved ++ sortBy (fun b : Nat × Block => 3 - ((k b.2).map fun k => k.prio).getD 0) fresh

/-- A VD's list on a die, without the gangs that R171 holds back and the blocks about to be restored. -/
def State.dieList (s : State) (v d : Nat) : List (Nat × Block) :=
  listOrder (fun b => s.kern b.kernel) (s.blocks.filter fun (b : Nat × Block) =>
    b.2.die = d && b.2.target.isNone && s.vdOf b.2 = v && !s.isHalted v b.1 &&
      (s.kern b.2.kernel).any fun k => !k.gangHeld)

/-- Puts a block on a cluster: an unstarted one starts; a saved one takes its place and is restored next. -/
def State.placeOn (s : State) (n : Nat) (b : Block) (k : Kernel) (g base : Nat) : State :=
  if b.place = .unstarted then s.start n g base k
  else { s.setBlk n fun b => { b with target := some g, targetBase := base } with agenda := s.agenda ++ [(.blockRestore, .blk n)] }

/-- Takes blocks from the head of a VD's list on a die while they fit. -/
def State.fillN : Nat → State → Nat → Nat → State
  | 0, s, _, _ => s
  | n + 1, s, v, d =>
    match s.dieList v d with
    | [] => s
    | (i, b) :: _ =>
      match s.kern b.kernel with
      | none => s
      | some k =>
        match s.bestCluster v b k with
        | none => s
        | some (g, base) => State.fillN n (s.placeOn i b k g base) v d

def State.fill (s : State) (v d : Nat) : State :=
  if (s.vd v).state = .active then s.fillN (s.dieList v d).length v d else s

/-- Placement on every die that a VD's blocks are placed on. -/
def State.fillVd (s : State) (v : Nat) : State := (List.range 32).foldl (fun s d => s.fill v d) s
def State.fillAll (s : State) : State := (keys s.vds).foldl State.fillVd s

-- ## World switches (R164, R167, R177, R258)

/-- A cluster passes to another VD, or to none; its caches keep nothing of the old one but written bytes on their way out. -/
def State.switchTo (s : State) (g : Nat) (v : Option Nat) : State :=
  if (s.cl g).vd = v then s.setCl g fun c => { c with draining := none, pendingVd := none, overrun := false } else
  s.setCl g fun c =>
    { c with
      vd := v, draining := none, pendingVd := none, overrun := false, last := Vector.replicate 4 15
      icache := [], l1 := pick c.l1 fun l => l.dirty != 0#128
      smp := Vector.replicate 4 { period := v.elim 1024 fun v => bits (s.vd v).smpcfg.toNat 23 8 } }

/-- Blocks resident on a cluster, or being saved there. -/
def State.residents (s : State) (g : Nat) : List Nat := keys (pick s.blocks fun b => b.cluster = some g)

/-- Begins the save of a resident block (R184): its copies that are parked are abandoned (R187). Of one that is being saved for a halt, the
drain bound runs from now (R186). -/
def State.beginSave (s : State) (n : Nat) : State :=
  match (s.blk n).map fun b => b.place with
  | some (Place.resident g) =>
    ((s.setBlk n fun b => { b with place := .saving g, savingAt := some s.now }).setCl g fun c => { c with overrun := false }).abandonFor n
  | some (.saving _) => s.setBlk n fun b => { b with savingAt := b.savingAt.or (some s.now) }
  | _ => s

/-- Hands a cluster over (R164): after the saves of its blocks. -/
def State.handOver (s : State) (g : Nat) (v : Option Nat) : State :=
  let bs := s.residents g
  if bs.isEmpty then s.switchTo g v
  else (bs.foldl State.beginSave s).setCl g fun c => { c with draining := some s.now, pendingVd := v, overrun := false }

/-- A draining cluster whose blocks are gone passes on. -/
def State.handIfEmpty (s : State) (g : Nat) : State :=
  let c := s.cl g
  if c.draining.isNone || !(s.residents g).isEmpty then s
  else match c.pendingVd with
    | some v => (s.switchTo g (some v)).fill v (g / 16)
    | none => s.switchTo g none

-- ## The boundary (R163, R164, R171)

/-- The eligibility step: a VD newly eligible for a cluster of some die catches up with the least pass. -/
def State.eligibility (s : State) : State :=
  let now := (keys s.vds).filter fun v => (List.range 32).any fun d => s.isEligible v d
  let both := (now.filter fun v => (s.vd v).eligible).map fun v => (s.vd v).pass.toNat
  let s' := match sortBy (fun p => p) both with
    | [] => s
    | l :: _ => now.foldl (fun s v => s.setVd v fun x =>
        if x.eligible then x else { x with pass := BitVec.ofNat 64 (max x.pass.toNat l) }) s
  { s' with vds := s'.vds.map fun (v : Nat × Vd) => (v.1, { v.2 with eligible := now.contains v.1 }) }

/-- The grant loop: VDs granted, with their dies, in order. -/
def grantLoop : State → List Nat → State × List (Nat × Nat)
  | s, [] => (s, [])
  | s, g :: gs =>
    let (s, v) := s.grantOne (g / 16)
    let (s, r) := grantLoop s gs
    (s, match v with | some v => (v, g / 16) :: r | none => r)

/-- Affinity on one die: clusters with their VDs after the boundary (R164). -/
def affinity (s : State) (gs : List Nat) (grants : List Nat) : List (Nat × Option Nat) :=
  let step := fun (t : List (Nat × Option Nat) × List Nat) (g : Nat) =>
    match (s.cl g).vd with
    | some v => if t.2.contains v then (t.1 ++ [(g, some v)], t.2.erase v) else (t.1 ++ [(g, none)], t.2)
    | none => (t.1 ++ [(g, none)], t.2)
  let (m, _) := gs.foldl step ([], grants)
  let kept := m.filterMap fun p => p.2
  -- the remaining grants, in the order the loop made them: each VD's first grants are those it keeps
  let rest := (grants.foldl (fun (t : List Nat × List Nat) v =>
    if t.1.contains v then (t.1.erase v, t.2) else (t.1, t.2 ++ [v])) (kept, [])).2
  (m.foldl (fun (t : List (Nat × Option Nat) × List Nat) p =>
    match p.2, t.2 with
    | none, v :: vs => (t.1 ++ [(p.1, some v)], vs)
    | _, _ => (t.1 ++ [p], t.2)) ([], rest)).1

/-- Whether a VD's mapped clusters hold a gang (R171): the blocks to be placed with their clusters, in order. A block that is still being
saved is among them: it takes the place that this plan gives it once it is saved. -/
def State.gangPlan (s : State) (kid : Nat) (k : Kernel) : Option (List (Nat × Nat × Nat)) :=
  let mine := s.blocks.filter fun (b : Nat × Block) => b.2.kernel = kid && !s.isHalted k.vd b.1
  let away := mine.filter fun b => match b.2.place with | .saving _ => true | _ => false
  let todo := listOrder (fun b => s.kern b.kernel) mine ++ away
  let r := todo.foldl (fun (t : Option (State × List (Nat × Nat × Nat))) b => t.bind fun (s, l) =>
    (s.bestCluster k.vd b.2 k).map fun (g, base) =>
      (s.setBlk b.1 fun b => { b with target := some g, targetBase := base }, l ++ [(b.1, g, base)])) (some (s, []))
  r.map Prod.snd

/-- A gang becomes resident where its plan places it, or is saved whole; that of a VD that is not active waits for the next boundary. -/
def State.gang (s : State) (kid : Nat) : State :=
  match s.kern kid with
  | none => s
  | some k =>
    if !k.coop || k.left = 0 then s else
    let s := { s with blocks := mapv s.blocks fun b => if b.kernel = kid then { b with target := none } else b }
    if (s.vd k.vd).state != .active then s.setKern kid fun k => { k with gangHeld := true } else
    match s.gangPlan kid k with
    | some plan =>
      let s := s.setKern kid fun k => { k with gangHeld := false }
      plan.foldl (fun s p =>
        match s.blk p.1 with
        | some b => match b.place with
          | .unstarted | .saved => s.placeOn p.1 b k p.2.1 p.2.2
          | _ => s.setBlk p.1 fun b => { b with target := some p.2.1, targetBase := p.2.2 }
        | none => s) s
    | none =>
      (keys (pick s.blocks fun b => b.kernel = kid)).foldl State.beginSave
        (s.setKern kid fun k => { k with gangHeld := true })

/-- The power mode takes effect at the boundary (R24): for a time clusters run at the lower of the two clocks. The power-unit budget
is scaled to the mode (R25), less by what the power manager has lowered it (R26; log 79). -/
def State.powerChange (s : State) : State :=
  match s.power.pending with
  | none => s
  | some m =>
    let s := s.setBudget (max 1 (s.power.k + modeSteps m - modeSteps s.power.mode))
    { s with power := { s.power with
      mode := m, pending := none, settle := some (max m s.power.mode, s.now + ticksPerNs * min 50000 Config.settleNs) } }

/-- `QUANTUM_BOUNDARY`. -/
def quantumBoundary (s : State) : Option State :=
  let at' := fun (q : Nat) => s.now % (1000 * ticksPerNs * q) = 0
  if !(at' s.quantum || at' s.quantumNew) then none else
  let s := s.powerChange
  let s := { s with
    quantum := if at' s.quantumNew then s.quantumNew else s.quantum
    pool := s.poolNew
    vds := mapv s.vds fun v => { v with granted := [], stride := if v.weight = 0 then 0 else 2 ^ 20 / v.weight } }
  let gs := s.poolClusters.filter fun g => (s.cl g).draining.isNone
  let s := s.eligibility
  let (s, grants) := grantLoop s gs
  let assign := (dedup (gs.map (· / 16))).flatMap fun d =>
    affinity s (gs.filter fun g => g / 16 = d) ((grants.filter fun p => p.2 = d).map Prod.fst)
  let out := (keys s.clusters).filter fun g => (s.cl g).draining.isNone && (s.cl g).vd.isSome && !gs.contains g
  let s := (assign ++ out.map fun g => (g, none)).foldl (fun (s : State) (p : Nat × Option Nat) =>
    if (s.cl p.1).vd = p.2 then s else s.handOver p.1 p.2) s
  let s := (keys s.kernels).foldl State.gang s
  some s.fillAll

def execQuantumBoundary (s : State) := runDevice s quantumBoundary

-- ## Offers (R165, R408)

/-- A microsecond boundary of `%time`. -/
def State.atMicrosecond (s : State) : Bool := s.now % (1000 * ticksPerNs) = 0

/-- A quantum boundary (R159, R161). -/
def State.atBoundary (s : State) : Bool :=
  s.now % (1000 * ticksPerNs * s.quantum) = 0 || s.now % (1000 * ticksPerNs * s.quantumNew) = 0

/-- A VD has a resident gang, whose clusters go to no other VD (R171): the clusters granted to the VD, on one of which it would else run
out of room (log 58). -/
def State.hasGang (s : State) (v : Nat) : Bool :=
  s.blocks.any fun (b : Nat × Block) => !b.2.occupies.isEmpty && (s.kern b.2.kernel).any fun k => k.vd = v && k.coop

/-- A listed step is the offer of an idle pool cluster. -/
def State.offered (s : State) (a : Instr × Focus) : Bool :=
  match a with
  | (.clusterOffer, .cluster g) => bit (s.poolOf (g / 16)) (g % 16) && (s.cl g).draining.isNone && (s.residents g).isEmpty
  | _ => false

/-- An offer's pass of the grant loop (R165): of a cluster that R171 keeps, for its own VD alone. -/
def State.offerOne (s : State) (g : Nat) : State × Option Nat :=
  match (s.cl g).vd with
  | some v => if s.hasGang v && s.leastPass (g / 16) != some v then
      (if s.isEligible v (g / 16) then s.grantTo v (g / 16) else (s, none)) else s.grantOne (g / 16)
  | none => s.grantOne (g / 16)

/-- `CLUSTER_OFFER` of an idle cluster at a microsecond boundary that is no quantum boundary; placement follows the last offer of the
boundary. -/
def clusterOffer (s : State) : Option State :=
  match s.focus with
  | .cluster g =>
    if !s.offered (.clusterOffer, .cluster g) || !s.atMicrosecond || s.atBoundary then none else
    let s := match s.offerOne g with
      | (s, some v) => s.switchTo g (some v)
      | (s, none) => s
    some (if (s.agenda ++ s.due).any s.offered then s else s.fillAll)
  | _ => none

def execClusterOffer (s : State) := runDevice s clusterOffer

-- ## Saves (R184–R189)

/-- Commands that cannot go on before a block is restored, oldest first: an abandoned one, one that waits for a receiver that is away, a step
of a block that is being saved or is away and has not started, and what waits behind one of these (R187, R406). -/
def State.stuck (s : State) : List Command :=
  let away := fun (c : Command) => c.kind.isStep && !c.started && !(s.blk c.warp.blk).any fun b => b.issues
  (sortBy (fun c => c.order) (s.cmds.map Prod.snd)).foldl (fun (l : List Command) c =>
    if c.gone || s.awaits c || away c || (!c.started && l.any fun o => usesConflict o.uses c.uses) then l ++ [c] else l) []

def State.heldBack (s : State) (c : Command) : Bool := s.stuck.contains c

/-- A warp is between the words of a `VEXEC`, which completes once it has begun (R184, R351). -/
def Warp.inVexec (x : Warp) : Bool := x.frags.any fun f => f.running && f.vx.isSome

/-- A block's loads, copies and running step are done, its writes are performed at device scope, and no copy runs into its
windows (R184, R226). -/
def State.drained (s : State) (n : Nat) (b : Block) : Bool :=
  (b.img.warps.all fun x => !x.inVexec && x.accesses.all fun a =>
    match a.kind with
    | .pref _ => true
    | .remote .. => a.dst.isNone
    | _ => false) &&
  (s.cmds.all fun (c : Nat × Command) =>
    if c.2.warp.blk = n then s.heldBack c.2
    else !c.2.receivers.contains n || !c.2.started)

/-- The copies of a block that its save keeps the descriptors of. -/
def State.abandon (s : State) (n : Nat) : State :=
  let mine := s.cmds.filter fun (c : Nat × Command) => c.2.warp.blk = n && !c.2.kind.isStep && s.heldBack c.2
  let ids := keys mine
  ({ s with cmds := s.cmds.filter fun (c : Nat × Command) => !ids.contains c.1 }).setBlk n fun b =>
    { b with abandoned := b.abandoned ++ mine.map fun (c : Nat × Command) => { c.2.again with gone := false } }

/-- The parts of a block image that a save writes, from `lo` up to `hi` each: all but the warps' spill rings, which are kept in place. -/
def savedParts (k : Kernel) : List (Nat × Nat) :=
  (0, warpPart k 0) :: (List.range k.warps).map fun w => (warpPart k w + 1024, warpPart k (w + 1))

/-- The image of a block is written to the VD's context save area (R184 step 5), but for its spill rings (R185, R203). The layout is
internal: the bytes are free values. -/
def State.writeImage (s : State) (b : Block) (k : Kernel) : State :=
  (savedParts k).foldl (fun s (p : Nat × Nat) =>
    let (s, bs) := s.freeBytes (p.2 - p.1)
    s.s2Write k.vd ((s.vd k.vd).saveBase + b.area.getD 0 + p.1) (bs.map (BitVec.ofNat 8))) s

/-- A halting block takes its index's dump and record (R265). -/
def State.halt (s : State) (n idx g : Nat) (k : Kernel) (b : Block) : State :=
  let s := s.writeDump n k b idx
  let stops := b.img.warps.zipIdx.filter fun (x : Warp × Nat) => x.1.stopCause != 0
  let stops := if stops.isEmpty then b.img.warps.zipIdx else stops
  let w := (sortBy (fun x : Warp × Nat => 16 * (x.2 % 4) + x.1.slot) stops).head?
  let s := match w with
    | some (x, wi) => s.setVd k.vd fun v => { v with undelivered := v.undelivered ++ [haltRecord k.vd k b g idx wi x] }
    | none => s
  s.setBlk n fun b => { b with place := .halted idx, savingAt := none, target := none, base := 0, stepping := false }

/-- `BLOCK_SAVE`: the image is complete; the block is saved, or halted, and its cluster may pass on. A draining cluster whose last block was
discarded passes on too (focus: the cluster). -/
def blockSave (s : State) : Option State :=
  match s.focus with
  | .blk n => (s.blk n).bind fun b => (s.kern b.kernel).bind fun k =>
    match b.place with
    | .saving g =>
      if s.cmds.any (fun c => c.2.parkedAt n) then some (s.abandonFor n) else
      if !s.drained n b then none else
      let s := s.abandon n
      let s := s.setImg n fun i => { i with warps := i.warps.map fun x =>
        { x with accesses := x.accesses.filter fun a => match a.kind with | .pref _ => false | _ => true } }
      let s := match (s.vd k.vd).halts.find? fun h => h.2 = n with
        | some (idx, _) => match s.blk n with | some b => s.halt n idx g k b | none => s
        | none =>
          let s := s.writeImage b k
          let keep := (s.vd k.vd).state = VdState.active && b.target.any fun t => (s.mapped k.vd b.die).contains t
          { s.setBlk n fun b =>
              { b with place := .saved, savedAt := s.nextId, savingAt := none, base := 0, target := if keep then b.target else none } with
            nextId := s.nextId + 1 }
      let s := s.handIfEmpty g
      some (if (s.cl g).draining.isSome then s else s.fill k.vd b.die)
    | _ => none
  | .cluster g => if (s.cl g).draining.isNone || !(s.residents g).isEmpty then none else some (s.handIfEmpty g)
  | _ => none

def execBlockSave (s : State) := runDevice s blockSave

/-- When a save was asked for that has not begun on a cluster: the earliest (R186). -/
def State.drainSince (s : State) (g : Nat) : Option Nat :=
  (sortBy (fun t => t) (s.blocks.filterMap fun (b : Nat × Block) => if b.2.place = .saving g then b.2.savingAt else none)).head?

/-- `DRAIN_OVERRUN`: 40 µs after the boundary a save has not begun (R186). -/
def drainOverrun (s : State) : Option State :=
  match s.focus with
  | .cluster g =>
    match s.drainSince g, (s.cl g).vd with
    | some t, some v =>
      if (s.cl g).overrun || s.now < t + 40000 * ticksPerNs then none
      else some ((s.emit (.vdc 0x100 v (g / 16) (g % 16))).setCl g fun c => { c with overrun := true })
    | _, _ => none
  | _ => none

def execDrainOverrun (s : State) := runDevice s drainOverrun

/-- `BLOCK_RESTORE`: a saved block on the cluster chosen for it, while that is its VD's, or on the one that R166 chooses now. -/
def blockRestore (s : State) : Option State :=
  match s.focus with
  | .blk n => (s.blk n).bind fun b => (s.kern b.kernel).bind fun k =>
    if b.place != .saved then none else
    match b.target with
    | some g => some (if (s.mapped k.vd b.die).contains g then s.restore n g b.targetBase
      else s.setBlk n fun b => { b with target := none })
    | none =>
      if (s.dieList k.vd b.die).head?.map Prod.fst != some n then none else
      (s.bestCluster k.vd b k).map fun (g, base) => s.restore n g base
  | _ => none

def execBlockRestore (s : State) := runDevice s blockRestore

-- ## Exit (R190)

/-- Every warp has executed its last `EXIT`, and nothing of the block is outstanding. -/
def State.blockDone (s : State) (n : Nat) (b : Block) : Bool :=
  (b.img.warps.all fun x => x.exited = allLanes && x.accesses.all fun a => match a.kind with | .pref _ => true | _ => false) &&
  !(s.cmds.any fun (c : Nat × Command) => c.2.warp.blk = n) &&
  !(s.clusters.any fun (c : Nat × Cluster) => c.2.wcb.any fun e => e.owners.any fun o => o.1.blk = n)

/-- `BLOCK_EXIT`: the block frees what it holds, and the die's list moves on. -/
def blockExit (s : State) : Option State :=
  match s.focus with
  | .blk n => (s.blk n).bind fun b => (s.kern b.kernel).bind fun k =>
    match b.place with
    | .resident g =>
      if !s.blockDone n b then none
      else if b.stepping then
        -- the exit ends the phase of a block that a debugger steps (R267)
        let s := s.phaseEnd n (List.range b.img.warps.length)
        if (s.blk n).any fun b => b.stepping then none else some s
      else
      let s := s.discardBlock n
      let s := (s.setKern b.kernel fun k => { k with left := k.left - 1 }).testGbar b.kernel
      some ((s.handIfEmpty g).fill k.vd b.die)
    | _ => none
  | _ => none

def execBlockExit (s : State) := runDevice s blockExit

-- ## Sleep (R317)

/-- `SLEEP_DEADLINE`. -/
def sleepDeadline (s : State) : Option State :=
  match s.focus with
  | .frag w f => (s.warp w).bind fun x => (x.frag f).bind fun fr =>
    match fr.wait with
    | .sleep t => if t ≤ s.ns then some (s.setWarp w fun x => x.wake f) else none
    | _ => none
  | _ => none

def execSleepDeadline (s : State) := runDevice s sleepDeadline

end Sys2Proof.Machine
end

