-- ==== Sys2Proof/Machine/Queue.lean ====
section
/-!
DEFINITION. Queues and packets (R112–R115, R121–R129, R145, R168, R170, R173, R191, R192).
-/
namespace Sys2Proof.Machine

-- ## The address-space table (R145)

/-- The entries of a VD's address-space table at a physical address: root and queue mask by ASID. -/
def State.tableAt (s : State) (pa : Nat) : NMap (DWord × DWord) :=
  (List.range 64).map fun a =>
    (a, BitVec.ofNat 64 (s.mem.readNat (pa + 16 * a) 8), BitVec.ofNat 64 (s.mem.readNat (pa + 16 * a + 8) 8))

/-- A platen agent's step `me` reads a VD's address-space table through stage 2 (R146): `f` takes the table once its lines may be read,
`wait` a stage-2 fault's record (R147), `bad` a lost line (log 76). -/
def State.readTable (s : State) (me : Instr) (v : Nat) (wait : State → FRecord → State) (bad : State → Option State)
    (f : State → NMap (DWord × DWord) → Option State) : Option State :=
  let fault := fun (code : Nat) => some (wait s { va := 0#64, code, stage2 := true })
  s.usingTables me v [0] fun s =>
  match s.s2 v 0 0 with
  | .ok _ _ pa =>
    let ls := linesOf pa 1024
    s.using me (ls.map fun l => (l, false)) v fun s => if s.anyLost ls then bad s else f s (s.tableAt pa)
  | .fault _ => fault 0x06
  | .key => fault 0x08
  | .lost => bad s

/-- The roots of some ASIDs are read from a table, unless they were read before: they are read again only at an invalidation (R145). -/
def State.keepRoots (s : State) (v : Nat) (tab : NMap (DWord × DWord)) (asids : List Nat) : State :=
  s.setVd v fun x => { x with roots := asids.foldl (fun (r : NMap (DWord × DWord)) a =>
    if (find r a).isSome then r else put r a (look tab a (0#64, 0#64))) x.roots }

/-- An invalidation reads the roots and queue masks again (R148), that of ASID 0 in any case: the bindings of enabled queues follow. -/
def State.takeTable (s : State) (v : Nat) (tab : NMap (DWord × DWord)) : State :=
  let s := s.setVd v fun x => { x with
    rootsDue := false
    roots := x.roots.map fun (e : Nat × DWord × DWord) => (e.1, look tab e.1 (0#64, 0#64))
    queues := x.queues.map fun (q : Nat × Queue) =>
      (q.1, if q.2.enabled && q.1 < 64 then { q.2 with asid := queueAsid tab q.1 } else q.2) }
  s.keepRoots v tab (0 :: (pick (s.vd v).queues fun q => q.enabled).map fun q => q.2.asid)

/-- The steps of an invalidation that read the table again; a stage-2 fault waits for the VDC, and of a lost table no root is valid. -/
def State.rereadRoots (s : State) (v : Nat) : Option State :=
  if (s.vd v).rootsWait.isSome then none else
  s.readTable .invalidationComplete v
    (fun s r =>
      let r := { r with atype := 6, log2w := 7, place := BitVec.ofNat 32 v }
      (s.report v [r]).setVd v fun x => { x with rootsWait := some r })
    (fun s => some (s.takeTable v [])) fun s tab => some (s.takeTable v tab)

-- ## Enabling, disabling, restarting (R115, R121, R122, R173)

/-- A VD whose control page takes writes (R115). -/
def Vd.open (x : Vd) : Bool := x.state = .active || x.state = .suspended

/-- A descriptor outside its limits (R122). That an error interrupt source above 63 is one, too, is the model's choice: R121 gives the
range, and R122 does not name it among the causes of `REASON` 5 (log 53). -/
def descBad (bs : List Byte) : Bool :=
  let n := fun (o k : Nat) => leNat ((bs.drop o).take k)
  !(1 ≤ n 8 1 && n 8 1 ≤ 16) || n 0 8 % 4096 != 0 || n 16 8 % 4 != 0 || 4 ≤ n 9 1 || 64 ≤ n 10 1 || n 11 1 != 0 || n 24 8 != 0

/-- The queue takes its descriptor. -/
def Queue.load (k : Queue) (bs : List Byte) (asid : Nat) : Queue :=
  let n := fun (o k : Nat) => leNat ((bs.drop o).take k)
  { k with
    enabled := true, enabling := false, waiting := none, disabling := false, restartAt := none, kids := [], wbWaits := false
    ring := BitVec.ofNat 64 (n 0 8), log2 := n 8 1, prio := n 9 1, errSrc := n 10 1
    head := BitVec.ofNat 32 (n 12 4), tail := BitVec.ofNat 32 (n 12 4), headWb := BitVec.ofNat 64 (n 16 8), asid }

/-- `QUEUE_ENABLE` (R121, R122, R145): of a disabled queue; also when a replay, or tokens, let a waiting enable go on. -/
def queueEnable (s : State) : Option State :=
  match s.focus with
  | .queue v q _ =>
    let x := s.vd v
    let k := s.queue v q
    if k.enabled || k.waiting.isSome || !x.open then none else
    let t := s.setQueue v q fun k => { k with enabling := true }
    let fail := fun (reason : Nat) (s : State) => (s.setQueue v q fun k => { k with enabling := false }).stopQueue v q reason 1
    let run := t.readTable .queueEnable v (fun s r => s.queueWaits v q r) (fun s => some (fail 7 s)) fun s tab =>
      let asid := if q = 64 then 0 else queueAsid tab q
      let at' := if q = 64 then x.dlq.toNat else x.qtbase.toNat + 32 * q
      (s.keepRoots v tab [0, asid]).queueUse .queueEnable v q 0 at' 32 false (fail 7) fun s pa =>
        let bs := s.mem.bytes pa 32
        some (if s.anyLost (linesOf pa 32) then fail 7 s
          else if descBad bs then fail 5 s
          else s.setQueue v q fun k => k.load bs asid)
    run.or (s.news t)
  | _ => none

def execQueueEnable (s : State) := runDevice s queueEnable

/-- A queue's wait for a replay ends; its record, where it is not written yet, is discarded (R153). -/
def State.endWait (s : State) (v q : Nat) : State :=
  match (s.queue v q).waiting with
  | none => s
  | some r => (s.setVd v fun x => { x with undelivered := x.undelivered.erase r }).setQueue v q fun k => { k with waiting := none }

/-- What a queue does when its last started packet has completed and its head is written back (R125): it disables, and the
device-launch queue starts again (R115, R173). -/
def State.queueIdle (s : State) (v q : Nat) : State :=
  let k := s.queue v q
  if !k.started.isEmpty || k.wbWaits then s else
  match k.restartAt with
  | some a =>
    let s := (s.endWait v q).setQueue v q fun k =>
      { k with enabled := false, stopped := false, reason := 0, enabling := false, restartAt := none }
    if a = 0#64 then s else { s with agenda := s.agenda ++ [(.queueEnable, .queue v q 0)] }
  | none => if k.disabling then (s.endWait v q).setQueue v q fun k => { k with enabled := false, disabling := false } else s

/-- `QUEUE_DISABLE`. -/
def queueDisable (s : State) : Option State :=
  match s.focus with
  | .queue v q _ =>
    if !(s.vd v).open then none else
    some (if (s.queue v q).enabled then (s.setQueue v q fun k => { k with disabling := true }).queueIdle v q
      else (s.endWait v q).setQueue v q fun k => { k with enabling := false })
  | _ => none

def execQueueDisable (s : State) := runDevice s queueDisable

/-- `QUEUE_RESTART`. -/
def queueRestart (s : State) : Option State :=
  match s.focus with
  | .queue v q _ =>
    if !(s.vd v).open || !(s.queue v q).stopped then none else
    some (s.setQueue v q fun k => { k with stopped := false, reason := 0, overkick := false, diskick := false, reread := true })
  | _ => none

def execQueueRestart (s : State) := runDevice s queueRestart

/-- `DEVICE_LAUNCH_QUEUE_RESTART`: a VDC write of the descriptor address (R173). -/
def deviceLaunchQueueRestart (s : State) : Option State :=
  match s.focus with
  | .vdValue v a =>
    if !(s.vd v).open then none else
    let s := s.setVd v fun x => { x with dlq := BitVec.ofNat 64 a }
    some ((s.setQueue v 64 fun k => { k with restartAt := some (BitVec.ofNat 64 a) }).queueIdle v 64)
  | _ => none

def execDeviceLaunchQueueRestart (s : State) := runDevice s deviceLaunchQueueRestart

/-- `KICK_PAGE_WRITE` (R112, R113). -/
def kickPageWrite (s : State) : Option State :=
  match s.focus with
  | .write fn off size value =>
    if fn = 0 || 512 ≤ off || off % 8 != 0 || !(size = 4 || size = 8) then none
    else some (s.offer (fn - 1) (off / 8) (BitVec.ofNat 32 value))
  | _ => none

def execKickPageWrite (s : State) := runDevice s kickPageWrite

-- ## Packets (R123, R126, R127)

def Packet.n (p : Packet) (o k : Nat) : Nat := leNat ((p.bytes.drop o).take k)
def Packet.type (p : Packet) : Nat := p.n 0 1
def Packet.flags (p : Packet) : Nat := bits (p.n 1 1) 5 0
def Packet.barrier (p : Packet) : Bool := bit (p.n 1 1) 7 || p.type = 4
def Packet.lap (p : Packet) : Nat := p.n 2 2
def Packet.irq (p : Packet) : Option Nat := if bit p.flags 3 then some (p.n 7 1) else none
def Packet.signal (p : Packet) : Nat := p.n 40 8
/-- The consumer domain; packets without one complete in domain 0. -/
def Packet.domain (p : Packet) : Nat := if p.type = 1 || p.type = 2 || p.type = 4 then bits p.flags 5 4 else 0

/-- A non-zero reserved field or reserved value: `REASON` 2. -/
def Packet.reserved (p : Packet) : Bool :=
  let any := fun (l : List (Nat × Nat)) => l.any fun e => p.n e.1 e.2 != 0
  let flags := fun (m : Nat) => p.flags &&& (63 - m) != 0
  bit (p.n 1 1) 6 ||
  match p.type with
  | 0 => flags 8 || any [(4, 3), (8, 32), (48, 16)]
  | 1 => bits (p.n 4 1) 7 2 != 0 || bits (p.n 48 4) 31 12 != 0 || any [(56, 8)]
  | 2 => flags 56 || any [(4, 3), (32, 8), (48, 16)]
  | 3 => flags 15 || 4 ≤ bits p.flags 2 0 || any [(4, 3), (24, 16), (48, 16)]
  | 4 => flags 57 || any [(4, 3), (24, 16), (48, 16)]
  | _ => flags 8 || any [(4, 3), (16, 24), (48, 16)]

/-- A field outside its limits: `REASON` 3. -/
def Packet.limits (p : Packet) (proofSlots : Nat) : Bool :=
  63 < p.n 7 1 ||
  match p.type with
  | 1 =>
    !(1 ≤ p.n 5 1 && p.n 5 1 ≤ 24) || !(1 ≤ p.n 6 1 && p.n 6 1 ≤ 32) || p.n 16 4 = 0 || p.n 20 4 = 0 || p.n 24 4 = 0 ||
    2048 < p.n 28 2 || 128 < p.n 30 1 || 16 < p.n 31 1 || (!bit p.flags 2 && p.n 52 4 != 0) ||
    (bit p.flags 1 && proofSlots = 0)
  | 2 => p.n 24 8 = 0 || 2 ^ 40 < p.n 24 8
  | _ => false

/-- A misaligned address: `REASON` 5. -/
def Packet.misaligned (p : Packet) : Bool :=
  p.signal % 16 != 0 ||
  match p.type with
  | 1 => p.n 8 8 % 4 != 0 || p.n 32 8 % 8 != 0
  | 3 | 4 => p.n 8 8 % 16 != 0
  | 5 => p.n 8 8 % 8 != 0
  | _ => false

-- ## Kernels (R126, R168, R170)

/-- The kernel that a LAUNCH packet describes. -/
def Packet.toKernel (p : Packet) (v q asid qprio seq : Nat) : Kernel :=
  let entry := p.n 8 8
  let grid := (p.n 16 4, p.n 20 4, p.n 24 4)
  let sh := p.n 48 4
  { vd := v, asid, queue := q, idx := p.idx, entry := BitVec.ofNat 64 entry, grid
    shifts := (bits sh 3 0, bits sh 7 4, bits sh 11 8), vregs := 8 * p.n 5 1, warps := p.n 6 1, scratch := p.n 28 2
    oslots := p.n 30 1, aslots := p.n 31 1, arg := BitVec.ofNat 64 (p.n 32 8), prio := max (bits (p.n 4 1) 1 0) qprio
    handler := if bit p.flags 2 then some (BitVec.ofNat 64 (entry + 4 * p.n 52 4)) else none
    coop := bit p.flags 0, proof := bit p.flags 1, domain := p.domain, signal := BitVec.ofNat 64 p.signal, irq := p.irq
    launchSeq := BitVec.ofNat 32 seq, left := grid.1 * grid.2.1 * grid.2.2, gangHeld := bit p.flags 0 }

/-- The virtual die of a block (R168). -/
def tileDie (k : Kernel) (x y z nvdie : Nat) : Nat :=
  (((x >>> k.shifts.1) * 40503 ^^^ (y >>> k.shifts.2.1) * 34283 ^^^ (z >>> k.shifts.2.2) * 49842) % 65536) % nvdie

/-- The blocks of a grid, placed on dies, in the order of their linear ids. -/
def gridBlocks (kid : Nat) (k : Kernel) (x : Vd) : List Block :=
  (List.range (k.grid.1 * k.grid.2.1 * k.grid.2.2)).map fun lin =>
    let i := lin % k.grid.1
    let j := lin / k.grid.1 % k.grid.2.1
    let l := lin / (k.grid.1 * k.grid.2.1)
    let vdie := tileDie k i j l x.nvdie
    { kernel := kid, lin, x := i, y := j, z := l, vdie, die := (x.pdie vdie).getD 0 }

/-- Blocks of a kernel that fit one empty cluster (R169). -/
def perCluster (k : Kernel) : Nat :=
  let nq := quadWarps k.warps 0
  let lim := fun (total need : Nat) => if need = 0 then 16 else total / need
  min (min (min 16 (lim 16 nq)) (lim 2048 (nq * k.vregs)))
    (min (lim 524288 (256 * k.scratch)) (min (lim 128 k.oslots) (lim 16 k.aslots)))

/-- A cooperative launch that cannot be co-resident (R170). -/
def State.coopBad (s : State) (k : Kernel) : Bool :=
  let x := s.vd k.vd
  let c := perCluster k
  let ds := (gridBlocks 0 k x).map fun b => b.die
  let per := (dedup ds).map fun d => (d, (ds.filter (· = d)).length)
  let pool := fun (d : Nat) => ((List.range 16).filter fun i => bit (s.poolOf d) i).length
  per.any (fun p => c * pool p.1 < p.2) || x.maxClusters < (per.map fun p => (p.2 + c - 1) / c).sum

/-- The lowest-numbered `REASON` of a packet's defects (R123). -/
def State.defect (s : State) (v q : Nat) (p : Packet) : Option Nat :=
  if 5 < p.type then some 1
  else if p.reserved then some 2
  else if p.limits (bits (s.vd v).prfcfg.toNat 7 0) then some 3
  else if p.type = 1 && bit p.flags 0 && s.coopBad (p.toKernel v q 0 0 0) then some 4
  else if p.misaligned then some 5 else none

-- ## SLOT_POLL (R124, R125)

/-- The step of a started packet. -/
def Packet.step (p : Packet) : Instr :=
  match p.type with
  | 0 => .nopPacket
  | 1 => .launchPacket
  | 2 => .copyPacket
  | 3 => .waitSignalPacket
  | 4 => .writeSignalPacket
  | _ => .timestampPacket

/-- The head write-back (R125), by the queue engine as an agent that holds the line's tokens; one that cannot be performed is dropped and
stops the queue (R122). -/
def State.writeHead (s : State) (v q : Nat) : Option State :=
  let k := s.queue v q
  let done := fun (s : State) => (s.setQueue v q fun k => { k with wbWaits := false }).queueIdle v q
  s.queueUse .slotPoll v q k.asid k.headWb.toNat 4 true (fun s => (done s).stopQueue v q 7 (s.errSrc v q))
    fun s pa => some (done (s.platenPoke pa (leBytes 4 k.head.toNat) v))

/-- `SLOT_POLL`: performs a head write-back that is due, or reads the slot at `HEAD`; a published packet that its barrier condition lets start
does so, unless it has a defect, and `HEAD` advances. -/
def slotPoll (s : State) : Option State :=
  match s.focus with
  | .queue v q _ =>
    let k := s.queue v q
    if (s.vd v).open && k.enabled && k.wbWaits && k.waiting.isNone then s.writeHead v q else
    if (s.vd v).state != .active || !k.enabled || k.stopped || k.disabling || k.restartAt.isSome || k.waiting.isSome ||
      k.head = k.tail || k.started.any (fun p => p.type = 3) then none else
    let fail := fun (r : Nat) (s : State) => s.stopQueue v q r (s.errSrc v q)
    s.queueUse .slotPoll v q k.asid (k.ring.toNat + 64 * (k.head.toNat % 2 ^ k.log2)) 64 false (fail 7) fun s pa =>
      if s.anyLost [pa / 128] then some (fail 7 s) else
      let p : Packet := { idx := k.head.toNat, bytes := s.mem.bytes pa 64, progress := if s.mem.read pa = 5#8 then s.ns else 0 }
      let again := s.setQueue v q fun k => { k with reread := false, pollAt := s.now + 2000 * ticksPerNs }
      if p.lap != (k.head.toNat >>> k.log2) % 65536 || (p.barrier && !k.started.isEmpty) then some again
      else match s.defect v q p with
      | some r => some (fail r again)
      | none =>
        let s := s.setQueue v q fun k =>
          { k with head := k.head + 1#32, started := k.started ++ [p], reread := true, wbWaits := k.headWb != 0#64 }
        let wb := if k.headWb = 0#64 then [] else [(Instr.slotPoll, Focus.queue v q 0)]
        some { s with agenda := s.agenda ++ wb ++ [(p.step, .queue v q p.idx)] }
  | _ => none

def execSlotPoll (s : State) := runDevice s slotPoll

-- ## Started packets

def State.packet (s : State) (v q i : Nat) : Option Packet := (s.queue v q).started.find? fun p => p.idx = i
def State.setPacket (s : State) (v q i : Nat) (f : Packet → Packet) : State :=
  s.setQueue v q fun k => { k with started := modFirst (fun p => p.idx = i) f k.started }

/-- A packet's effect is performed with a completion code; its completion follows. -/
def State.performed (s : State) (v q i code : Nat) : State :=
  { s.setPacket v q i fun p => { p with performed := true, code } with
    agenda := s.agenda ++ [(.packetCompletion, .queue v q i)] }

/-- Runs a step of a started packet of a type that is not yet performed. -/
def onPacket (s : State) (type : Nat) (f : Nat → Nat → Queue → Packet → Option State) : Option State :=
  match s.focus with
  | .queue v q i => (s.packet v q i).bind fun p =>
    if p.type != type || p.performed || (s.queue v q).waiting.isSome || !(s.vd v).open then none else f v q (s.queue v q) p
  | _ => none

/-- `NOP_PACKET`. -/
def nopPacket (s : State) : Option State := onPacket s 0 fun v q _ p => some (s.performed v q p.idx 0)
def execNopPacket (s : State) := runDevice s nopPacket

/-- `LAUNCH_PACKET`: the kernel starts; its blocks join their dies' lists and take room where there is some. A child of
the device-launch queue runs under its parent's ASID with its sequence number (R173, R174). -/
def launchPacket (s : State) : Option State :=
  onPacket s 1 fun v q k p =>
    if p.kernel.isSome then none else
    let (asid, seq) := (find k.kids p.idx).getD (k.asid, 0#32)
    let kid := s.nextId
    let kn := p.toKernel v q (if q = 64 then asid else k.asid) k.prio (if q = 64 then seq.toNat else 0)
    let bs := gridBlocks kid kn (s.vd v)
    let s := (s.setPacket v q p.idx fun p => { p with kernel := some kid }).setQueue v q fun k => { k with kids := del k.kids p.idx }
    let s := { s with
      nextId := kid + 1 + bs.length
      kernels := put s.kernels kid kn
      blocks := s.blocks ++ bs.zipIdx.map fun (b : Block × Nat) => (kid + 1 + b.2, b.1) }
    some (s.fillVd v)
def execLaunchPacket (s : State) := runDevice s launchPacket

/-- A packet whose access has an outcome that no replay mends: it counts as completed, and the queue stops (R122). -/
def State.packetBad (s : State) (v q i : Nat) : State :=
  (s.stopQueue v q 7 (s.errSrc v q)).performed v q i 0

/-- An access of a started packet by step `me`: a non-replayable outcome ends the packet. -/
def State.packetUse (s : State) (me : Instr) (v q i va n : Nat) (write : Bool) (f : State → Nat → Option State) : Option State :=
  s.queueUse me v q (s.queue v q).asid (va % 2 ^ 64) n write (fun s => s.packetBad v q i) f

/-- A platen copy agent's write of a line has landed: other platen agents that waited for it use the line, the buffer answers what
waited, obeys what is in force, and gives the tokens up (R33, R42). -/
def State.letGo (s : State) (line : Nat) : State :=
  let s := (s.settleReqs (platenHolder line) line).resume line
  if hostLine line then { s with agenda := s.agenda ++ [(.persistentActivation, .line line)] } else
  let waits := s.net.inbox.filter fun i => (find s.net.msgs i).any fun m =>
    m.line = line && m.dst = .proxy && match m.kind with | .forward .. => true | _ => false
  { s with agenda := s.agenda ++ waits.map (fun i => (Instr.forwardedRequest, Focus.msg i)) ++
      [(.persistentActivation, .held .proxy line), (.holderEviction, .held .proxy line)] }

/-- `COPY_PACKET`: the bytes of the next destination line are read, from one source line at a time, then the line enters the agent's
ownership buffer and is written (R33, R42). Bytes that source and destination share are undefined. -/
def copyPacket (s : State) : Option State :=
  onPacket s 2 fun v q _ p =>
    let dst := p.n 16 8 + p.progress
    let n := min (p.n 24 8 - p.progress) (128 - dst % 128)
    let (bs, lost) := p.staged.getD ([], false)
    let set := fun (s : State) (f : Packet → Packet) => s.setPacket v q p.idx f
    if bs.length < n then
      let src := p.n 8 8 + p.progress + bs.length
      let k := min (n - bs.length) (128 - src % 128)
      s.packetUse .copyPacket v q p.idx src k false fun s pa =>
        some (set s fun p => { p with
          staged := some (bs ++ (s.mem.bytes pa k).map BitVec.toNat, lost || s.anyLost [pa / 128]) })
    else
      match s.queueAccess v q (s.queue v q).asid (dst % 2 ^ 64) true with
      | .park t => some t
      | .busy t => s.news t
      | .bad t => some (t.packetBad v q p.idx)
      | .ok t pa =>
        let t := set t fun p => { p with hold := some (pa / 128) }
        (t.usingBuffer .copyPacket [pa / 128] v fun s =>
          let (s, fs) := s.freeBytes n
          let out := bs.zipIdx.map fun (b : Nat × Nat) =>
            let d := dst + b.2
            BitVec.ofNat 8 (if lost || (p.n 8 8 ≤ d && d < p.n 8 8 + p.n 24 8) then (fs[b.2]?).getD 0 else b.1)
          let s := (s.platenPoke pa out v).heal (pa / 128) (byteMask (pa % 128) n)
          let code := if lost then 0x10 else p.code
          let s := set s fun p => { p with progress := p.progress + n, staged := none, hold := none, code }
          let s := if p.progress + n = p.n 24 8 then s.performed v q p.idx code else s
          some (s.letGo (pa / 128))).or (s.news t)
def execCopyPacket (s : State) := runDevice s copyPacket

/-- The test of a `WAIT_SIGNAL` (R127) by step `me`: it ends with a code, or goes on waiting. -/
def waitTest (me : Instr) (s : State) (v q : Nat) (p : Packet) : Option State :=
  s.packetUse me v q p.idx (p.n 8 8) 16 false fun s pa =>
    if s.anyLost [pa / 128] then some (s.performed v q p.idx 0x10) else
    let value := s.mem.readNat pa 8
    let code := (s.mem.read (pa + 8)).toNat
    let c := p.n 16 8
    let holds := match bits p.flags 2 0 with
      | 0 => c ≤ value
      | 1 => value = c
      | 2 => value != c
      | _ => value < c
    if holds || code != 0 then some (s.performed v q p.idx code)
    else some (s.setPacket v q p.idx fun p => { p with progress := s.now + 1000 * ticksPerNs })

/-- `WAIT_SIGNAL_PACKET` at its start and `WAIT_SIGNAL_RETEST` later. -/
def waitSignalPacket (s : State) : Option State := onPacket s 3 fun v q _ p => waitTest .waitSignalPacket s v q p
def execWaitSignalPacket (s : State) := runDevice s waitSignalPacket
def waitSignalRetest (s : State) : Option State := onPacket s 3 fun v q _ p => waitTest .waitSignalRetest s v q p
def execWaitSignalRetest (s : State) := runDevice s waitSignalRetest

/-- `WRITE_SIGNAL_PACKET`: the domain's release, then the write; an addition reads the line, and fails where it is lost (R87). -/
def writeSignalPacket (s : State) : Option State :=
  onPacket s 4 fun v q _ p =>
    match s.domainRelease v p.domain none with
    | .error r => r
    | .ok s =>
      s.packetUse .writeSignalPacket v q p.idx (p.n 8 8) 8 true fun s pa =>
        let store := bit p.flags 0
        if !store && s.anyLost [pa / 128] then some (s.performed v q p.idx 0x10) else
        let x := if store then p.n 16 8 else s.mem.readNat pa 8 + p.n 16 8
        some ((s.platenPoke pa (leBytes 8 x) v).performed v q p.idx 0)
def execWriteSignalPacket (s : State) := runDevice s writeSignalPacket

/-- `TIMESTAMP_PACKET`: the time at which the packet started. -/
def timestampPacket (s : State) : Option State :=
  onPacket s 5 fun v q _ p =>
    s.packetUse .timestampPacket v q p.idx (p.n 8 8) 8 true fun s pa =>
      some ((s.platenPoke pa (leBytes 8 p.progress) v).performed v q p.idx 0)
def execTimestampPacket (s : State) := runDevice s timestampPacket

-- ## Completion (R128, R129, R191, R192)

/-- A packet is complete: counted, its interrupt raised (R131). -/
def State.packetDone (s : State) (v q i : Nat) (irq : Option Nat) : State :=
  let s := s.setQueue v q fun k =>
    { k with started := k.started.filter (fun p => p.idx != i), done := k.done + 1#64, reread := true }
  let s := match irq with | some n => s.raise v n | none => s
  s.queueIdle v q

/-- `PACKET_COMPLETION` of a packet whose effect is performed. -/
def packetCompletion (s : State) : Option State :=
  match s.focus with
  | .queue v q i => (s.packet v q i).bind fun p =>
    if !p.performed || (s.queue v q).waiting.isSome || !(s.vd v).open then none else
    match if p.sig.isSome then .ok s else s.domainRelease v p.domain none with
    | .error r => r
    | .ok s =>
      match s.signal v q (s.queue v q).asid p.signal p.code p.domain p.sig with
      | .wait r => r
      | .run s r => some (s.setPacket v q i fun p => { p with sig := some r })
      | .done s ok =>
        let s := if ok then s else s.stopQueue v q 7 (s.errSrc v q)
        some (s.packetDone v q i p.irq)
  | _ => none

def execPacketCompletion (s : State) := runDevice s packetCompletion

/-- A kernel and its blocks leave the machine. -/
def State.dropKernel (s : State) (kid : Nat) : State :=
  { s with kernels := del s.kernels kid, blocks := s.blocks.filter fun b => b.2.kernel != kid }

/-- The record of a kernel's abort is not in the fault queue yet: its completion signal waits for it (R290). -/
def State.abortUnwritten (s : State) (k : Kernel) : Bool := k.abortRec.any fun r => (s.vd k.vd).undelivered.contains r

/-- `KERNEL_COMPLETION`: every block has exited, or the kernel has aborted. The regions that it filled or read are free of it before its
signal is visible (R73). -/
def kernelCompletion (s : State) : Option State :=
  match s.focus with
  | .kernel kid _ => (s.kern kid).bind fun k =>
    if k.left != 0 || k.complete || (s.queue k.vd k.queue).waiting.isSome || !(s.vd k.vd).open || s.abortUnwritten k then none else
    let run := (s.packet k.vd k.queue k.idx).bind fun p => p.sig
    match if run.isSome then .ok s else s.domainRelease k.vd k.domain (some kid) with
    | .error r => r
    | .ok s =>
      let s := if run.isSome then s else s.unseal k.vd kid
      match s.signal k.vd k.queue k.asid k.signal.toNat (k.abort.getD 0) k.domain run with
      | .wait r => r
      | .run s r => some (s.setPacket k.vd k.queue k.idx fun p => { p with sig := some r })
      | .done s ok =>
        let s := s.setKern kid fun k => { k with complete := true }
        let s := if ok then s else s.stopQueue k.vd k.queue 7 (s.errSrc k.vd k.queue)
        some ((s.packetDone k.vd k.queue k.idx k.irq).dropKernel kid)
  | _ => none

def execKernelCompletion (s : State) := runDevice s kernelCompletion

/-- `KERNEL_ABORT` by VDC policy (R192); a fault without a handler aborts in its own step. -/
def kernelAbort (s : State) : Option State :=
  match s.focus with
  | .kernel kid code => (s.kern kid).bind fun k =>
    if k.abort.isSome || k.complete then none
    else some ((s.abort kid (code % 256) none).fillVd k.vd)
  | _ => none

def execKernelAbort (s : State) := runDevice s kernelAbort

end Sys2Proof.Machine
end

