-- ==== Sys2Proof/Machine/Paging.lean ====
section
/-!
DEFINITION. Invalidation (R148, R149), the fault queue and replay (R151–R154), range hints and demand paging (R156), migration
(R157, R158).
-/
namespace Sys2Proof.Machine

-- ## Invalidation (R148, R149)

/-- Removes from every TLB the entries of a VD that `p` selects, and the VD's entries from the walk caches. -/
def State.dropTlb (s : State) (v : Nat) (p : TlbEntry → Bool) : State :=
  let gone := fun (e : TlbEntry) => e.vd = v && p e
  { s with
    clusters := mapv s.clusters fun c => { c with tlb := c.tlb.filter fun e => !gone e }
    dies := mapv s.dies fun d => { d with tlb := d.tlb.filter fun e => !gone e }
    walkCache := s.walkCache.filter fun e => e.1 != v }

/-- What a guest's invalidation of a kind removes (R148): a range overlapping 2^`LOG2N` pages from `VPN`, an ASID, or all. -/
def removes (kind w : Nat) (e : TlbEntry) : Bool :=
  let base := bits w 56 12 * 4096
  let a := bits e.va 56 0
  kind = 2 || (e.asid = bits w 7 2 && (kind = 1 || (a < base + 4096 * 2 ^ bits w 11 8 && base < a + e.size)))

/-- A guest invalidation of a kind begins, unless one runs (R148); kinds 1 and 2 also have the roots and queue masks read again. -/
def State.beginInval (s : State) (kind : Nat) : Option State :=
  match s.focus with
  | .vdValue v w =>
    let x := s.vd v
    if !x.open || x.tlbinv.isSome || bits w 1 0 != kind then none else
    some ((s.dropTlb v (removes kind w)).setVd v fun x =>
      { x with tlbinv := some (BitVec.ofNat 64 w, s.nextId), rootsDue := kind != 0, rootsWait := none })
  | _ => none

/-- `TLB_INVALIDATE_RANGE`. -/
def tlbInvalidateRange (s : State) : Option State := s.beginInval 0
def execTlbInvalidateRange (s : State) := runDevice s tlbInvalidateRange

/-- `TLB_INVALIDATE_ASID`. -/
def tlbInvalidateAsid (s : State) : Option State := s.beginInval 1
def execTlbInvalidateAsid (s : State) := runDevice s tlbInvalidateAsid

/-- `TLB_INVALIDATE_VD`. -/
def tlbInvalidateVd (s : State) : Option State := s.beginInval 2
def execTlbInvalidateVd (s : State) := runDevice s tlbInvalidateVd

/-- `STAGE2_INVALIDATE` by guest physical range, or of the whole VD for size 0. -/
def stage2Invalidate (s : State) : Option State :=
  match s.focus with
  | .range v base size =>
    let s := s.dropTlb v fun e => size = 0 || (e.gpa < base + size && base < e.gpa + e.size)
    some { s with s2inv := s.s2inv ++ [(v, base, size, s.nextId)] }
  | _ => none
def execStage2Invalidate (s : State) := runDevice s stage2Invalidate

/-- A far atomic of a VD that no access waits for is on its way, or waits in a station: an aborted block's, or another module's. -/
def State.strayAtomic (s : State) (v : Nat) : Bool :=
  let stray := fun (ms : List Member) => ms.any fun m =>
    m.module != s.fabric.module || !(s.allAccesses.any fun a => a.2.ops.any fun p => p.2 = m.op) && !s.sigRuns.any fun r => r.2.op = some m.op
  (s.net.msgs.any fun (m : Nat × Msg) => m.2.vd = v && match m.2.kind with | .atomic _ _ _ _ _ ms => stray ms | _ => false) ||
  s.coh.stations.any fun (x : Nat × Station) => x.2.groups.any fun g => !g.applied && g.vd = v && stray g.members

/-- Every access of a VD that used a translation made below a number has been performed at device scope, or discarded: what an
invalidation removed is used no more (R149). Accesses, engines' windows, bytes in write-combining buffers and in L1, aborted
blocks' far atomics, completion signals, and writes of the device itself count; a remote operation translates elsewhere. -/
def State.settled (s : State) (v mark : Nat) : Bool :=
  (s.allAccesses.all fun a => a.2.vd != v || mark ≤ a.2.id || a.2.weight || a.2.remoteKind.isSome) &&
  (s.cmds.all fun (c : Nat × Command) => mark ≤ c.2.order || c.2.window.isEmpty || !(s.blk c.2.warp.blk).any fun b => s.vdOf b = v) &&
  (s.clusters.all fun (c : Nat × Cluster) =>
    (c.2.wcb.all fun e => e.vd != v || e.owners.all fun o => mark ≤ o.2) &&
    c.2.l1.all fun (l : Nat × L1Line) => l.2.vd != v || l.2.dirty = 0#128 || mark ≤ l.2.first) &&
  !s.strayAtomic v && (s.sigRuns.all fun r => r.1 != v || mark ≤ r.2.since) && s.posted.all fun p => p.vd != v

/-- A frame leaves its VD: nothing is bound to it, and it needs no rekeying any more (R78). -/
def State.freeFrame (s : State) (f : Nat) : State :=
  ({ s with hbm := { s.hbm with tags := adj s.hbm.tags f fun t => { t with bound := false } } }).unfreeze f

/-- An invalidation that has read roots again removes what was translated through the old ones meanwhile. -/
def State.restartInval (s : State) (v w : Nat) : State :=
  (s.dropTlb v (removes (bits w 1 0) w)).setVd v fun x => { x with tlbinv := some (BitVec.ofNat 64 w, s.nextId) }

/-- `INVALIDATION_COMPLETE` of a guest's (focus: its VD), once the table is read again where its kind has it so, or of the VDC's
(focus: its range), which frees the old frame of a migrated page that was switched before it began (R157). -/
def invalidationComplete (s : State) : Option State :=
  match s.focus with
  | .vd v =>
    match (s.vd v).tlbinv with
    | some (w, mark) =>
      if (s.vd v).rootsDue then (s.rereadRoots v).map fun t => if (t.vd v).rootsDue then t else t.restartInval v w.toNat
      else if s.settled v mark then some (s.setVd v fun x => { x with tlbinv := none, tlbDone := x.tlbDone + 1#16 }) else none
    | none => none
  | .range v base size =>
    (s.s2inv.find? fun e => e.1 = v && e.2.1 = base && e.2.2.1 = size).bind fun e =>
      if !s.settled v e.2.2.2 then none else
      let s := { s with s2inv := s.s2inv.erase e }
      let ended := s.migr.filter fun (m : Nat × Migration) => m.2.vd = v && m.2.switched && m.2.since < e.2.2.2 &&
        (size = 0 || (base ≤ 4096 * m.2.gpage && 4096 * m.2.gpage + 4096 ≤ base + size))
      some (ended.foldl (fun s (m : Nat × Migration) => ({ s with migr := del s.migr m.1 }).freeFrame m.2.oldF) s)
  | _ => none
def execInvalidationComplete (s : State) := runDevice s invalidationComplete

-- ## Replay (R153)

/-- A record's 4 KiB page (R153). -/
def FRecord.page (r : FRecord) : Nat := bits r.va.toNat 56 12

/-- Matches the records of a VD that `p` selects: of wait-table entries, queue engines, fabric ports and a table read; unwritten
records of platen agents' waits that end are discarded. -/
def State.matchRecords (s : State) (v : Nat) (p : FRecord → Bool) : State :=
  let still := fun (r : FRecord) => !p r
  let ends := fun (h : HeldReq) => h.q.vd = v && !h.left.isEmpty && h.left.all p
  let gone := (s.fabric.held.filter ends).flatMap (fun h => h.recs) ++
    (s.vd v).queues.filterMap fun (q : Nat × Queue) => q.2.waiting.filter p
  { s with
    dies := mapv s.dies fun d => { d with waits := mapv d.waits fun e =>
      if e.vd = v then { e with left := e.left.filter still } else e }
    fabric := { s.fabric with held := s.fabric.held.map fun h => if h.q.vd = v then { h with left := h.left.filter still } else h }
    vds := adj s.vds v fun x =>
      { x with
        queues := mapv x.queues fun q => if q.waiting.any p then { q with waiting := none, reread := true } else q
        rootsWait := x.rootsWait.filter still, vdcRecords := x.vdcRecords.filter still
        undelivered := gone.foldl List.erase x.undelivered } }

/-- `REPLAYT_WRITE`: every record of the entry whose current token the value names. -/
def replaytWrite (s : State) : Option State :=
  match s.focus with
  | .vdValue v w =>
    if !(s.vd v).open then none else
    let d := bits w 16 12
    let i := bits w 11 0
    match find (s.die d).waits i with
    | some e =>
      if e.waiter.isSome && e.vd = v && e.gen = bits w 31 17 then
        some (s.setDie d fun x => { x with waits := put x.waits i { e with left := [] } })
      else some s
    | none => some s
  | _ => none
def execReplaytWrite (s : State) := runDevice s replaytWrite

/-- `REPLAY_PAGE`: stage-1 records of the ASID and page. -/
def replayPage (s : State) : Option State :=
  match s.focus with
  | .vdValue v w =>
    if !(s.vd v).open || bit w 6 then none else
    some ((s.matchRecords v fun r => !r.stage2 && r.asid = bits w 5 0 && r.page = bits w 56 12).setVd v
      fun x => { x with epoch := x.epoch + 1 })
  | _ => none
def execReplayPage (s : State) := runDevice s replayPage

/-- `REPLAY_ALL`: every stage-1 record of the VD. -/
def replayAll (s : State) : Option State :=
  match s.focus with
  | .vdValue v w =>
    if !(s.vd v).open || !bit w 6 then none else
    some ((s.matchRecords v fun r => !r.stage2).setVd v fun x => { x with epoch := x.epoch + 1 })
  | _ => none
def execReplayAll (s : State) := runDevice s replayAll

/-- `WAITER_WAKE`: an entry whose records are all matched frees, and its waiter runs again from the start. -/
def waiterWake (s : State) : Option State :=
  match s.focus with
  | .waiter d i => (find (s.die d).waits i).bind fun e =>
    e.waiter.bind fun who =>
      if !e.left.isEmpty then none else
      let token := waitToken d i e.gen
      let s := s.setDie d fun x => { x with waits := put x.waits i e.free }
      let s := s.setVd e.vd fun x => { x with undelivered := x.undelivered.filter fun r => r.token != token }
      some (match who with
        | .warp w => s.setWarp w fun x => { x with parked := none }
        | .command c => s.setCmd c fun c => { c with parked := none })
  | _ => none
def execWaiterWake (s : State) := runDevice s waiterWake

/-- `WAIT_TABLE_ENTRY_FREE`: what stalled on a full wait table may try again. -/
def waitTableEntryFree (s : State) : Option State :=
  match s.focus with
  | .die d => if (s.freeWait d).isSome then some { s with held := none } else none
  | _ => none
def execWaitTableEntryFree (s : State) := runDevice s waitTableEntryFree

-- ## The fault queue (R152, R291)

/-- A record's 32 bytes (R291). -/
def FRecord.bytes (r : FRecord) : List Byte :=
  leBytes 8 r.va.toNat ++ leBytes 8 r.pc.toNat ++ leBytes 1 r.code ++ leBytes 1 r.atype ++ leBytes 1 r.log2w ++
  leBytes 1 (if r.stage2 then 1 else 0) ++ leBytes 4 r.lanes.toNat ++ leBytes 4 r.token.toNat ++ leBytes 4 r.place.toNat

/-- `FQHEAD_WRITE`: a value that passes `TAIL` is ignored. -/
def fqheadWrite (s : State) : Option State :=
  match s.focus with
  | .vdValue v w =>
    let x := s.vd v
    let h := BitVec.ofNat 32 w
    if !x.open || (x.fqTail - x.fqHead).toNat < (h - x.fqHead).toNat then none
    else some (s.setVd v fun x => { x with fqHead := h })
  | _ => none
def execFqheadWrite (s : State) := runDevice s fqheadWrite

/-- `FAULT_RECORD_DELIVERY`: the oldest record enters the ring when there is room, a halt's after its dump (R265); source 0 when the ring
was empty. -/
def faultRecordDelivery (s : State) : Option State :=
  match s.focus with
  | .vd v =>
    let x := s.vd v
    match x.undelivered with
    | [] => none
    | r :: rest =>
      let n := bits x.fq.toNat 3 0
      let halt := (r.code = 0x13 || r.code = 0x14) && s.dumping v
      if x.state = .killing || x.state = .faulted || halt || 2 ^ n ≤ (x.fqTail - x.fqHead).toNat then none else
      let a := 4096 * bits x.fq.toNat 47 12 + 32 * (x.fqTail.toNat % 2 ^ n)
      s.usingTables .faultRecordDelivery v [a] fun s =>
      match s.s2 v a 1 with
      | .ok _ _ pa => s.owning .faultRecordDelivery [pa / 128] v fun s =>
        let s := (s.platenPoke pa r.bytes v).setVd v fun x => { x with fqTail := x.fqTail + 1#32, undelivered := rest }
        if x.fqTail = x.fqHead then s.raise v 0 else s
      | _ => none
  | _ => none
def execFaultRecordDelivery (s : State) := runDevice s faultRecordDelivery

-- ## Range hints (R156)

/-- The physical address of hint record `i` of a VD's table; none where stage 2 gives none. -/
def State.hintAddr (s : State) (v i : Nat) : Option Nat :=
  match s.s2 v ((s.vd v).rhBase + 32 * i) 0 with
  | .ok _ _ pa => some pa
  | _ => none

/-- Hint record `i` of a VD's table, if it can be read (R87) and counts. -/
def State.hintAt (s : State) (v i : Nat) : Option Hint :=
  (s.hintAddr v i).bind fun pa =>
    let n := fun (o k : Nat) => s.mem.readNat (pa + o) k
    if s.anyLost [pa / 128] || 2 ≤ n 17 1 || n 22 8 != 0 || n 30 2 != 0 || 10 ≤ n 16 1 || 2 ^ 48 < n 0 8 + n 8 8 then none
    else some { base := n 0 8, size := n 8 8, home := n 16 1, unwritten := bit (n 17 1) 0, agents := [n 18 1, n 19 1, n 20 1, n 21 1] }

/-- The VDC's fault path reads the table, as a platen agent (R35). -/
def State.withHints (s : State) (me : Instr) (v : Nat) (k : State → Option State) : Option State :=
  let is := List.range (s.vd v).rhCount
  s.usingTables me v (is.map fun i => (s.vd v).rhBase + 32 * i) fun s =>
  s.using me ((dedup (is.filterMap fun i => (s.hintAddr v i).map (· / 128))).map fun l => (l, false)) v fun s =>
    k (s.setVd v fun x => { x with hints := is.filterMap fun i => s.hintAt v i, hintsDue := false })

/-- `RHBASE_WRITE`; the table is read next (focus: the VD). -/
def rhbaseWrite (s : State) : Option State :=
  match s.focus with
  | .vdValue v w =>
    if !(s.vd v).open then none else
    let s := s.setVd v fun x => { x with rhCount := bits w 7 0, rhBase := 4096 * bits w 47 12, hintsDue := true }
    some { s with agenda := s.agenda ++ [(.rhbaseWrite, .vd v)] }
  | .vd v => if (s.vd v).hintsDue then s.withHints .rhbaseWrite v some else none
  | _ => none
def execRhbaseWrite (s : State) := runDevice s rhbaseWrite

/-- The hint that governs a guest page: the lower-numbered record. -/
def Vd.hint (x : Vd) (gpage : Nat) : Option Hint :=
  x.hints.find? fun h => h.base ≤ 4096 * gpage && 4096 * gpage < h.base + h.size

/-- The sector of a frame (R67). -/
def frameSector (f : Nat) : Nat :=
  let pa := 4096 * f
  bits pa 14 12 ^^^ bits pa 22 20 ^^^ bits pa 30 28 ^^^ bits pa 38 36

/-- A frame is where a hint's home field puts it (R68, R156). -/
def Hint.places (h : Hint) (f : Nat) : Bool :=
  if h.home ≤ 7 then 4096 * f < hbmEnd && frameSector f = h.home
  else if h.home = 9 then hostBase ≤ 4096 * f else true

-- ## Stage-2 tables (R143, R144, R107)

/-- A range of physical addresses that reaches an address that names nothing (R65, R107). -/
def State.unnamed (s : State) (pa n : Nat) : Bool := !s.names pa || !s.names (pa + n - 1)

/-- A range of physical addresses with a frame that is bound to a key id of another VD (R116). -/
def State.foreign (s : State) (v pa n : Nat) : Bool :=
  s.hbm.tags.any fun t => pa / 4096 ≤ t.1 && 4096 * t.1 < pa + n && t.2.bound && (find s.keySlots t.2.key).any fun o => o != v

/-- The stage-2 tables refuse an entry for a level: malformed, a leaf or next-level table that reaches an address that names nothing
or a frame of another VD's key id, or a leaf's own such key id (R65, R107, R116, R143, R144). -/
def State.leafBad (s : State) (v level addr e : Nat) : Bool :=
  let pa := 4096 * bits e 47 12
  let head := addr / 8 % 16 = 0
  let size := if bit e 1 then 4096 else if bit e 5 then 65536 else pageSize level
  bit e 0 && (
    bits e 11 7 != 0 || bits e 53 48 != 0 || (bit e 1 && level = 0) || (!bit e 1 && 3 ≤ level) ||
    (bit e 5 && !(level = 0 && head && !bit e 1)) || (!bit e 1 && pa % size != 0) || s.unnamed pa size || s.foreign v pa size ||
    (!bit e 1 && ((find s.keySlots (bits e 63 54)).any (fun o => o != v) || (hbmEnd ≤ pa && bits e 63 54 != (s.vd v).keyId))))

/-- A VDC hart's access under key id 0 to an address that names nothing, or to a guest's frame: the hart faults (R79, R107, R116). -/
def State.hartBad (s : State) (pa : Nat) : Bool := s.unnamed pa 8 || (pa < hbmEnd && (s.tag pa).bound && (s.tag pa).key != 0)

/-- The addresses of the stage-2 entries of a guest page, as memory has them. -/
def State.leafPath (s : State) (v gpage : Nat) : List Nat := s2Path (fun a => s.mem.readNat a 8) 4 (s.s2Root v) (4096 * gpage)

/-- The stage-2 leaf of a guest page: the place of the entry that the walk ends at, and the entry, as memory has them. -/
def State.leafOf (s : State) (v gpage : Nat) : Option (Nat × Nat) :=
  (s.leafPath v gpage).getLast?.map fun a => (a, s.mem.readNat a 8)

/-- The VDC reads the tables down to a guest page's leaf, through the host proxy (R35); a lost line ends in an error, and the step is not
taken (R87). -/
def State.withLeaf (s : State) (me : Instr) (v gpage : Nat) (k : State → Option State) : Option State :=
  let ls := dedup ((s.leafPath v gpage).map (· / 128))
  s.using me (ls.map fun l => (l, false)) v fun s => if s.anyLost ls then none else k s

-- ## Demand paging (R156)

/-- Loads the translations of a page's records into the dies of a hint's agents. -/
def State.warm (s : State) (v gpage : Nat) (h : Hint) (rs : List FRecord) : State :=
  let ds := h.agents.filterMap fun a => (s.vd v).pdie a
  rs.foldl (fun (s : State) (r : FRecord) =>
    match s.walkOut v r.asid r.va.toNat 0 with
    | .ok (e, _) =>
      if e.gpa ≤ 4096 * gpage && 4096 * gpage < e.gpa + e.size then
        ds.foldl (fun s d => (s.translate (some (d, noCluster)) v r.asid r.va.toNat 0).1) s
      else s
    | .error _ => s) s

/-- The home writes bytes of a line all of whose tokens it has. -/
def State.homePoke (s : State) (pa : Nat) (bs : List Byte) (v : Nat) : State := (s.poke pa bs).fillLlc (pa / 128) v true

/-- Copies a frame's bytes by `poke`; a lost line is lost there too (R87). -/
def State.copyFrame (s : State) (poke : State → Nat → List Byte → State) (src dst : Nat) : State :=
  (List.range 32).foldl (fun s i =>
    if s.anyLost [32 * src + i] then s.lose (32 * dst + i)
    else poke s (4096 * dst + 128 * i) (s.mem.bytes (4096 * src + 128 * i) 128)) s

/-- The lines of a frame that a copy reads or writes through the proxy. -/
def platenLines (f : Nat) (write : Bool) : List (Nat × Bool) := (frameLines f).map fun l => (l, write)

/-- A leaf in a failed expander is mapped again (R109). -/
def State.mapsAgain (s : State) (e : Nat) : State :=
  let pa := 4096 * bits e 47 12
  if bit e 0 && !bit e 1 && (expanderOf pa).any fun p => s.cxl.failed.contains p then
    { s with cxl := { s.cxl with remapped := dedup (s.cxl.remapped ++ [pa]) } }
  else s

/-- `STAGE2_FAULT_RESOLUTION`: the hint table is read, the frame bound, the page copied in, the leaf of 4 KiB written (R68), and the VD's
stage-2 records matched; a page of a range that names agents is loaded into their dies' TLBs (log 77). -/
def stage2FaultResolution (s : State) : Option State :=
  match s.focus with
  | .resolve v gpage leafAddr leaf src =>
    s.withHints .stage2FaultResolution v fun s =>
      let f := bits leaf 47 12
      let key := bits leaf 63 54
      let h := (s.vd v).hint gpage
      let bound := 4096 * f < hbmEnd && (s.tag (4096 * f)).bound && (s.tag (4096 * f)).key = key
      if s.leafBad v 0 leafAddr leaf || bit leaf 5 || h.any (fun h => !h.places f) || s.mixes [] f key || s.hartBad leafAddr ||
        (s.retired f && !bound) then none else
      if src.any fun o => s.unnamed (4096 * o) 4096 then some (s.emit (.hartFault (4096 * src.getD 0))) else
      let lines := (leafAddr / 128, true) ::
        (src.toList.flatMap fun o => platenLines o false ++ if 4096 * f < hbmEnd then [] else platenLines f true)
      s.using .stage2FaultResolution lines v fun s =>
        let fill := fun (s : State) =>
          let s := match src with | some o => s.copyFrame (fun s pa bs => s.homePoke pa bs v) o f | none => s
          let s := (s.platenPoke leafAddr (leBytes 8 leaf) v).mapsAgain leaf
          let s := match h with | some h => s.warm v gpage h (s.vd v).vdcRecords | none => s
          some (s.matchRecords v fun r => r.stage2)
        if bound && src.isNone then fill s
        else s.withFrame .stage2FaultResolution v f fun s => fill (if bound || hbmEnd ≤ 4096 * f then s else s.bind' f key)
  | _ => none
def execStage2FaultResolution (s : State) := runDevice s stage2FaultResolution

/-- `PAGE_EVICTION`: once the page's leaf is cleared and the invalidation of it complete, the page goes out and its frame is free. A page
of a range that names an agent is never evicted; a mostly unwritten page that has not changed writes nothing back. -/
def pageEviction (s : State) : Option State :=
  match s.focus with
  | .evict v gpage f hostFrame =>
    s.withHints .pageEviction v fun s => s.withLeaf .pageEviction v gpage fun s =>
      let h := (s.vd v).hint gpage
      let named := h.any fun h => h.agents.any fun a => a != 0xFF
      let uses := fun (e : TlbEntry) => e.vd = v && e.pa / 4096 ≤ f && 4096 * f < e.pa + e.size
      let used := s.clusters.any (fun c => c.2.tlb.any uses) || s.dies.any (fun d => d.2.tlb.any uses)
      if named || used || (s.leafOf v gpage).any (fun l => bit l.2 0) || s.s2inv.any (fun e => e.1 = v) ||
        !(s.tag (4096 * f)).bound || f = hostFrame then none else
      if s.unnamed (4096 * hostFrame) 4096 then some (s.emit (.hartFault (4096 * hostFrame))) else
      s.using .pageEviction (platenLines hostFrame true) v fun s =>
        s.withFrame .pageEviction v f (data := true) fun s =>
          let same := s.mem.bytes (4096 * f) 4096 = s.mem.bytes (4096 * hostFrame) 4096 && !s.anyLost (frameLines f ++ frameLines hostFrame)
          some ((if h.any (fun h => h.unwritten) && same then s
            else s.copyFrame (fun s pa bs => s.platenPoke pa bs v) f hostFrame).freeFrame f)
  | _ => none
def execPageEviction (s : State) := runDevice s pageEviction

-- ## Migration (R88, R157, R158)

/-- `MIGRATION_START`: the entry is made and the leaf's `MIG` set; the new frame is bound to the same key id, is not retired, and is
where a hint puts the page (R68, R88). -/
def migrationStart (s : State) : Option State :=
  match s.focus with
  | .migrate slot v gpage leafAddr newF => s.withLeaf .migrationStart v gpage fun s =>
    let e := s.mem.readNat leafAddr 8
    let oldF := bits e 47 12
    let t := s.tag (4096 * newF)
    let lost := s.retired oldF && (frameLines oldF).any s.isLost
    if (find s.migr slot).isSome || 256 ≤ slot || s.leafOf v gpage != some (leafAddr, e) || !bit e 0 || bit e 1 || bit e 5 || bit e 6 || lost ||
      s.retired newF || ((s.vd v).hint gpage).any (fun h => !h.places newF) ||
      !(t.bound && t.key = (s.tag (4096 * oldF)).key) then none else
    s.owning .migrationStart [leafAddr / 128] v fun s =>
      { s.platenPoke leafAddr (leBytes 8 (e + 64)) v with migr := put s.migr slot { vd := v, leaf := leafAddr, gpage, oldF, newF } }
  | _ => none
def execMigrationStart (s : State) := runDevice s migrationStart

/-- `MIGRATION_LINE_COPY`, in ascending order: both lines are in the agent's ownership buffer, and are released after (R42, R157). -/
def migrationLineCopy (s : State) : Option State :=
  match s.focus with
  | .slotLine slot l => (find s.migr slot).bind fun m =>
    if m.bitmap.getLsbD l || (List.range l).any (fun i => !m.bitmap.getLsbD i) then none else
    let a := 32 * m.oldF + l
    let b := 32 * m.newF + l
    s.usingBuffer .migrationLineCopy [a, b] m.vd fun s =>
      let s := if s.anyLost [a] then s.lose b
        else (s.platenPoke (128 * b) (s.mem.bytes (128 * a) 128) m.vd).heal b (BitVec.allOnes 128)
      some (({ s with migr := put s.migr slot { m with bitmap := m.bitmap ||| (1#32 <<< l) } }.letGo a).letGo b)
  | _ => none
def execMigrationLineCopy (s : State) := runDevice s migrationLineCopy

/-- `MIGRATION_SWITCH`: with every bit set, the leaf names the new frame, and its translations are invalidated. While the leaf's line is
lost it cannot be read, and the migration stands (R87). -/
def migrationSwitch (s : State) : Option State :=
  match s.focus with
  | .migrate slot v _ _ _ => (find s.migr slot).bind fun m =>
    if m.vd != v || m.switched || m.bitmap != 0xFFFFFFFF#32 then none else
    let e := s.mem.readNat m.leaf 8
    let e' := (e - 4096 * bits e 47 12 + 4096 * m.newF) - (if bit e 6 then 64 else 0)
    s.using .migrationSwitch [(m.leaf / 128, true)] v fun s =>
      if s.anyLost [m.leaf / 128] then none else
      some { s.platenPoke m.leaf (leBytes 8 e') v with
        migr := put s.migr slot { m with switched := true, since := s.nextId }, nextId := s.nextId + 1
        agenda := s.agenda ++ [(.stage2Invalidate, .range v (4096 * m.gpage) 4096)] }
  | _ => none
def execMigrationSwitch (s : State) := runDevice s migrationSwitch

end Sys2Proof.Machine
end

