-- ==== Sys2Proof/Machine/Link.lean ====
section
/-!
DEFINITION. The fabric's other side: requests from other modules (R92–R94, R98, R99), reductions (R104), outcome queries (R62, R102),
replies and timeouts (R97, R98), and the ports with their planes (R100, R101).
-/
namespace Sys2Proof.Machine

-- ## Requests that arrive

/-- The modules that a request comes from: an `RATOM` that a switch combined has its members' (R102). -/
def HeldReq.sources (h : HeldReq) : List Nat :=
  if h.kind = 2 then h.q.members.map fun (m : Nat × Nat × Bool × Nat) => m.2.2.2 else [h.q.srcModule]

/-- Two requests of one source for one line (R92); a query is none. -/
def HeldReq.sameLine (h o : HeldReq) : Bool :=
  h.kind != 6 && o.kind != 6 && h.sources.any o.sources.contains && h.q.vd = o.q.vd && h.q.fa / 128 = o.q.fa / 128

/-- A wait of a request ends; records of it that are not written yet are discarded (R153). -/
def State.dropRecs (s : State) (h : HeldReq) : State :=
  s.setVd h.q.vd fun x => { x with undelivered := h.recs.foldl List.erase x.undelivered }

/-- Refuses a request (R98): each member of an `RATOM`, to its module; a reduction's result that cannot be written ends its `RRED` so. -/
def State.refuse (s : State) (h : HeldReq) : State :=
  let s := (s.unhold h).dropRecs h
  if h.kind = 5 then
    match s.byOp h.q.op with
    | some (w, a) => s.complete w a [] (some (0x17, 1#32))
    | none => s
  else if h.kind = 2 then
    h.q.members.foldl (fun (s : State) (m : Nat × Nat × Bool × Nat) => s.emit (.fabricReply m.2.2.2 m.1 true [])) s
  else s.emit (.fabricReply h.q.srcModule h.q.op true [])

/-- The addresses that a request uses in its target VD, with the access types of their permissions. -/
def HeldReq.uses (h : HeldReq) : List (Nat × Nat) :=
  if h.kind = 0 || h.kind = 6 then [(h.q.fa, 0)] else if 4 ≤ h.kind then [(h.q.fa, 1), (h.q.sig, 1)] else [(h.q.fa, 1)]

/-- Translates a request's addresses (R98). -/
def State.fabricTrans (s : State) (v : Nat) : List (Nat × Nat) → State × List (Nat × Tr)
  | [] => (s, [])
  | (va, t) :: r =>
    let (s, x) := s.translate none v 0 va t
    let (s, xs) := State.fabricTrans s v r
    (s, (va, x) :: xs)

/-- A fabric port's record of a page that is not there (R291). -/
def HeldReq.record (h : HeldReq) (va code : Nat) (stage2 : Bool) : FRecord :=
  { va := BitVec.ofNat 64 va, code, atype := 7, log2w := 7, stage2, lanes := BitVec.ofNat 32 h.q.plane
    place := BitVec.ofNat 32 h.q.vd }

/-- Fault-buffer entries of a plane in use (R98). -/
def State.planeHeld (s : State) (p : Nat) : Nat := (s.fabric.held.filter fun h => h.q.plane = p && !h.left.isEmpty).length

/-- A far atomic of this module's has not been applied yet: its message is on the way, or it waits in a station. -/
def State.unapplied (s : State) (module op : Nat) : Bool :=
  let has := fun (ms : List Member) => ms.any fun m => m.module = module && m.op = op
  (s.net.msgs.any fun (m : Nat × Msg) => match m.2.kind with | .atomic _ _ _ _ _ ms => has ms | _ => false) ||
  s.coh.stations.any fun (x : Nat × Station) => x.2.groups.any fun g => !g.applied && has g.members

/-- A signal's request has been performed, its increment too; its reply is still to come (R92, R94). -/
def State.requestDone (s : State) (h : HeldReq) : Bool := h.signalOut && !s.unapplied h.q.srcModule h.q.op

/-- The frame of a request at its target: the VD's state, the order of its source's requests for the line, translation and
permissions; then `f` performs it at physical addresses, or says that it waits, as it does at its port meanwhile. -/
def State.incoming (s : State) (h : HeldReq) (f : State → List Nat → Option State) : Option State :=
  let same := fun (o : HeldReq) => o.q = h.q && o.kind = h.kind
  let keep := fun (t : State) => if t.fabric.held.any same then t else t.hold h
  if !(s.vd h.q.vd).open then some (s.refuse h)
  else if (s.fabric.held.takeWhile fun o => !same o).any fun o => h.sameLine o && !s.requestDone o then s.news (keep s)
  else if !h.left.isEmpty then none
  else
    let (t, rs) := s.fabricTrans h.q.vd h.uses
    if rs.any fun r => r.2 = .busy then s.news (keep t)
    else if rs.any fun r => match r.2 with | .perm _ | .lost => true | _ => false then some (t.refuse h)
    else
      let bad := rs.filterMap fun r => match r.2 with
        | .replay code stage2 _ => some (h.record r.1 code stage2)
        | _ => none
      if bad.isEmpty then
        (f (keep t) (rs.filterMap fun r => match r.2 with | .ok pa => some pa | _ => none)).or (s.news (keep t))
      else if 256 ≤ s.planeHeld h.q.plane then none
      else some ((t.report h.q.vd bad).hold { h with left := bad, recs := h.recs ++ bad })

/-- The request of a kind that the focus brings, or that waits already. -/
def State.arriving (s : State) (kind : Nat) (q : InReq) : HeldReq :=
  (s.fabric.held.find? fun o => o.q = q && o.kind = kind).getD { q, kind }

-- ## What requests do (R94, R99)

/-- A write of a line's masked bytes with 64 tokens. -/
def State.writeMasked (s : State) (pa v : Nat) (data : LineData) (m : ByteMask) : State :=
  let l := pa / 128
  s.platenPoke (128 * l) ((List.range 128).map fun k => lineByte (mergeLine (s.lineData l) data m) k) v

/-- `RLD_REQUEST`. -/
def rldRequest (s : State) : Option State :=
  match s.focus with
  | .remote q =>
    let h := s.arriving 0 q
    s.incoming h fun s pas =>
      let line := pas.headD 0 / 128
      s.using .rldRequest [(line, false)] q.vd fun s =>
        some (if s.anyLost [line] then s.refuse h
          else (s.unhold h).emit (.fabricReply q.srcModule q.op false [(s.lineData line).toNat]))
  | _ => none
def execRldRequest (s : State) := runDevice s rldRequest

/-- `RST_REQUEST`. -/
def rstRequest (s : State) : Option State :=
  match s.focus with
  | .remote q =>
    let h := s.arriving 1 q
    s.incoming h fun s pas =>
      s.owning .rstRequest [pas.headD 0 / 128] q.vd fun s =>
        ((s.writeMasked (pas.headD 0) q.vd q.data q.mask).unhold h).emit (.fabricReply q.srcModule q.op false [])
  | _ => none
def execRstRequest (s : State) := runDevice s rstRequest

/-- Sends a far fetch-and-add from a port to its home's station (R54, R99). -/
def State.portAtomic (s : State) (port : Endpoint) (v pa type width : Nat) (members : List Member) : State :=
  s.send { src := port, dst := homeOf (pa / 128), line := pa / 128, vd := v, inc := s.inc pa
           kind := .atomic 0 type pa width 0 members }

/-- `RATOM_REQUEST`: it goes to its line's station, and its source's later requests for the line wait until it is applied (R92). -/
def ratomRequest (s : State) : Option State :=
  match s.focus with
  | .remote q =>
    let h := s.arriving 2 q
    if h.half = 1 then (if q.members.any fun m => s.unapplied m.2.2.2 m.1 then none else some (s.unhold h)) else
    s.incoming h fun s pas =>
      let port := s.portFor q.plane
      let ms := q.members.map fun (m : Nat × Nat × Bool × Nat) =>
        ({ op := m.1, arg := m.2.1, nr := m.2.2.1, module := m.2.2.2, src := port } : Member)
      some ((s.hold { h with half := 1 }).portAtomic port q.vd (pas.headD 0) (if q.kind = 1 then 9 else 0) (if q.kind = 1 then 8 else 4) ms)
  | _ => none
def execRatomRequest (s : State) := runDevice s ratomRequest

/-- The elements of `n` bytes, `f` on the numbers of two byte strings. -/
def zipElems (f : Nat → Nat → Nat) (size : Nat) : Nat → List Byte → List Byte → List Byte
  | 0, _, _ => []
  | n + 1, a, b =>
    leBytes size (f (leNat (a.take size)) (leNat (b.take size))) ++ zipElems f size n (a.drop size) (b.drop size)

/-- One 64-byte half of an `RVADD`: each element of the payload is added into memory (R99), where the mask has it: elements of inactive
lanes stay (R384). -/
def addHalf (t : Nat) (m : Nat) (mem data : List Byte) : List Byte :=
  let size := if t = 2 then 4 else 2
  (zipElems (fmtOf t).addRne size (64 / size) mem data).zipIdx.map fun b => if bit m b.2 then b.1 else (mem[b.2]?).getD 0#8

/-- `RVADD_REQUEST`: one half in a step, at the home with all tokens; other writes may fall between the halves. -/
def rvaddRequest (s : State) : Option State :=
  match s.focus with
  | .remote q =>
    let h := s.arriving 3 q
    s.incoming h fun s pas =>
      let line := pas.headD 0 / 128
      let us := [(Instr.rvaddRequest, s.focus)]
      if s.isLost line then some (s.refuse h)
      else if hostLine line && s.buffered line then none
      else if !s.satisfied none line true then
        if s.wanted none line true us then none else some (s.want none line true q.vd (s.lineInc line) us)
      else if !s.ready line then (if s.reading line then none else some (s.readHbm line q.vd))
      else
        let at' := 128 * line + 64 * h.half
        let add := (List.range 64).map fun k => lineByte q.data (64 * h.half + k)
        let m := (q.mask.toNat >>> (64 * h.half)) % 2 ^ 64
        let s := (s.poke at' (addHalf q.kind m (s.mem.bytes at' 64) add)).fillLlc line q.vd true
        some (if h.half = 0 then s.hold { h with half := 1 }
          else (s.unhold h).emit (.fabricReply q.srcModule q.op false []))
  | _ => none
def execRvaddRequest (s : State) := runDevice s rvaddRequest

/-- Writes a request's line, then sends the increment of its signal word; the request stays at its port until the reply acknowledges it
(R94), and its source's later requests for the line wait until the increment is applied (R92). -/
def State.signalled (s : State) (me : Instr) (h : HeldReq) : Option State :=
  if h.half = 1 then none else
  s.incoming h fun s pas =>
    s.owning me [pas.headD 0 / 128] h.q.vd fun s =>
      let port := s.portFor h.q.plane
      let sig := (pas.drop 1).headD 0
      ((s.writeMasked (pas.headD 0) h.q.vd h.q.data h.q.mask).hold { h with half := 1, sigPa := sig, timer := s.now }).portAtomic
        port h.q.vd sig 9 8 [{ op := h.q.op, arg := 1, nr := true, module := h.q.srcModule, src := port }]

/-- `RWSIG_REQUEST`. -/
def rwsigRequest (s : State) : Option State :=
  match s.focus with
  | .remote q => s.signalled .rwsigRequest (s.arriving 4 q)
  | _ => none
def execRwsigRequest (s : State) := runDevice s rwsigRequest

-- ## Reductions (R104)

/-- One level of the tree: neighbours are added, an absent one leaves its neighbour as it is. -/
def treeLevel : List Nat → List Nat
  | a :: b :: r => f32.addRne a b :: treeLevel r
  | l => l

/-- The tree over `n` values, at most 2^fuel. -/
def treeSum : Nat → List Nat → Nat
  | 0, l => l.headD 0
  | k + 1, l => treeSum k (treeLevel l)

/-- An element of a reduction from its contributions in rank order. -/
def reduceElem (t : Nat) (vals : List Nat) : Nat :=
  if t = 4 then (fmtOf 4).rne (f32.dec (treeSum 8 (vals.map fun v => v * 65536))) else treeSum 8 vals

/-- The result line of a reduction. -/
def reduceLines (t : Nat) (lines : List LineData) : LineData :=
  let size := if t = 4 then 2 else 4
  lineOf ((List.range (128 / size)).flatMap fun k =>
    leBytes size (reduceElem t (lines.map fun (d : LineData) => bits d.toNat (8 * size * k + 8 * size - 1) (8 * size * k))))

/-- `RRED_RESULT`: 2 to 256 contributions, ours among them; the result lands in our window and our signal word is
incremented. A result that waits is performed later from what the port holds. -/
def rredResult (s : State) : Option State :=
  match s.focus with
  | .reduced op lines =>
    match s.byOp op with
    | none => none
    | some (w, a) =>
      match a.kind with
      | .remote 5 t =>
        if a.sent != 1 || lines.length < 2 || 256 < lines.length || !lines.contains a.payload.1 then none else
        let e := s.cap a.vd a.cap
        let q : InReq :=
          { plane := a.plane, srcModule := s.fabric.module, srcVd := a.vd, op, vd := a.vd, fa := a.fa, mask := BitVec.allOnes 128
            data := reduceLines t lines, kind := t, members := [], sig := bits e 127 64 + bits e 255 192 }
        let s := s.setAccess w a.id fun a => { a with sent := 3 }
        (s.signalled .rredResult { q, kind := 5 }).map State.sendAll
      | _ => none
  | .remote q => if s.fabric.held.any fun h => h.q = q && h.kind = 5 then s.signalled .rredResult (s.arriving 5 q) else none
  | _ => none
def execRredResult (s : State) := runDevice s rredResult

-- ## Outcome queries (R62, R102)

/-- `OUTCOME_QUERY` at a station; one from another module comes by a port, which asks the station of the address's home. -/
def outcomeQuery (s : State) : Option State :=
  match s.focus with
  | .msg i => (s.takeMsg i).bind fun (m, s) =>
    match m.kind with
    | .query module op =>
      let (what, v) := (s.station (locSlice m.line)).lookup module op
      some (s.send { src := m.dst, dst := m.src, kind := .answer module op what v, line := m.line, vd := m.vd, inc := m.inc })
    | _ => none
  | .remote q =>
    let h := s.arriving 6 q
    s.incoming h fun s pas =>
      let line := pas.headD 0 / 128
      some ((s.unhold h).send { src := s.portFor q.plane, dst := homeOf line, kind := .query q.srcModule q.op, line, vd := q.vd
                                inc := s.lineInc line })
  | _ => none
def execOutcomeQuery (s : State) := runDevice s outcomeQuery

/-- `OUTCOME_QUERY_ANSWER`, at a cluster, at the queue engines, at the port of a signal's request, or at that by which another module's
query came; an answer from another
module holds what it says in bits 1:0 and the value from bit 32 on. -/
def outcomeQueryAnswer (s : State) : Option State :=
  match s.focus with
  | .msg i => (s.takeMsg i).bind fun (m, s) =>
    match m.kind, m.dst with
    | .answer module op what v, .port _ => some <| match s.signalOf module op with
      | some h => if what = 0 then s.hold { h with timer := s.now } else s.signalDone h false
      | none => s.emit (.fabricReply module op false [what, v])
    | .answer _ op what _, .control =>
      some (if what = 0 then s.mapSigs fun r => if r.op = some op then { r with time := s.now } else r else s.signalWritten op)
    | .answer _ op what v, _ => some (s.answered op what v)
    | _, _ => none
  | .reply op _ data => some (s.answered op (bits data.toNat 1 0) (bits data.toNat 95 32))
  | _ => none
def execOutcomeQueryAnswer (s : State) := runDevice s outcomeQueryAnswer

-- ## Replies (R97, R98)

/-- A remote access whose reply has come completes, once its acquire can be performed; a unit of its allowance is free again. -/
def State.remoteDone (s : State) (w : WarpRef) (a : Access) : Option State := (s.farDone w a).map State.sendAll

/-- What a reply brings to the lanes: bytes of the line, or a value of 8 bytes for each member of the packet, of which those that a query
has answered are left out (R62, R102). -/
def Access.replyVals (a : Access) (data : LineData) : List (Nat × Nat) :=
  match a.dst, a.remoteKind with
  | some _, some 0 => a.laneValues data
  | some _, some 2 => a.ops.map fun o =>
      let i := ((a.req.bind fun q => q.members.findIdx? fun m => m.1 = o.2)).getD 0
      (o.1, bits data.toNat (64 * i + 8 * a.width - 1) (64 * i))
  | _, _ => []

/-- The access that an unanswered packet with this op id is of. -/
def State.byPacket (s : State) (op : Nat) : Option (WarpRef × Access) :=
  s.allAccesses.find? fun a => a.2.sent = 1 && a.2.req.any fun q => q.op = op

/-- Requests of aborted kernels on the fabric but those with this op id. -/
def State.dropOrphan (s : State) (op : Nat) : State :=
  { s with fabric := { s.fabric with orphans := s.fabric.orphans.filter fun o => !o.2.req.any fun q => q.op = op } }

/-- A request of an aborted kernel on the fabric has this op id. -/
def State.orphan (s : State) (op : Nat) : Option Access :=
  (s.fabric.orphans.find? fun o => o.2.req.any fun q => q.op = op).map Prod.snd

/-- `FABRIC_REPLY`: the allowance's unit comes back and the access completes; one whose acquire waits completes later (focus: the
access), and one that a unit or a path has become free for is sent (R97). What an aborted kernel had sent has no waiter. -/
def fabricReply (s : State) : Option State :=
  match s.focus with
  | .reply op refused data =>
    match s.byPacket op with
    | some (w, a) =>
      if a.remoteKind = some 5 && !refused then none else
      let b := { a with
        sent := 3, ops := [], got := a.got ++ if refused then [] else a.replyVals data
        failed := a.failed.or (if refused then some (0x17, 1#32) else none) }
      let s := s.setAccess w a.id fun _ => b
      some ((s.remoteDone w b).getD s.sendAll)
    | none => (s.orphan op).map fun _ => (s.dropOrphan op).sendAll
  | .access w id => (s.access w id).bind fun a =>
    if s.unstuck w a then some (s.trySend w a)
    else if a.sent = 3 && (a.remoteKind != some 5 || a.ops.isEmpty) then s.remoteDone w a else none
  | _ => none
def execFabricReply (s : State) := runDevice s fabricReply

/-- When a fabric timeout ends. -/
def State.fabricDue (s : State) (t : Nat) : Nat := t + ticksPerNs * s.fabric.timeoutNs

/-- A plane's timeouts are handled at the end of a drain (R100) or of a restore (R101). -/
def State.planeHandled (s : State) (p : Nat) : Bool :=
  (look s.fabric.ports p {}).restoring || (s.carrierOf p).any fun c => (look s.fabric.ports c {}).state = 3

/-- `FABRIC_TIMEOUT`. -/
def fabricTimeout (s : State) : Option State :=
  match s.focus with
  | .access w id => (s.access w id).bind fun a =>
    if a.remoteKind.isNone || a.sent != 1 || s.now < s.fabricDue a.time || s.planeHandled a.plane then none
    else some (s.complete w { a with acq := 0 } [] (some (0x17, 0#32))).sendAll
  | .op op => (s.orphan op).bind fun a =>
    if s.now < s.fabricDue a.time || s.planeHandled a.plane then none else some (s.dropOrphan op).sendAll
  | _ => none
def execFabricTimeout (s : State) := runDevice s fabricTimeout

-- ## Ports (R100, R101)

def State.setPort (s : State) (p : Nat) (f : Port → Port) : State :=
  { s with fabric := { s.fabric with ports := upd s.fabric.ports p {} f } }

/-- A port has made `n` more link-level retries: its count saturates (R100). -/
def Port.retried (k : Port) (n : Nat) : Port := { k with retries := min (2 ^ 24 - 1) (k.retries + n) }

/-- `PORT_RETRY_EXHAUSTED` of a port whose link is up, with the link-level retries that it counted; a restore of it ends. -/
def portRetryExhausted (s : State) : Option State :=
  match s.focus with
  | .plane p n =>
    if (look s.fabric.ports p {}).state != 2 && (look s.fabric.ports p {}).state != 5 then none else
    some ((s.setPort p fun k => { k.retried n with state := 3, restoring := false, drainAt := some (s.fabricDue s.now) }).sendAll)
  | _ => none
def execPortRetryExhausted (s : State) := runDevice s portRetryExhausted

/-- A plane's carrier changes; 16 is no path. -/
def State.movePlane (s : State) (q c : Nat) : State :=
  let s := { s with fabric := { s.fabric with
    carrier := if c = q then del s.fabric.carrier q else put s.fabric.carrier q c
    ports := mapv s.fabric.ports fun k => { k with planes := k.planes &&& ~~~(1#16 <<< q) } } }
  if c < 16 then s.setPort c fun k => { k with planes := k.planes ||| (1#16 <<< q) } else s

/-- A request of an aborted kernel goes again, or ends (R100). -/
def State.resendOrphan (s : State) (a : Access) : State :=
  let op := (a.req.map fun q => q.op).getD 0
  match a.remoteKind, s.carrierOf a.plane, s.fabricPacket a with
  | some 0, some _, some q | some 1, some _, some q =>
    let again := fun (o : Nat × Access) => if o.2 = a then (o.1, a.sending s.now 0) else o
    { s.emit (.fabric q) with fabric := { s.fabric with orphans := s.fabric.orphans.map again } }
  | _, _, _ => s.dropOrphan op

/-- What becomes of the requests sent on planes that move (steps 3 and 4 of R100): idempotent ones go again at once, in the order in which
they were sent, where there is a path; others end with "applied at most once". -/
def State.resend (s : State) (planes : List Nat) : State :=
  let moves := fun (a : Access) => a.sent = 1 && planes.contains a.plane
  let out := (s.allAccesses.filter fun a => a.2.remoteKind.isSome && moves a.2).map fun a => (some a.1, a.2)
  let gone := (s.fabric.orphans.filter fun a => moves a.2).map fun a => (none, a.2)
  ((sortBy (fun a : Option WarpRef × Access => a.2.order) (out ++ gone)).foldl (fun (s : State) (a : Option WarpRef × Access) =>
    match a.1, a.2.remoteKind with
    | none, _ => s.resendOrphan a.2
    | some w, some 0 | some w, some 1 =>
      if (s.carrierOf a.2.plane).isSome then s.transmit w a.2
      else s.complete w { a.2 with acq := 0 } [] (some (0x17, 0#32))
    | some w, _ => s.complete w { a.2 with acq := 0 } [] (some (0x17, 2#32))) s).sendAll

/-- The planes that a port carries. -/
def Port.carries (k : Port) : List Nat := (List.range 16).filter fun q => k.planes.getLsbD q

/-- `PORT_DRAIN_END`: the planes move to the carrier that the switches name. -/
def portDrainEnd (s : State) : Option State :=
  match s.focus with
  | .plane p c =>
    let k := look s.fabric.ports p {}
    let up := c = 16 || (c < 16 && c != p && (look s.fabric.ports c {}).state = 2)
    if k.state != 3 || (k.drainAt.any fun t => s.now < t) || !up then none else
    let s := k.carries.foldl (fun (s : State) q => s.movePlane q c) s
    some ((s.setPort p fun k => { k with state := 4, drainAt := none, restoring := false }).resend k.carries)
  | _ => none
def execPortDrainEnd (s : State) := runDevice s portDrainEnd

/-- `PLANE_REMAP_NOTICE`: a plane moves; without a path its requests end. One that returns to its own port waits for what its carrier has
sent, as in a restore of this module's (R101). -/
def planeRemapNotice (s : State) : Option State :=
  match s.focus with
  | .plane q c =>
    if 16 ≤ q || 16 < c || (c < 16 && (look s.fabric.ports c {}).state != 2) || s.carrierOf q = some c then none
    else if c = q && (s.carrierOf q).isSome then some (s.setPort q fun k => { k with restoring := true })
    else
      let s := s.movePlane q c
      some (if c = 16 then s.resend [q] else s.sendAll)
  | _ => none
def execPlaneRemapNotice (s : State) := runDevice s planeRemapNotice

/-- `LINK_RETRAINED` of a remapped port's link; or, of a port, link-level retries after which its link goes on (log 59). -/
def linkRetrained (s : State) : Option State :=
  match s.focus with
  | .port p => if (look s.fabric.ports p {}).state = 4 then some (s.setPort p fun k => { k with state := 5 }) else none
  | .plane p n => if p < 16 then some (s.setPort p fun k => k.retried n) else none
  | _ => none
def execLinkRetrained (s : State) := runDevice s linkRetrained

/-- `FPORTCTL_RESTORE`: ignored in any state but 5; the carrier sends no new request of the plane. -/
def fportctlRestore (s : State) : Option State :=
  match s.focus with
  | .port p => if (look s.fabric.ports p {}).state = 5 then some (s.setPort p fun k => { k with restoring := true }) else none
  | _ => none
def execFportctlRestore (s : State) := runDevice s fportctlRestore

/-- `PLANE_RESTORE_COMPLETE`, at the module whose port failed (`STATE` 5) or at another: every request of the plane has a reply or has passed its timeout. -/
def planeRestoreComplete (s : State) : Option State :=
  match s.focus with
  | .port p =>
    let k := look s.fabric.ports p {}
    let busy := s.allAccesses.any fun a =>
      a.2.remoteKind.isSome && a.2.sent = 1 && a.2.plane = p && s.now < s.fabricDue a.2.time
    let busy := busy || s.fabric.orphans.any fun a => a.2.plane = p && s.now < s.fabricDue a.2.time
    if (k.state != 5 && k.state != 2) || !k.restoring || busy then none else
    some (((s.movePlane p p).setPort p fun k => { k with state := 2, restoring := false }).resend [p])
  | _ => none
def execPlaneRestoreComplete (s : State) := runDevice s planeRestoreComplete

end Sys2Proof.Machine
end

