-- ==== Sys2Proof/Machine/Cxl.lean ====
section
/-!
DEFINITION. CXL: what the host does with device and host lines (R49, R106), the ordering table (R108), and links that fail
(R107, R109).
-/
namespace Sys2Proof.Machine

-- ## The ordering table (R108)

def State.setCxl (s : State) (f : Cxl → Cxl) : State := { s with cxl := f s.cxl }

/-- The platen agents' steps that follow a transaction. -/
def Owed.steps : Owed → List (Instr × Focus)
  | .keep us => us
  | _ => []

/-- The first waiting transaction that may start: its line has none outstanding and none that waits before it. -/
def nextTxn (table : List CxlTxn) : List CxlTxn → List CxlTxn → Option CxlTxn
  | _, [] => none
  | before, t :: ts =>
    if table.any (fun x => x.line = t.line) || before.any (fun x => x.line = t.line) then nextTxn table (before ++ [t]) ts
    else some t

/-- Starts waiting transactions while the table has room; a host request that waited (kind 3) is served (R108). -/
def State.startTxns : Nat → State → State
  | 0, s => s
  | n + 1, s =>
    if 1024 ≤ s.cxl.table.length then s else
    match nextTxn s.cxl.table [] s.cxl.waiting with
    | none => s
    | some t =>
      let s := s.setCxl fun c => { c with waiting := c.waiting.filter fun x => x.id != t.id }
      State.startTxns n (if t.kind = 3 then { s with agenda := s.agenda ++ t.owes.steps } else s.startTxn t)

/-- A transaction leaves the table; the platen agents' steps that waited for it, walks and the device's own writes follow (R41). -/
def State.endTxn (s : State) (t : CxlTxn) : State :=
  let s := s.setCxl fun c => { c with table := c.table.filter fun x => x.id != t.id }
  let s := { s with agenda := s.agenda ++ t.owes.steps ++ [(Instr.persistentActivation, Focus.line t.line)] }.resume t.line
  s.startTxns s.cxl.waiting.length

def State.txn (s : State) (id : Nat) : Option CxlTxn := s.cxl.table.find? fun t => t.id = id

/-- A port's link works. -/
def State.linkWorks (s : State) (p : Nat) : Bool := vget s.cxl.linkUp p false

/-- The copies of a line that die L2s hold stay as they are while the device's value changes (R106). -/
def State.keepCopies (s : State) (line : Nat) : NMap (NMap LineData) :=
  ((List.range 32).filter fun d => (s.held' (.die d) line).valid && 0 < (s.held' (.die d) line).tokens).foldl
    (fun m d => put m d (put (look m d []) line (s.dieLine d line))) s.cxl.stale

/-- The device's value of a line becomes what host or expander memory holds. -/
def State.takeHost (s : State) (line : Nat) : State :=
  match find s.cxl.apart line with
  | some d => { s with
      mem := s.mem.store (128 * line) (leBytes 128 d.toNat)
      cxl := { s.cxl with apart := del s.cxl.apart line, stale := s.keepCopies line } }
  | none => s

/-- Host or expander memory holds `d` in a line; what it holds is noted where the device's value differs. -/
def State.putHost (s : State) (line : Nat) (d : LineData) : State :=
  s.setCxl fun c => { c with apart := if d = s.lineData line then del c.apart line else put c.apart line d }

/-- `CXL_TRANSACTION_COMPLETE`: a read brings the line to the proxy; a write is globally observed. -/
def cxlTransactionComplete (s : State) : Option State :=
  match s.focus with
  | .txn id => (s.txn id).bind fun t =>
    if 2 ≤ t.kind || !s.linkWorks t.port then none else
    some ((if t.kind = 1 then s.putHost t.line t.data else if t.orphan then s else (s.takeHost t.line).atProxy t.line t.vd).endTxn t)
  | _ => none
def execCxlTransactionComplete (s : State) := runDevice s cxlTransactionComplete

-- ## What the host does (R49, R106)

/-- `HOST_CXL_REQUEST`: a host cache takes a device line, to read it or to write it whole; while the line is recalled, or in a copy
agent's ownership buffer, the request waits (R42, R108). Over PCIe the host's read or write is made at the proxy, and no cache keeps the line (R232). -/
def hostCxlRequest (s : State) : Option State :=
  match s.focus with
  | .hostReq line write =>
    let v := s.ownerOf line
    let me := (Instr.hostCxlRequest, s.focus)
    let made := fun (s : State) => match write with
      | some d => s.platenPoke (128 * line) (leBytes 128 d.toNat) v
      | none => s
    if hostLine line then none
    else if !s.cxl.cxlMode then s.using me.1 [(line, write.isSome)] v fun s => some ((made s).emit (.cxl 4 line))
    else if s.recalling line then some (s.cxlTxn 3 line v (.keep [me]))
    else if !s.satisfied (some .proxy) line write.isSome || s.buffered line then
      if s.wanted (some .proxy) line write.isSome [me] then none
      else some (s.enlist (some .proxy) line write.isSome v (s.lineInc line) [me] (!s.satisfied (some .proxy) line write.isSome))
    else
      let own := write.isSome || (look s.cxl.hostLines line false)
      some (made ((s.setCxl fun c => { c with hostLines := put c.hostLines line own }).touch line))
  | _ => none
def execHostCxlRequest (s : State) := runDevice s hostCxlRequest

/-- `HOST_SNOOP` of a host line: over CXL the proxy recalls its tokens and lets it go, once its own writes of it are observed; over
PCIe nothing is snooped. Then the host's own write of the line, if there is one, stands in host memory. -/
def hostSnoop (s : State) : Option State :=
  match s.focus with
  | .hostReq line write =>
    let me := (Instr.hostSnoop, s.focus)
    if 128 * line < hostBase || 2 * hostBase ≤ 128 * line then none
    else if !s.cxl.cxlMode then write.map fun d => s.putHost line d
    else if !s.satisfied none line true || s.buffered line then
      if s.wanted none line true [me] then none
      else some (s.enlist none line true 0 (s.lineInc line) [me] (!s.satisfied none line true))
    else if s.hasTxn 1 line then s.follow 1 line 0 [me]
    else
      let s := (s.takeHost line).emit (.cxl 3 line)
      let s := { s with coh := { s.coh with llc := del s.coh.llc line } }
      some (match write with
        | some d => { s with mem := s.mem.store (128 * line) (leBytes 128 d.toNat) }
        | none => s)
  | _ => none
def execHostSnoop (s : State) := runDevice s hostSnoop

/-- What the proxy does with a line's tokens after a recall: a persistent request in force has them (R46), a platen agent keeps them to
use the line, the agent that asked takes them, or they go home. After a recall that failed the proxy gives them up in any case, with the
lost bit where the host may have written the line (R109). -/
def State.giveUp (s : State) (t : CxlTxn) (failed : Bool) : State :=
  let h := s.held' .proxy t.line
  let home := s.sendHeld .proxy t.line (homeOf t.line) h.tokens h.owner (h.owner && (h.dirty || h.lost)) h.ctx true
  if h.tokens = 0 then s
  else if s.keeps .proxy t.line then s
  else if (s.inForce (hIdx .proxy) t.line).any fun q => q.2.req != .proxy then s.obey .proxy t.line
  else match t.owes with
  | .keep _ => if failed then home else s
  | .answer write req =>
    if h.lost then s.sendHeld .proxy t.line (reqEndpoint t.line req) h.tokens h.owner true t.vd
    else s.answerForward .proxy t.line write (reqEndpoint t.line req) t.vd
  | .home => home

/-- `BACK_INVALIDATION_RESPONSE`: the host gives the line up, with its data if dirty. -/
def backInvalidationResponse (s : State) : Option State :=
  match s.focus with
  | .backInv line data => (s.cxl.table.find? fun t => t.line = line && t.kind = 2).bind fun t =>
    if !s.linkWorks 2 then none else
    let s := match data with
      | some d => if look s.cxl.hostLines line false then s.platenPoke (128 * line) (leBytes 128 d.toNat) t.vd else s
      | none => s
    let s := s.setCxl fun c => { c with hostLines := del c.hostLines line }
    some ((s.giveUp t false).endTxn t)
  | _ => none
def execBackInvalidationResponse (s : State) := runDevice s backInvalidationResponse

-- ## Failures (R109)

/-- The port of a line's transactions. -/
def portOf (line : Nat) : Nat := (expanderOf (128 * line)).getD 2

/-- Pages of an expander fault as not present at once: no TLB keeps one. -/
def State.dropExpander (s : State) (p : Nat) (from' : Nat) : State :=
  let out := fun (e : TlbEntry) => expanderOf e.pa = some p && from' < e.pa - expanderBase p + e.size
  { s with
    clusters := mapv s.clusters fun c => { c with tlb := c.tlb.filter fun e => !out e }
    dies := mapv s.dies fun d => { d with tlb := d.tlb.filter fun e => !out e } }

/-- The host's copy of a device line is gone: the line is lost where the host may have written it (R109). -/
def State.hostGone (s : State) (line : Nat) : State :=
  let s := if look s.cxl.hostLines line false then s.setHeld .proxy line { s.held' .proxy line with lost := true, dirty := true } else s
  s.setCxl fun c => { c with hostLines := del c.hostLines line }

/-- A discarded write leaves host or expander memory as it was; where no die holds the line, that is its value from then on. -/
def State.discardWrite (s : State) (t : CxlTxn) : State :=
  let s := s.emit (.vdc 0x109 t.vd t.line t.port)
  if (s.homeTag t.line).tokens != 64 || (s.cxl.waiting.any fun x => x.line = t.line && x.kind = 1) then s
  else let s := s.takeHost t.line
    { s with coh := { s.coh with llc := del s.coh.llc t.line } }

/-- A transaction's second failure (R109); a line that could not be read is lost until its link retrains. -/
def State.failTxn (s : State) (t : CxlTxn) : State :=
  let s := if t.kind = 0 then s.lose t.line
    else if t.kind = 1 then s.discardWrite t
    else (s.hostGone t.line).giveUp t true
  let s := if t.port < 2 then
      (s.setCxl fun c =>
        { c with
          failed := dedup (c.failed ++ [t.port])
          remapped := c.remapped.filter fun pa => expanderOf pa != some t.port }).dropExpander t.port 0
    else s
  s.endTxn t

/-- A transaction fails once: it is retried when the link retrains; the second time it is over. -/
def State.troubled (s : State) (id : Nat) : State :=
  match s.txn id with
  | none => s
  | some t =>
    if t.retried then s.failTxn t
    else s.setCxl fun c => { c with table := modFirst (fun x => x.id = id) (fun x => { x with retried := true, time := s.now }) c.table }

/-- `CXL_COMPLETION_TIMEOUT`. -/
def cxlCompletionTimeout (s : State) : Option State :=
  match s.focus with
  | .txn id => (s.txn id).bind fun t =>
    if s.now < t.time + ticksPerNs * vget s.cxl.timeoutNs t.port 0 then none else some (s.troubled id)
  | _ => none
def execCxlCompletionTimeout (s : State) := runDevice s cxlCompletionTimeout

/-- `CXL_LINK_DOWN`. -/
def cxlLinkDown (s : State) : Option State :=
  match s.focus with
  | .port p =>
    if !s.linkWorks p then none else
    let ts := (s.cxl.table.filter fun t => t.port = p).map fun t => t.id
    let s := s.setCxl fun c => { c with linkUp := c.linkUp.setIfInBounds p false }
    some (ts.foldl State.troubled s)
  | _ => none
def execCxlLinkDown (s : State) := runDevice s cxlLinkDown

/-- A link works again: what failed on it is sent once more, and its lines may be read anew. -/
def State.linkBack (s : State) (p : Nat) : State :=
  let s := (s.cxl.table.filter fun t => t.port = p && t.retried).foldl (fun s t => s.emit (.cxl t.kind t.line)) s
  let s := s.setCxl fun c => { c with
    linkUp := c.linkUp.setIfInBounds p true
    table := c.table.map fun t => if t.port = p && t.retried then { t with time := s.now } else t }
  { s with hbm := { s.hbm with lost := s.hbm.lost.filter fun l => !(hostLine l && portOf l = p) } }

/-- The host port trains as a CXL device or as a PCIe device alone (R105): over PCIe no host cache keeps device lines. -/
def State.trainHost (s : State) (cxl : Bool) : State :=
  let s := if cxl then s else (keys s.cxl.hostLines).foldl State.hostGone s
  (s.setCxl fun c => { c with cxlMode := cxl }).linkBack 2

/-- `CXL_LINK_RETRAIN` of a port; the host port's may come with what it trains as (focus: port 2 with 0 for PCIe). -/
def cxlLinkRetrain (s : State) : Option State :=
  match s.focus with
  | .port p => if p < 3 && !s.linkWorks p then some (s.linkBack p) else none
  | .capacity 2 n => if s.linkWorks 2 then none else some (s.trainHost (n != 0))
  | _ => none
def execCxlLinkRetrain (s : State) := runDevice s cxlLinkRetrain

/-- `EXPANDER_RETRAIN`: the capacity that the expander reports now (R107). -/
def expanderRetrain (s : State) : Option State :=
  match s.focus with
  | .capacity p n =>
    if 2 ≤ p then none else
    let s := (s.linkBack p).setCxl fun c => { c with capacity := c.capacity.setIfInBounds p (min n 0x40000000000) }
    some (s.dropExpander p (vget s.cxl.capacity p 0))
  | _ => none
def execExpanderRetrain (s : State) := runDevice s expanderRetrain

end Sys2Proof.Machine
end

