-- ==== Sys2Proof/Machine/Reset.lean ====
section
/-!
DEFINITION. Scoped reset (R132–R137): the VD reset with its engines, die resets, and the device reset with bring-up (R28–R31).
-/
namespace Sys2Proof.Machine

-- ## Entering KILLING (R119, R133, R136)

/-- Every engine that `KILL` is sent to (R134). -/
def State.killEngines (s : State) : List KillEngine :=
  (((List.range 512).filter fun g => s.dieEnabled (g / 16)).flatMap fun g =>
    [KillEngine.cluster g, .copyEngine g, .matrixEngine g]) ++
  ((List.range 32).filter s.dieEnabled).map KillEngine.dieTlb ++
  [.queueEngine] ++ (List.range 16).map KillEngine.fabricPort ++ (List.range 16).map KillEngine.memoryDie ++ [.hostProxy, .walkers]

/-- The endpoint at which an engine receives `KILL` (R9, R133). -/
def engineAt : KillEngine → Endpoint
  | .cluster g | .copyEngine g | .matrixEngine g => .cluster g
  | .dieTlb d => .l2 d 0
  | .fabricPort p => .port p
  | .memoryDie m => .mirror m
  | .hostProxy => .proxy
  | .queueEngine | .walkers => .control

/-- Kernels of a list that are not in another. -/
def newKernels (old ks : List Kernel) : List Kernel := ks.filter fun k => !old.any fun o => o.queue = k.queue && o.idx = k.idx

/-- A VD enters `KILLING`, and `KILL` goes to every engine; a further reset merges into the one in progress. -/
def State.beginKill (s : State) (v : Nat) (release : Bool) (code : Nat) (fromDie : Bool) (ks : List Kernel) : State :=
  match (s.vd v).state, (s.vd v).kill with
  | .free, _ => s
  | .killing, some k =>
    s.setVd v fun x => { x with kill := some { k with
      release := k.release || release, fromDie := k.fromDie || fromDie, kernels := k.kernels ++ newKernels k.kernels ks } }
  | st, _ =>
    let es := s.killEngines
    let s := s.setVd v fun x => { x with
      state := .killing, lastCode := code
      kill := some { fromState := st, release, left := es, time := s.now, fromDie, kernels := ks, code } }
    es.foldl (fun s e => s.send { src := .control, dst := engineAt e, kind := .kill e, vd := v }) s

/-- `VF_FUNCTION_LEVEL_RESET`. -/
def vfFunctionLevelReset (s : State) : Option State :=
  match s.focus with
  | .vd v => if (s.vd v).state = .free then none else some (s.beginKill v false 0 false [])
  | _ => none
def execVfFunctionLevelReset (s : State) := runDevice s vfFunctionLevelReset

-- ## ENGINE_KILL (R134)

/-- The VD of a command. -/
def State.cmdVd (s : State) (c : Command) : Nat := match s.blk c.warp.blk with | some b => s.vdOf b | none => 1024

/-- Commands that `p` selects are gone, with what they held. -/
def State.dropCmds (s : State) (p : Command → Bool) : State :=
  let ids := keys (pick s.cmds p)
  let s := s.dropWaits fun e => match e.waiter with | some (.command i) => ids.contains i | _ => false
  { s with cmds := s.cmds.filter fun (c : Nat × Command) => !ids.contains c.1 }

/-- A cluster stops a VD's warps and keeps nothing of it. -/
def State.killCluster (s : State) (v g : Nat) : State :=
  let s := ((s.residents g).filter fun n => (s.blk n).any fun b => s.vdOf b = v).foldl State.discardBlock s
  s.setCl g fun c =>
    { c with
      wcb := c.wcb.filter fun e => e.vd != v, l1 := pick c.l1 fun l => l.vd != v, tlb := c.tlb.filter fun e => e.vd != v
      icache := if c.vd = some v then [] else c.icache }

/-- The queue engines stop reading a VD's queues and abandon its packets. -/
def State.killQueues (s : State) (v : Nat) : State :=
  s.setVd v fun x => { x with queues := mapv x.queues fun k =>
    { k with started := [], waiting := none, enabling := false, reread := false, wbWaits := false, disabling := false, restartAt := none } }

/-- Accesses that `p` selects are gone, with what they would have done. -/
def State.dropAccesses (s : State) (p : Access → Bool) : State :=
  let f := fun (w : Warp) => { w with accesses := w.accesses.filter fun a => !p a }
  { s with blocks := mapv s.blocks fun b => { b with img := { b.img with warps := b.img.warps.map f } } }

/-- Some stations lose a VD's requests that are not applied; a group already formed stays, to be applied whole. -/
def State.dropGroups (s : State) (v : Nat) (p : Nat → Bool) : State :=
  let less := fun (x : Station) => { x with groups := x.groups.filter fun g => g.vd != v || g.record || g.applied }
  { s with coh := { s.coh with stations := s.coh.stations.map fun (e : Nat × Station) => (e.1, if p e.1 then less e.2 else e.2) } }

/-- What an engine does before it acknowledges. A write to a frame of another VD's is none of the VD's requests: the VDC's tables keep
what its walks have set in them. -/
def State.killAt (s : State) (v : Nat) : KillEngine → State
  | .cluster g => s.killCluster v g
  | .copyEngine g => s.dropCmds fun c => c.cluster = g && s.cmdVd c = v && !c.kind.isStep
  | .matrixEngine g =>
    let s := s.dropCmds fun c => c.cluster = g && s.cmdVd c = v && c.kind.isStep
    { s with blocks := mapv s.blocks fun b =>
      if b.cluster = some g && s.vdOf b = v then { b with img := { b.img with seq := none } } else b }
  | .queueEngine => s.killQueues v
  | .fabricPort p =>
    let s := (s.fabric.held.filter fun h => h.q.vd = v && s.portFor h.q.plane = .port p).foldl State.refuse s
    s.dropAccesses fun a => a.vd = v && a.remoteKind.isSome && a.sent = 0 && s.portFor a.plane = .port p
  | .memoryDie m =>
    let gone := fun (r : HbmReq) => r.vd = v && mdieOf (128 * r.line) = m && (!r.write || s.ownerOf r.line = v)
    ({ s with hbm := { s.hbm with reqs := s.hbm.reqs.filter fun r => !gone r } }).dropGroups v fun i => i / 16 = m
  | .hostProxy =>
    let mark := fun (t : CxlTxn) => if t.vd = v then { t with orphan := true } else t
    (s.setCxl fun c => { c with table := c.table.map mark, waiting := c.waiting.map mark }).dropGroups v fun i => i = 256
  | .walkers =>
    ({ s with walks := s.walks.filter fun w => w.vd != v, walkCache := s.walkCache.filter fun e => e.1 != v }).setVd v
      fun x => { x with undelivered := [] }
  | .dieTlb d =>
    (s.setDie d fun x => { x with tlb := x.tlb.filter fun e => e.vd != v }).dropWaits (fun e => e.vd = v) (· = d)

/-- `ENGINE_KILL`: an engine receives `KILL`, acts on it and acknowledges. -/
def engineKill (s : State) : Option State :=
  match s.focus with
  | .msg i => (s.takeMsg i).bind fun (m, s) =>
    match m.kind with
    | .kill e => some ((s.killAt m.vd e).send { src := m.dst, dst := .control, kind := .killAck e, vd := m.vd })
    | _ => none
  | _ => none
def execEngineKill (s : State) := runDevice s engineKill

/-- The compute die of an engine. -/
def engineDie : KillEngine → Option Nat
  | .cluster g | .copyEngine g | .matrixEngine g => some (g / 16)
  | .dieTlb d => some d
  | _ => none

/-- `KILL_ACK_TIMEOUT` (R135): 10 µs. -/
def killAckTimeout (s : State) : Option State :=
  match s.focus with
  | .engine v e => (s.vd v).kill.bind fun k =>
    if !k.left.contains e || s.now < k.time + 10000 * ticksPerNs then none else
    some { s with agenda := s.agenda ++ [match engineDie e with
      | some d => (.fatalDieError, .die d)
      | none => (.deviceReset, .none)] }
  | _ => none
def execKillAckTimeout (s : State) := runDevice s killAckTimeout

-- ## Forgetting tokens (R51, R69)

/-- Written bytes of a host or expander line are given up without a write-back: once all tokens are home the line's value is what
memory holds of it, with the last write that is on its way there (log 30). -/
def State.giveUpHost (s : State) (line : Nat) : State :=
  if (s.homeTag line).tokens != 64 then s else
  let writes := (s.cxl.table ++ s.cxl.waiting).filter fun t => t.line = line && t.kind = 1
  let s := match writes.getLast? with
    | some t => { s with mem := s.mem.store (128 * line) (leBytes 128 t.data.toNat) }
    | none => s.takeHost line
  { s with coh := { s.coh with llc := del s.coh.llc line } }

/-- A holder's tag is gone. Tokens of HBM4E lines are discarded, to be regenerated, or go home; those of host lines go home. -/
def State.forget (s : State) (h : Nat) (line : Nat) (t : Tag) (home : Bool) : State :=
  let s := { s with coh := { s.coh with held := upd s.coh.held h [] fun m => del m line } }
  if hostLine line then
    let s := s.setHome line (returnTag t (s.homeTag line))
    if t.dirty then s.giveUpHost line else s
  else if home then
    let s := s.setHome line (returnTag t (s.homeTag line))
    if t.dirty then s.lose line else s
  else s

/-- Every tag of a VD's lines is forgotten, and its LLC lines with them, without write-back; what its walks brought of the VDC's own frames
stays, since these frames are not regenerated (R51, R52). -/
def State.forgetVd (s : State) (v : Nat) : State :=
  let ts := s.coh.held.flatMap fun (m : Nat × NMap Tag) =>
    (m.2.filter fun (e : Nat × Tag) => e.2.ctx = v && (hostLine e.1 || s.ownerOf e.1 = v)).map fun (e : Nat × Tag) => (m.1, e.1, e.2)
  let s := ts.foldl (fun (s : State) (e : Nat × Nat × Tag) => s.forget e.1 e.2.1 e.2.2 false) s
  { s with coh := { s.coh with
    llc := s.coh.llc.filter fun e => hostLine e.1 || e.2.ctx != v || s.ownerOf e.1 != v
    reqs := s.coh.reqs.filter fun r => r.vd != v || r.persistent } }

-- ## KILL_ACKS_COMPLETE (R52, R73, R119, R133, R137, R174)

/-- The lowest key id that is loaded for no VD and bound to no frame. -/
def State.freeKey (s : State) : Option Nat :=
  ((List.range 1023).map (· + 1)).find? fun k =>
    (find s.keySlots k).isNone && !s.hbm.tags.any fun t => t.2.bound && t.2.key = k

/-- Region bytes of a VD on a die read zero, its seal state is idle (R73). -/
def Die.zeroRegion (d : Die) (v : Nat) : Die :=
  let d := { d with seals := adj d.seals v fun _ => .idle }
  match find d.regions v with
  | some r =>
    if !r.valid then d else
    let gone := fun (a : Nat) => r.base * 2 ^ 20 ≤ a && a < (r.base + r.size) * 2 ^ 20
    { d with wstore := d.wstore.filter fun c => !gone c.1, wlost := d.wlost.filter fun l => !gone (128 * l) }
  | none => d

/-- The addresses of interrupted kernels' completion signals, translated before the frames are cleared; none while a walk waits for
tokens. A signal that cannot be translated is dropped. -/
def State.signalAddrs (s : State) (v : Nat) : List Kernel → State × Option (List Nat)
  | [] => (s, some [])
  | n :: ns =>
    if n.signal = 0#64 then State.signalAddrs s v ns else
    match s.translate none v n.asid n.signal.toNat 1 with
    | (s, .busy) => (s, none)
    | (s, r) =>
      let (s, pas) := State.signalAddrs s v ns
      (s, pas.map fun l => match r with | .ok pa => pa :: l | _ => l)

/-- Steps 3 and 4 of R133 begin: lines invalidated, key erased; its frames, under whichever of its key ids, wait for regeneration. -/
def State.eraseVd (s : State) (v : Nat) (k : KillRun) (sigs : List Nat) : State :=
  let bs := keys (pick s.blocks fun b => s.vdOf b = v)
  let s := bs.foldl State.discardBlock s
  let s := { s with
    kernels := pick s.kernels fun k => k.vd != v
    blocks := s.blocks.filter fun b => !bs.contains b.1
    samples := s.samples.filter fun m => m.vd != v
    posted := s.posted.filter fun p => p.vd != v
    walks := s.walks.filter fun w => w.vd != v
    walkCache := s.walkCache.filter fun e => e.1 != v
    migr := pick s.migr fun m => m.vd != v
    fabric := { s.fabric with orphans := s.fabric.orphans.filter fun o => o.2.vd != v } }
  let s := s.forgetVd v
  let s := { s with dies := mapv s.dies fun d => d.zeroRegion v }
  let frames := keys (pick s.hbm.tags fun t => t.bound && t.key != 0 && s.keyVd t.key = v)
  let s := { s with keySlots := pick s.keySlots (· ≠ v) }
  let key := if k.release then none else s.freeKey
  let s := match key with | some n => { s with keySlots := put s.keySlots n v } | none => s
  s.setVd v fun x => { x with
    keyId := key.getD 0, tlbinv := none, undelivered := [], vdcRecords := [], roots := [], rootsDue := false, rootsWait := none
    hintsDue := false
    kill := some { k with erased := true, frames, sigs } }

/-- The virtual die table without disabled dies: each entry is rebound to the lowest enabled die not yet named, or goes (R137). R20 and
R137 leave to the VDC which die it takes: the choice is the model's (log 24). -/
def State.rebind (s : State) (x : Vd) : List (BitVec 16) :=
  let es := (x.vdie.filter fun e => e.getLsbD 15).map fun e => (e.extractLsb' 0 5).toNat
  let keep := es.filter s.dieEnabled
  let news := es.foldl (fun (l : List Nat) d =>
    if s.dieEnabled d then l ++ [d] else
    match (List.range 32).find? fun n => s.dieEnabled n && !keep.contains n && !l.contains n with
    | some n => l ++ [n]
    | none => l) []
  (news.map fun d => BitVec.ofNat 16 (32768 + d)) ++ List.replicate (32 - news.length) 0#16

/-- A queue as a VD reset leaves it: disabled with `REASON` 6 (R133). What else of it changes R133 does not say: that `STOPPED` is 1 and its
counts, pointers and base stay is the model's choice (log 53). -/
def Queue.killed (k : Queue) : Queue :=
  { k with enabled := false, stopped := true, reason := 6, started := [], waiting := none, enabling := false, disabling := false
           restartAt := none, reread := false, wbWaits := false, kids := [] }

/-- The device-launch queue is enabled as a VD enters `ACTIVE` (R173). -/
def State.enterActive (s : State) (v : Nat) : State :=
  if (s.vd v).dlq = 0#64 || (s.queue v 64).enabled then s
  else { s with agenda := s.agenda ++ [(.queueEnable, .queue v 64 0)] }

/-- The state after a reset (R119). -/
def KillRun.next (k : KillRun) (key : Bool) (dies : Nat) : VdState :=
  if k.release then .free
  else if !key then .faulted
  else if k.fromState = .configured then .configured
  else if dies = 0 then .faulted
  else if k.fromState = .suspended then .suspended else .active

/-- Steps 5 to 7 of R133. -/
def State.endKill (s : State) (v : Nat) (k : KillRun) : State :=
  let gs := keys (s.clusters.filter fun (c : Nat × Cluster) => c.2.vd = some v)
  let s := gs.foldl (fun s g => s.switchTo g ((s.cl g).pendingVd.filter (· ≠ v))) s
  let s := { s with clusters := mapv s.clusters fun c =>
    if c.pendingVd = some v then { c with pendingVd := none } else c }
  let st := k.next ((s.vd v).keyId != 0) (({ s.vd v with vdie := s.rebind (s.vd v) }).nvdie)
  if st = .free then { s with vds := del s.vds v } else
  let s := s.setVd v fun x => { x with
    state := st, kill := none, vdie := s.rebind x, resets := x.resets + 1#16, halts := [], dbgBusy := false
    queues := (List.range 65).map fun q => (q, (look x.queues q {}).killed)
    fqHead := x.fqTail, undelivered := [], msix := mapv x.msix fun m => { m with pending := false }
    launchSeq := if st = .active || st = .suspended then 1#32 else x.launchSeq }
  let s := s.deliver v 2
  let s := k.kernels.foldl (fun (s : State) (n : Kernel) => match n.irq with | some i => s.deliver v i | none => s) s
  if st = .active then s.enterActive v else s

/-- `KILL_ACKS_COMPLETE`: an acknowledgement arrives; after the last one, and again as frames and signals are done. -/
def killAcksComplete (s : State) : Option State :=
  match s.focus with
  | .msg i => (s.takeMsg i).bind fun (m, s) =>
    match m.kind with
    | .killAck e =>
      let s := s.setVd m.vd fun x => { x with kill := x.kill.map fun k => { k with left := k.left.filter (· ≠ e) } }
      some (if (s.vd m.vd).kill.any fun k => k.left.isEmpty && !k.erased then
        { s with agenda := s.agenda ++ [(.killAcksComplete, .vd m.vd)] } else s)
    | _ => none
  | .vd v => (s.vd v).kill.bind fun k =>
    if !k.left.isEmpty then none
    else if !k.erased then
      match s.signalAddrs v k.kernels with
      | (t, none) => s.news t
      | (t, some sigs) => let t := t.eraseVd v k sigs; some { t with agenda := t.agenda ++ [(.killAcksComplete, .vd v)] }
    else if !k.frames.isEmpty then none
    else match k.sigs with
      | [] => some (s.endKill v k)
      | pa :: rest =>
        let set := fun (s : State) (sigs : List Nat) (sig : Option SigRun) =>
          s.setVd v fun x => { x with kill := some { k with sigs, sig } }
        match s.goOn v 0x0F 0 (k.sig.getD { pa, phase := 1, since := s.nextId }) with
        | .wait r => r
        | .run s r => some (set s k.sigs (some r))
        | .done s _ => some { set s rest none with agenda := s.agenda ++ [(.killAcksComplete, .vd v)] }
  | _ => none
def execKillAcksComplete (s : State) := runDevice s killAcksComplete

-- ## FATAL_DIE_ERROR (R132, R136, R137)

/-- Kernels of a VD with blocks running: what a die reset interrupts. -/
def State.running (s : State) (v : Nat) : List Kernel :=
  (s.kernels.filter fun (k : Nat × Kernel) => k.2.vd = v && !k.2.complete && k.2.abort.isNone &&
    s.blocks.any fun (b : Nat × Block) => b.2.kernel = k.1 && b.2.place != .unstarted && b.2.place != .exited).map Prod.snd

/-- An endpoint of a compute die. -/
def onDie (d : Nat) : Endpoint → Bool
  | .cluster g => g / 16 = d
  | .l2 e _ => e = d
  | _ => false

/-- A message asks for tokens for a die. -/
def MsgKind.asksFor (d : Nat) : MsgKind → Bool
  | .request _ _ r | .persist _ r => r = Holder.die d
  | .forward _ r => r = some (Holder.die d)
  | _ => false

/-- What travels to or from a dead die is gone: an arbiter counts the die's mirror table as answered, and tokens of lines
that are not regenerated go home. -/
def State.dropMessages (s : State) (d : Nat) (dead : Nat → Bool) : State :=
  let out := s.net.msgs.filter fun (m : Nat × Msg) => onDie d m.2.dst || (onDie d m.2.src && m.2.tokens != 0) || m.2.kind.asksFor d
  let s := out.foldl (fun (s : State) (m : Nat × Msg) =>
    let s := match m.2.kind with
      | .activate a b _ _ | .deactivate a b => s.send { src := .proxy, dst := .arbiter a, kind := .ack a b, line := m.2.line }
      | _ => s
    if m.2.tokens = 0 || m.2.inc != s.lineInc m.2.line || (!hostLine m.2.line && dead m.2.vd) then s
    else
      let lost := m.2.lost || (m.2.dirty && !hostLine m.2.line)
      let s := s.setHome m.2.line (returnTag { tokens := m.2.tokens, owner := m.2.owner, lost } (s.homeTag m.2.line))
      if m.2.dirty && hostLine m.2.line then s.giveUpHost m.2.line else s) s
  let ids := keys out
  { s with net := { s.net with
    msgs := s.net.msgs.filter fun (m : Nat × Msg) => !ids.contains m.1
    waiting := s.net.waiting.filter fun f => !ids.contains f.msg
    flying := s.net.flying.filter fun f => !ids.contains f.1.msg
    reasm := s.net.reasm.filter fun f => !ids.contains f.msg
    inbox := s.net.inbox.filter fun i => !ids.contains i } }

/-- A dead die's persistent requests end. -/
def State.dropPersistent (s : State) (d : Nat) : State :=
  let s := { s with coh := { s.coh with
    reqs := s.coh.reqs.filter fun r => r.h != some (Holder.die d)
    banks := mapv s.coh.banks fun k => { k with fifo := k.fifo.filter fun q => q.req != Holder.die d } } }
  s.coh.banks.foldl (fun (s : State) (e : Nat × Bank) =>
    match e.2.active with
    | some q =>
      if q.req != Holder.die d || e.2.deactivating then s
      else s.send { src := .proxy, dst := .arbiter (e.1 / 8), kind := .done (e.1 % 8), line := q.line }
    | none => s) s

/-- `FATAL_DIE_ERROR`. -/
def fatalDieError (s : State) : Option State :=
  match s.focus with
  | .die d =>
    if !s.dieEnabled d then none else
    let vs := keys (pick s.vds fun x => x.state != .free && (List.range 32).any fun i => x.pdie i = some d)
    let s := { s with boot := { s.boot with disabled := s.boot.disabled ||| (1#32 <<< d) } }
    let s := vs.foldl (fun (s : State) v =>
      ({ s with free := s.free + 1 }).beginKill v false (Config.freeByte s.free).toNat true (s.running v)) s
    let dead := fun (v : Nat) => vs.contains v || (s.vd v).state = .killing
    let s := ((List.range 16).flatMap fun c => s.residents (16 * d + c)).foldl State.discardBlock s
    let s := s.dropCmds fun c => c.cluster / 16 = d
    let s := { s with
      clusters := s.clusters.filter fun (c : Nat × Cluster) => c.1 / 16 != d
      dies := del s.dies d }
    let s := (look s.coh.held d []).foldl (fun (s : State) (e : Nat × Tag) => s.forget d e.1 e.2 (!dead e.2.ctx)) s
    let s := (s.dropMessages d dead).dropPersistent d
    let less := fun (k : KillRun) => { k with left := k.left.filter fun e => engineDie e != some d }
    let s := { s with vds := mapv s.vds fun x => { x with kill := x.kill.map less } }
    let due := keys (pick s.vds fun x => x.kill.any fun k => k.left.isEmpty && !k.erased)
    some { s with agenda := s.agenda ++ due.map fun v => (Instr.killAcksComplete, Focus.vd v) }
  | _ => none
def execFatalDieError (s : State) := runDevice s fatalDieError

-- ## DEVICE_RESET and bring-up (R28–R31, R132)

/-- A little-endian field of `n` bytes of a record. -/
def bytesNat (bs : List Byte) (o n : Nat) : Nat := leNat ((bs.drop o).take n)

/-- The configuration record of R28, with the checks of R29. That a record of a format version other than 1, of a part that R28 does not
list, or of under 160 bytes is rejected too is the model's choice (log 5): R29 lists no such check. -/
def parseRecord (bs : List Byte) : Option Record :=
  let w := bytesNat bs 12 4
  let enable := bytesNat bs 8 4
  let part := bytesNat bs 4 4
  let dies := popCount 32 enable
  let reserved := bits w 15 2 != 0 || bits w 31 26 != 0 || (List.range 32).any fun d => bytesNat bs (16 + 4 * d + 3) 1 != 0
  let max := bits w 25 16
  if bs.length < 160 || bytesNat bs 0 4 != 1 || reserved || bits w 1 0 = 3 || max = 0 || 512 < max ||
    !((part = 0x3230 && dies = 32) || (part = 0x3330 && dies = 30)) then none
  else some {
    version := 1, part, enable := BitVec.ofNat 32 enable, minMode := bits w 1 0, maxVds := max
    bins := (List.range 32).flatMap fun d => (bs.drop (16 + 4 * d)).take 3
    serial := BitVec.ofNat 128 (bytesNat bs 144 16) }

/-- Bring-up (R30, R31) of a module whose image and record are verified: every VD is free, every frame is regenerated, whether its key
tag was ever written or not; what lies outside the package stays, with the values that it holds there itself. The budget starts at its
mode's largest (log 79). R30 does not say whether the steps after a failing one still act, nor R88 whether a retired frame stays so: that
self-tests, scrubbing and training go on, and that the list of retired frames is kept, is the model's choice (log 5). -/
def State.bringUp (s : State) (b : Boot) : State :=
  let n := b.number + 1
  let fail := Config.bringUpFail n
  let dead := (List.range 32).foldl (fun (m : BitVec 32) d =>
    if b.record.enable.getLsbD d && !Config.selfTest n d then m ||| (1#32 <<< d) else m) 0#32
  let mode := b.record.minMode
  let s := (keys s.cxl.apart).foldl State.takeHost s
  let t := { State.reset with
    boot := { b with number := n, failStep := fail, recovery := fail != 0, pfReady := fail = 0, disabled := dead }
    power := { mode }
    mem := s.mem.filter fun c => hbmEnd ≤ c.1
    hbm :=
      { tags := mapv s.hbm.tags fun t => { key := 0, gen := (t.gen + 1) % 256, bound := false }
        baseGen := (s.hbm.baseGen + 1) % 256, retired := s.hbm.retired }
    fabric := { module := s.fabric.module, ports := portsUp }
    cxl := { cxlMode := s.cxl.cxlMode, capacity := s.cxl.capacity }
    free := s.free, nextId := s.nextId, out := s.out }
  if mode = 0 then t else t.setBudget (modeSteps mode)

/-- `DEVICE_RESET`: bring-up runs again with the verified image; in recovery the module stays there (R29). -/
def deviceReset (s : State) : Option State :=
  some (if s.boot.recovery then { s.bringUp s.boot with boot := s.boot } else s.bringUp s.boot)
def execDeviceReset (s : State) := runDevice s deviceReset

end Sys2Proof.Machine
end

