-- ==== Sys2Proof/Machine/Vdc.lean ====
section
/-!
DEFINITION. The virtual device controller: mailbox commands (R118, R119), the fixed-function tables and what they refuse (R20,
R72, R78, R79, R107, R116, R130, R143), and the scheduler's registers (R159).
-/
namespace Sys2Proof.Machine

-- ## The mailbox (R118)

/-- A command ends: its status, its results, and PF vector 0. -/
def State.mbEnd (s : State) (seq status : Nat) (res : List Nat) : State :=
  let s := { s with pf := { s.pf with
    mbstat := BitVec.ofNat 32 (256 * status + 65536 * seq)
    mbres := if res.isEmpty then s.pf.mbres else Vector.ofFn fun (i : Fin 4) => BitVec.ofNat 64 (res[i.val]?.getD 0) } }
  s.pend 0 0

def State.arg (s : State) (k : Nat) : Nat := (vget s.pf.mbarg k 0#64).toNat

/-- The frame of a command: the device's state, its arguments, the VD's state, then what it does; a status other than 0
changes nothing. -/
def mailbox (inRecovery : Bool) (bad : State → Bool) (allowed : VdState → Bool) (f : State → Nat → Except Nat (State × List Nat))
    (s : State) : Option State :=
  match s.focus with
  | .mailbox seq _ =>
    let v := s.arg 0
    if s.boot.recovery != inRecovery then some (s.mbEnd seq 3 [])
    else if bad s then some (s.mbEnd seq 5 [])
    else if !allowed (s.vd v).state then some (s.mbEnd seq 3 [])
    else match f s v with
      | .error e => some (s.mbEnd seq e [])
      | .ok (s, r) => some (s.mbEnd seq 0 r)
  | _ => none

/-- `TotalVFs` of the PF's SR-IOV capability (R110). -/
def State.totalVfs (s : State) : Nat := s.boot.record.maxVds

/-- The first argument is no VD number. -/
def State.noVd (s : State) : Bool := s.totalVfs ≤ s.arg 0

/-- `CREATE_VD`: VD, weight, maximum clusters; the lowest free key id is bound. -/
def createVd (s : State) : Option State :=
  mailbox false (fun s => s.noVd || s.arg 1 = 0 || 255 < s.arg 1 || s.arg 2 = 0 || 512 < s.arg 2) (· = VdState.free) (fun s v =>
    match s.freeKey with
    | none => .error 4
    | some k =>
      let x : Vd := { state := .configured, weight := s.arg 1, stride := 2 ^ 20 / s.arg 1, maxClusters := s.arg 2, keyId := k }
      .ok ({ s with vds := put s.vds v x, keySlots := put s.keySlots k v }, [])) s
def execCreateVd (s : State) := runDevice s createVd

/-- `START_VD`. -/
def startVd (s : State) : Option State :=
  mailbox false State.noVd (· = VdState.configured) (fun s v =>
    if (s.vd v).nvdie = 0 then .error 3
    else .ok ((s.setVd v fun x => { x with state := .active, launchSeq := 1#32 }).enterActive v, [])) s
def execStartVd (s : State) := runDevice s startVd

/-- `SUSPEND_VD`: its blocks are saved at the next quantum boundary. -/
def suspendVd (s : State) : Option State :=
  mailbox false State.noVd (· = VdState.active) (fun s v => .ok (s.setVd v fun x => { x with state := .suspended }, [])) s
def execSuspendVd (s : State) := runDevice s suspendVd

/-- `RESUME_VD`. -/
def resumeVd (s : State) : Option State :=
  mailbox false State.noVd (· = VdState.suspended) (fun s v =>
    .ok ((s.setVd v fun x => { x with state := .active }).enterActive v, [])) s
def execResumeVd (s : State) := runDevice s resumeVd

/-- `RESET_VD`; in `KILLING` it merges into the reset in progress (R136). -/
def resetVd (s : State) : Option State :=
  mailbox false State.noVd (· != VdState.free) (fun s v => .ok (s.beginKill v false 0 false [], [])) s
def execResetVd (s : State) := runDevice s resetVd

/-- `DESTROY_VD`. -/
def destroyVd (s : State) : Option State :=
  mailbox false State.noVd (· != VdState.free) (fun s v => .ok (s.beginKill v true 0 false [], [])) s
def execDestroyVd (s : State) := runDevice s destroyVd

/-- `SET_WEIGHT` (R161). -/
def setWeight (s : State) : Option State :=
  mailbox false (fun s => s.noVd || s.arg 1 = 0 || 255 < s.arg 1) (· != VdState.free) (fun s v =>
    .ok (s.setVd v fun x => { x with weight := s.arg 1 }, [])) s
def execSetWeight (s : State) := runDevice s setWeight

/-- `SET_POWER_MODE` (R24): a mode that the record does not permit is refused with status 2. -/
def setPowerMode (s : State) : Option State :=
  mailbox false (fun _ => false) (fun _ => true) (fun s m =>
    if m < s.boot.record.minMode || 2 < m then .error 2
    else .ok ({ s with power := { s.power with pending := some m } }, [])) s
def execSetPowerMode (s : State) := runDevice s setPowerMode

def VdState.code : VdState → Nat
  | .free => 0 | .configured => 1 | .active => 2 | .suspended => 3 | .killing => 4 | .faulted => 5

/-- The control block's 64 bytes (R117). -/
def Vd.controlBlock (x : Vd) : List Byte :=
  leBytes 1 x.state.code ++ leBytes 1 x.weight ++ leBytes 2 x.maxClusters ++ leBytes 2 x.keyId ++ leBytes 2 0 ++
  leBytes 8 x.s2root.toNat ++ leBytes 8 x.fq.toNat ++ leBytes 8 x.saveArea.toNat ++
  leBytes 8 x.capBase.toNat ++ leBytes 8 x.dlq.toNat ++ leBytes 16 0

/-- `QUERY_VD`. -/
def queryVd (s : State) : Option State :=
  mailbox false (fun s => s.noVd || 2 < s.arg 1) (fun _ => true) (fun s v =>
    let x := s.vd v
    let part := fun (o : Nat) => (List.range 4).map fun k => bytesNat x.controlBlock (o + 8 * k) 8
    .ok (s, if s.arg 1 = 0 then part 0 else if s.arg 1 = 1 then part 32
      else [x.pass.toNat, if x.weight = 0 then 0 else 2 ^ 20 / x.weight, 0, 0])) s
def execQueryVd (s : State) := runDevice s queryVd

/-- `LOAD_IMAGE`: image address and length, record address and length, certificate chain address and length, in host
memory; after a failed check the module stays in recovery. -/
def loadImage (s : State) : Option State :=
  mailbox true (fun _ => false) (fun _ => true) (fun s _ =>
    let get := fun (k : Nat) => s.mem.bytes (hostBase + s.arg k) (s.arg (k + 1))
    match parseRecord (get 2) with
    | none => .error 2
    | some r =>
      if !Config.signaturesOk (get 0) (get 2) then .error 2
      else .ok (s.bringUp { s.boot with
        record := r, image := Config.sha384 (get 0), recordDigest := Config.sha384 (get 2), chain := get 4 }, [])) s
def execLoadImage (s : State) := runDevice s loadImage

/-- `UNKNOWN_COMMAND`. -/
def unknownCommand (s : State) : Option State :=
  match s.focus with
  | .mailbox seq code => if 1 ≤ code && code ≤ 10 then none else some (s.mbEnd seq 1 [])
  | _ => none
def execUnknownCommand (s : State) := runDevice s unknownCommand

-- ## Tables (R116)

/-- A table refuses a write: its contents stay and the hart gets an error status. Tables in the order of R116, from 0. -/
def State.refused (s : State) (table : Nat) : State := s.emit (.tableError table)

/-- A write of entry `i` that makes a virtual die table which R20 allows: it binds an enabled die or none; each die stands once, none after
an invalid entry. -/
def State.vdieOk (s : State) (t : List (BitVec 16)) (i : Nat) : Bool :=
  let on := t.filter fun e => e.getLsbD 15
  (t.dropWhile fun e => e.getLsbD 15).all (fun e => !e.getLsbD 15) &&
  (t[i]?).all (fun e => !e.getLsbD 15 || s.dieEnabled (e.extractLsb' 0 5).toNat) && (dedup on).length = on.length

/-- `VIRTUAL_DIE_TABLE_WRITE`: only of a VD that is configured, suspended or being killed; a suspended one keeps a die. -/
def virtualDieTableWrite (s : State) : Option State :=
  match s.focus with
  | .entry v i val =>
    let x := s.vd v
    let t := modAt x.vdie i fun _ => BitVec.ofNat 16 (val &&& 0x801F)
    let may := x.state = .configured || x.state = .suspended || x.state = .killing
    some (if 32 ≤ i || !may || !s.vdieOk t i || (x.state = .suspended && ({ x with vdie := t } : Vd).nvdie = 0) then s.refused 1
      else s.setVd v fun x => { x with vdie := t })
  | _ => none
def execVirtualDieTableWrite (s : State) := runDevice s virtualDieTableWrite

/-- `REGION_TABLE_WRITE` (R72). -/
def regionTableWrite (s : State) : Option State :=
  match s.focus with
  | .region d v val =>
    let r : Region := { base := bits val 8 0, size := bits val 18 9, valid := bit val 31 }
    let ended := (s.die d).regions.any fun (o : Nat × Region) =>
      o.1 != v && o.2.valid && r.valid && r.size != 0 && o.2.size != 0 && o.2.base < r.base + r.size && r.base < o.2.base + o.2.size
    some (if ended || 512 < r.base + r.size then s.refused 2
      else s.setDie d fun x => { x with regions := put x.regions v r })
  | _ => none
def execRegionTableWrite (s : State) := runDevice s regionTableWrite

/-- `KEY_TAG_WRITE` of a frame's `KEYID` and `BOUND`: a frame of HBM4E that is bound anew is cleared, or, where the key id is another of the
same VD, rekeyed (R78–R80). A frame takes another key id once its tokens are home (log 77). The VDC never assigns a retired frame to a VD
again (R88), so that write never comes. -/
def keyTagWrite (s : State) : Option State :=
  match s.focus with
  | .frame f val =>
    let key := bits val 9 0
    let t := s.tag (4096 * f)
    let v := (find s.keySlots key).getD 0
    let set := fun (s : State) => ({ s with hbm := { s.hbm with tags := put s.hbm.tags f { t with key, bound := false } } } : State).unfreeze f
    if hbmEnd ≤ 4096 * f then none
    else if !bit val 18 then
      if t.key = key then some (set s) else s.withFrame .keyTagWrite v f fun s => some (set s)
    else if s.mixes [] f key then some (s.refused 3)
    else if s.retired f && !(t.bound && s.keyVd t.key = s.keyVd key) then none
    else s.bindFrame .keyTagWrite v f key some
  | _ => none
def execKeyTagWrite (s : State) := runDevice s keyTagWrite

/-- `STAGE2_ENTRY_WRITE` of an entry of a VD's tables by a VDC hart, through the host proxy (R33, R35; log 77); a leaf in a failed expander
is mapped again (R109). The hart faults where the entry would lie in a guest's frame or at an address that names nothing (R107, R116). -/
def stage2EntryWrite (s : State) : Option State :=
  match s.focus with
  | .leaf v level addr e =>
    if s.hartBad addr then some (s.emit (.hartFault addr))
    else if s.leafBad v level addr e then some (s.refused 4)
    else s.owning .stage2EntryWrite [addr / 128] v fun s =>
      (s.platenPoke addr (leBytes 8 e) v).mapsAgain e
  | _ => none
def execStage2EntryWrite (s : State) := runDevice s stage2EntryWrite

/-- `INTERRUPT_REMAP_WRITE` (R130). -/
def interruptRemapWrite (s : State) : Option State :=
  match s.focus with
  | .entry v i val =>
    let fn := bits val 15 6
    some (if 64 ≤ i || (fn != 0 && fn != v + 1) || (fn = 0 && 8 ≤ bits val 5 0) then s.refused 7
      else s.setVd v fun x => { x with remap := put x.remap i (BitVec.ofNat 32 (val &&& 0x8000FFFF)) })
  | _ => none
def execInterruptRemapWrite (s : State) := runDevice s interruptRemapWrite

/-- The VD of a key id: the one that it is loaded for, or the one that is being killed and whose frames still bear it. -/
def State.keyOwner (s : State) (k : Nat) : Option Nat :=
  (find s.keySlots k).or ((s.vds.find? fun v => v.2.kill.any fun r => r.frames.any fun f => (s.tag (4096 * f)).key = k).map Prod.fst)

/-- `KEY_SLOT_LOAD` of a key id for a VD: refused while it is bound to a frame of another VD. -/
def keySlotLoad (s : State) : Option State :=
  match s.focus with
  | .vdValue v k =>
    let owner := s.keyOwner k
    let other := owner.any (· != v) && s.hbm.tags.any fun t => t.2.bound && t.2.key = k
    some (if k = 0 || 1024 ≤ k || other then s.refused 8
      else { s with keySlots := put s.keySlots k v })
  | _ => none
def execKeySlotLoad (s : State) := runDevice s keySlotLoad

/-- The control block's state byte moves only as R119 lists. -/
def lifecycle (x : Vd) (tgt : Nat) : Bool :=
  match x.state, tgt with
  | .configured, 2 | .active, 3 | .suspended, 2 => true
  | .configured, 4 | .active, 4 | .suspended, 4 | .faulted, 4 => true
  | _, n => n = x.state.code

/-- `VD_CONTROL_BLOCK_WRITE` of 8 bytes at offset 8i (R117); the device-launch queue's address restarts
that queue (R173), and a stage-2 root in a frame of another VD's key id, or at an address that names nothing, is refused (R107, R116).
`LASTCODE` is 0 after a reset by this write: R114 does not say which code VDC policy has (log 53). -/
def vdControlBlockWrite (s : State) : Option State :=
  match s.focus with
  | .entry v i val =>
    let x := s.vd v
    let w := BitVec.ofNat 64 val
    match i with
    | 0 =>
      let tgt := bits val 7 0
      if !lifecycle x tgt || (x.state = .configured && tgt = 2 && x.nvdie = 0) then some (s.refused 0)
      else
        let s := s.setVd v fun x => { x with weight := bits val 15 8, maxClusters := bits val 31 16, keyId := bits val 41 32 }
        some (if tgt = x.state.code then s
          else if tgt = 4 then s.beginKill v false 0 false []
          else if tgt = 3 then s.setVd v fun x => { x with state := .suspended }
          else (s.setVd v fun x => { x with
            state := .active, launchSeq := if x.state = .configured then 1#32 else x.launchSeq }).enterActive v)
    | 1 =>
      let pa := 4096 * bits val 47 12
      some (if s.unnamed pa 4096 || s.foreign v pa 4096 then s.refused 4 else s.setVd v fun x => { x with s2root := w })
    | 2 => some (s.setVd v fun x => { x with fq := w })
    | 3 => some (s.setVd v fun x => { x with saveArea := w })
    | 4 => some (s.setVd v fun x => { x with capBase := w })
    | 5 =>
      if x.open then some { s with agenda := s.agenda ++ [(.deviceLaunchQueueRestart, .vdValue v val)] }
      else some (s.setVd v fun x => { x with dlq := w })
    | _ => none
  | _ => none
def execVdControlBlockWrite (s : State) := runDevice s vdControlBlockWrite

-- ## The scheduler's registers (R159)

/-- `SCHCFG_WRITE`. -/
def schcfgWrite (s : State) : Option State :=
  match s.focus with
  | .value val =>
    let q := bits val 13 0
    some (if q < 20 || 10000 < q then s.refused 9 else { s with quantumNew := q })
  | _ => none
def execSchcfgWrite (s : State) := runDevice s schcfgWrite

/-- `SCHPOOL_WRITE`: bits of disabled dies are refused. -/
def schpoolWrite (s : State) : Option State :=
  match s.focus with
  | .dieValue d val =>
    let p := bits val 15 0
    some (if !s.dieEnabled d && p != 0 then s.refused 10
      else { s with poolNew := put s.poolNew d p })
  | _ => none
def execSchpoolWrite (s : State) := runDevice s schpoolWrite

end Sys2Proof.Machine
end

