-- ==== Sys2Proof/Machine/Regs.lean ====
section
/-!
DEFINITION. Registers: writes of BAR 0 by the host and of the VDC's own registers (R4, R81, R98, R109, R111, R114, R115, R118),
and what reads return.
-/
namespace Sys2Proof.Machine

-- ## Writes

/-- A write of 4 or 8 bytes into a 64-bit register that stands at `base`. -/
def mergeReg (old : DWord) (base off size value : Nat) : DWord :=
  let o := old.toNat
  let v := value % 2 ^ (8 * size)
  if off = base && size = 8 then BitVec.ofNat 64 v
  else if off = base then BitVec.ofNat 64 (o / 2 ^ 32 * 2 ^ 32 + v)
  else BitVec.ofNat 64 (o % 2 ^ 32 + 2 ^ 32 * v)

/-- A write covers a 64-bit register that stands at `base`. -/
def covers (base off size : Nat) : Bool := (off = base && (size = 4 || size = 8)) || (off = base + 4 && size = 4)

/-- Steps that a write starts. -/
def State.push (s : State) (l : List (Instr × Focus)) : State := { s with agenda := s.agenda ++ l }

/-- A write into a function's MSI-X table: unmasking a pending vector sends its message (R131). The word at 12 holds the mask; a write of
8 bytes at 8 reaches it too. -/
def State.msixWrite (s : State) (fn off size value : Nat) : State :=
  let n := off / 16
  let o := off % 16
  let s' := s.setVector fn n fun m =>
    if o < 8 then { m with addr := mergeReg m.addr 0 o size value }
    else if o = 8 then { m with data := BitVec.ofNat 32 value, masked := if size = 8 then bit value 32 else m.masked }
    else if o = 12 then { m with masked := bit value 0 } else m
  if (o = 12 && !bit value 0) || (o = 8 && size = 8 && !bit value 32) then s'.push [(.msixVectorUnmask, .write fn n 0 0)] else s'

/-- The control page of a VD (R115, R148, R152, R156, R257, R264, R268); reserved bits of a write are dropped. Registers with a
step of their own start it. -/
def State.controlWrite (s : State) (v r size value : Nat) : State :=
  let x := s.vd v
  let set := fun (f : Vd → Vd) => s.setVd v f
  let field := fun (d : DWord) (hi lo : Nat) => BitVec.ofNat 64 (bits d.toNat hi lo * 2 ^ lo)
  if r < 0x200 then
    (if r % 8 != 0 then s else
    s.push ((if bit value 1 then [(Instr.queueRestart, Focus.queue v (r / 8) 0)] else []) ++
      [(if bit value 0 then Instr.queueEnable else Instr.queueDisable, Focus.queue v (r / 8) 0)]))
  else if covers 0x400 r size then
    (if (List.range 64).any fun q => (look x.queues q {}).enabled then s
    else set fun x => { x with qtbase := field (mergeReg x.qtbase 0x400 r size value) 63 12 })
  else if r = 0x500 then
    s.push (match bits value 1 0 with
      | 0 => [(.tlbInvalidateRange, .vdValue v value)]
      | 1 => [(.tlbInvalidateAsid, .vdValue v value)]
      | 2 => [(.tlbInvalidateVd, .vdValue v value)]
      | _ => [])
  else if r = 0x51C then s.push [(.fqheadWrite, .vdValue v value)]
  else if r = 0x520 then s.push [(.replaytWrite, .vdValue v value)]
  else if r = 0x528 then s.push [(if bit value 6 then .replayAll else .replayPage, .vdValue v value)]
  else if r = 0x530 then s.push [(.rhbaseWrite, .vdValue v value)]
  else if r = 0x600 then s.push [(.smpcfgWrite, .vdValue v value)]
  else if covers 0x608 r size then
    (if x.smpcfg.getLsbD 0 then s else set fun x => { x with smpbase := field (mergeReg x.smpbase 0x608 r size value) 47 12 })
  else if r = 0x614 then s.push [(.smpheadWrite, .vdValue v value)]
  else if r = 0x618 then s.push [(.smpdropClear, .vdValue v value)]
  else if r = 0x620 then set fun x => { x with attach := bit value 0 }
  else if r = 0x628 then
    s.push (match bits value 1 0 with
      | 1 => [(.debugContinue, .vdValue v value)]
      | 2 => [(.debugStep, .vdValue v value)]
      | 3 => [(.debugRollback, .vdValue v value)]
      | _ => [])
  else if covers 0x638 r size then set fun x => { x with dbgdump := field (mergeReg x.dbgdump 0x638 r size value) 47 12 }
  else if 0x640 ≤ r && r < 0x680 then
    let k := (r - 0x640) / 16
    let o := (r - 0x640) % 16
    if o < 8 then set fun x =>
      { x with waddr := x.waddr.setIfInBounds k (field (mergeReg (vget x.waddr k 0#64) 0 o size value) 56 0) }
    else if o = 8 then set fun x => { x with wctl := x.wctl.setIfInBounds k (BitVec.ofNat 32 (bits value 7 0)) }
    else s
  else if r = 0x680 then
    let n := bits value 15 8
    set fun x => { x with prfcfg := BitVec.ofNat 32 (bits value 7 0 + 256 * (if 20 ≤ n && n ≤ 31 then n else 20)) }
  else if covers 0x688 r size then set fun x => { x with prfbase := field (mergeReg x.prfbase 0x688 r size value) 47 12 }
  else s

/-- A write of the PF's BAR 0 (R111): in recovery the mailbox alone (R29). -/
def State.pfWrite (s : State) (off size value : Nat) : State :=
  if off = 0 then
    (if s.pf.mbstat.getLsbD 0 then s else
    let seq := bits value 31 16
    let code := bits value 15 0
    let cmd : List Instr := [.createVd, .startVd, .suspendVd, .resumeVd, .resetVd, .destroyVd, .setWeight, .setPowerMode, .queryVd,
      .loadImage]
    let s := { s with pf := { s.pf with mbcmd := BitVec.ofNat 32 value, mbstat := 1#32 } }
    s.push [(if code = 0 then .unknownCommand else cmd[code - 1]?.getD .unknownCommand, .mailbox seq code)])
  else if 8 ≤ off && off < 0x48 then
    let k := (off - 8) / 8
    { s with pf := { s.pf with
      mbarg := s.pf.mbarg.setIfInBounds k (mergeReg (vget s.pf.mbarg k 0#64) (8 + 8 * k) off size value) } }
  else if s.boot.recovery then s
  else if 0x2080 ≤ off && off < 0x20C0 then
    (if off % 4 = 0 && bit value 0 then s.push [(.fportctlRestore, .port ((off - 0x2080) / 4))] else s)
  else if 0x3000 ≤ off && off < 0x3080 then s.msixWrite 0 (off - 0x3000) size value
  else s

/-- A write of the VDC's own registers, which have no offset in the spec; the model's numbers for them (log 31): kind `off / 2^20`
and index `off % 2^20`. Kinds: 0 a capability entry (4096 × VD + index), 1 `QBCFG` (512 × memory die + VD), 2 the fabric
timeout, 3 a CXL port's timeout. -/
def State.vdcWrite (s : State) (off value : Nat) : State :=
  let i := off % 2 ^ 21
  match off / 2 ^ 21 with
  | 0 => s.setVd (i / 4096) fun x =>
      { x with caps := put x.caps (i % 4096) (BitVec.ofNat 256 (value - bits value 30 28 * 2 ^ 28)) }
  | 1 => s.setBucket (i / 512) (i % 512) fun b =>
      { b with rate := bits value 16 0, depth := bits value 47 24, idle := bit value 48, en := bit value 49 }
  | 2 => if 10000 ≤ value && value ≤ 64000000 then { s with fabric := { s.fabric with timeoutNs := value } } else s.refused 11
  | 3 => if i < 3 && 1000 ≤ value && value ≤ 64000000 then
      s.setCxl fun c => { c with timeoutNs := c.timeoutNs.setIfInBounds i value } else s.refused 12
  | _ => s

/-- `REGISTER_WRITE`: function 0 is the PF, VD + 1 a VF, 1024 the VDC. There is no VF above `TotalVFs`; a free VD's VF ignores every write
(R110), one that is neither active nor suspended those of its control page (R115). -/
def registerWrite (s : State) : Option State :=
  match s.focus with
  | .write fn off size value =>
    if fn = 1024 then some (s.vdcWrite off value)
    else if !(size = 4 || size = 8) then none
    else if fn = 0 then some (s.pfWrite off size value)
    else
      let x := s.vd (fn - 1)
      if x.state = .free || s.totalVfs < fn then none
      else if off < 0x200 then some (s.push [(.kickPageWrite, .write fn off size value)])
      else if 0x2000 ≤ off && off < 0x3000 then
        (if x.open then some (s.controlWrite (fn - 1) (off - 0x2000) size value) else none)
      else if 0x3000 ≤ off && off < 0x3400 then some (s.msixWrite fn (off - 0x3000) size value)
      else none
  | _ => none
def execRegisterWrite (s : State) := runDevice s registerWrite

-- ## Reads

/-- A queue's error register (R114). -/
def Queue.qerr (k : Queue) : Nat :=
  (if k.enabled then 1 else 0) + (if k.stopped then 2 else 0) + (if k.overkick then 4 else 0) + (if k.diskick then 8 else 0) +
  256 * k.reason

/-- A 32-bit word of a VF's status page (R114). -/
def Vd.statusWord (x : Vd) (o : Nat) : Nat :=
  if o = 0 then x.state.code + 256 * x.lastCode + 65536 * x.resets.toNat
  else if 0x800 ≤ o then
    let k := look x.queues ((o - 0x800) / 32) {}
    match (o - 0x800) % 32 with
    | 0 => k.head.toNat
    | 4 => k.tail.toNat
    | 8 => k.stale.toNat
    | 12 => k.qerr
    | 16 => k.done.toNat % 2 ^ 32
    | 20 => k.done.toNat / 2 ^ 32
    | _ => 0
  else 0

/-- A 64-bit register's word at an offset of 0 or 4. -/
def half (d : DWord) (o : Nat) : Nat := if o = 0 then d.toNat % 2 ^ 32 else d.toNat / 2 ^ 32

/-- A 32-bit word of a VF's control page. -/
def Vd.controlWord (x : Vd) (r : Nat) : Nat :=
  if r < 0x200 then (if r % 8 = 0 && (look x.queues (r / 8) {}).enabled then 1 else 0)
  else match r with
    | 0x400 | 0x404 => half x.qtbase (r - 0x400)
    | 0x508 => (if x.tlbinv.isSome then 1 else 0) + 65536 * x.tlbDone.toNat
    | 0x510 | 0x514 => half (BitVec.ofNat 64 (bits x.fq.toNat 3 0 + bits x.fq.toNat 47 12 * 4096)) (r - 0x510)
    | 0x518 => x.fqTail.toNat
    | 0x51C => x.fqHead.toNat
    | 0x530 | 0x534 => half (BitVec.ofNat 64 (x.rhCount + x.rhBase)) (r - 0x530)
    | 0x600 => x.smpcfg.toNat
    | 0x608 | 0x60C => half x.smpbase (r - 0x608)
    | 0x610 => x.smptail.toNat
    | 0x614 => x.smphead.toNat
    | 0x618 => x.smpdrop.toNat
    | 0x620 => if x.attach then 1 else 0
    | 0x630 => (if x.dbgBusy then 1 else 0) + 2 * x.dbgStatus
    | 0x638 | 0x63C => half x.dbgdump (r - 0x638)
    | 0x680 => x.prfcfg.toNat
    | 0x688 | 0x68C => half x.prfbase (r - 0x688)
    | _ =>
      if r < 0x640 || 0x680 ≤ r then 0 else
      let k := (r - 0x640) / 16
      match (r - 0x640) % 16 with
      | 0 => half (vget x.waddr k 0#64) 0
      | 4 => half (vget x.waddr k 0#64) 4
      | 8 => (vget x.wctl k 0#32).toNat
      | _ => 0

/-- A word of an MSI-X table. -/
def MsixVec.word (m : MsixVec) (o : Nat) : Nat :=
  match o with
  | 0 => half m.addr 0
  | 4 => half m.addr 4
  | 8 => m.data.toNat
  | _ => if m.masked then 1 else 0

/-- Port status (R100). -/
def Port.fportst (p : Port) : Nat := p.state + 8 * p.carries.length + 256 * p.retries

/-- A 32-bit word of the PF's device status page (R111). The spec gives no layout: that the first word holds the failing step of bring-up
(R30) and the second the enabled dies that failed self-test or took a fatal error (R31) is the model's choice (log 31). -/
def State.statusPage (s : State) (o : Nat) : Nat :=
  if o = 0 then s.boot.failStep else if o = 4 then s.boot.disabled.toNat else 0

/-- A 32-bit word of BAR 0; reserved offsets read 0, and so does a free VD's VF (R110, R111). In recovery the PF exposes the mailbox alone
(R29), and the status page after a step of bring-up has failed (R30). -/
def State.barWord (s : State) (fn off : Nat) : Nat :=
  if fn = 0 then
    (if off = 0 then s.pf.mbcmd.toNat
    else if 8 ≤ off && off < 0x48 then half (vget s.pf.mbarg ((off - 8) / 8) 0#64) (off % 8)
    else if off = 0x80 then s.pf.mbstat.toNat
    else if 0x88 ≤ off && off < 0xA8 then half (vget s.pf.mbres ((off - 0x88) / 8) 0#64) (off % 8)
    else if s.boot.recovery && s.boot.failStep = 0 then 0
    else if 0x1000 ≤ off && off < 0x2000 then s.statusPage (off - 0x1000)
    else if s.boot.recovery then 0
    else if 0x2000 ≤ off && off < 0x2040 then (look s.fabric.ports ((off - 0x2000) / 4) {}).fportst
    else if 0x2040 ≤ off && off < 0x2080 then (look s.fabric.ports ((off - 0x2040) / 4) {}).planes.toNat
    else if 0x3000 ≤ off && off < 0x3080 then (s.vector 0 ((off - 0x3000) / 16)).word (off % 16)
    else 0)
  else
    let x := s.vd (fn - 1)
    if x.state = .free || s.totalVfs < fn then 0
    else if off < 0x200 then (if off % 8 = 0 then (look x.queues (off / 8) {}).tail.toNat else 0)
    else if 0x1000 ≤ off && off < 0x2000 then x.statusWord (off - 0x1000)
    else if 0x2000 ≤ off && off < 0x3000 then x.controlWord (off - 0x2000)
    else if 0x3000 ≤ off && off < 0x3400 then (s.vector fn ((off - 0x3000) / 16)).word (off % 16)
    else if off = 0x3800 || off = 0x3804 then
      ((List.range 32).map fun i => if (s.vector fn (i + 8 * (off - 0x3800))).pending then 2 ^ i else 0).sum
    else 0

/-- What a read of `size` bytes of BAR 0 returns. A VF's kick page answers 32-bit reads alone (R112); of sizes elsewhere the spec says
nothing, and that a read returns the bytes it covers is the model's choice (log 31). -/
def State.readBar (s : State) (fn off size : Nat) : Nat :=
  if size = 4 && off % 4 = 0 then s.barWord fn off
  else if fn != 0 && off < 0x1000 then 0
  else if size = 8 && off % 8 = 0 then s.barWord fn off + 2 ^ 32 * s.barWord fn (off + 4)
  else if size = 1 || (size = 2 && off % 2 = 0) then s.barWord fn (off / 4 * 4) / 2 ^ (8 * (off % 4)) % 2 ^ (8 * size)
  else 0

end Sys2Proof.Machine
end

