-- ==== Sys2Proof/Machine/Debug.lean ====
section
/-!
DEFINITION. The stipple sampler (R257–R262) and the debugger's commands (R264, R267, R270).
-/
namespace Sys2Proof.Machine

-- ## Sampler registers (R257)

/-- `SMPCFG_WRITE`. -/
def smpcfgWrite (s : State) : Option State :=
  match s.focus with
  | .vdValue v w =>
    let x := s.vd v
    if !x.open || 2 ≤ bits w 2 1 || bits w 23 8 = 0 then none else
    let old := x.smpcfg.toNat
    let n := bits w 28 24
    let n := if bit old 0 then bits old 28 24 else if 6 ≤ n && n ≤ 20 then n else 6
    some (s.setVd v fun x => { x with
      smpcfg := BitVec.ofNat 32 (bits w 2 0 + 256 * bits w 23 8 + 2 ^ 24 * n)
      smpSeq := if bit w 0 && !bit old 0 then [] else x.smpSeq })
  | _ => none
def execSmpcfgWrite (s : State) := runDevice s smpcfgWrite

/-- `SMPHEAD_WRITE`: a value that passes `TAIL` is ignored. -/
def smpheadWrite (s : State) : Option State :=
  match s.focus with
  | .vdValue v w =>
    let x := s.vd v
    let h := BitVec.ofNat 32 w
    if !x.open || (x.smptail - x.smphead).toNat < (h - x.smphead).toNat then none
    else some (s.setVd v fun x => { x with smphead := h })
  | _ => none
def execSmpheadWrite (s : State) := runDevice s smpheadWrite

/-- `SMPDROP_CLEAR`. -/
def smpdropClear (s : State) : Option State :=
  match s.focus with
  | .vdValue v _ => if (s.vd v).open then some (s.setVd v fun x => { x with smpdrop := 0#32 }) else none
  | _ => none
def execSmpdropClear (s : State) := runDevice s smpdropClear

-- ## Ticks (R258–R260)

/-- The warps of a quadrant of a cluster by slot, with their blocks. -/
def State.quadSlots (s : State) (g q : Nat) : List (Nat × Nat × Nat × Warp) :=
  s.blocks.flatMap fun (b : Nat × Block) =>
    if b.2.cluster = some g then
      b.2.img.warps.zipIdx.filterMap fun (x : Warp × Nat) => if x.2 % 4 = q then some (x.1.slot, b.1, x.2, x.1) else none
    else []

/-- The first slot after `p`, cyclically, among some slots. -/
def nextSlot (p : Nat) (slots : List Nat) : Option Nat :=
  ((List.range 16).map fun i => (p + 1 + i) % 16).find? fun n => slots.contains n

/-- The reason that a warp did not issue (R259), from the fragment sampled; `stopped` says that its block issues nothing. -/
def Warp.reason (x : Warp) (f : Frag) (stopped : Bool) : Nat :=
  if x.parked.isSome then 12 else
  match (if x.waitOver f.wait then Wait.ready else f.wait) with
  | .sleep _ => 10
  | .bar .. | .gbar _ | .sig .. | .sync | .rejoin | .handler | .children => 5
  | .tags _ => 4
  | .counters .. => 3
  | .ready =>
    match x.stall with
    | some .tag => 4
    | some .counter => 3
    | some (.fetch _) => 6
    | some .reg => 2
    | some .matrix => 7
    | some .sb => 8
    | some .ott => 9
    | none => if f.demoted && stopped then 11 else 1

/-- The PC of a record of a warp that did not issue (R259): for `FETCH` the address being fetched. -/
def Warp.samplePc (x : Warp) (f : Frag) (stopped : Bool) : Nat :=
  match x.stall with
  | some (.fetch pc) => if x.reason f stopped = 6 then pc else f.pc.toNat
  | _ => f.pc.toNat

/-- The record of a sampled slot. -/
def State.tickBytes (s : State) (v g q seq : Nat) (w : Option (Nat × Nat × Nat × Warp)) : List Byte :=
  let clock := s.vclock v
  match w with
  | none => sampleBytes clock 0 v (g / 16) g q 0 13 false 0 0xFFFFFFFF seq
  | some (slot, n, _, x) =>
    let b := s.blk n
    let lin := (b.map fun b => b.lin).getD 0
    let flag := b.any fun b => b.replay.isSome
    if x.exited = allLanes then sampleBytes clock 0 v (g / 16) g q slot 13 flag 0 lin seq else
    let rwc := x.rwc.toNat % 2 ^ 32
    let stopped := !(b.any Block.issues)
    match x.issued, x.sampled with
    | some (t, pc), some f =>
      if s.now ≤ t + s.cycleTicks g then
        sampleBytes clock (bits pc.toNat 47 0) v (g / 16) g q slot 0 flag rwc lin seq
      else sampleBytes clock (bits (x.samplePc f stopped) 47 0) v (g / 16) g q slot (x.reason f stopped) flag rwc lin seq
    | none, some f => sampleBytes clock (bits (x.samplePc f stopped) 47 0) v (g / 16) g q slot (x.reason f stopped) flag rwc lin seq
    | _, none => sampleBytes clock 0 v (g / 16) g q slot 13 flag 0 lin seq

/-- `SAMPLER_TICK` of a quadrant whose counter has reached P: `SMPCFG` takes effect here (R257). -/
def samplerTick (s : State) : Option State :=
  match s.focus with
  | .quad g q => (s.cl g).vd.bind fun v =>
    let cfg := (s.vd v).smpcfg.toNat
    let k := vget (s.cl g).smp q {}
    if k.counter < 120 * k.period then none else
    let ws := s.quadSlots g q
    let next := nextSlot k.ptr (ws.map fun w => w.1)
    let seq := look (s.vd v).smpSeq (4 * g + q) 0
    let arm := bit cfg 0 && bits cfg 2 1 = 1
    let k' : SmpQuad := { counter := k.counter - 120 * k.period, period := bits cfg 23 8, ptr := next.getD k.ptr, armed := if arm then some seq else none }
    let s := s.setCl g fun c => { c with smp := c.smp.setIfInBounds q k' }
    if !bit cfg 0 then some s else
    let s := s.setVd v fun x => { x with smpSeq := put x.smpSeq (4 * g + q) ((seq + 1) % 2 ^ 32) }
    some (if arm then s else
      s.sampleRecord v (s.tickBytes v g q seq (next.bind fun n => ws.find? fun w => w.1 = n)))
  | _ => none
def execSamplerTick (s : State) := runDevice s samplerTick

/-- `MEMREQ_RECORD` (R262): queueing times are free values (log 32), 0xFFFF for a stage that the request did not pass. -/
def memreqRecord (s : State) : Option State :=
  match s.focus with
  | .times _ id stages => (s.samples.find? fun m => m.id = id).map fun m =>
    let (s, fs) := s.freeBytes 12
    let times := (List.range 6).map fun i =>
      if (stages[i]?).getD 0 = 0 then 0xFFFF else min 0xFFFE ((fs[2 * i]?).getD 0 + 256 * (fs[2 * i + 1]?).getD 0)
    let two := fun (i : Nat) => (times[i]?).getD 0 + 65536 * (times[i + 1]?).getD 0
    ({ s with samples := s.samples.filter fun n => n.id != id }).sampleRecord m.vd
      (sampleBytes m.clock (bits m.pc.toNat 47 0 + 2 ^ 48 * (m.seq % 65536)) m.vd m.die m.g m.q m.slot 15 m.store (two 0) (two 2) (two 4))
  | _ => none
def execMemreqRecord (s : State) := runDevice s memreqRecord

-- ## Debugger commands (R264, R267)

/-- A command ends with a status. -/
def State.dbgEnd (s : State) (v status : Nat) : State := s.setVd v fun x => { x with dbgStatus := status, dbgBusy := false }

/-- A roll back of the VD runs. -/
def State.dbgRuns (s : State) (v : Nat) : Bool := s.blocks.any fun (b : Nat × Block) => b.2.replay.isSome && s.vdOf b.2 = v

/-- The block that a halt index names, once it has halted. -/
def State.haltedAt (s : State) (v i : Nat) : Option Nat :=
  (find (s.vd v).halts i).bind fun n => (s.blk n).bind fun b => if b.place = .halted i then some n else none

/-- A halted block goes to the head of its die's list and frees its index; its warps pass the stop they stand at. -/
def State.release (s : State) (v i n : Nat) : State :=
  let later := fun (b : Block) => if b.place = .saved then { b with savedAt := b.savedAt + 1 } else b
  let s := { s with blocks := mapv s.blocks later }
  let s := s.setVd v fun x => { x with halts := del x.halts i }
  let go := fun (x : Warp) => { x with passStop := x.stopCause = 0x13 || x.stopCause = 0x14, stopCause := 0 }
  let s := s.setBlk n fun b => { b with place := .saved, savedAt := 0, img := { b.img with warps := b.img.warps.map go } }
  match s.blk n with
  | some b => s.fill v b.die
  | none => s

/-- The frame of a debugger command: a halted block of the VD. -/
def State.debug (s : State) (f : Nat → Nat → Nat → Nat → State) : Option State :=
  match s.focus with
  | .vdValue v w =>
    if !(s.vd v).open || s.dbgRuns v then none else
    some (match s.haltedAt v (bits w 5 2) with
      | some n => f v w (bits w 5 2) n
      | none => s.dbgEnd v 1)
  | _ => none

/-- `DEBUG_CONTINUE`. -/
def debugContinue (s : State) : Option State := s.debug fun v _ i n => (s.release v i n).dbgEnd v 0
def execDebugContinue (s : State) := runDevice s debugContinue

/-- `DEBUG_STEP`. -/
def debugStep (s : State) : Option State :=
  s.debug fun v _ i n => ((s.setBlk n fun b => { b with stepping := true }).release v i n).dbgEnd v 0
def execDebugStep (s : State) := runDevice s debugStep

-- ## Roll back (R270)

/-- What was in progress at the snapshot: loads take their logged values, stores are over. -/
def State.replayAccesses (s : State) (n : Nat) (log : List LogEntry) : State :=
  match s.blk n with
  | none => s
  | some b =>
    b.img.warps.zipIdx.foldl (fun (s : State) (x : Warp × Nat) =>
      x.1.accesses.foldl (fun (s : State) a =>
        let vals := ((a.log.bind fun i => log[i]?).map fun e => e.vals).getD []
        let lanes := if a.dst.isSome then (a.lanes.map fun l => l.1).zip vals else []
        s.complete { blk := n, wi := x.2 } { a with acq := 0, sample := none, log := none } lanes none) s) s

/-- Restores a block's snapshot; its commands in progress are issued again and read from the log. -/
def State.rollBack (s : State) (n wi count : Nat) (b : Block) (img : Image) : State :=
  let serve := fun (c : Command) =>
    { c.again with served := (c.log.bind fun i => b.log[i]?).map fun e => e.vals, log := none }
  let s := s.setBlk n fun b =>
    { b with img, abandoned := b.snapCmds.map serve, replay := some (wi, count, b.log.drop b.carried), stepping := false }
  s.replayAccesses n b.log

/-- `DEBUG_ROLLBACK`. -/
def debugRollback (s : State) : Option State :=
  s.debug fun v w i n =>
    match s.blk n with
    | none => s
    | some b =>
      let wi := bits w 10 6
      let count := bits w 63 12
      match b.proof, b.snap with
      | some _, some img =>
        let at' := fun (m : Image) => ((m.warps[wi]?).map fun x => x.rwc.toNat % 2 ^ 52)
        if b.logFull then s.dbgEnd v 3 else
        match at' img, at' b.img with
        | some lo, some hi =>
          if count < lo || hi < count then s.dbgEnd v 2
          else ((s.rollBack n wi count b img).release v i n).setVd v fun x => { x with dbgBusy := true }
        | _, _ => s.dbgEnd v 2
      | _, _ => s.dbgEnd v 4
def execDebugRollback (s : State) := runDevice s debugRollback

/-- The block's named warp has reached its count. -/
def Block.reached (b : Block) : Bool :=
  match b.replay with
  | some (wi, count, _) => (b.img.warps[wi]?).any fun x => count ≤ x.rwc.toNat % 2 ^ 52
  | none => false

/-- The log without the entries that re-execution has not used: each warp's last ones. -/
def usedLog (log rest : List LogEntry) : List LogEntry :=
  (log.reverse.foldl (fun (r : List LogEntry × List Nat) e =>
    if r.2.contains e.wi then (r.1, r.2.erase e.wi) else (e :: r.1, r.2)) ([], rest.map fun e => e.wi)).1

/-- A block's re-execution ends, with the command that began it. -/
def State.endReplay (s : State) (n : Nat) (b : Block) : State :=
  match b.replay with
  | some r => (s.setBlk n fun b => { b with replay := none, log := usedLog b.log r.2.2 }).dbgEnd (s.vdOf b) 0
  | none => s

/-- `ROLLBACK_COUNT_REACHED`: the block halts again. -/
def rollbackCountReached (s : State) : Option State :=
  match s.focus with
  | .blk n => (s.blk n).bind fun b => b.cluster.bind fun g =>
    let v := s.vdOf b
    match (List.range 16).find? fun i => (find (s.vd v).halts i).isNone with
    | some i =>
      if !b.reached then none else
      let s := s.setVd v fun x => { x with halts := put x.halts i n }
      some (((s.setBlk n fun b => { b with place := .saving g }).endReplay n b).abandonFor n)
    | none => none
  | _ => none
def execRollbackCountReached (s : State) := runDevice s rollbackCountReached

end Sys2Proof.Machine
end

