-- ==== Sys2Proof/Machine/Attest.lean ====
section
/-!
DEFINITION. The SPDM responders (R138, R139). Response codes and the order of requests are SPDM's own (log 33); keys, digests,
signatures and shared secrets are the opaque functions of Config.
-/
namespace Sys2Proof.Machine

/-- The responder of a function: PF 0, or the VF of a VD that is not free. -/
def State.spdm (s : State) (fn : Nat) : Option Spdm :=
  if s.boot.recovery then none
  else if fn = 0 then some s.pf.spdm
  else if (s.vd (fn - 1)).state = .free then none else some (s.vd (fn - 1)).spdm

def State.setSpdm (s : State) (fn : Nat) (f : Spdm → Spdm) : State :=
  if fn = 0 then { s with pf := { s.pf with spdm := f s.pf.spdm } } else s.setVd (fn - 1) fun x => { x with spdm := f x.spdm }

/-- The alias key in force (R138). -/
def State.alias (s : State) : BitVec 384 := Config.aliasKey Config.deviceSecret s.boot.image s.boot.recordDigest

/-- The alias key's certificate (R138): its public half, signed with the device identity key, which nothing keeps. -/
def State.aliasCertificate (s : State) : List Byte :=
  let pub := leBytes 96 (Config.publicKey s.alias).toNat
  pub ++ leBytes 96 (Config.ecdsa (Config.identityKey Config.deviceSecret) pub).toNat

/-- The chain that the responders serve: the device identity's, which the host supplied unchecked, and the alias key's certificate. -/
def State.chain (s : State) : List Byte := s.boot.chain ++ s.aliasCertificate

/-- A response leaves: sealed in a session, which begins with its key exchange (R139). -/
def State.say (s : State) (fn code : Nat) (body : List Byte) : State :=
  match (s.spdm fn).bind fun x => x.session.map fun k => (k, x.seq) with
  | some (k, n) => (s.emit (.spdmSecured fn n (Config.gcm k n (leBytes 1 code ++ body)))).setSpdm fn fun x => { x with seq := n + 1 }
  | none => s.emit (.spdm fn code body)

/-- A request and its response join the transcript; the response leaves. -/
def State.respond (s : State) (fn req a b code : Nat) (body : List Byte) : State :=
  (s.say fn code body).setSpdm fn fun x =>
    { x with transcript := x.transcript ++ leBytes 1 req ++ leBytes 4 a ++ leBytes 4 b ++ leBytes 1 code ++ body }

/-- A signature by the alias key over the transcript so far and a response's body. -/
def State.sign (s : State) (x : Spdm) (body : List Byte) : List Byte :=
  leBytes 96 (Config.ecdsa s.alias (x.transcript ++ body)).toNat

/-- The frame of a request: an error response where `ok` does not hold (0x04, UnexpectedRequest). -/
def spdmStep (ok : Spdm → Bool) (f : State → Nat → Spdm → Nat → Nat → State) (s : State) : Option State :=
  match s.focus with
  | .spdm fn a b => (s.spdm fn).map fun x => if ok x then f s fn x a b else s.say fn 0x7F [0x04#8]
  | _ => none

/-- `SPDM_GET_VERSION`: versions 1.2 and 1.3; the connection begins anew. -/
def spdmGetVersion (s : State) : Option State :=
  spdmStep (fun _ => true) (fun s fn _ a b =>
    (s.setSpdm fn fun _ => { version := 0x13 }).respond fn 0x84 a b 0x04 [0x12#8, 0x13#8]) s
def execSpdmGetVersion (s : State) := runDevice s spdmGetVersion

/-- `SPDM_GET_CAPABILITIES`: `a` is the requester's version. -/
def spdmGetCapabilities (s : State) : Option State :=
  spdmStep (fun x => x.version != 0) (fun s fn _ a b =>
    (s.setSpdm fn fun x => { x with version := if a = 0x12 then 0x12 else 0x13 }).respond fn 0xE1 a b 0x61 (leBytes 1 a)) s
def execSpdmGetCapabilities (s : State) := runDevice s spdmGetCapabilities

/-- `SPDM_NEGOTIATE_ALGORITHMS`: ECDSA P-384, SHA-384, P-384 and AES-256-GCM. -/
def spdmNegotiateAlgorithms (s : State) : Option State :=
  spdmStep (fun x => x.version != 0) (fun s fn _ a b =>
    (s.setSpdm fn fun x => { x with negotiated := true }).respond fn 0xE3 a b 0x63 [0x80#8, 0x02#8, 0x10#8, 0x02#8]) s
def execSpdmNegotiateAlgorithms (s : State) := runDevice s spdmNegotiateAlgorithms

/-- `SPDM_GET_DIGESTS` of the certificate chain. -/
def spdmGetDigests (s : State) : Option State :=
  spdmStep (fun x => x.negotiated) (fun s fn _ a b =>
    s.respond fn 0x81 a b 0x01 (leBytes 48 (Config.sha384 s.chain).toNat)) s
def execSpdmGetDigests (s : State) := runDevice s spdmGetDigests

/-- `SPDM_GET_CERTIFICATE`: `b` bytes of the chain from offset `a`. -/
def spdmGetCertificate (s : State) : Option State :=
  spdmStep (fun x => x.negotiated) (fun s fn _ a b => s.respond fn 0x82 a b 0x02 ((s.chain.drop a).take b)) s
def execSpdmGetCertificate (s : State) := runDevice s spdmGetCertificate

/-- `SPDM_CHALLENGE` with nonce `a`: a nonce of the device and the signature over the transcript. -/
def spdmChallenge (s : State) : Option State :=
  spdmStep (fun x => x.negotiated) (fun s fn x a b =>
    let body := leBytes 4 a ++ leBytes 32 (Config.random s.free).toNat
    ({ s with free := s.free + 1 }).respond fn 0x83 a b 0x03 (body ++ s.sign x body)) s
def execSpdmChallenge (s : State) := runDevice s spdmChallenge

/-- The compute dies in force. -/
def State.dieMap (s : State) : Nat := ((List.range 32).map fun d => if s.dieEnabled d then 2 ^ d else 0).sum

/-- A VD's quota settings. -/
def State.quotaBytes (s : State) (v : Nat) : List Byte :=
  (List.range 16).flatMap fun m =>
    let b := s.bucket m v
    leBytes 8 (b.rate + 2 ^ 24 * b.depth + (if b.idle then 2 ^ 48 else 0) + (if b.en then 2 ^ 49 else 0))

/-- The measurement blocks of R139. -/
def State.measurement (s : State) (fn i : Nat) : Option (List Byte) :=
  let x := s.vd (fn - 1)
  match i with
  | 1 => some (leBytes 48 Config.romDigest.toNat)
  | 2 => some (leBytes 48 s.boot.image.toNat)
  | 3 => some (leBytes 48 s.boot.recordDigest.toNat)
  | 4 => some (leBytes 1 s.power.mode ++ leBytes 4 s.dieMap)
  | 5 =>
    if fn = 0 then none else
    let caps := (List.range 4096).flatMap fun i => leBytes 32 (look x.caps i 0#256).toNat
    some (leBytes 48 (Config.sha384 (({ x with keyId := 0 } : Vd).controlBlock ++ (x.vdie.flatMap fun e => leBytes 2 e.toNat) ++
      s.quotaBytes (fn - 1) ++ caps)).toNat)
  | 6 => if fn = 0 then none else some (leBytes 2 x.resets.toNat ++ leBytes 1 x.state.code)
  | _ => none

/-- `SPDM_GET_MEASUREMENTS` of block `a`, signed when `b` is not 0; an index that the function lacks is an invalid request. -/
def spdmGetMeasurements (s : State) : Option State :=
  spdmStep (fun x => x.negotiated) (fun s fn x a b =>
    match s.measurement fn a with
    | none => s.say fn 0x7F [0x01#8]
    | some m =>
      let body := leBytes 1 a ++ m
      s.respond fn 0xE0 a b 0x60 (if b = 0 then body else body ++ s.sign x body)) s
def execSpdmGetMeasurements (s : State) := runDevice s spdmGetMeasurements

/-- `SPDM_KEY_EXCHANGE` with the peer's public value `a`: a nonce, the public half of an ephemeral key pair and the signature; a session
begins. -/
def spdmKeyExchange (s : State) : Option State :=
  spdmStep (fun x => x.negotiated) (fun s fn x a b =>
    let key := Config.ephemeral s.free
    let body := leBytes 32 (Config.random s.free).toNat ++ leBytes 96 (Config.publicKey key).toNat
    let t := ({ s with free := s.free + 1 }).respond fn 0xE4 a b 0x64 (body ++ s.sign x body)
    t.setSpdm fn fun x => { x with session := some (Config.ecdh key a), finished := false, seq := 0 }) s
def execSpdmKeyExchange (s : State) := runDevice s spdmKeyExchange

/-- `SPDM_FINISH`: the session is established. -/
def spdmFinish (s : State) : Option State :=
  spdmStep (fun x => x.session.isSome && !x.finished) (fun s fn _ a b =>
    (s.respond fn 0xE5 a b 0x65 []).setSpdm fn fun x => { x with finished := true }) s
def execSpdmFinish (s : State) := runDevice s spdmFinish

/-- `SPDM_END_SESSION`. -/
def spdmEndSession (s : State) : Option State :=
  spdmStep (fun x => x.finished) (fun s fn _ a b =>
    (s.respond fn 0xEC a b 0x6C []).setSpdm fn fun x => { x with session := none, finished := false }) s
def execSpdmEndSession (s : State) := runDevice s spdmEndSession

/-- `SPDM_UNSUPPORTED_REQUEST`: request code in the low byte of `a`. In an established session of the PF a vendor-defined request (0xFE)
programs an IDE key of the host port: the stream in `a`'s other bits, the key `b` (R105, R139; the message's form is the model's, log 33). -/
def spdmUnsupportedRequest (s : State) : Option State :=
  spdmStep (fun _ => true) (fun s fn x a b =>
    if x.finished && fn = 0 && a % 256 = 0xFE then
      ({ s with cxl := { s.cxl with ide := put s.cxl.ide (a / 256) b } }).say fn 0x7E [0x03#8]
    else s.say fn 0x7F (0x07#8 :: leBytes 1 a)) s
def execSpdmUnsupportedRequest (s : State) := runDevice s spdmUnsupportedRequest

end Sys2Proof.Machine
end

