-- ==== Sys2Proof/Machine/Eject.lean ====
section
/-!
DEFINITION. Ejection from the package network (R14, R15), with the refusals of an arbiter's full FIFO (R44) and of a station's
full queue (R54).
-/
namespace Sys2Proof.Machine

/-- Delivered messages of an endpoint that wait in its input queues. -/
def State.inputs (s : State) (e : Endpoint) : List Msg :=
  (s.net.inbox.filterMap fun i => find s.net.msgs i).filter fun n => n.dst = e

/-- An arbiter's bank has room in its FIFO for one more request (R44), beside those that wait in the input queue. -/
def State.fifoRoom (s : State) (a line : Nat) : Bool :=
  let queued := ((s.inputs (.arbiter a)).filter fun n => match n.kind with | .persist .. => n.line % 8 = line % 8 | _ => false).length
  (s.bank a (line % 8)).fifo.length + queued < 64

/-- A station as it is once the far atomics in its endpoint's input queue have entered it. -/
def State.stationThen (s : State) (e : Endpoint) (i : Nat) : Station :=
  (s.inputs e).foldl (fun x n => match s.groupFor n with
    | some g => if locSlice n.line = i then (x.enter g).getD x else x
    | none => x) (s.station i)

/-- A station has room for a far atomic (R54): it merges with a waiting entry, or the queue is not full. -/
def State.stationRoom (s : State) (m : Msg) : Bool :=
  match s.groupFor m with
  | some g => ((s.stationThen m.dst (locSlice m.line)).enter g).isSome
  | none => true

/-- The endpoint's queues have room for a message: the input queue of its class (R14), which the response class always has, and
the FIFO or the station that it is for (R44, R54). -/
def State.roomFor (s : State) (m : Msg) : Bool :=
  (m.kind.cls = 2 || ((s.inputs m.dst).filter fun n => n.kind.cls = m.kind.cls).length < Config.classQueue + 1) &&
  match m.kind, m.dst with
  | .persist .., .arbiter a => s.fifoRoom a m.line
  | .atomic .., _ => s.stationRoom m
  | _, _ => true

/-- An endpoint accepts a flit now: a second half always, a first half if a reassembly entry is free (R15). -/
def State.accepts (s : State) (e : Endpoint) (f : Flit) : Bool :=
  match find s.net.msgs f.msg with
  | none => true
  | some m =>
    if f.half = 0 then s.roomFor m
    else if s.net.reasm.any fun g => g.msg = f.msg then true
    else s.roomFor m && (s.net.reasm.filter fun g => s.goal g = e).length < 64

/-- A flit leaves the network: a whole message or a second half delivers it, a first half waits in reassembly. -/
def Net.take (n : Net) (f : Flit) (r : Router) : Net :=
  let n := { n with flying := n.flying.erase (f, r) }
  if f.half = 0 then { n with inbox := n.inbox ++ [f.msg] }
  else if n.reasm.any fun g => g.msg = f.msg then
    { n with reasm := n.reasm.filter fun g => g.msg != f.msg, inbox := n.inbox ++ [f.msg] }
  else { n with reasm := n.reasm ++ [f] }

/-- `FLIT_EJECTION`: the oldest flit addressed to an endpoint that it accepts. R14 has it take the oldest flit addressed to it; that a
younger one is ejected in a cycle in which the oldest is refused is the model's choice (log 37). -/
def flitEjection (s : State) : Option State :=
  match s.focus with
  | .endpoint e =>
    let r := routerOf e
    ((s.flitsAt r).find? fun f => s.goal f = e && s.accepts e f).map fun f => { s with net := s.net.take f r }
  | _ => none

def execFlitEjection (s : State) := runDevice s flitEjection

end Sys2Proof.Machine
end

