-- ==== Sys2Proof/Machine/Dispatch.lean ====
section
/-!
DEFINITION. Dispatch: the one match from a step's constructor to its meaning.
-/
namespace Sys2Proof.Machine

def exec (i : Instr) (s : State) : Host.Outcome State Fault Refusal :=
  match i with
  | .nop => Sys2Proof.Machine.execNop s
  | .exit => Sys2Proof.Machine.execExit s
  | .bra off => Sys2Proof.Machine.execBra off s
  | .call off => Sys2Proof.Machine.execCall off s
  | .ret => Sys2Proof.Machine.execRet s
  | .jmpr a => Sys2Proof.Machine.execJmpr a s
  | .brs sel off => Sys2Proof.Machine.execBrs sel off s
  | .brsz sel off => Sys2Proof.Machine.execBrsz sel off s
  | .brv rejoin sel neg off => Sys2Proof.Machine.execBrv rejoin sel neg off s
  | .brany sel neg off => Sys2Proof.Machine.execBrany sel neg off s
  | .brall sel neg off => Sys2Proof.Machine.execBrall sel neg off s
  | .syncw => Sys2Proof.Machine.execSyncw s
  | .trap code => Sys2Proof.Machine.execTrap code s
  | .brk code => Sys2Proof.Machine.execBrk code s
  | .yield => Sys2Proof.Machine.execYield s
  | .sleep a => Sys2Proof.Machine.execSleep a s
  | .sadd d a b => Sys2Proof.Machine.execSadd d a b s
  | .ssub d a b => Sys2Proof.Machine.execSsub d a b s
  | .smul d a b => Sys2Proof.Machine.execSmul d a b s
  | .smulh d a b => Sys2Proof.Machine.execSmulh d a b s
  | .smulhn d a b => Sys2Proof.Machine.execSmulhn d a b s
  | .sand d a b => Sys2Proof.Machine.execSand d a b s
  | .sor d a b => Sys2Proof.Machine.execSor d a b s
  | .sxor d a b => Sys2Proof.Machine.execSxor d a b s
  | .sshl d a b => Sys2Proof.Machine.execSshl d a b s
  | .sshr d a b => Sys2Proof.Machine.execSshr d a b s
  | .ssra d a b => Sys2Proof.Machine.execSsra d a b s
  | .smin d a b => Sys2Proof.Machine.execSmin d a b s
  | .smax d a b => Sys2Proof.Machine.execSmax d a b s
  | .sminn d a b => Sys2Proof.Machine.execSminn d a b s
  | .smaxn d a b => Sys2Proof.Machine.execSmaxn d a b s
  | .sadd64 d a b => Sys2Proof.Machine.execSadd64 d a b s
  | .saddi x d a n => Sys2Proof.Machine.execSaddi x d a n s
  | .sandi x d a n => Sys2Proof.Machine.execSandi x d a n s
  | .sori x d a n => Sys2Proof.Machine.execSori x d a n s
  | .sxori x d a n => Sys2Proof.Machine.execSxori x d a n s
  | .sshli d a n => Sys2Proof.Machine.execSshli d a n s
  | .sshri d a n => Sys2Proof.Machine.execSshri d a n s
  | .ssrai d a n => Sys2Proof.Machine.execSsrai d a n s
  | .smovi x d n => Sys2Proof.Machine.execSmovi x d n s
  | .seq d a b => Sys2Proof.Machine.execSeq d a b s
  | .slt d a b => Sys2Proof.Machine.execSlt d a b s
  | .sltn d a b => Sys2Proof.Machine.execSltn d a b s
  | .sle d a b => Sys2Proof.Machine.execSle d a b s
  | .spopc d a => Sys2Proof.Machine.execSpopc d a s
  | .sclz d a => Sys2Proof.Machine.execSclz d a s
  | .sffs d a => Sys2Proof.Machine.execSffs d a s
  | .ssel d a b => Sys2Proof.Machine.execSsel d a b s
  | .srd d n => Sys2Proof.Machine.execSrd d n s
  | .swr a n => Sys2Proof.Machine.execSwr a n s
  | .setmode a => Sys2Proof.Machine.execSetmode a s
  | .getmode d => Sys2Proof.Machine.execGetmode d s
  | .prd d a => Sys2Proof.Machine.execPrd d a s
  | .pwr d a => Sys2Proof.Machine.execPwr d a s
  | .vgetl d a b => Sys2Proof.Machine.execVgetl d a b s
  | .vsetl d a b => Sys2Proof.Machine.execVsetl d a b s
  | .smov d a => Sys2Proof.Machine.execSmov d a s
  | .sld o d a w c => Sys2Proof.Machine.execSld o d a w c s
  | .sst o d a w c => Sys2Proof.Machine.execSst o d a w c s
  | .satom o d a => Sys2Proof.Machine.execSatom o d a s
  | .vdquery d a b => Sys2Proof.Machine.execVdquery d a b s
  | .capq d a => Sys2Proof.Machine.execCapq d a s
  | .launch d a => Sys2Proof.Machine.execLaunch d a s
  | .kick a b => Sys2Proof.Machine.execKick a b s
  | .vadd p d a b => Sys2Proof.Machine.execVadd p d a b s
  | .vsub p d a b => Sys2Proof.Machine.execVsub p d a b s
  | .vmul p d a b => Sys2Proof.Machine.execVmul p d a b s
  | .vmulh p d a b => Sys2Proof.Machine.execVmulh p d a b s
  | .vmad p d a b => Sys2Proof.Machine.execVmad p d a b s
  | .vand p d a b => Sys2Proof.Machine.execVand p d a b s
  | .vor p d a b => Sys2Proof.Machine.execVor p d a b s
  | .vxor p d a b => Sys2Proof.Machine.execVxor p d a b s
  | .vshl p d a b => Sys2Proof.Machine.execVshl p d a b s
  | .vshr p d a b => Sys2Proof.Machine.execVshr p d a b s
  | .vmin p d a b => Sys2Proof.Machine.execVmin p d a b s
  | .vmax p d a b => Sys2Proof.Machine.execVmax p d a b s
  | .vabs p d a => Sys2Proof.Machine.execVabs p d a s
  | .vneg p d a => Sys2Proof.Machine.execVneg p d a s
  | .vclz p d a => Sys2Proof.Machine.execVclz p d a s
  | .vpopc p d a => Sys2Proof.Machine.execVpopc p d a s
  | .vaddi x p d a n => Sys2Proof.Machine.execVaddi x p d a n s
  | .vandi x p d a n => Sys2Proof.Machine.execVandi x p d a n s
  | .vori x p d a n => Sys2Proof.Machine.execVori x p d a n s
  | .vxori x p d a n => Sys2Proof.Machine.execVxori x p d a n s
  | .vshli p d a n => Sys2Proof.Machine.execVshli p d a n s
  | .vshri p d a n => Sys2Proof.Machine.execVshri p d a n s
  | .vmovi x p d n => Sys2Proof.Machine.execVmovi x p d n s
  | .vmov p d a => Sys2Proof.Machine.execVmov p d a s
  | .vsel p d a b => Sys2Proof.Machine.execVsel p d a b s
  | .vbfe p d a b => Sys2Proof.Machine.execVbfe p d a b s
  | .vbfi p d a b => Sys2Proof.Machine.execVbfi p d a b s
  | .vbrev p d a => Sys2Proof.Machine.execVbrev p d a s
  | .vlaneid p d => Sys2Proof.Machine.execVlaneid p d s
  | .viota p d => Sys2Proof.Machine.execViota p d s
  | .vfadd p d a b => Sys2Proof.Machine.execVfadd p d a b s
  | .vfsub p d a b => Sys2Proof.Machine.execVfsub p d a b s
  | .vfmul p d a b => Sys2Proof.Machine.execVfmul p d a b s
  | .vfma p d a b => Sys2Proof.Machine.execVfma p d a b s
  | .vfmin p d a b => Sys2Proof.Machine.execVfmin p d a b s
  | .vfmax p d a b => Sys2Proof.Machine.execVfmax p d a b s
  | .vfabs p d a => Sys2Proof.Machine.execVfabs p d a s
  | .vfneg p d a => Sys2Proof.Machine.execVfneg p d a s
  | .vfdiv p d a b => Sys2Proof.Machine.execVfdiv p d a b s
  | .vfsqrt p d a => Sys2Proof.Machine.execVfsqrt p d a s
  | .vrcp p d a => Sys2Proof.Machine.execVrcp p d a s
  | .vrsq p d a => Sys2Proof.Machine.execVrsq p d a s
  | .vexp2 p d a => Sys2Proof.Machine.execVexp2 p d a s
  | .vlog2 p d a => Sys2Proof.Machine.execVlog2 p d a s
  | .vsin p d a => Sys2Proof.Machine.execVsin p d a s
  | .vcos p d a => Sys2Proof.Machine.execVcos p d a s
  | .vtanh p d a => Sys2Proof.Machine.execVtanh p d a s
  | .vsigm p d a => Sys2Proof.Machine.execVsigm p d a s
  | .vround p d a => Sys2Proof.Machine.execVround p d a s
  | .vfrac p d a => Sys2Proof.Machine.execVfrac p d a s
  | .vcvt p d a dst src => Sys2Proof.Machine.execVcvt p d a dst src s
  | .vclass p d a => Sys2Proof.Machine.execVclass p d a s
  | .vcmpeq p d a b => Sys2Proof.Machine.execVcmpeq p d a b s
  | .vcmpne p d a b => Sys2Proof.Machine.execVcmpne p d a b s
  | .vcmplt p d a b => Sys2Proof.Machine.execVcmplt p d a b s
  | .vcmple p d a b => Sys2Proof.Machine.execVcmple p d a b s
  | .vcmpun p d a b => Sys2Proof.Machine.execVcmpun p d a b s
  | .vscale p d a b => Sys2Proof.Machine.execVscale p d a b s
  | .vpack p d a b => Sys2Proof.Machine.execVpack p d a b s
  | .vunpk p d a => Sys2Proof.Machine.execVunpk p d a s
  | .vdot4 p d a b => Sys2Proof.Machine.execVdot4 p d a b s
  | .vdot2 p d a b => Sys2Proof.Machine.execVdot2 p d a b s
  | .pand p d a b => Sys2Proof.Machine.execPand p d a b s
  | .por p d a b => Sys2Proof.Machine.execPor p d a b s
  | .pxor p d a b => Sys2Proof.Machine.execPxor p d a b s
  | .pnot p d a => Sys2Proof.Machine.execPnot p d a s
  | .pmov p d a => Sys2Proof.Machine.execPmov p d a s
  | .pseti p d n => Sys2Proof.Machine.execPseti p d n s
  | .vshfl p d a b => Sys2Proof.Machine.execVshfl p d a b s
  | .vshflx p d a b => Sys2Proof.Machine.execVshflx p d a b s
  | .vshflu p d a b => Sys2Proof.Machine.execVshflu p d a b s
  | .vshfld p d a b => Sys2Proof.Machine.execVshfld p d a b s
  | .vbcast p d a b => Sys2Proof.Machine.execVbcast p d a b s
  | .vred p d a op => Sys2Proof.Machine.execVred p d a op s
  | .vscan p d a op => Sys2Proof.Machine.execVscan p d a op s
  | .vmatch p d a => Sys2Proof.Machine.execVmatch p d a s
  | .vexec p a => Sys2Proof.Machine.execVexec p a s
  | .vexecq p d a => Sys2Proof.Machine.execVexecq p d a s
  | .ldg o p d a m => Sys2Proof.Machine.execLdg o p d a m s
  | .stg o p d a m => Sys2Proof.Machine.execStg o p d a m s
  | .ldgnf o p d a m => Sys2Proof.Machine.execLdgnf o p d a m s
  | .lds o p d a m => Sys2Proof.Machine.execLds o p d a m s
  | .sts o p d a m => Sys2Proof.Machine.execSts o p d a m s
  | .ldw p d a m => Sys2Proof.Machine.execLdw p d a m s
  | .pref p a m => Sys2Proof.Machine.execPref p a m s
  | .cflush p a m => Sys2Proof.Machine.execCflush p a m s
  | .cpa p d a size tag bpc => Sys2Proof.Machine.execCpa p d a size tag bpc s
  | .tcopy d a => Sys2Proof.Machine.execTcopy d a s
  | .pgreq p a m => Sys2Proof.Machine.execPgreq p a m s
  | .atomgAdd o p d a m => Sys2Proof.Machine.execAtomgAdd o p d a m s
  | .atomgMin o p d a m => Sys2Proof.Machine.execAtomgMin o p d a m s
  | .atomgMax o p d a m => Sys2Proof.Machine.execAtomgMax o p d a m s
  | .atomgAnd o p d a m => Sys2Proof.Machine.execAtomgAnd o p d a m s
  | .atomgOr o p d a m => Sys2Proof.Machine.execAtomgOr o p d a m s
  | .atomgXor o p d a m => Sys2Proof.Machine.execAtomgXor o p d a m s
  | .atomgExch o p d a m => Sys2Proof.Machine.execAtomgExch o p d a m s
  | .atomgIncw o p d a m => Sys2Proof.Machine.execAtomgIncw o p d a m s
  | .atomgFadd o p d a m => Sys2Proof.Machine.execAtomgFadd o p d a m s
  | .atomgCas o p d a m => Sys2Proof.Machine.execAtomgCas o p d a m s
  | .fence o => Sys2Proof.Machine.execFence o s
  | .bar a k => Sys2Proof.Machine.execBar a k s
  | .bararv a k => Sys2Proof.Machine.execBararv a k s
  | .barwait a k => Sys2Proof.Machine.execBarwait a k s
  | .gbar => Sys2Proof.Machine.execGbar s
  | .waitsig a b => Sys2Proof.Machine.execWaitsig a b s
  | .atomsAdd o p d a m => Sys2Proof.Machine.execAtomsAdd o p d a m s
  | .atomsMin o p d a m => Sys2Proof.Machine.execAtomsMin o p d a m s
  | .atomsMax o p d a m => Sys2Proof.Machine.execAtomsMax o p d a m s
  | .atomsAnd o p d a m => Sys2Proof.Machine.execAtomsAnd o p d a m s
  | .atomsOr o p d a m => Sys2Proof.Machine.execAtomsOr o p d a m s
  | .atomsXor o p d a m => Sys2Proof.Machine.execAtomsXor o p d a m s
  | .atomsExch o p d a m => Sys2Proof.Machine.execAtomsExch o p d a m s
  | .atomsCas o p d a m => Sys2Proof.Machine.execAtomsCas o p d a m s
  | .rld o p d a b => Sys2Proof.Machine.execRld o p d a b s
  | .rst o p d a b => Sys2Proof.Machine.execRst o p d a b s
  | .ratom o p d a b => Sys2Proof.Machine.execRatom o p d a b s
  | .rvadd o p d a b => Sys2Proof.Machine.execRvadd o p d a b s
  | .rwsig o p d a b => Sys2Proof.Machine.execRwsig o p d a b s
  | .rred o p d a b => Sys2Proof.Machine.execRred o p d a b s
  | .rfence a => Sys2Proof.Machine.execRfence a s
  | .waitc ld st cp tl => Sys2Proof.Machine.execWaitc ld st cp tl s
  | .waitt mask => Sys2Proof.Machine.execWaitt mask s
  | .tagq d => Sys2Proof.Machine.execTagq d s
  | .tshape d a t => Sys2Proof.Machine.execTshape d a t s
  | .sclaim d a acc => Sys2Proof.Machine.execSclaim d a acc s
  | .srel a b => Sys2Proof.Machine.execSrel a b s
  | .mzero d => Sys2Proof.Machine.execMzero d s
  | .mma d a b => Sys2Proof.Machine.execMma d a b s
  | .mmaz d a b => Sys2Proof.Machine.execMmaz d a b s
  | .mscacc d a b => Sys2Proof.Machine.execMscacc d a b s
  | .mloop n a b => Sys2Proof.Machine.execMloop n a b s
  | .mstore d a b => Sys2Proof.Machine.execMstore d a b s
  | .eret => Sys2Proof.Machine.execEret s
  | .mark x a n => Sys2Proof.Machine.execMark x a n s
  | .illegalOpcode word => Sys2Proof.Machine.execIllegalOpcode word s
  | .flitInjection => Sys2Proof.Machine.execFlitInjection s
  | .flitArrival => Sys2Proof.Machine.execFlitArrival s
  | .flitEjection => Sys2Proof.Machine.execFlitEjection s
  | .powerModeClockSettle => Sys2Proof.Machine.execPowerModeClockSettle s
  | .powerWindowEnd => Sys2Proof.Machine.execPowerWindowEnd s
  | .temperatureReport => Sys2Proof.Machine.execTemperatureReport s
  | .fatalDieError => Sys2Proof.Machine.execFatalDieError s
  | .deviceReset => Sys2Proof.Machine.execDeviceReset s
  | .refreshPhaseEnd => Sys2Proof.Machine.execRefreshPhaseEnd s
  | .transientRequest => Sys2Proof.Machine.execTransientRequest s
  | .forwardedRequest => Sys2Proof.Machine.execForwardedRequest s
  | .tokenArrival => Sys2Proof.Machine.execTokenArrival s
  | .holderEviction => Sys2Proof.Machine.execHolderEviction s
  | .llcEviction => Sys2Proof.Machine.execLlcEviction s
  | .requestReissue => Sys2Proof.Machine.execRequestReissue s
  | .persistentRequest => Sys2Proof.Machine.execPersistentRequest s
  | .persistentActivation => Sys2Proof.Machine.execPersistentActivation s
  | .persistentDeactivation => Sys2Proof.Machine.execPersistentDeactivation s
  | .deactivationAcksDone => Sys2Proof.Machine.execDeactivationAcksDone s
  | .engineWriteLanded => Sys2Proof.Machine.execEngineWriteLanded s
  | .backInvalidationResponse => Sys2Proof.Machine.execBackInvalidationResponse s
  | .tokenRegeneration => Sys2Proof.Machine.execTokenRegeneration s
  | .atomicStationArrival => Sys2Proof.Machine.execAtomicStationArrival s
  | .groupApply => Sys2Proof.Machine.execGroupApply s
  | .groupReply => Sys2Proof.Machine.execGroupReply s
  | .combineTimerExpiry => Sys2Proof.Machine.execCombineTimerExpiry s
  | .outcomeQuery => Sys2Proof.Machine.execOutcomeQuery s
  | .outcomeQueryAnswer => Sys2Proof.Machine.execOutcomeQueryAnswer s
  | .hbm4eReadComplete => Sys2Proof.Machine.execHbm4eReadComplete s
  | .hbm4eReadRetryComplete => Sys2Proof.Machine.execHbm4eReadRetryComplete s
  | .hbm4eWrite => Sys2Proof.Machine.execHbm4eWrite s
  | .quotaRefill => Sys2Proof.Machine.execQuotaRefill s
  | .pseudoChannelSlot => Sys2Proof.Machine.execPseudoChannelSlot s
  | .sramUncorrectableError => Sys2Proof.Machine.execSramUncorrectableError s
  | .rldRequest => Sys2Proof.Machine.execRldRequest s
  | .rstRequest => Sys2Proof.Machine.execRstRequest s
  | .ratomRequest => Sys2Proof.Machine.execRatomRequest s
  | .rvaddRequest => Sys2Proof.Machine.execRvaddRequest s
  | .rwsigRequest => Sys2Proof.Machine.execRwsigRequest s
  | .rredResult => Sys2Proof.Machine.execRredResult s
  | .fabricReply => Sys2Proof.Machine.execFabricReply s
  | .fabricTimeout => Sys2Proof.Machine.execFabricTimeout s
  | .portRetryExhausted => Sys2Proof.Machine.execPortRetryExhausted s
  | .portDrainEnd => Sys2Proof.Machine.execPortDrainEnd s
  | .planeRemapNotice => Sys2Proof.Machine.execPlaneRemapNotice s
  | .linkRetrained => Sys2Proof.Machine.execLinkRetrained s
  | .fportctlRestore => Sys2Proof.Machine.execFportctlRestore s
  | .planeRestoreComplete => Sys2Proof.Machine.execPlaneRestoreComplete s
  | .hostCxlRequest => Sys2Proof.Machine.execHostCxlRequest s
  | .hostSnoop => Sys2Proof.Machine.execHostSnoop s
  | .cxlTransactionComplete => Sys2Proof.Machine.execCxlTransactionComplete s
  | .cxlCompletionTimeout => Sys2Proof.Machine.execCxlCompletionTimeout s
  | .cxlLinkDown => Sys2Proof.Machine.execCxlLinkDown s
  | .expanderRetrain => Sys2Proof.Machine.execExpanderRetrain s
  | .kickPageWrite => Sys2Proof.Machine.execKickPageWrite s
  | .queueEnable => Sys2Proof.Machine.execQueueEnable s
  | .queueDisable => Sys2Proof.Machine.execQueueDisable s
  | .queueRestart => Sys2Proof.Machine.execQueueRestart s
  | .registerWrite => Sys2Proof.Machine.execRegisterWrite s
  | .createVd => Sys2Proof.Machine.execCreateVd s
  | .startVd => Sys2Proof.Machine.execStartVd s
  | .suspendVd => Sys2Proof.Machine.execSuspendVd s
  | .resumeVd => Sys2Proof.Machine.execResumeVd s
  | .resetVd => Sys2Proof.Machine.execResetVd s
  | .destroyVd => Sys2Proof.Machine.execDestroyVd s
  | .setWeight => Sys2Proof.Machine.execSetWeight s
  | .setPowerMode => Sys2Proof.Machine.execSetPowerMode s
  | .queryVd => Sys2Proof.Machine.execQueryVd s
  | .loadImage => Sys2Proof.Machine.execLoadImage s
  | .vfFunctionLevelReset => Sys2Proof.Machine.execVfFunctionLevelReset s
  | .engineKill => Sys2Proof.Machine.execEngineKill s
  | .killAcksComplete => Sys2Proof.Machine.execKillAcksComplete s
  | .killAckTimeout => Sys2Proof.Machine.execKillAckTimeout s
  | .slotPoll => Sys2Proof.Machine.execSlotPoll s
  | .nopPacket => Sys2Proof.Machine.execNopPacket s
  | .launchPacket => Sys2Proof.Machine.execLaunchPacket s
  | .copyPacket => Sys2Proof.Machine.execCopyPacket s
  | .waitSignalPacket => Sys2Proof.Machine.execWaitSignalPacket s
  | .waitSignalRetest => Sys2Proof.Machine.execWaitSignalRetest s
  | .writeSignalPacket => Sys2Proof.Machine.execWriteSignalPacket s
  | .timestampPacket => Sys2Proof.Machine.execTimestampPacket s
  | .packetCompletion => Sys2Proof.Machine.execPacketCompletion s
  | .msixVectorUnmask => Sys2Proof.Machine.execMsixVectorUnmask s
  | .deviceLaunchQueueRestart => Sys2Proof.Machine.execDeviceLaunchQueueRestart s
  | .virtualDieTableWrite => Sys2Proof.Machine.execVirtualDieTableWrite s
  | .regionTableWrite => Sys2Proof.Machine.execRegionTableWrite s
  | .keyTagWrite => Sys2Proof.Machine.execKeyTagWrite s
  | .stage2EntryWrite => Sys2Proof.Machine.execStage2EntryWrite s
  | .interruptRemapWrite => Sys2Proof.Machine.execInterruptRemapWrite s
  | .keySlotLoad => Sys2Proof.Machine.execKeySlotLoad s
  | .vdControlBlockWrite => Sys2Proof.Machine.execVdControlBlockWrite s
  | .schcfgWrite => Sys2Proof.Machine.execSchcfgWrite s
  | .schpoolWrite => Sys2Proof.Machine.execSchpoolWrite s
  | .spdmGetVersion => Sys2Proof.Machine.execSpdmGetVersion s
  | .spdmGetCapabilities => Sys2Proof.Machine.execSpdmGetCapabilities s
  | .spdmNegotiateAlgorithms => Sys2Proof.Machine.execSpdmNegotiateAlgorithms s
  | .spdmGetDigests => Sys2Proof.Machine.execSpdmGetDigests s
  | .spdmGetCertificate => Sys2Proof.Machine.execSpdmGetCertificate s
  | .spdmChallenge => Sys2Proof.Machine.execSpdmChallenge s
  | .spdmGetMeasurements => Sys2Proof.Machine.execSpdmGetMeasurements s
  | .spdmKeyExchange => Sys2Proof.Machine.execSpdmKeyExchange s
  | .spdmFinish => Sys2Proof.Machine.execSpdmFinish s
  | .spdmEndSession => Sys2Proof.Machine.execSpdmEndSession s
  | .spdmUnsupportedRequest => Sys2Proof.Machine.execSpdmUnsupportedRequest s
  | .tlbInvalidateRange => Sys2Proof.Machine.execTlbInvalidateRange s
  | .tlbInvalidateAsid => Sys2Proof.Machine.execTlbInvalidateAsid s
  | .tlbInvalidateVd => Sys2Proof.Machine.execTlbInvalidateVd s
  | .stage2Invalidate => Sys2Proof.Machine.execStage2Invalidate s
  | .invalidationComplete => Sys2Proof.Machine.execInvalidationComplete s
  | .replaytWrite => Sys2Proof.Machine.execReplaytWrite s
  | .replayPage => Sys2Proof.Machine.execReplayPage s
  | .replayAll => Sys2Proof.Machine.execReplayAll s
  | .fqheadWrite => Sys2Proof.Machine.execFqheadWrite s
  | .faultRecordDelivery => Sys2Proof.Machine.execFaultRecordDelivery s
  | .waiterWake => Sys2Proof.Machine.execWaiterWake s
  | .waitTableEntryFree => Sys2Proof.Machine.execWaitTableEntryFree s
  | .rhbaseWrite => Sys2Proof.Machine.execRhbaseWrite s
  | .stage2FaultResolution => Sys2Proof.Machine.execStage2FaultResolution s
  | .migrationStart => Sys2Proof.Machine.execMigrationStart s
  | .migrationLineCopy => Sys2Proof.Machine.execMigrationLineCopy s
  | .migrationSwitch => Sys2Proof.Machine.execMigrationSwitch s
  | .quantumBoundary => Sys2Proof.Machine.execQuantumBoundary s
  | .clusterOffer => Sys2Proof.Machine.execClusterOffer s
  | .blockSave => Sys2Proof.Machine.execBlockSave s
  | .drainOverrun => Sys2Proof.Machine.execDrainOverrun s
  | .blockRestore => Sys2Proof.Machine.execBlockRestore s
  | .blockExit => Sys2Proof.Machine.execBlockExit s
  | .kernelCompletion => Sys2Proof.Machine.execKernelCompletion s
  | .kernelAbort => Sys2Proof.Machine.execKernelAbort s
  | .sleepDeadline => Sys2Proof.Machine.execSleepDeadline s
  | .loadReturn => Sys2Proof.Machine.execLoadReturn s
  | .storeAck => Sys2Proof.Machine.execStoreAck s
  | .wcbDrain => Sys2Proof.Machine.execWcbDrain s
  | .engineCommandStart => Sys2Proof.Machine.execEngineCommandStart s
  | .ownershipWindow => Sys2Proof.Machine.execOwnershipWindow s
  | .engineCommandComplete => Sys2Proof.Machine.execEngineCommandComplete s
  | .matrixStepStart => Sys2Proof.Machine.execMatrixStepStart s
  | .matrixBudgetRefill => Sys2Proof.Machine.execMatrixBudgetRefill s
  | .mloopStepIssue => Sys2Proof.Machine.execMloopStepIssue s
  | .smpcfgWrite => Sys2Proof.Machine.execSmpcfgWrite s
  | .smpheadWrite => Sys2Proof.Machine.execSmpheadWrite s
  | .smpdropClear => Sys2Proof.Machine.execSmpdropClear s
  | .samplerTick => Sys2Proof.Machine.execSamplerTick s
  | .memreqRecord => Sys2Proof.Machine.execMemreqRecord s
  | .debugContinue => Sys2Proof.Machine.execDebugContinue s
  | .debugStep => Sys2Proof.Machine.execDebugStep s
  | .debugRollback => Sys2Proof.Machine.execDebugRollback s
  | .rollbackCountReached => Sys2Proof.Machine.execRollbackCountReached s
  | .waitsigRetest => Sys2Proof.Machine.execWaitsigRetest s
  | .unknownCommand => Sys2Proof.Machine.execUnknownCommand s
  | .cxlLinkRetrain => Sys2Proof.Machine.execCxlLinkRetrain s
  | .instructionCacheFill => Sys2Proof.Machine.execInstructionCacheFill s
  | .pageEviction => Sys2Proof.Machine.execPageEviction s

end Sys2Proof.Machine
end

