-- ==== Sys2Proof/Machine/Due.lean ====
section
/-!
DEFINITION. Which steps of the device may be due at an instant, and how time passes (R12, R22–R24; logs 1, 11). A step listed
here is taken only if its own condition holds; what other parties do to the module is never listed.
-/
namespace Sys2Proof.Machine

-- ## Network and coherence (chapters 01, 02)

/-- The step that a delivered message calls for. -/
def State.messageStep (s : State) (i : Nat) : Option (Instr × Focus) :=
  (find s.net.msgs i).map fun m =>
    (match m.kind with
      | .request .. => .transientRequest
      | .forward .. => .forwardedRequest
      | .tokens _ => .tokenArrival
      | .persist .. => .persistentRequest
      | .activate .. => .persistentActivation
      | .deactivate .. | .done _ => .persistentDeactivation
      | .ack .. => .deactivationAcksDone
      | .atomic .. => .atomicStationArrival
      | .reply _ op _ _ => if !m.dst.isCluster then .groupReply else if s.returns op then .loadReturn else .storeAck
      | .query .. => .outcomeQuery
      | .answer .. => .outcomeQueryAnswer
      | .kill _ => .engineKill
      | .killAck _ => .killAcksComplete, .msg i)

/-- The package network: in a cycle of its clock injection, ejection and movement (log 37); delivered messages at any time. -/
def State.netDue (s : State) : List (Instr × Focus) :=
  if s.now % 15 != 0 then s.net.inbox.filterMap s.messageStep else
  let sources := dedup (s.net.waiting.filterMap fun f => (find s.net.msgs f.msg).map fun m => m.src)
  let goals := dedup ((s.net.flying.map fun p => s.goal p.1) ++ s.net.waiting.map s.goal)
  let routers := dedup (s.net.flying.map Prod.snd ++ sources.map routerOf)
  sources.map (fun e => (Instr.flitInjection, Focus.endpoint e)) ++ goals.map (fun e => (Instr.flitEjection, Focus.endpoint e)) ++
    routers.map (fun r => (Instr.flitArrival, Focus.router r)) ++ s.net.inbox.filterMap s.messageStep

/-- Token requests, arbiters' banks and combining stations. -/
def State.cohDue (s : State) : List (Instr × Focus) :=
  s.coh.reqs.map (fun r => (Instr.requestReissue, match r.h with | some h => Focus.held h r.line | none => Focus.line r.line)) ++
  (s.coh.banks.filter fun (b : Nat × Bank) => b.2.active.isNone && !b.2.fifo.isEmpty).map
    (fun b => (Instr.deactivationAcksDone, Focus.bank (b.1 / 8) (b.1 % 8))) ++
  s.coh.stations.flatMap fun (x : Nat × Station) =>
    (x.2.groups.zipIdx.reverse.filter fun g => g.1.applied).map (fun g => (Instr.groupReply, Focus.group x.1 g.2 true)) ++
    (x.2.groups.zipIdx.filter fun g => !g.1.applied).map (fun g => (Instr.groupApply, Focus.group x.1 g.2 true))

/-- HBM4E: slots, reads and writes in service. -/
def State.hbmDue (s : State) : List (Instr × Focus) :=
  let chans := dedup ((s.hbm.reqs.filter fun r => r.stage = 0).map fun r => (stackOf (128 * r.line), pchOf (128 * r.line)))
  (s.hbm.reqs.filter fun r => r.stage != 0).map (fun r =>
    if r.write then (Instr.hbm4eWrite, Focus.line r.line)
    else if r.stage = 1 then (Instr.hbm4eReadComplete, Focus.lineOk r.line true)
    else (Instr.hbm4eReadRetryComplete, Focus.lineOk r.line true)) ++
  chans.map fun c => (Instr.pseudoChannelSlot, Focus.channel c.1 c.2)

-- ## Clusters (chapters 07, 08, 15, 16)

/-- The steps by which an outstanding access goes on. -/
def State.accessStep (s : State) (w : WarpRef) (a : Access) : List (Instr × Focus) :=
  match a.kind with
  | .load _ | .sload | .pref _ => [(.loadReturn, .access w a.id)]
  | .store | .flush _ => [(.storeAck, .access w a.id)]
  | .near .. => [(if a.dst.isSome then .loadReturn else .storeAck, .access w a.id)]
  | .far .. =>
    if a.ops.isEmpty then [(if a.dst.isSome then .loadReturn else .storeAck, .access w a.id)] else [(.combineTimerExpiry, .access w a.id)]
  | .remote k _ =>
    if a.sent = 3 || s.unstuck w a then [(.fabricReply, .access w a.id)]
    else (if k = 2 then [(.combineTimerExpiry, .access w a.id)] else []) ++ [(.fabricTimeout, .access w a.id)]

/-- The words of an instruction: one at a time, up to the base word or a third prefix (R281, R286 check 1). -/
def Ctx.fetchInstr (c : Ctx) : Nat → State → DWord → State × Except Fetched (List Word)
  | 0, s, _ => (s, .ok [])
  | n + 1, s, pc =>
    match c.fetch s pc with
    | (s, .word w) =>
      if isPrefix w then
        match c.fetchInstr n s (pc + 4#64) with
        | (s, .ok ws) => (s, .ok (w :: ws))
        | r => r
      else (s, .ok [w])
    | (s, f) => (s, .error f)

/-- The line that a warp's next instruction, with the body of an `MLOOP` (R404), lacks in the instruction cache. -/
def State.fetchMiss (s : State) (w : WarpRef) : Option Nat :=
  (s.warp w).bind fun x =>
    if !(match x.stall with | some (.fetch _) => true | _ => false) || x.parked.isSome then none else
    x.chosen.bind fun f => (ctxOf s w f.id).bind fun c =>
      match c.fetchInstr 3 s f.pc with
      | (_, .error (.miss l _)) => some l
      | (s, .ok ws) =>
        match decodeWords ws with
        | .ok (.mloop n _ _) _ =>
          match (c.fetchN (n.toNat + 1) s (f.pc + BitVec.ofNat 64 (4 * ws.length))).2 with
          | .error (.miss l _) => some l
          | _ => none
        | _ => none
      | _ => none

/-- Every warp of a block that is on a cluster. -/
def State.residentWarps (s : State) : List (Nat × WarpRef × Warp) :=
  s.blocks.flatMap fun (b : Nat × Block) =>
    match b.2.cluster with
    | some g => b.2.img.warps.zipIdx.map fun (x : Warp × Nat) => (g, { blk := b.1, wi := x.2 }, x.1)
    | none => []

/-- Caches, fetches and waits of the clusters. -/
def State.clusterDue (s : State) : List (Instr × Focus) :=
  let ws := s.residentWarps
  s.clusters.flatMap (fun (c : Nat × Cluster) =>
    (dedup (c.2.wcb.map (fun e => e.line) ++ keys (pick c.2.l1 fun l => l.dirty != 0#128))).map
      fun l => (Instr.wcbDrain, Focus.clusterLine c.1 l)) ++
  (s.allAccesses.flatMap fun a => s.accessStep a.1 a.2) ++
  (ws.filterMap fun w => (s.fetchMiss w.2.1).map fun l => (Instr.instructionCacheFill, Focus.clusterLine w.1 l)) ++
  ws.flatMap fun w => w.2.2.frags.filterMap fun f =>
    match f.wait with
    | .sig _ pa v =>
      if s.atMicrosecond || v.toNat ≤ s.dieNat (w.1 / 16) pa 8 then some (Instr.waitsigRetest, Focus.frag w.2.1 f.id) else none
    | .sleep t => if t ≤ s.ns then some (Instr.sleepDeadline, Focus.frag w.2.1 f.id) else none
    | _ => none

/-- A cycle of a cluster's clock begins. -/
def State.onCycle (s : State) (g : Nat) : Bool := s.now % s.cycleTicks g = 0

/-- Engines, each in a cycle of its cluster: commands, windows, matrix steps, power units (every 32 cycles, R218), sequencers. -/
def State.engineDue (s : State) : List (Instr × Focus) :=
  ((keys (pick s.clusters fun c => c.mxLevel < 2 * c.mxLimit)).filter fun g => s.now % (32 * s.cycleTicks g) = 0).map
    (fun g => (Instr.matrixBudgetRefill, Focus.cluster g)) ++
  s.cmds.flatMap (fun (c : Nat × Command) =>
    if !s.onCycle c.2.cluster then []
    else if c.2.kind.isStep then (if c.2.started then [(Instr.engineCommandComplete, Focus.command c.1)] else [])
    else if !c.2.started then [(.engineCommandStart, .command c.1)]
    else (match c.2.window with | w :: _ => [(Instr.engineWriteLanded, Focus.held (.die (c.2.cluster / 16)) w.2.1)] | [] => []) ++
      [(.ownershipWindow, .command c.1), (.engineCommandComplete, .command c.1)]) ++
  ((keys s.clusters).filter s.onCycle).filterMap (fun g => (s.nextStep g).map fun h => (Instr.matrixStepStart, Focus.command h.1)) ++
  (keys (pick s.blocks fun b => b.img.seq.isSome && b.cluster.any s.onCycle)).map fun n => (Instr.mloopStepIssue, Focus.blk n)

/-- The sampler's ticks (R258). -/
def State.sampleDue (s : State) : List (Instr × Focus) :=
  s.clusters.flatMap fun (c : Nat × Cluster) =>
    match c.2.vd with
    | none => []
    | some _ => (List.range 4).flatMap fun q =>
      List.replicate ((vget c.2.smp q {}).counter / (120 * (vget c.2.smp q {}).period)) (Instr.samplerTick, Focus.quad c.1 q)

-- ## Blocks, kernels and queues (chapters 05, 07, 11)

/-- Clusters with blocks that are being saved. -/
def State.savingClusters (s : State) : List Nat :=
  dedup (s.blocks.filterMap fun (b : Nat × Block) => match b.2.place with | .saving g => some g | _ => none)

/-- The scheduler: boundaries, offers (R165), saves, restores, exits, completions. -/
def State.schedDue (s : State) : List (Instr × Focus) :=
  (if s.atBoundary then [(Instr.quantumBoundary, Focus.none)]
    else if s.atMicrosecond then
      (s.poolClusters.filter fun g => (s.cl g).draining.isNone && (s.residents g).isEmpty &&
        (keys s.vds).any fun v => s.isEligible v (g / 16)).map fun g => (Instr.clusterOffer, Focus.cluster g)
    else []) ++
  s.blocks.flatMap (fun (b : Nat × Block) =>
    match b.2.place with
    | .saving _ => [(Instr.blockSave, Focus.blk b.1)]
    | .saved => if b.2.target.isSome then [(.blockRestore, .blk b.1)] else []
    | .resident _ => (if b.2.reached then [(Instr.rollbackCountReached, Focus.blk b.1)] else []) ++ [(.blockExit, .blk b.1)]
    | _ => []) ++
  (keys (pick s.clusters fun c => c.draining.isSome)).map (fun g => (Instr.blockSave, Focus.cluster g)) ++
  (s.savingClusters.map fun g => (Instr.drainOverrun, Focus.cluster g)) ++
  (keys (pick s.kernels fun k => k.left = 0 && !k.complete)).map fun k => (Instr.kernelCompletion, Focus.kernel k 0)

/-- What a started packet waits to do. -/
def packetDue (s : State) (v q : Nat) (p : Packet) : List (Instr × Focus) :=
  if p.performed then [(.packetCompletion, .queue v q p.idx)]
  else if p.type = 3 then (if p.progress ≤ s.now then [(.waitSignalRetest, .queue v q p.idx)] else [])
  else [(p.step, .queue v q p.idx)]

/-- Queues: enables that wait, slot reads, started packets, the timers of completion signals. -/
def State.queueDue (s : State) : List (Instr × Focus) :=
  (s.sigRuns.filterMap fun r => r.2.op.map fun o => (Instr.combineTimerExpiry, Focus.op o)) ++
  s.vds.flatMap fun (v : Nat × Vd) => v.2.queues.flatMap fun (q : Nat × Queue) =>
    (if q.2.enabling then [(Instr.queueEnable, Focus.queue v.1 q.1 0)] else []) ++
    (if q.2.enabled && q.2.wbWaits && q.2.waiting.isNone then [(Instr.slotPoll, Focus.queue v.1 q.1 0)] else []) ++
    (if q.2.enabled && q.2.head != q.2.tail && (q.2.reread || q.2.pollAt ≤ s.now) then [(Instr.slotPoll, Focus.queue v.1 q.1 0)] else []) ++
    q.2.started.flatMap fun p => packetDue s v.1 q.1 p

-- ## The rest (chapters 01, 03–06)

/-- Faults, invalidations and migrations. -/
def State.pagingDue (s : State) : List (Instr × Focus) :=
  s.vds.flatMap (fun (v : Nat × Vd) =>
    (if v.2.undelivered.isEmpty then [] else [(Instr.faultRecordDelivery, Focus.vd v.1)]) ++
    (if v.2.tlbinv.isSome then [(Instr.invalidationComplete, Focus.vd v.1)] else []) ++
    (if v.2.hintsDue then [(Instr.rhbaseWrite, Focus.vd v.1)] else [])) ++
  s.s2inv.map (fun e => (Instr.invalidationComplete, Focus.range e.1 e.2.1 e.2.2.1)) ++
  s.dies.flatMap (fun (d : Nat × Die) =>
    (keys (pick d.2.waits fun e => e.waiter.isSome && e.left.isEmpty)).map fun i => (Instr.waiterWake, Focus.waiter d.1 i)) ++
  s.migr.flatMap fun (m : Nat × Migration) =>
    match (List.range 32).find? fun l => !m.2.bitmap.getLsbD l with
    | some l => [(Instr.migrationLineCopy, Focus.slotLine m.1 l)]
    | none => if m.2.switched then [] else [(Instr.migrationSwitch, Focus.migrate m.1 m.2.vd m.2.gpage m.2.leaf m.2.newF)]

/-- What the VDC writes to a frame of a VD that is being reset: bound to the VD's new key id if the VD is kept and has one, and the
frame is not retired (R88, log 24). -/
def State.rebound (s : State) (x : Vd) (k : KillRun) (f : Nat) : Nat :=
  if k.release || x.keyId = 0 || s.retired f || s.mixes k.frames f x.keyId then 0 else x.keyId + 1024

/-- Resets in progress (R133, R134). -/
def State.killDue (s : State) : List (Instr × Focus) :=
  s.vds.flatMap fun (v : Nat × Vd) =>
    match v.2.kill with
    | none => []
    | some k =>
      if k.left.isEmpty then
        k.frames.map (fun f => (Instr.tokenRegeneration, Focus.frame f (s.rebound v.2 k f))) ++
          [(.killAcksComplete, .vd v.1)]
      else if s.now < k.time + 10000 * ticksPerNs then []
      else k.left.map fun e => (Instr.killAckTimeout, Focus.engine v.1 e)

/-- The fabric's and the host proxy's own events, and requests of other modules that wait here. -/
def State.linkDue (s : State) : List (Instr × Focus) :=
  s.fabric.held.map (fun h =>
    ((match h.kind with
      | 0 => Instr.rldRequest | 1 => .rstRequest | 2 => .ratomRequest | 3 => .rvaddRequest | 4 => .rwsigRequest | 5 => .rredResult
        | _ => .outcomeQuery), Focus.remote h.q)) ++
  ((s.fabric.held.filter HeldReq.signalOut).map fun h => (Instr.combineTimerExpiry, Focus.remote h.q)) ++
  (s.fabric.orphans.filterMap fun o => o.2.req.map fun q => (Instr.fabricTimeout, Focus.op q.op)) ++
  (keys (pick s.fabric.ports fun p => p.restoring)).map (fun p => (Instr.planeRestoreComplete, Focus.port p)) ++
  s.cxl.table.flatMap fun t => [(Instr.cxlCompletionTimeout, Focus.txn t.id), (.cxlTransactionComplete, .txn t.id)]

/-- Clocks that end: power mode, refresh phases, refills. -/
def State.clockDue (s : State) : List (Instr × Focus) :=
  (if s.power.settle.any fun p => p.2 ≤ s.now then [(Instr.powerModeClockSettle, Focus.none)] else []) ++
  (((List.range 32).filter fun d => s.dieEnabled d && (s.die d).phaseEnd ≤ s.now).map fun d => (Instr.refreshPhaseEnd, Focus.die d)) ++
  (if s.atMicrosecond && !s.hbm.buckets.isEmpty then [(Instr.quotaRefill, Focus.none)] else [])

/-- Every step of the device that may be due now. -/
def State.allDue (s : State) : List (Instr × Focus) :=
  s.clockDue ++ s.schedDue ++ s.netDue ++ s.cohDue ++ s.hbmDue ++ s.linkDue ++ s.clusterDue ++ s.engineDue ++ s.queueDue ++
    s.pagingDue ++ s.killDue ++ s.sampleDue

-- ## Time

/-- The next multiple of `n` after `t`. -/
def nextMultiple (n t : Nat) : Nat := (t / n + 1) * n

/-- Instants at which something that waits for time alone may go on. -/
def State.deadlines (s : State) : List Nat :=
  (s.residentWarps.flatMap fun w => w.2.2.frags.filterMap fun f => match f.wait with | .sleep t => some (t * ticksPerNs) | _ => none) ++
  (s.vds.flatMap fun (v : Nat × Vd) =>
    (v.2.queues.flatMap fun (q : Nat × Queue) =>
      q.2.pollAt :: q.2.started.filterMap fun p => if p.type = 3 then some p.progress else none) ++
    (v.2.kill.map fun k => k.time + 10000 * ticksPerNs).toList) ++
  (((List.range 32).filter s.dieEnabled).map fun d => (s.die d).phaseEnd) ++
  (s.power.settle.map Prod.snd).toList ++
  (s.coh.reqs.map fun r => r.time + 1000 * ticksPerNs * r.issues) ++
  (s.allAccesses.flatMap fun a => [a.2.timer + combineTimer, s.fabricDue a.2.time]) ++
  (s.sigRuns.map fun r => r.2.time + combineTimer) ++
  ((s.fabric.held.filter HeldReq.signalOut).map fun h => h.timer + combineTimer) ++
  (s.fabric.orphans.map fun o => s.fabricDue o.2.time) ++
  (s.cxl.table.map fun t => t.time + ticksPerNs * vget s.cxl.timeoutNs t.port 0) ++
  (s.fabric.ports.filterMap fun (p : Nat × Port) => p.2.drainAt) ++
  (s.savingClusters.filterMap fun g => (s.drainSince g).map (· + 40000 * ticksPerNs)) ++
  s.clusters.flatMap fun (c : Nat × Cluster) =>
    match c.2.vd with
    | some v =>
      if !bit (s.vd v).smpcfg.toNat 0 then [] else (List.range 4).map fun q =>
        s.now + ((120 * (vget c.2.smp q {}).period - (vget c.2.smp q {}).counter) * s.cycleTicks c.1 + 119) / 120
    | none => []

/-- The next instant: the next cycle of a clock that has work, the next deadline, at most a microsecond on. -/
def State.nextInstant (s : State) : Nat :=
  let busy := (s.blocks.any fun (b : Nat × Block) => b.2.cluster.isSome) || !s.cmds.isEmpty ||
    s.clusters.any fun (c : Nat × Cluster) => c.2.mxLevel < 2 * c.2.mxLimit || !c.2.wcb.isEmpty
  let moving := !s.net.msgs.isEmpty || !s.hbm.reqs.isEmpty
  let stations := s.coh.stations.any fun (x : Nat × Station) => !x.2.groups.isEmpty
  let edges := [nextMultiple (1000 * ticksPerNs) s.now] ++ (if busy then [nextMultiple s.clusterTicks s.now] else []) ++
    (if moving then [nextMultiple 15 s.now] else []) ++ (if stations then [nextMultiple 12 s.now] else [])
  (edges ++ s.deadlines.filter (s.now < ·)).foldl min (nextMultiple (1000 * ticksPerNs) s.now)

/-- Time passes: `%clock` of a VD with a resident block counts (R167), and so do the sampler's counters (R258); a hot
die's clusters run at half their clock (R27). -/
def State.passTime (s : State) : State :=
  let t := s.nextInstant
  let n := 60 * (t - s.now) / s.clusterTicks
  let runs := fun (v : Nat) => s.blocks.any fun (b : Nat × Block) => b.2.cluster.isSome && s.vdOf b.2 = v
  { s with
    now := t
    vds := s.vds.map fun (v : Nat × Vd) => if runs v.1 then (v.1, { v.2 with clock := v.2.clock + n }) else v
    clusters := s.clusters.map fun (c : Nat × Cluster) =>
      if c.2.vd.isNone then c else
      let m := 120 * (t - s.now) / s.cycleTicks c.1
      (c.1, { c.2 with smp := c.2.smp.map fun q => { q with counter := q.counter + m } }) }

/-- Quadrants that issue in this cycle of their clusters' clock: those with a resident block, on a hot die every other
cycle. -/
def State.quadrants (s : State) : List (Nat × Nat) :=
  if s.now % s.clusterTicks != 0 then [] else
  let gs := dedup (s.blocks.filterMap fun (b : Nat × Block) => b.2.cluster)
  (gs.filter s.onCycle).flatMap fun g => (List.range 4).map fun q => (g, q)

end Sys2Proof.Machine
end

