-- ==== Sys2Proof/Machine/Issue.lean ====
section
/-!
DEFINITION. How a quadrant issues (R177–R179): the order in which its warps are tried, fetch and decoding of the offered
instruction, and what is kept of the decision.
-/
namespace Sys2Proof.Machine

/-- Warps of a quadrant that may offer an instruction, in the order of R177: those of resident blocks that are not parked
and whose re-execution has not reached its count, and those in a `VEXEC` (R184), cyclically from the slot after the one issued last. -/
def State.offerers (s : State) (g q : Nat) : List (WarpRef × Nat) :=
  let ws := s.blocks.flatMap fun (b : Nat × Block) =>
    if b.2.cluster != some g then [] else
    b.2.img.warps.zipIdx.filterMap fun (x : Warp × Nat) =>
      if x.2 % 4 = q && x.1.parked.isNone && ((b.2.issues && !b.2.reached) || x.1.inVexec) then some (({ blk := b.1, wi := x.2 } : WarpRef), x.1.slot) else none
  sortBy (fun w => (w.2 + 15 - vget (s.cl g).last q 15) % 16) ws

/-- A prefix arrangement that check 3 of R286 refuses. -/
def illegalPrefix (e : Word) (c : Ctx) : Res := .fault { code := 0x02, einfo := e, lanes := some c.refusedMask }

/-- The fragment `f` of warp `w` is chosen (R179). -/
def State.choose (s : State) (w : WarpRef) (f : Nat) : State :=
  ({ s with cur := some (w, f), held := none }).setFrag w f fun f => { f with running := true, wait := .ready }

/-- The words of the instruction about to run are noted. -/
def State.fetched (s : State) (ws : List Word) : State :=
  let pfx := ws.dropLast.getLast?.bind fun w => if pfxKind w = 0#2 then some (VPfx.dec w) else none
  { s with word := ws.headD 0#32, nwords := ws.length, base := ws.getLastD 0#32, pfx }

/-- The chosen fragment's next instruction is fetched, decoded and executed; a `VEXEC` that has begun goes on (R351). -/
def State.issueFrag (s : State) (w : WarpRef) (f : Frag) : Host.Outcome State Fault Refusal :=
  let s := s.choose w f.id
  match s.ctx with
  | none => .fault .noWarp
  | some c =>
    match c.f.vx with
    | some r => exec r.instr { s with word := r.word, nwords := r.nwords, base := r.base }
    | none =>
    match c.fetchInstr 3 s f.pc with
    | (s, .error e) => .next (settle { c with s := s } (c.noWord s e))
    | (s, .ok ws) =>
      match decodeWords ws with
      | .ok i _ => exec i (s.fetched ws)
      | .illegalOpcode b _ => exec (.illegalOpcode b) (s.fetched ws)
      | .illegalPrefix e _ => runInstr (s.fetched ws) (illegalPrefix e)
      | .more => .next s

/-- Why a warp could not issue now, for the sampler (R259). -/
def State.probe (s : State) (w : WarpRef) : Option Stall :=
  match (s.warp w).bind Warp.chosen with
  | none => none
  | some f => match s.issueFrag w f with
    | .next t => t.held
    | _ => none

/-- While an entry of the split table is free, the oldest spilled fragments return, each with a write of its slot of the ring (R202, R203);
at most the table's 12 at once. One that cannot return now leaves the stall in `held`, or parks its warp. -/
def State.returnSpilled (w : WarpRef) : Nat → State → State
  | 0, s => s
  | n + 1, s =>
    match (s.warp w).bind fun x => if x.parked.isSome || x.freeEntry.isNone then none else x.oldestSpilled with
    | none => s
    | some f =>
      match ctxOf s w f.id with
      | none => s
      | some c =>
        let t := settle c (c.ring s f.slot fun s => .parked (s.setWarp w Warp.unspill))
        if t.held.isSome then t else State.returnSpilled w n t

/-- What comes before a warp's offer: merged arrivals, returns from the spill ring, and the choice of the running fragment (R179). A warp
that cannot offer has its stall in `held`. -/
def State.prepare (s : State) (w : WarpRef) : State :=
  let s := State.returnSpilled w 12 (s.afterMerge w)
  match s.held, (s.warp w).bind Warp.chosen with
  | none, some f => s.setFrag w f.id fun f => { f with running := true, wait := .ready }
  | _, _ => s

/-- A warp that has not issued keeps what held it. -/
def State.noteHold (s : State) (w : WarpRef) (r : Option Stall) : State :=
  { s with held := none }.setWarp w fun x => { x with stall := r }

/-- The fragment that a prepared warp offers; none of one that has just parked. -/
def Warp.offer (x : Warp) : Option Frag := if x.parked.isSome then none else x.chosen

/-- Notes for the sampler what holds the warps that were not tried, while their VD's sampler is enabled. -/
def State.noteStalls (s : State) (v : Nat) (ws : List (WarpRef × Nat)) : State :=
  if !bit (s.vd v).smpcfg.toNat 0 then s
  else ws.foldl (fun (t : State) w => t.setWarp w.1 fun x => { x with stall := t.probe w.1 }) s

/-- A warp of slot `n` has issued at `pc`. -/
def State.issuedBy (s : State) (g q : Nat) (w : WarpRef) (n : Nat) (pc : DWord) : State :=
  ({ s with cur := none }.setWarp w fun x => { x with issued := some (s.now, pc), stall := none }).setCl g
    fun c => { c with last := c.last.setIfInBounds q n }

/-- The warps behind the one that issued choose their fragments too (R179). -/
def State.prepareRest (s : State) (ws : List (WarpRef × Nat)) : State :=
  ws.foldl (fun (s : State) w => let t := s.prepare w.1; if t.held.isSome then t.noteHold w.1 t.held else t) s

/-- Tries the warps of a quadrant in order; the first that is not held issues. -/
def issueFirst (g q : Nat) : List (WarpRef × Nat) → State → Host.Outcome State Fault Refusal
  | [], s => .next { s with cur := none }
  | w :: ws, s =>
    let s := s.prepare w.1
    if s.held.isSome then issueFirst g q ws (s.noteHold w.1 s.held) else
    match (s.warp w.1).bind Warp.offer with
    | none => issueFirst g q ws (s.noteHold w.1 none)
    | some f =>
      match s.issueFrag w.1 f with
      | .next t =>
        if t.held.isSome then issueFirst g q ws (t.noteHold w.1 t.held)
        else .next (((t.issuedBy g q w.1 w.2 f.pc).prepareRest ws).noteStalls ((s.cl g).vd.getD 0) ws)
      | r => r

/-- A quadrant decides its issue. -/
def State.issueQuad (s : State) (g q : Nat) : Host.Outcome State Fault Refusal := issueFirst g q (s.offerers g q) s

/-- The save of a block begins whose warps stopped in the cycle that ends (R265): a roll back that meets a stop ends there (log 66), and
copies that are parked are abandoned (R187). -/
def State.haltOne (s : State) (n : Nat) : State :=
  match s.blk n with
  | none => s
  | some b =>
    match b.place with
    | .resident g =>
      ((s.setBlk n fun b => { b with place := .saving g, halting := false, stepping := false }).endReplay n b).abandonFor n
    | _ => s.setBlk n fun b => { b with halting := false }

def State.haltAll (s : State) : State := (keys (pick s.blocks fun b => b.halting)).foldl State.haltOne s

/-- The next move: a step that must come next, a step of the device that may be due, a quadrant's issue; when none is
left in this instant, time passes and the device's steps are listed anew (log 1). -/
def move (s : State) : Host.Outcome State Fault Refusal :=
  match s.agenda with
  | (i, f) :: rest => exec i { s with agenda := rest, focus := f }
  | [] =>
    match s.due with
    | (i, f) :: rest => exec i { s with due := rest, focus := f }
    | [] =>
      match s.turn with
      | .device => .next { s with due := s.allDue, quads := s.quadrants, turn := .warps }
      | .warps =>
        match s.quads with
        | (g, q) :: rest => { s with quads := rest }.issueQuad g q
        | [] => .next { s.haltAll.afterMerges.passTime with turn := .device }

-- ## The state in which the next step runs a given instruction (log 2)

/-- A TLB entry of VD 0 for the page at virtual and physical address 4096 under key id 1. -/
def fetchEntry : TlbEntry :=
  { vd := 0, asid := 0, va := 4096, size := 4096, gpa := 4096, pa := 4096, key := 1, w := true, x := true, d := true
    r2 := true, w2 := true, x2 := true, mig := false }

/-- The kernel of that state: one block of one warp with 192 vector registers, its entry at 4096. -/
def fetchKernel : Kernel :=
  { vd := 0, asid := 0, queue := 0, idx := 0, entry := 4096#64, grid := (1, 1, 1), shifts := (0, 0, 0), vregs := 192, warps := 1
    scratch := 0, oslots := 0, aslots := 0, arg := 0#64, prio := 0, handler := none, coop := false, proof := false, domain := 0
    signal := 0#64, irq := none, left := 1 }

/-- The instruction stands at 4096 in memory and in the instruction cache of cluster 0, whose only warp is about to fetch
it. -/
def placeWord3 (s : State) (w : Nat) : State :=
  let line := lineOf (leBytes 12 w)
  let img : Image := { warps := [{ startWarp fetchKernel 0 with acquire := false }] }
  let b : Block := { kernel := 0, lin := 0, x := 0, y := 0, z := 0, vdie := 0, die := 0, place := .resident 0, img }
  let s := { s with
    mem := s.mem.store 4096 (leBytes 128 line.toNat), agenda := [], due := [], turn := .warps, quads := [(0, 0)]
    hbm := { s.hbm with tags := put s.hbm.tags 1 { key := 1, gen := (s.tag 4096).gen, bound := true } }
    keySlots := put s.keySlots 1 0, kernels := put s.kernels 0 fetchKernel
    blocks := (0, b) :: s.blocks.filter fun (x : Nat × Block) => x.1 != 0 && x.2.cluster != some 0 }
  let s := s.setVd 0 fun v => { v with state := .active, vdie := [0x8000#16] ++ List.replicate 31 0#16, keyId := 1, waddr := Vector.replicate 4 0#64, wctl := Vector.replicate 4 0#32 }
  s.setCl 0 fun c => { c with vd := some 0, draining := none, icache := put c.icache 32 line, tlb := [fetchEntry] }

end Sys2Proof.Machine
end

