-- ==== Sys2Proof/Machine/Step.lean ====
section
/-!
DEFINITION. One step of the module, and the state in which the next step runs a given instruction.
-/
namespace Sys2Proof.Machine

/-- One step: the next move. -/
def step (s : State) : Host.Outcome State Fault Refusal := move s

/-- The state with the instruction of `nbits` bits `w` placed where the next step fetches it. -/
def State.withFetchWord (s : State) (nbits w : Nat) : State := placeWord3 s (w % 2 ^ nbits)

end Sys2Proof.Machine
end

