-- ==== Sys2Proof/Safety.lean ====
section
/-!
DEFINITION. What claims about runs of the machine mean by a safe state, and the terms in which the statements say how an
instruction ends.
-/
namespace Sys2Proof.Machine

/-- Nothing but the device's own steps waits to be taken: no Billek instruction stands outside a quadrant's issue. -/
def State.queuesSteps (s : State) : Bool := (s.agenda ++ s.due).all fun e => e.1.isStep

/-- Every block belongs to a kernel that the machine knows. -/
def State.rooted (s : State) : Bool := s.blocks.all fun b => (s.kern b.2.kernel).isSome

-- ## How an instruction ends

/-- The operand fields `os` name registers that exist, none of them still to be written by an access, and none of those read
flagged (R286 check 6, R197, R85). -/
abbrev Ctx.Clear (c : Ctx) (os : List Opnd) : Prop :=
  badOpnd c.x.vregs.length os = none ∧ (∀ r ∈ os.flatMap Opnd.regs, r ∉ c.x.pending) ∧ flagFault c.x os = none

/-- The issuing fragment meets no rejoin PC at `pc` (R201). -/
abbrev Ctx.NoJoin (c : Ctx) (pc : DWord) : Prop :=
  c.f.rejoin ≠ some pc ∧ ∀ g ∈ c.x.frags, g.parent = some c.f.id → g.rejoin ≠ some pc

/-- Of the warp `x` nothing changes but its fragments, its instruction count, which is one more, and a passed stop. -/
def Kept (x y : Warp) : Prop := y = { x with rwc := x.rwc + 1#64, passStop := false, frags := y.frags }

/-- Where a fragment stands. -/
def Frag.spot (f : Frag) : DWord × Mask := (f.pc, f.mask)

/-- Where no reconvergence is due, the issuing fragment stands at `pc` with its lanes, and every other fragment stands where
it stood with the lanes it had. -/
def StandsAt (c : Ctx) (pc : DWord) (y : Warp) : Prop :=
  c.NoJoin pc → (y.frag c.f.id).map Frag.spot = some (pc, c.f.mask) ∧
    ∀ n, n ≠ c.f.id → (y.frag n).map Frag.spot = (c.x.frag n).map Frag.spot

/-- `i` completes from `s`: the next state is `s` with nothing changed but the issuing warp, which has become `x`, has counted
the instruction, and stands at `pc`. -/
def Ends (i : Instr) (s : State) (c : Ctx) (x : Warp) (pc : DWord) : Prop :=
  ∃ y, exec i s = .next (s.setWarp c.w fun _ => y) ∧ Kept x y ∧ StandsAt c pc y

/-- `i` completes from `s`, and what it did apart from its warp is `u`. -/
def EndsIn (i : Instr) (s u : State) (c : Ctx) (x : Warp) (pc : DWord) : Prop :=
  ∃ y, exec i s = .next (u.setWarp c.w fun _ => y) ∧ Kept x y ∧ StandsAt c pc y

/-- `i` issues from `s` and its fragment parks behind it, waiting for `w`; it counts when the wait ends (R256). Of the warp `x` nothing
changes but its fragments and a passed stop. -/
def Parks (i : Instr) (s u : State) (c : Ctx) (x : Warp) (w : Wait) : Prop :=
  ∃ y, exec i s = .next (u.setWarp c.w fun _ => y) ∧ y = { x with passStop := false, frags := y.frags } ∧
    (y.frag c.f.id).map (fun f => (f.spot, f.wait, f.running, f.owes)) = some ((c.nextPc, c.f.mask), w, false, true) ∧
    ∀ n, n ≠ c.f.id → (y.frag n).map Frag.spot = (c.x.frag n).map Frag.spot

/-- `i` does not complete: its fragment parks at it, waiting for `w`, and re-executes it then (R180). -/
def Waits (i : Instr) (s u : State) (c : Ctx) (w : Wait) : Prop := exec i s = .next (u.setFrag c.w c.f.id fun f => f.park w)

/-- `i` ends in the handler-class fault `f` (R287, R288). -/
def Faults (i : Instr) (s : State) (c : Ctx) (f : FaultInfo) : Prop := exec i s = .next (takeFault c f)

/-- `i` completes from `s`, and before it retires its effects have made the state `u`: it is counted, and its fragment goes on
behind it (`Obligations.Completion` says what that leaves). -/
def Completes (i : Instr) (s u : State) (c : Ctx) : Prop := exec i s = .next (retireTo c u c.nextPc id)

/-- A step completes from `s` in a next state of which `P` holds. -/
def Does (i : Instr) (s : State) (P : State → Prop) : Prop := ∃ t, exec i s = .next t ∧ P t

-- ## Memory instructions

/-- Physical addresses by lane. -/
def physical (lanes : List (Nat × Nat)) (pas : List Nat) : List (Nat × Nat) := (lanes.zip pas).map fun t => (t.1.1, t.2)

/-- Nothing holds back a memory instruction of the warp: no acquire is due, and its block neither logs nor re-executes a phase. -/
abbrev Ctx.Calm (c : Ctx) : Prop :=
  (∀ a ∈ c.x.accesses, a.acq = 0) ∧ c.x.acquire = false ∧ c.b.proof = none ∧ c.b.replay = none

/-- The lanes of an access of type `atype` meet no watch and all translate, to the physical addresses `pas`; `u` is the state after
the translations. -/
abbrev Ctx.Maps (c : Ctx) (atype log2w : Nat) (lanes : List (Nat × Nat)) (pas : List Nat) (u : State) : Prop :=
  c.Calm ∧ c.sample = none ∧ c.watched atype (2 ^ log2w) lanes = none ∧ pas.length = lanes.length ∧
  transLanes c.place c.vd c.k.asid atype c.s lanes = (u, (lanes.zip pas).map fun t => (t.1.1, t.1.2, Tr.ok t.2))

/-- The accesses of an instruction find room in the transaction table and in class counter `cls` (R216, R217). -/
abbrev Ctx.Room (c : Ctx) (u : State) (cls : Nat) (as : List Access) : Prop :=
  as ≠ [] ∧ u.ottUsed c.g + (dedup ((numbered c u.nextId [as]).filterMap Access.entry)).length ≤ 256 ∧
  (vget c.x.classes cls {}).count < 511

/-- The state in which the accesses of one instruction have been issued: they are outstanding, numbered after all earlier ones, the
class counter counts them once, and the spin detector notes a load or a store (R181, R216, R217). -/
def Ctx.issued (c : Ctx) (u : State) (cls : Nat) (load : Bool) (as : List Access) : State :=
  { u with nextId := u.nextId + 1 + as.length }.setWarp c.w fun x =>
    ({ x with accesses := x.accesses ++ numbered c u.nextId [as] }.addClass cls 1).setFrag c.f.id fun f =>
      if load then { f with iter := f.iter ++ [(u.nextId, as.length, [])] } else f.stores true

/-- No acquire is due in the warp: none of an access, and none of an event (R226, R227). -/
abbrev Ctx.Quiet (c : Ctx) : Prop := (∀ a ∈ c.x.accesses, a.acq = 0) ∧ c.x.acquire = false

/-- What the instruction sees once the release of its order prefix has passed on the remote operations that come before it (R225). -/
def Ctx.passed (c : Ctx) (o : Option OPfx) (d : Nat) : Ctx :=
  if ordOf o / 2 = 1 then { c with s := c.s.passRemotes c.w (scopeOf o d) } else c

/-- A release of the order prefix `o` with default scope `d` has nothing left to wait for (R227). -/
abbrev Ctx.Released (c : Ctx) (o : Option OPfx) (d : Nat) : Prop :=
  ordOf o / 2 = 1 → c.s.released c.g c.vd c.w c.x (scopeOf o d) = true

-- ## Vector instructions

/-- As `Ctx.Clear`, for the fields `os` of a vector instruction under prefix `p`, its guard predicate among them. -/
abbrev Ctx.VClear (c : Ctx) (p : Option VPfx) (os : List Opnd) : Prop :=
  badOpnd c.x.vregs.length (os ++ gpOp p) = none ∧ (∀ r ∈ (os ++ gpRead c.x p).flatMap Opnd.regs, r ∉ c.x.pending) ∧
    flagFault c.x (os ++ gpRead c.x p) = none

/-- The effective controls of a vector instruction (R198). -/
def Ctx.eff (c : Ctx) (p : Option VPfx) : Eff := effOf c.x c.f.mask p

/-- The active lanes in which an operation raises a floating-point condition. -/
def Ctx.raised (c : Ctx) (p : Option VPfx) (lane : Nat → Nat × Bool) : Mask :=
  maskOf ((lanesOf (c.eff p).mask).filter fun l => (lane l).2)

/-- The vector instructions that round, and so do not ignore a prefix's `RND` (R277, log 72). -/
def roundsRnd : Instr → Bool
  | .vfadd .. | .vfsub .. | .vfmul .. | .vfma .. | .vfdiv .. | .vfsqrt .. | .vrcp .. | .vrsq .. | .vexp2 .. | .vlog2 .. | .vsin ..
  | .vcos .. | .vtanh .. | .vsigm .. | .vround .. | .vscale .. | .vdot2 .. | .vcvt .. | .vpack .. | .vred .. | .vscan .. => true
  | _ => false

/-- The result of a vector instruction with fields `os` and accepted types `types`: in every active lane `l` the `regs` registers
from `d` become `lane l`, the other lanes keep their value or become 0 by the policy in force (R330); with `FPX` a condition
raised in an active lane faults instead (R238), and a type that is not accepted faults (R198, R286), as does a prefix's `RND` of 5
or 6 on an instruction that rounds (R277, log 72). -/
def VecResult (i : Instr) (s : State) (c : Ctx) (p : Option VPfx) (types : List Nat) (os : List Opnd) (d regs : Nat)
    (lane : Nat → Nat × Bool) : Prop :=
  (typeBad p (c.eff p) types (roundsRnd i) = none → c.VClear p os →
    (mFpx c.x.mode = false ∨ c.raised p lane = 0#32 →
      Ends i s c (c.x.writeGroup d regs 0#32 (c.eff p).mask (c.eff p).zero fun l => (lane l).1) c.nextPc) ∧
    (mFpx c.x.mode = true → c.raised p lane ≠ 0#32 →
      Faults i s c { code := 0x16, einfo := c.raised p lane, lanes := some (c.eff p).mask })) ∧
  ((c.eff p).type ∉ types ∨ (roundsRnd i = true ∧ ∃ q, p = some q ∧ (q.rnd = 5#3 ∨ q.rnd = 6#3)) →
    Faults i s c { code := 0x04, einfo := BitVec.ofNat 32 ((c.eff p).type % 16 + 16 * (c.eff p).rnd), lanes := some (c.eff p).mask })

/-- As `VecResult`, for a predicate destination that raises no condition. -/
def PredResult (i : Instr) (s : State) (c : Ctx) (p : Option VPfx) (types : List Nat) (os : List Opnd) (d : Nat)
    (lane : Nat → Bool) : Prop :=
  (typeBad p (c.eff p) types = none → c.VClear p os →
    Ends i s c (c.x.setP d (writeMask (c.x.pred d) 0#32 (c.eff p).mask (c.eff p).zero
      (maskOf ((lanesOf (c.eff p).mask).filter lane)))) c.nextPc) ∧
  ((c.eff p).type ∉ types →
    Faults i s c { code := 0x04, einfo := BitVec.ofNat 32 ((c.eff p).type % 16 + 16 * (c.eff p).rnd), lanes := some (c.eff p).mask })

end Sys2Proof.Machine
end

