-- ==== Sys2Proof/Certificates/Slice0/Obligations.lean ====
section
/-!
DEFINITION. The statements about the model, each with the rule of spec/ it formalises, and the tables of results they quantify
over.
-/
open Sys2Proof Sys2Proof.Machine

-- ## Encoding

/-- Decoding the words of any well-formed Billek instruction gives it back, with the number of its words; and so does decoding
the bytes of those words as memory holds them (R271–R284). -/
def Obligations.DecodeOfEncode : Prop :=
  ∀ i : Instr, i.wf = true → i.baseWord.isSome = true →
    decodeWords (encode i) = .ok i (encode i).length ∧
    decode ((encode i).flatMap fun w => leBytes 4 w.toNat) = .ok i (encode i).length

/-- What the decoder accepts is a well-formed Billek instruction of one to three words. Check 2 of R286: a base word with a
reserved opcode is an illegal opcode, whatever its other fields are. -/
def Obligations.DecoderAnswers : Prop :=
  (∀ ws i n, decodeWords ws = .ok i n → i.wf = true ∧ i.isStep = false ∧ 1 ≤ n ∧ n ≤ 3 ∧ n ≤ ws.length) ∧
  (∀ w : BitVec 32, isPrefix w = false → reservedOp (opcode w) = true → decodeWords [w] = .illegalOpcode w 1)

/-- Words written out from the encodings of chapters 12 to 16, one of each family, and what they stand for. -/
def Obligations.DecodeSanity : Prop :=
  decodeWords [0x10C5C6C7#32] = .ok (.sadd 0xC5#8 0xC6#8 0xC7#8) 1 ∧
  decodeWords [0xF4123456#32, 0x27C90078#32] = .ok (.smovi (some 0x123456#24) 0xC9#8 0x78#8) 2 ∧
  decodeWords [0x3EC5E000#32] = .ok (.launch 0xC5#8 0xE0#8) 1 ∧
  decodeWords [0x8C0504C7#32] = .ok (.vbcast none 5#8 4#8 0xC7#8) 1 ∧
  decodeWords [0xA905CC00#32] = .ok (.tcopy 5#8 0xCC#8) 1 ∧
  decodeWords [0xBF00D4D6#32] = .ok (.waitsig 0xD4#8 0xD6#8) 1 ∧
  decodeWords [0xC90A0B0C#32] = .ok (.rst none none 10#8 11#8 12#8) 1 ∧
  decodeWords [0xD7C5C6C7#32] = .ok (.mma 0xC5#8 0xC6#8 0xC7#8) 1 ∧
  decodeWords [0xDA01D4D5#32] = .ok (.mloop 1#2 0xD4#8 0xD5#8) 1 ∧
  decodeWords [0xF800001F#32, 0x5E000000#32] = .illegalOpcode 0x5E000000#32 2

-- ## Scalar instructions

/-- The register forms of R305 with their results. -/
def Sys2Proof.scalarRegs (d a b : BitVec 8) : List (Instr × (Word → Word → Word)) :=
  [(.sadd d a b, fun x y => x + y), (.ssub d a b, fun x y => x - y), (.smul d a b, fun x y => x * y),
   (.smulh d a b, fun x y => (x.signExtend 64 * y.signExtend 64).extractLsb' 32 32),
   (.smulhn d a b, fun x y => (x.setWidth 64 * y.setWidth 64).extractLsb' 32 32),
   (.sand d a b, fun x y => x &&& y), (.sor d a b, fun x y => x ||| y), (.sxor d a b, fun x y => x ^^^ y),
   (.sshl d a b, fun x y => if y.toNat % 64 < 32 then x <<< (y.toNat % 64) else 0#32),
   (.sshr d a b, fun x y => if y.toNat % 64 < 32 then x >>> (y.toNat % 64) else 0#32),
   (.ssra d a b, fun x y => if y.toNat % 64 < 32 then x.sshiftRight (y.toNat % 64) else if x.msb then 0xFFFFFFFF#32 else 0#32),
   (.smin d a b, fun x y => if x.toInt < y.toInt then x else y), (.smax d a b, fun x y => if x.toInt < y.toInt then y else x),
   (.sminn d a b, fun x y => if x.toNat < y.toNat then x else y), (.smaxn d a b, fun x y => if x.toNat < y.toNat then y else x),
   (.seq d a b, fun x y => if x = y then 1#32 else 0#32), (.slt d a b, fun x y => if x.toInt < y.toInt then 1#32 else 0#32),
   (.sltn d a b, fun x y => if x.toNat < y.toNat then 1#32 else 0#32),
   (.sle d a b, fun x y => if x.toInt ≤ y.toInt then 1#32 else 0#32)]

/-- The one-source forms of R306 and R307 with their results. -/
def Sys2Proof.scalarUnary (h : Option (BitVec 24)) (n : BitVec 6) (d a i : BitVec 8) : List (Instr × (Word → Word)) :=
  [(.saddi h d a i, fun x => x + immOf h true i), (.sandi h d a i, fun x => x &&& immOf h false i),
   (.sori h d a i, fun x => x ||| immOf h false i), (.sxori h d a i, fun x => x ^^^ immOf h false i),
   (.sshli d a n, fun x => if n.toNat < 32 then x <<< n.toNat else 0#32),
   (.sshri d a n, fun x => if n.toNat < 32 then x >>> n.toNat else 0#32),
   (.ssrai d a n, fun x => if n.toNat < 32 then x.sshiftRight n.toNat else if x.msb then 0xFFFFFFFF#32 else 0#32),
   (.spopc d a, fun x => BitVec.ofNat 32 ((List.range 32).countP fun k => x.getLsbD k)),
   (.sclz d a, fun x => BitVec.ofNat 32 (((List.range 32).find? fun k => x.getLsbD (31 - k)).getD 32)),
   (.sffs d a, fun x => BitVec.ofNat 32 (((List.range 32).find? fun k => x.getLsbD k).getD 32)),
   (.smov d a, fun x => x)]

/-- R305: a register form whose guard passes writes its result to `sd` and changes nothing else; whose guard fails, nothing. The
immediate of R278 is 32 bits with a prefix, else extended by sign or zero; the one-source and immediate forms of R306 and R307
write their results, or nothing where the guard fails. -/
def Obligations.ScalarForms : Prop :=
  (∀ (s : State) (c : Ctx) (d a b : BitVec 8), s.ctx = some c → c.Clear [sDst d, sOp a 1, sOp b 2] →
    ∀ p ∈ scalarRegs d a b,
      (c.guard = true → Ends p.1 s c (c.x.setSf d.toNat (p.2 (c.x.sf a.toNat) (c.x.sf b.toNat))) c.nextPc) ∧
      (c.guard = false → Ends p.1 s c c.x c.nextPc)) ∧
  ((∀ h i, immOf (some h) true i = h ++ i ∧ immOf (some h) false i = h ++ i ∧
    immOf none true i = i.signExtend 32 ∧ immOf none false i = i.setWidth 32) ∧
  (∀ (s : State) (c : Ctx) (h : Option (BitVec 24)) (n : BitVec 6) (d a i : BitVec 8), s.ctx = some c → c.Clear [sDst d, sOp a 1] →
    ∀ p ∈ scalarUnary h n d a i,
      (c.guard = true → Ends p.1 s c (c.x.setSf d.toNat (p.2 (c.x.sf a.toNat))) c.nextPc) ∧
      (c.guard = false → Ends p.1 s c c.x c.nextPc)) ∧
  (∀ (s : State) (c : Ctx) (h : Option (BitVec 24)) (d i : BitVec 8), s.ctx = some c → c.Clear [sDst d] → 
    (c.guard = true → Ends (.smovi h d i) s c (c.x.setSf d.toNat (immOf h true i)) c.nextPc) ∧
    (c.guard = false → Ends (.smovi h d i) s c c.x c.nextPc)))

/-- `SSEL` and `SADD64` (R305, R308), the mode register (R309), predicates (R311) and single lanes (R312). -/
def Obligations.ScalarMoves : Prop :=
  ∀ (s : State) (c : Ctx) (d a b : BitVec 8), s.ctx = some c →
    (c.guard = true →
      (c.Clear [{ sDst d with reads := true }, sOp a 1, sOp b 2] →
        Ends (.ssel d a b) s c (c.x.setSf d.toNat (if c.x.sf d.toNat = 0#32 then c.x.sf b.toNat else c.x.sf a.toNat)) c.nextPc) ∧
      (c.Clear [spDst d, spOp a 1, spOp b 2] →
        Ends (.sadd64 d a b) s c (c.x.setPair d.toNat (c.x.spair a.toNat + c.x.spair b.toNat)) c.nextPc) ∧
      (c.Clear [sDst d, pOp a 1] → Ends (.prd d a) s c (c.x.setSf d.toNat (c.x.pred a.toNat)) c.nextPc) ∧
      (c.Clear [pDst d, sOp a 1] → Ends (.pwr d a) s c (c.x.setP d.toNat
        ((c.f.mask &&& c.x.sf a.toNat) ||| (~~~ c.f.mask &&& c.x.pred d.toNat))) c.nextPc) ∧
      (c.Clear [sDst d, vOp 1 a 1, sOp b 2] →
        Ends (.vgetl d a b) s c (c.x.setSf d.toNat (c.x.lane a.toNat ((c.x.sf b.toNat).toNat % 32))) c.nextPc) ∧
      (c.Clear [vDst 1 d, sOp a 1, sOp b 2] →
        Ends (.vsetl d a b) s c
          (if c.f.mask.getLsbD ((c.x.sf b.toNat).toNat % 32) then
            c.x.setV d.toNat ((c.x.vreg d.toNat).setIfInBounds ((c.x.sf b.toNat).toNat % 32) (c.x.sf a.toNat)) else c.x) c.nextPc)) ∧
    (c.Clear [sDst d] → Ends (.getmode d) s c (c.x.setSf d.toNat c.x.mode) c.nextPc) ∧
    (c.Clear [sOp a 1] →
      let v := c.x.sf a.toNat
      (mRnd v < 5 → mGp v < 48 → Ends (.setmode a) s c { c.x with mode := v &&& 0x3FFFF#32 } c.nextPc) ∧
      (5 ≤ mRnd v → Faults (.setmode a) s c { code := 0x04, einfo := BitVec.ofNat 32 (mType v + 16 * mRnd v) }) ∧
      (mRnd v < 5 → 48 ≤ mGp v → Faults (.setmode a) s c { code := 0x03, einfo := BitVec.ofNat 32 (mGp v + 1024) }))

-- ## Vector instructions

/-- A lane's operand elements and the operation of a form with sources `A` and `B`. -/
def Sys2Proof.lanes2 (x : Warp) (e : Eff) (a b : BitVec 8) (f : VEnv → Nat → Nat → Nat × Bool) (l : Nat) : Nat × Bool :=
  mapElems e.type fun k => f (envOf x e) (elemAt e.type (x.laneN (typeRegs e.type) a.toNat l) k)
    (elemAt e.type (x.laneN (typeRegs e.type) b.toNat l) k)
/-- With source `A`. -/
def Sys2Proof.lanes1 (x : Warp) (e : Eff) (a : BitVec 8) (f : VEnv → Nat → Nat × Bool) (l : Nat) : Nat × Bool :=
  mapElems e.type fun k => f (envOf x e) (elemAt e.type (x.laneN (typeRegs e.type) a.toNat l) k)
/-- With sources `A`, `B` and `C`. -/
def Sys2Proof.lanes3 (x : Warp) (e : Eff) (a b z : BitVec 8) (f : VEnv → Nat → Nat → Nat → Nat × Bool) (l : Nat) : Nat × Bool :=
  mapElems e.type fun k => f (envOf x e) (elemAt e.type (x.laneN (typeRegs e.type) a.toNat l) k)
    (elemAt e.type (x.laneN (typeRegs e.type) b.toNat l) k) (elemAt e.type (x.laneN (typeRegs e.type) z.toNat l) k)

/-- An exact integer result under the saturation mode and the type in force (R239). -/
def Sys2Proof.exact (v : VEnv) (n : Int) : Nat × Bool := (intRes v.sat (isSigned v.t) (elemBits v.t) n, false)
/-- The integer that an element of the type in force holds. -/
def Sys2Proof.val (v : VEnv) (a : Nat) : Int := intVal (isSigned v.t) (elemBits v.t) a

/-- Two-source integer and bitwise instructions: accepted types and element results (R332, R334). -/
def Sys2Proof.vectorPairs (p : Option VPfx) (d a b : BitVec 8) : List (Instr × List Nat × (VEnv → Nat → Nat → Nat × Bool)) :=
  [(.vadd p d a b, intTypes, fun v x y => exact v (val v x + val v y)),
   (.vsub p d a b, intTypes, fun v x y => exact v (val v x - val v y)),
   (.vmul p d a b, intTypes, fun v x y => exact v (val v x * val v y)),
   (.vmulh p d a b, intTypes, fun v x y =>
     ((val v x * val v y / 2 ^ elemBits v.t % 2 ^ elemBits v.t).toNat, false)),
   (.vand p d a b, bitTypes, fun _ x y => (x &&& y, false)), (.vor p d a b, bitTypes, fun _ x y => (x ||| y, false)),
   (.vxor p d a b, bitTypes, fun _ x y => (x ^^^ y, false)),
   (.vshl p d a b, intTypes, fun v x y => (if y % 256 < elemBits v.t then (x <<< (y % 256)) % 2 ^ elemBits v.t else 0, false)),
   (.vshr p d a b, intTypes, fun v x y => (shrElem (isSigned v.t) (elemBits v.t) x (y % 256), false)),
   (.vmin p d a b, intTypes, fun v x y => (if val v x ≤ val v y then x else y, false)),
   (.vmax p d a b, intTypes, fun v x y => (if val v x ≤ val v y then y else x, false)),
   (.vbfe p d a b, fieldTypes, fun v x y => (bfe (isSigned v.t) (elemBits v.t) x (y % 256) (y / 256 % 256), false))]

/-- One-source and immediate integer instructions (R332–R334). -/
def Sys2Proof.vectorUnary (p : Option VPfx) (h : Option (BitVec 24)) (n : BitVec 6) (d a i : BitVec 8) :
    List (Instr × List Nat × (VEnv → Nat → Nat × Bool)) :=
  [(.vabs p d a, signedTypes, fun v x => exact v (val v x).natAbs), (.vneg p d a, signedTypes, fun v x => exact v (-val v x)),
   (.vclz p d a, intTypes, fun v x => (clz (elemBits v.t) x, false)), (.vpopc p d a, intTypes, fun v x => (popCount (elemBits v.t) x, false)),
   (.vmov p d a, bitTypes, fun _ x => (x, false)), (.vbrev p d a, intTypes, fun v x => (bitReverse (elemBits v.t) x, false)),
   (.vaddi h p d a i, intTypes, fun v x => exact v (val v x + val v (immElem v.t true (immOf h true i)))),
   (.vandi h p d a i, bitTypes, fun v x => (x &&& immElem v.t false (immOf h false i), false)),
   (.vori h p d a i, bitTypes, fun v x => (x ||| immElem v.t false (immOf h false i), false)),
   (.vxori h p d a i, bitTypes, fun v x => (x ^^^ immElem v.t false (immOf h false i), false)),
   (.vshli p d a n, intTypes, fun v x => (if n.toNat < elemBits v.t then (x <<< n.toNat) % 2 ^ elemBits v.t else 0, false)),
   (.vshri p d a n, intTypes, fun v x => (shrElem (isSigned v.t) (elemBits v.t) x n.toNat, false))]

/-- Two-source integer and bitwise vector instructions. One-source and immediate integer vector instructions. -/
def Obligations.VectorInteger : Prop :=
  (∀ (s : State) (c : Ctx) (p : Option VPfx) (d a b : BitVec 8), s.ctx = some c → VPfx.acc p = none → ∀ q ∈ vectorPairs p d a b,
    VecResult q.1 s c p q.2.1 [vDst (typeRegs (c.eff p).type) d, vOp (typeRegs (c.eff p).type) a 1, vOp (typeRegs (c.eff p).type) b 2]
      d.toNat (typeRegs (c.eff p).type) (lanes2 c.x (c.eff p) a b q.2.2)) ∧
  (∀ (s : State) (c : Ctx) (p : Option VPfx) (h : Option (BitVec 24)) (n : BitVec 6) (d a i : BitVec 8), s.ctx = some c →
    VPfx.acc p = none → ∀ q ∈ vectorUnary p h n d a i,
      VecResult q.1 s c p q.2.1 [vDst (typeRegs (c.eff p).type) d, vOp (typeRegs (c.eff p).type) a 1]
        d.toNat (typeRegs (c.eff p).type) (lanes1 c.x (c.eff p) a q.2.2))

/-- Floating-point instructions with two sources and with one (R335, R336). -/
def Sys2Proof.floatPairs (p : Option VPfx) (d a b : BitVec 8) : List (Instr × (VEnv → Nat → Nat → Nat × Bool)) :=
  [(.vfadd p d a b, fadd), (.vfsub p d a b, fsub), (.vfmul p d a b, fmul), (.vfdiv p d a b, fdiv),
   (.vfmin p d a b, fminmax false), (.vfmax p d a b, fminmax true), (.vscale p d a b, fscale)]
def Sys2Proof.floatUnary (p : Option VPfx) (d a : BitVec 8) : List (Instr × List Nat × (VEnv → Nat → Nat × Bool)) :=
  [(.vfabs p d a, floatTypes, fun v x => (x % 2 ^ (elemBits v.t - 1), false)),
   (.vfneg p d a, floatTypes, fun v x => (x ^^^ 2 ^ (elemBits v.t - 1), false)), (.vfsqrt p d a, floatTypes, fsqrt),
   (.vround p d a, floatTypes, fround), (.vfrac p d a, floatTypes, ffrac), (.vclass p d a, floatTypes, fclass),
   (.vrcp p d a, specialTypes, fun v x => special 0 v.t v.ftz v.rnd x), (.vrsq p d a, specialTypes, fun v x => special 1 v.t v.ftz v.rnd x),
   (.vexp2 p d a, specialTypes, fun v x => special 2 v.t v.ftz v.rnd x), (.vlog2 p d a, specialTypes, fun v x => special 3 v.t v.ftz v.rnd x),
   (.vsin p d a, specialTypes, fun v x => special 4 v.t v.ftz v.rnd x), (.vcos p d a, specialTypes, fun v x => special 5 v.t v.ftz v.rnd x),
   (.vtanh p d a, specialTypes, fun v x => special 6 v.t v.ftz v.rnd x), (.vsigm p d a, specialTypes, fun v x => special 7 v.t v.ftz v.rnd x)]

/-- Floating-point vector instructions. -/
def Obligations.VectorFloat : Prop :=
  ∀ (s : State) (c : Ctx) (p : Option VPfx) (d a b : BitVec 8), s.ctx = some c → VPfx.acc p = none →
    (∀ q ∈ floatPairs p d a b,
      VecResult q.1 s c p floatTypes
        [vDst (typeRegs (c.eff p).type) d, vOp (typeRegs (c.eff p).type) a 1, vOp (typeRegs (c.eff p).type) b 2]
        d.toNat (typeRegs (c.eff p).type) (lanes2 c.x (c.eff p) a b q.2)) ∧
    (∀ q ∈ floatUnary p d a,
      VecResult q.1 s c p q.2.1 [vDst (typeRegs (c.eff p).type) d, vOp (typeRegs (c.eff p).type) a 1]
        d.toNat (typeRegs (c.eff p).type) (lanes1 c.x (c.eff p) a q.2.2))

/-- `VDOT4` and `VDOT2` on integers (R251, R340): the exact sum of the accumulator and the products of the `n` elements, then R239 once. -/
def Sys2Proof.dotInt (v : VEnv) (n x y z : Nat) : Nat × Bool :=
  let w := elemBits v.t
  let term := fun (k : Nat) => intVal (isSigned v.t) w (elemAt v.t x k) * intVal (isSigned v.t) w (elemAt v.t y k)
  (intRes v.sat (isSigned v.t) 32 (intVal (isSigned v.t) 32 z + ((List.range n).map term).sum), false)
/-- `VDOT2` on `f16` and `bf16` elements (R236, R251, R340): the products and the `f32` accumulator summed exactly, rounded once to `f32`;
invalid where a product or the sum makes a NaN of operands that are none (R238). -/
def Sys2Proof.dotFloat (v : VEnv) (x y z : Nat) : Nat × Bool :=
  let m := fmtOf v.t
  let a := fun (k : Nat) => m.dec (m.flushIn v.ftz (elemAt v.t x k))
  let b := fun (k : Nat) => m.dec (m.flushIn v.ftz (elemAt v.t y k))
  let c := f32.dec (f32.flushIn v.ftz z)
  let r := sumNum v.rnd [(a 0).mul (b 0), (a 1).mul (b 1), c]
  f32.result v.ftz v.rnd r
    (invalid ((a 0).mul (b 0)) [a 0, b 0] || invalid ((a 1).mul (b 1)) [a 1, b 1] || invalid r [c, a 0, a 1, b 0, b 1])

/-- Instructions with a third source in the prefix (R277, R332, R334, R335, R340): `VMAD`, `VBFI`, `VFMA`, `VDOT4` and `VDOT2` complete with
these results in every state in which their type is accepted and their fields are clear, under every prefix that such an instruction
can carry (R277 gives `ACB` to none of them: the decoder refuses it). -/
def Obligations.VectorTernary : Prop :=
  ∀ (s : State) (c : Ctx) (p : VPfx) (d a b : BitVec 8), s.ctx = some c → p.acb = false →
    let t := (c.eff (some p)).type
    let os := [vDst (typeRegs t) d, vOp (typeRegs t) a 1, vOp (typeRegs t) b 2, vOp (typeRegs t) p.c 3]
    let w := [vDst 1 d, vOp 1 a 1, vOp 1 b 2, vOp 1 p.c 3]
    VecResult (.vmad p d a b) s c (some p) intTypes os d.toNat (typeRegs t)
      (lanes3 c.x (c.eff (some p)) a b p.c fun v x y z => exact v (val v x * val v y + val v z)) ∧
    VecResult (.vbfi p d a b) s c (some p) fieldTypes os d.toNat (typeRegs t)
      (lanes3 c.x (c.eff (some p)) a b p.c fun v x y z => (bfi (elemBits v.t) x z (y % 256) (y / 256 % 256), false)) ∧
    VecResult (.vfma p d a b) s c (some p) floatTypes os d.toNat (typeRegs t) (lanes3 c.x (c.eff (some p)) a b p.c ffma) ∧
    let v := envOf c.x (c.eff (some p))
    let lane := fun (f : Nat → Nat → Nat → Nat × Bool) (l : Nat) =>
      f (c.x.lane a.toNat l).toNat (c.x.lane b.toNat l).toNat (c.x.lane p.c.toNat l).toNat
    VecResult (.vdot4 p d a b) s c (some p) [7, 8] w d.toNat 1 (lane (dotInt v 4)) ∧
    VecResult (.vdot2 p d a b) s c (some p) [3, 4, 5, 6] w d.toNat 1 (lane (if isIeee t then dotFloat v else dotInt v 2))

/-- Comparisons into predicates (R338) and predicate logic (R341). -/
def Sys2Proof.comparisons (p : Option VPfx) (d a b : BitVec 8) : List (Instr × List Nat × (Machine.Num → Machine.Num → Bool)) :=
  [(.vcmpeq p d a b, [0, 1, 2, 9, 10, 11], fun x y => x.eq y), (.vcmpne p d a b, [0, 1, 2, 9, 10, 11], fun x y => !x.eq y),
   (.vcmplt p d a b, [0, 1, 2, 9, 10, 11], fun x y => x.lt y), (.vcmple p d a b, [0, 1, 2, 9, 10, 11], fun x y => x.lt y || x.eq y),
   (.vcmpun p d a b, [2, 11], fun x y => x.isNan || y.isNan)]
def Sys2Proof.predicates (p : Option VPfx) (d a b : BitVec 8) (i : Bool) : List (Instr × List Opnd × (Bool → Bool → Bool)) :=
  [(.pand p d a b, [pDst d, pOp a 1, pOp b 2], fun x y => x && y), (.por p d a b, [pDst d, pOp a 1, pOp b 2], fun x y => x || y),
   (.pxor p d a b, [pDst d, pOp a 1, pOp b 2], fun x y => x != y), (.pnot p d a, [pDst d, pOp a 1], fun x _ => !x),
   (.pmov p d a, [pDst d, pOp a 1], fun x _ => x), (.pseti p d i, [pDst d], fun _ _ => i)]

/-- Comparisons and predicate logic write the active lanes of their predicate. -/
def Obligations.VectorPredicates : Prop :=
  ∀ (s : State) (c : Ctx) (p : Option VPfx) (d a b : BitVec 8) (i : Bool), s.ctx = some c → VPfx.acc p = none →
    (∀ q ∈ comparisons p d a b,
      PredResult q.1 s c p q.2.1 [pDst d, vOp (typeRegs (c.eff p).type) a 1, vOp (typeRegs (c.eff p).type) b 2] d.toNat fun l =>
        q.2.2 (elemNum (c.eff p).type (mFtz c.x.mode) (c.x.laneN (typeRegs (c.eff p).type) a.toNat l))
          (elemNum (c.eff p).type (mFtz c.x.mode) (c.x.laneN (typeRegs (c.eff p).type) b.toNat l))) ∧
    (∀ q ∈ predicates p d a b i,
      PredResult q.1 s c p [(c.eff p).type] q.2.1 d.toNat fun l =>
        q.2.2 ((c.x.pred a.toNat).getLsbD l) ((c.x.pred b.toNat).getLsbD l))

/-- Moves, selections, lane numbers and conversions (R333, R334, R337, R339). Lane exchanges (R344), reductions, scans (R249,
R250, R345) and matches by key (R346). -/
def Obligations.VectorMovesAndLanes : Prop :=
  (∀ (s : State) (c : Ctx) (p : Option VPfx) (h : Option (BitVec 24)) (d a b i : BitVec 8) (dst src : BitVec 4), s.ctx = some c →
    VPfx.acc p = none →
    let e := c.eff p
    VecResult (.vmovi h p d i) s c p bitTypes [vDst (typeRegs e.type) d] d.toNat (typeRegs e.type)
      (fun _ => mapElems e.type fun _ => (immElem e.type true (immOf h true i), false)) ∧
    VecResult (.vlaneid p d) s c p [e.type] [vDst 1 d] d.toNat 1 (fun l => (l, false)) ∧
    VecResult (.viota p d) s c p [e.type] [vDst 1 d] d.toNat 1 (fun l => ((List.range l).countP fun k => e.mask.getLsbD k, false)) ∧
    (typeBad p e bitTypes = none →
      c.VClear p [vDst (typeRegs e.type) d, vOp (typeRegs e.type) a 1, vOp (typeRegs e.type) b 2] →
      Ends (.vsel p d a b) s c (c.x.writeGroup d.toNat (typeRegs e.type) 0#32 c.f.mask false fun l =>
        if e.g.getLsbD l then c.x.laneN (typeRegs e.type) a.toNat l else c.x.laneN (typeRegs e.type) b.toNat l) c.nextPc) ∧
    (∀ n, n = cvtElems dst.toNat src.toNat →
      VecResult (.vcvt p d a dst src) s c p [e.type] [vDst (cvtRegs n dst.toNat) d, cvtSrc (cvtRegs n src.toNat) a] d.toNat
        (cvtRegs n dst.toNat) (fun l =>
          let rs := (List.range n).map fun k => convElem src.toNat dst.toNat (mFtz c.x.mode) (mSat c.x.mode) e.rnd
            (elemAt src.toNat (c.x.laneGroup a.toNat l (cvtRegs n src.toNat)) k)
          (packElems dst.toNat (rs.map Prod.fst), rs.any Prod.snd))) ∧
    VecResult (.vpack p d a b) s c p packTypes [vDst 1 d, vOp 1 a 1, vOp 1 b 2] d.toNat 1 (fun l =>
      let rs := (List.range (elemCount e.type)).map fun k => convElem (packSrc e.type) e.type (mFtz c.x.mode) (mSat c.x.mode) e.rnd
        (elemAt (packSrc e.type) ((c.x.lane a.toNat l).toNat + 2 ^ 32 * c.x.laneN (typeRegs e.type) b.toNat l) k)
      (packElems e.type (rs.map Prod.fst), rs.any Prod.snd)) ∧
    VecResult (.vunpk p d a) s c p packTypes [vDst 2 d, vOp 1 a 1] d.toNat 2 (fun l =>
      (packElems (packSrc e.type) ((List.range (elemCount e.type)).map fun k =>
        (convElem e.type (packSrc e.type) (mFtz c.x.mode) (mSat c.x.mode) 0 (elemAt e.type (c.x.lane a.toNat l).toNat k)).1), false))) ∧
  (∀ (s : State) (c : Ctx) (p : Option VPfx) (d a b : BitVec 8), s.ctx = some c → VPfx.acc p = none →
    let e := c.eff p
    let n := typeRegs e.type
    (∀ q ∈ [(Instr.vshfl p d a b, fun (_ k : Nat) => k), (.vshflx p d a b, fun l k => l ^^^ k),
        (.vshflu p d a b, fun l k => if k ≤ l then l - k else l), (.vshfld p d a b, fun l k => if l + k ≤ 31 then l + k else l)],
      VecResult q.1 s c p bitTypes [vDst n d, vOp n a 1, vOp n b 2] d.toNat n (fun l =>
        (c.x.laneN n a.toNat (q.2 l ((c.x.lane b.toNat l).toNat % 32)), false))) ∧
    VecResult (.vbcast p d a b) s c p bitTypes [vDst n d, vOp n a 1, sOp b 2] d.toNat n (fun _ =>
      (c.x.laneN n a.toNat ((c.x.sf b.toNat).toNat % 32), false)) ∧
    (e.mask ≠ 0#32 →
      VecResult (.vred p d a b) s c p (redTypes b.toNat) [vDst n d, vOp n a 1] d.toNat n (fun _ => mapElems e.type fun k =>
        (redTree (envOf c.x e) b.toNat 5 ((List.range 32).map fun i =>
          if e.mask.getLsbD i then some (redLeaf (envOf c.x e) b.toNat (elemAt e.type (c.x.laneN n a.toNat i) k), false)
          else none)).getD (0, false)) ∧
      VecResult (.vscan p d a b) s c p (redTypes b.toNat) [vDst n d, vOp n a 1] d.toNat n (fun l => mapElems e.type fun k =>
        (scanFrom (envOf c.x e) b.toNat ((List.range 32).map fun i =>
          if e.mask.getLsbD i then some (redLeaf (envOf c.x e) b.toNat (elemAt e.type (c.x.laneN n a.toNat i) k), false)
          else none) 6 0 (l + 1) none).getD (0, false))) ∧
    (e.mask = 0#32 → ∀ i ∈ [Instr.vred p d a b, .vscan p d a b], typeBad p e (redTypes b.toNat) true = none →
      c.VClear p [vDst n d, vOp n a 1] → Ends i s c c.x c.nextPc) ∧
    (typeBad p e [0, 1, 2] = none → c.VClear p ([vDst 1 d, vOp 1 a 1] ++ predCOp p) →
      let same := fun (l : Nat) => maskOf ((lanesOf e.mask).filter fun i =>
        matchKey e.type (c.x.lane a.toNat i).toNat = matchKey e.type (c.x.lane a.toNat l).toNat)
      let y := c.x.writeGroup d.toNat 1 0#32 e.mask e.zero fun l => (same l).toNat
      Ends (.vmatch p d a) s c (y.setP (predC p) (writeMask (y.pred (predC p)) 0#32 e.mask e.zero
        (maskOf ((lanesOf e.mask).filter fun l => lowLane (same l) = l)))) c.nextPc))

/-- Registers (R195): what a write leaves, which registers it leaves alone, and the constants `s0` and `p0`. What a vector
result leaves (R330): in the active lanes of the registers written the result, in their other lanes the old value or 0 by the
zero policy, and every other register, predicate and the mode as they were. -/
def Obligations.RegisterFiles : Prop :=
  (∀ (x : Warp),
    (∀ v, x.setS 0 v = x) ∧ x.sreg 0 = 0#32 ∧ (∀ m, x.setP 0 m = x) ∧ x.pred 0 = 0xFFFFFFFF#32 ∧
    (∀ n v, 0 < n → n < 64 → (x.setS n v).sreg n = v) ∧
    (∀ n v, 0 < n → risingFrom 0 x.flags = true → find (x.setS n v).flags (0xC0 + n) = none) ∧
    (∀ n v k, k ≠ 0xC0 + n → find (x.setS n v).flags k = find x.flags k) ∧
    (∀ n m v, m ≠ n → (x.setS n v).sreg m = x.sreg m) ∧
    (∀ n v, (x.setS n v).vregs = x.vregs ∧ (x.setS n v).preds = x.preds ∧ (x.setS n v).mode = x.mode) ∧
    (∀ n m, 0 < n → n < 48 → (x.setP n m).pred n = m) ∧ (∀ n k m, k ≠ n → (x.setP n m).pred k = x.pred k) ∧
    (∀ n m, (x.setP n m).sregs = x.sregs ∧ (x.setP n m).vregs = x.vregs) ∧
    (∀ n v, n < x.vregs.length → (x.setV n v).vreg n = v) ∧ (∀ n m v, m ≠ n → (x.setV n v).vreg m = x.vreg m) ∧
    (∀ n v, (x.setV n v).sregs = x.sregs ∧ (x.setV n v).preds = x.preds ∧ (x.setV n v).mode = x.mode)) ∧
  (∀ (x : Warp) (d regs : Nat) (m : Mask) (z : Bool) (f : Nat → Nat), d + regs ≤ x.vregs.length →
    let y := x.writeGroup d regs 0#32 m z f
    (∀ r l, r < regs → l < 32 → vget (y.vreg (d + r)) l 0#32 =
      if m.getLsbD l then BitVec.ofNat 32 (f l / 2 ^ (32 * r)) else if z then 0#32 else vget (x.vreg (d + r)) l 0#32) ∧
    (∀ n, n < d ∨ d + regs ≤ n → y.vreg n = x.vreg n) ∧
    y.sregs = x.sregs ∧ y.preds = x.preds ∧ y.mode = x.mode ∧ y.accesses = x.accesses ∧ y.frags = x.frags)

/-- Integer results (R239): with saturation the nearest value of the type, without it the value's low bits; always a value of
the type's width. NaNs (R237): an arithmetic result that is not a number is the canonical NaN, and a NaN operand makes one of
every sum, difference, product, quotient and square root without raising a condition; minimum and maximum give the other
operand. -/
def Obligations.ElementResults : Prop :=
  (∀ (signed : Bool) (w : Nat) (v : Int), 1 ≤ w →
    intVal signed w (intRes true signed w v) = max (intMin signed w) (min (intMax signed w) v) ∧
    intVal signed w (intRes false signed w v) % 2 ^ w = v % 2 ^ w ∧
    (intMin signed w ≤ v → v ≤ intMax signed w → intVal signed w (intRes false signed w v) = v) ∧
    ∀ sat, intRes sat signed w v < 2 ^ w) ∧
  (∀ (v : VEnv) (a b : Nat), v.t ∈ floatTypes → let m := fmtOf v.t
    ((m.dec a).isNan = true ∨ (m.dec b).isNan = true →
      (∀ f ∈ [fadd, fsub, fmul, fdiv], f v a b = (m.nanBits, false))) ∧
    ((m.dec a).isNan = true → fsqrt v a = (m.nanBits, false)) ∧
    ((m.dec a).isNan = true → (m.dec b).isNan = false → ∀ mx, fminmax mx v a b = (m.flushIn v.ftz b, false)) ∧
    ((m.dec a).isNan = false → (m.dec b).isNan = true → ∀ mx, fminmax mx v a b = (m.flushIn v.ftz a, false)) ∧
    (m.dec m.nanBits).isNan = true)

-- ## Control flow

/-- A branch target: the base word's address plus four times the offset (R274). -/
def Sys2Proof.branchTarget {n : Nat} (c : Ctx) (off : BitVec n) : DWord := c.basePc + 4#64 * off.signExtend 64

/-- `NOP`, the uniform branches and the jumps (R313, R314, R318): where the whole fragment goes on. `BRV` (R200, R202, R315):
taken or passed by the whole fragment, or split: a new fragment takes the lanes that branch, with the rejoin address given or
else its parent's, and the old one goes on with the others; with the table full it completes too, once the spill's slot of the warp's ring
translates (R203, log 78). -/
def Obligations.BranchInstructions : Prop :=
  (∀ (s : State) (c : Ctx) (off : BitVec 24) (sel : BitVec 6) (o : BitVec 17) (neg : Bool) (a : BitVec 8), s.ctx = some c →
    let P := if neg then ~~~ c.x.pred sel.toNat else c.x.pred sel.toNat
    Ends .nop s c c.x c.nextPc ∧ Ends (.bra off) s c c.x (branchTarget c off) ∧
    (c.Clear [{ k := .sx, val := sel.toNat, code := 0 }] →
      Ends (.brs sel o) s c c.x (if c.x.sreg sel.toNat = 0#32 then c.nextPc else branchTarget c o) ∧
      Ends (.brsz sel o) s c c.x (if c.x.sreg sel.toNat = 0#32 then branchTarget c o else c.nextPc)) ∧
    (c.Clear [{ k := .p, val := sel.toNat, code := 0 }] →
      Ends (.brany sel neg o) s c c.x (if c.f.mask &&& P = 0#32 then c.nextPc else branchTarget c o) ∧
      Ends (.brall sel neg o) s c c.x (if c.f.mask &&& P = c.f.mask then branchTarget c o else c.nextPc)) ∧
    (48 ≤ sel.toNat → ∀ i ∈ [Instr.brany sel neg o, .brall sel neg o, .brv none sel neg o],
      Faults i s c { code := 0x03, einfo := BitVec.ofNat 32 sel.toNat }) ∧
    (c.Clear [{ k := .sp, val := 254, code := 0, reads := false, writes := true }] →
      Ends (.call off) s c (c.x.setPair 254 (c.pc + 4#64)) (branchTarget c off)) ∧
    (c.Clear [{ k := .sp, val := 254, code := 0 }] →
      (c.x.spair 254 &&& 3#64 = 0#64 → Ends .ret s c c.x (c.x.spair 254)) ∧
      (c.x.spair 254 &&& 3#64 ≠ 0#64 → Faults .ret s c { code := 0x05, einfo := 0#32 })) ∧
    (c.Clear [spOp a 1] →
      (c.x.spair a.toNat &&& 3#64 = 0#64 → Ends (.jmpr a) s c c.x (c.x.spair a.toNat)) ∧
      (c.x.spair a.toNat &&& 3#64 ≠ 0#64 → Faults (.jmpr a) s c { code := 0x05, einfo := 0#32 }))) ∧
  (∀ (s : State) (c : Ctx) (rj : Option (BitVec 24)) (sel : BitVec 6) (o : BitVec 17) (neg : Bool), s.ctx = some c →
    c.Clear [{ k := .p, val := sel.toNat, code := 0 }] →
    let T := c.f.mask &&& (if neg then ~~~ c.x.pred sel.toNat else c.x.pred sel.toNat)
    let i := Instr.brv rj sel neg o
    (T = c.f.mask → Ends i s c c.x (branchTarget c o)) ∧
    (T ≠ c.f.mask → T = 0#32 → Ends i s c c.x c.nextPc) ∧
    (T ≠ c.f.mask → T ≠ 0#32 → 76 ≤ c.x.frags.length → Faults i s c { code := 0x0E, einfo := 0#32 }) ∧
    (T ≠ c.f.mask → T ≠ 0#32 → c.x.frags.length < 76 → c.x.freeEntry.isSome = true → c.NoJoin c.nextPc → c.NoJoin (branchTarget c o) →
      (∀ g ∈ c.x.frags, g.id < c.x.nextFrag ∧ g.parent ≠ some c.x.nextFrag) →
      (∀ r, rj = some r → branchTarget c r ≠ branchTarget c o ∧ branchTarget c r ≠ c.nextPc) →
      ∃ t y, exec i s = .next t ∧ t.warp c.w = some y ∧ t.mem = s.mem ∧
        y.sregs = c.x.sregs ∧ y.vregs = c.x.vregs ∧ y.preds = c.x.preds ∧ y.mode = c.x.mode ∧ y.rwc = c.x.rwc + 1#64 ∧
        (y.frag c.f.id).map Frag.spot = some (c.nextPc, c.f.mask &&& ~~~ T) ∧
        (y.frag c.x.nextFrag).map (fun f => (f.spot, f.rejoin, f.parent)) = some ((branchTarget c o, T),
          (match rj with | some r => some (branchTarget c r) | none => c.f.rejoin),
          (match rj with | some _ => some c.f.id | none => c.f.parent))) ∧
    (T ≠ c.f.mask → T ≠ 0#32 → c.x.frags.length < 76 → c.x.freeEntry = none →
      let a := (s.vd c.vd).saveBase + c.b.area.getD 0 + warpPart c.k c.w.wi + 16 * c.x.freeSlot
      s.tablesLack c.vd a = none → ∀ e z pa, s.s2 c.vd a 1 = .ok e z pa →
      ∃ t y, exec i s = .next t ∧ t.warp c.w = some y ∧ y.rwc = c.x.rwc + 1#64 ∧ y.sregs = c.x.sregs ∧ y.vregs = c.x.vregs ∧
        y.preds = c.x.preds ∧ y.mode = c.x.mode))

/-- `SYNCW`, `YIELD` and `SLEEP` (R316, R317). A fragment alone in its sibling group passes a `SYNCW`; one with a sibling that
is not there parks at it, and the `SYNCW` counts when the group merges (R256). A sleeping fragment waits for the time given. `EXIT` (R318): the lanes of the fragment end; the last
one of a warp first waits for its tags, its stores and copies. -/
def Obligations.FragmentInstructions : Prop :=
  (∀ (s : State) (c : Ctx) (a : BitVec 8), s.ctx = some c →
    (c.x.frags = [c.f] → c.f.mask ≠ 0#32 → c.NoJoin (c.pc + 4#64) →
      ∃ y, exec .syncw s = .next (s.setWarp c.w fun _ => y) ∧ Kept c.x y ∧
        (y.frag c.f.id).map (fun f => (f.spot, f.wait)) = some ((c.pc + 4#64, c.f.mask), .ready)) ∧
    ((∃ g ∈ c.x.frags, g.id ≠ c.f.id ∧ g.parent = c.f.parent ∧ g.rejoin = c.f.rejoin ∧ g.mask ≠ 0#32 ∧ g.wait ≠ .sync) →
      ∃ y, exec .syncw s = .next (s.setWarp c.w fun _ => y) ∧ y = { c.x with passStop := false, frags := y.frags } ∧
        (y.frag c.f.id).map (fun f => (f.spot, f.wait)) = some ((c.pc, c.f.mask), .sync)) ∧
    (c.NoJoin c.nextPc → ∃ y, exec .yield s = .next (s.setWarp c.w fun _ => y) ∧ Kept c.x y ∧
      (y.frag c.f.id).map (fun f => (f.spot, f.running, f.wait)) = some ((c.nextPc, c.f.mask), false, .ready)) ∧
    (c.Clear [sOp a 1] →
      (c.x.sf a.toNat ≠ 0#32 → Parks (.sleep a) s s c c.x (.sleep (s.ns + (c.x.sf a.toNat).toNat))) ∧
      (c.x.sf a.toNat = 0#32 → Ends (.sleep a) s c c.x c.nextPc))) ∧
  (∀ (s : State) (c : Ctx), s.ctx = some c →
    let last := c.x.exited ||| c.f.mask = 0xFFFFFFFF#32
    (last → (∃ k, k < 8 ∧ (c.x.counter (4 + k)).count ≠ 0) → Waits .exit s s c (.tags 0xFF)) ∧
    (last → (∀ k, k < 8 → (c.x.counter (4 + k)).count = 0) → (∃ k ∈ [1, 2, 3], (c.x.counter k).count ≠ 0) →
      Waits .exit s s c (.counters 511 0 0 0)) ∧
    ((¬ last ∨ ∀ k, 1 ≤ k → k < 12 → (c.x.counter k).count = 0 ∧ (c.x.counter k).err = none) →
      (∀ b, b < 16 → (look c.b.img.bars b {}).expect = none) → c.k.garrived = [] → c.x.arriving = [] →
      ∃ y, exec .exit s = .next (s.setWarp c.w fun _ => y) ∧ y.exited = (c.x.exited ||| c.f.mask) ∧ y.rwc = c.x.rwc + 1#64 ∧
        y.sregs = c.x.sregs ∧ y.vregs = c.x.vregs ∧ y.preds = c.x.preds ∧ y.accesses = c.x.accesses ∧
        (c.x.frags = [c.f] → c.f.parent = none → y.frags = [])))

/-- `TRAP` and `BRK` (R265, R289, R326), and a word that is no instruction (R286): the faults they take; a `BRK` that a debugger has
released is passed, and one met with a debugger attached halts the block, whose other quadrants may stop in the same cycle. -/
def Obligations.Traps : Prop :=
  ∀ (s : State) (c : Ctx) (k : BitVec 24) (w : Word), s.ctx = some c →
    Faults (.trap k) s c { code := 0x12, einfo := k.setWidth 32, epc := some c.nextPc } ∧
    Faults (.illegalOpcode w) s c { code := 0x01, einfo := w, lanes := some c.refusedMask } ∧
    (c.x.passStop = true → Ends (.brk k) s c c.x c.nextPc) ∧
    (c.x.passStop = false → (s.vd c.vd).attach = false →
      Faults (.brk k) s c { code := 0x13, einfo := k.setWidth 32, epc := some c.nextPc }) ∧
    (c.x.passStop = false → (s.vd c.vd).attach = true → c.b.halting = false → ∀ n, n < 16 → find (s.vd c.vd).halts n = none →
      (∀ m, m < n → find (s.vd c.vd).halts m ≠ none) →
      ∃ t, exec (.brk k) s = .next t ∧ find (t.vd c.vd).halts n = some c.w.blk ∧
        (t.blk c.w.blk).map (fun b => (b.place, b.halting)) = some (c.b.place, true) ∧
        (t.warp c.w).map Warp.stopCause = some 0x13 ∧ t.mem = s.mem) ∧
    (c.x.passStop = false → (s.vd c.vd).attach = true → c.b.halting = true →
      exec (.brk k) s = .next (s.setWarp c.w fun x => { x with stopCause := 0x13 }))

/-- Taking a handler-class fault (R288, R289): the registers it saves and the mode and address it goes on with, where a handler
is bound and free; the wait of a second fragment; and with no handler the kernel's abort with its record (R192, R290). `ERET`
(R327). -/
def Obligations.HandlerEntryAndReturn : Prop :=
  (∀ (s : State) (c : Ctx) (i : FaultInfo), s.ctx = some c →
    (∀ h, c.k.handler = some h → c.x.handler = false →
      ∃ y, takeFault c i = s.setWarp c.w (fun _ => y) ∧
        y.epc = i.epc.getD c.pc ∧ y.emode = c.x.mode ∧ y.mode = 0#32 ∧
        y.ecause = BitVec.ofNat 32 (i.code + 256 * i.atype + 65536 * i.log2w) ∧ y.einfo = i.einfo ∧ y.handler = true ∧
        y.sregs = c.x.sregs ∧ y.vregs = c.x.vregs ∧ y.preds = c.x.preds ∧ y.rwc = c.x.rwc ∧
        (y.frag c.f.id).map (fun f => (f.spot, f.inHandler)) = some ((h, c.f.mask), true) ∧
        ∀ n, n ≠ c.f.id → y.frag n = c.x.frag n) ∧
    (∀ h, c.k.handler = some h → c.x.handler = true → c.f.inHandler = false →
      takeFault c i = s.setFrag c.w c.f.id fun f => f.park .handler) ∧
    ((c.k.handler = none ∨ (c.x.handler = true ∧ c.f.inHandler = true)) → c.k.abort = none → c.k.complete = false →
      ∃ kn, (takeFault c i).kern c.b.kernel = some kn ∧ kn.abort = some i.code ∧ kn.left = 0)) ∧
  (∀ (s : State) (c : Ctx), s.ctx = some c →
    (c.f.inHandler = false → Faults .eret s c { code := 0x01, einfo := s.base }) ∧
    (c.f.inHandler = true → c.x.epc &&& 3#64 ≠ 0#64 → Faults .eret s c { code := 0x05, einfo := 0#32 }) ∧
    (c.f.inHandler = true → c.x.epc &&& 3#64 = 0#64 → c.NoJoin c.x.epc →
      ∃ y, exec .eret s = .next (s.setWarp c.w fun _ => y) ∧ y.mode = c.x.emode ∧ y.handler = false ∧ y.rwc = c.x.rwc + 1#64 ∧
        y.sregs = c.x.sregs ∧ y.vregs = c.x.vregs ∧ y.preds = c.x.preds ∧ y.epc = c.x.epc ∧ y.emode = c.x.emode ∧
        (y.frag c.f.id).map (fun f => (f.spot, f.inHandler)) = some ((c.x.epc, c.f.mask), false) ∧
        ∀ g ∈ y.frags, g.inHandler = false ∧ g.wait ≠ .handler))

-- ## Special registers and queries

/-- The 32-bit special registers of R292. -/
def Sys2Proof.specials (c : Ctx) : List (BitVec 8 × Word) :=
  let h := fun (v : Word) => if c.f.inHandler then v else 0#32
  [(0x00#8, BitVec.ofNat 32 c.w.wi), (0x01#8, BitVec.ofNat 32 c.b.x), (0x02#8, BitVec.ofNat 32 c.b.y), (0x03#8, BitVec.ofNat 32 c.b.z),
   (0x04#8, BitVec.ofNat 32 c.k.grid.1), (0x05#8, BitVec.ofNat 32 c.k.grid.2.1), (0x06#8, BitVec.ofNat 32 c.k.grid.2.2),
   (0x07#8, BitVec.ofNat 32 c.k.warps), (0x08#8, BitVec.ofNat 32 c.b.vdie), (0x09#8, BitVec.ofNat 32 (c.s.vd c.vd).nvdie),
   (0x0A#8, BitVec.ofNat 32 (c.g % 16)), (0x0B#8, BitVec.ofNat 32 c.vd), (0x0D#8, c.x.latch), (0x0F#8, c.x.latch), (0x11#8, c.x.latch),
   (0x12#8, c.s.wrefresh c.die), (0x13#8, c.b.img.gshape), (0x14#8, c.k.launchSeq), (0x15#8, BitVec.ofNat 32 c.x.frags.length),
   (0x16#8, c.x.vexecDone), (0x17#8, BitVec.ofNat 32 (256 * c.k.scratch)), (0x19#8, h c.x.latch), (0x1A#8, h c.x.ecause),
   (0x1B#8, h c.x.einfo), (0x1C#8, h c.x.emode)]

/-- `SRD` and `SWR` (R292, R293, R310). `VDQUERY` and `CAPQ` (R18, R321, R322). -/
def Obligations.SpecialRegistersAndQueries : Prop :=
  (∀ (s : State) (c : Ctx) (d a i : BitVec 8), s.ctx = some c →
    (0x1D ≤ i.toNat → Faults (.srd d i) s c { code := 0x01, einfo := s.base } ∧ Faults (.swr a i) s c { code := 0x01, einfo := s.base }) ∧
    (c.guard = true → c.Clear [sDst d] → (∀ p ∈ specials c, Ends (.srd d p.1) s c (c.x.setSf d.toNat p.2) c.nextPc) ∧
      (c.b.proof = none → c.b.replay = none → ∀ p ∈ [(0x0C#8, BitVec.ofNat 64 (s.vclock c.vd)), (0x0E#8, BitVec.ofNat 64 s.ns),
          (0x10#8, c.x.rwc), (0x18#8, if c.f.inHandler then c.x.epc else 0#64)],
        Ends (.srd d p.1) s c ({ c.x with latch := p.2.extractLsb' 32 32 }.setSf d.toNat (p.2.extractLsb' 0 32)) c.nextPc)) ∧
    (c.guard = true → c.Clear [sOp a 1] →
      let v := c.x.sf a.toNat
      (c.f.inHandler = true →
        Ends (.swr a 0x18#8) s c { c.x with epc := c.x.epc.extractLsb' 32 32 ++ v } c.nextPc ∧
        Ends (.swr a 0x19#8) s c { c.x with epc := v ++ c.x.epc.extractLsb' 0 32 } c.nextPc ∧
        (mRnd v < 5 → mGp v < 48 → Ends (.swr a 0x1C#8) s c { c.x with emode := v &&& 0x3FFFF#32 } c.nextPc) ∧
        (5 ≤ mRnd v → Faults (.swr a 0x1C#8) s c { code := 0x04, einfo := BitVec.ofNat 32 (mType v + 16 * mRnd v) })) ∧
      (i.toNat < 0x1D → c.f.inHandler = false ∨ i ∉ [0x18#8, 0x19#8, 0x1C#8] → Ends (.swr a i) s c c.x c.nextPc))) ∧
  (∀ (s : State) (c : Ctx) (d a b : BitVec 8), s.ctx = some c → c.guard = true →
    (c.Clear [sDst d, sOp a 1, sOp b 2] →
      let i := (c.x.sf a.toNat).toNat
      let j := (c.x.sf b.toNat).toNat
      let n := (s.vd c.vd).nvdie
      (n ≤ i ∨ n ≤ j → Ends (.vdquery d a b) s c (c.x.setSf d.toNat 0xFFFFFFFF#32) c.nextPc) ∧
      (∀ p q, i < n → j < n → (s.vd c.vd).pdie i = some p → (s.vd c.vd).pdie j = some q →
        Ends (.vdquery d a b) s c (c.x.setSf d.toNat (BitVec.ofNat 32 (if p = q then 0 else if p / 4 = q / 4 then 2
          else 2 + min (max (p / 4) (q / 4) - min (p / 4) (q / 4)) (8 - (max (p / 4) (q / 4) - min (p / 4) (q / 4)))))) c.nextPc)) ∧
    (c.Clear [sDst d, sOp a 1] →
      let e := s.cap c.vd (c.x.sf a.toNat).toNat
      Ends (.capq d a) s c (c.x.setSf d.toNat
        (if (c.x.sf a.toNat).toNat < 4096 ∧ bit e 31 = true then BitVec.ofNat 32 (1 + 2 * bits e 27 22 + 65536 * bits e 47 32) else 0#32))
        c.nextPc))

/-- The issuing warp once its fragment has noted a store, atomic, barrier, copy, `KICK` or `LAUNCH` for the spin detector (R181). -/
def Sys2Proof.notedWarp (c : Ctx) (x : Warp) : Warp := x.setFrag c.f.id fun f => f.stores true

/-- `KICK`, `LAUNCH` and `MARK` (R263, R323–R325, R329): an offer to a queue of the own device; a child kernel's packet
published in the device-launch ring with its number; a sample record. Offers (R113): a tail that moves forward within the ring
is taken, one that moves back counts as stale, one beyond the ring sets `OVERKICK`, one to a disabled queue sets `DISKICK`;
every offer asks for the slot to be read again, and a waiting `WAIT_SIGNAL` to be tested again (R127); a virtual device that is being
reset or has failed, or that is `FREE`, ignores them (R120). -/
def Obligations.QueueInstructionsAndOffers : Prop :=
  (∀ (s : State) (c : Ctx) (h : Option (BitVec 24)) (d a b i : BitVec 8), s.ctx = some c → c.guard = true → c.b.replay = none →
    (c.Clear [sOp a 1, sOp b 2] →
      let q := (c.x.sf a.toNat).toNat
      (q < 64 → EndsIn (.kick a b) s ((c.noted s).offer c.vd q (c.x.sf b.toNat)) c (notedWarp c c.x) c.nextPc) ∧
      (64 ≤ q → EndsIn (.kick a b) s s c (notedWarp c c.x) c.nextPc)) ∧
    (c.Clear [sDst d, { k := .sg, val := a.toNat, code := 1 }] →
      let k := s.queue c.vd 64
      let v := s.vd c.vd
      let va := k.ring.toNat + 64 * (k.tail.toNat % 2 ^ k.log2)
      ((v.dlq = 0#64 ∨ k.stopped = true ∨ k.enabled = false) → Faults (.launch d a) s c { code := 0x07, einfo := 5#32 }) ∧
      (v.dlq ≠ 0#64 → k.stopped = false → k.enabled = true → (k.tail - k.head).toNat < 2 ^ k.log2 → c.b.proof = none →
        s.released c.g c.vd c.w c.x 2 = true → ∀ u pa, s.translate c.place c.vd 0 va 1 = (u, .ok pa) → u.agentMay (pa / 128) true = true →
        EndsIn (.launch d a) s (u.publish c.vd c.k.asid (childPacket c.x a.toNat (k.tail.toNat / 2 ^ k.log2 % 65536)) pa) c
          (notedWarp c (c.x.setSf d.toNat v.launchSeq)) c.nextPc)) ∧
    (c.Clear [sOp a 1] →
      (bit (s.vd c.vd).smpcfg.toNat 0 = false → Ends (.mark h a i) s c c.x c.nextPc) ∧
      (bit (s.vd c.vd).smpcfg.toNat 0 = true →
        let q := 4 * c.g + c.w.wi % 4
        let n := look (s.vd c.vd).smpSeq q 0
        let u := s.setVd c.vd fun v => { v with smpSeq := put v.smpSeq q (n + 1) }
        EndsIn (.mark h a i) s (u.sampleRecord c.vd (sampleBytes (s.vclock c.vd) (bits c.pc.toNat 47 0) c.vd c.die c.g (c.w.wi % 4)
          c.x.slot 14 false c.x.rwc.toNat (c.x.sf a.toNat + immOf h false i).toNat n)) c c.x c.nextPc))) ∧
  (∀ (s : State) (v q : Nat) (w : Word), (s.vd v).state ∈ [.configured, .active, .suspended] →
    let k := { s.queue v q with reread := true, started := (s.queue v q).started.map Packet.retest }
    let k' := (s.offer v q w).queue v q
    (k.enabled = false → k' = { k with diskick := true }) ∧
    (k.enabled = true → w = k.tail → k' = k) ∧
    (k.enabled = true → (w - k.tail).msb = true → k' = { k with stale := k.stale + 1#32 }) ∧
    (k.enabled = true → w ≠ k.tail → (w - k.tail).msb = false → (w - k.head).toNat ≤ 2 ^ k.log2 → k' = { k with tail := w }) ∧
    (k.enabled = true → w ≠ k.tail → (w - k.tail).msb = false → 2 ^ k.log2 < (w - k.head).toNat → k' = { k with overkick := true }) ∧
    (∀ u p, u ≠ v ∨ p ≠ q → (s.offer v q w).queue u p = s.queue u p)) ∧
  (∀ (s : State) (v q : Nat) (w : Word), (s.vd v).state ∈ [.killing, .faulted, .free] → s.offer v q w = s)

-- ## Memory instructions

/-- What completion leaves (R201, R256): nothing but the issuing warp changes, it counts the instruction, and where no
reconvergence is due its fragment stands behind the instruction, every other fragment where it stood. -/
def Obligations.Completion : Prop :=
  ∀ (s u : State) (c : Ctx) (x : Warp) (pc : DWord), s.ctx = some c → u.warp c.w = some x →
    x.frags.map (fun f => (f.id, f.pc, f.mask, f.parent, f.rejoin)) = c.x.frags.map (fun f => (f.id, f.pc, f.mask, f.parent, f.rejoin)) →
    ∃ y, retireTo c u pc id = u.setWarp c.w (fun _ => y) ∧ Kept x y ∧ StandsAt c pc y

/-- The access of `SLD` (R319). -/
def Sys2Proof.scalarLoad (o : Option OPfx) (d : BitVec 8) (w : BitVec 3) (st : Bool) (l pa : Nat) : Access :=
  { id := 0, kind := .sload, line := some (pa / 128), lanes := [(l, pa)], width := 2 ^ w.toNat, dst := some (d.toNat, true),
    pc := 0#64, frag := 0, bypass := strongDv o, stream := st, acq := acqOf o 2, instr := 0 }

/-- Loads (R353–R361, R319) as they issue: the destination's inactive lanes follow the zero policy, and one access for each line goes
out; without an active lane nothing is accessed. `LDGNF` loads 0 in the lanes of non-present pages and says in its predicate which lanes
are on resident ones (R358). -/
def Obligations.Loads : Prop :=
  ∀ (s : State) (c : Ctx) (o : Option OPfx) (p : Option VPfx) (q : VPfx) (d a : BitVec 8) (m : MFld) (w : BitVec 3) (st : Bool)
    (u : State) (pas : List Nat), s.ctx = some c →
    (let e := c.eff p
     let lanes := globalLanes c.x a m e.mask
     let as := loadAccesses o d m e.type (physical lanes pas)
     let v := u.setWarp c.w fun x => x.zeroLanes d.toNat (widthRegs m.w) e
     typeBad p e bitTypes = none → c.VClear p (vDst (widthRegs m.w) d :: addrOps a m) → misaligned (widthOf m.w) lanes = none →
     c.Maps 0 m.w.toNat lanes pas u →
     (c.Room v 0 as → Completes (.ldg o p d a m) s (c.issued v 0 true as) c) ∧ (lanes = [] → Completes (.ldg o p d a m) s v c)) ∧
    (let e := c.eff (some q)
     let lanes := globalLanes c.x a m e.mask
     let as := loadAccesses o d m e.type (physical lanes pas)
     let v := u.setWarp c.w fun x =>
       let y := x.zeroLanes d.toNat (widthRegs m.w) e
       y.setP (predC (some q)) (writeMask (y.pred (predC (some q))) 0#32 e.mask e.zero e.mask)
     typeBad (some q) e bitTypes = none → c.VClear (some q) (vDst (widthRegs m.w) d :: addrOps a m ++ predCOp (some q)) →
     misaligned (widthOf m.w) lanes = none → c.Maps 0 m.w.toNat lanes pas u →
     c.Room v 0 as → Completes (.ldgnf o q d a m) s (c.issued v 0 true as) c) ∧
    (let e := c.eff (some q)
     let lanes := globalLanes c.x a m e.mask
     typeBad (some q) e bitTypes = none → c.VClear (some q) (vDst (widthRegs m.w) d :: addrOps a m ++ predCOp (some q)) →
     misaligned (widthOf m.w) lanes = none → c.Calm → c.sample = none → c.watched 0 (2 ^ m.w.toNat) lanes = none →
     ∀ ts, transLanes c.place c.vd c.k.asid 0 c.s lanes = (u, ts) →
     (∀ t ∈ ts, (∃ pa, t.2.2 = .ok pa) ∨ ∃ code s2, t.2.2 = .replay code s2 true) →
     let here := ts.filterMap fun t => match t.2.2 with
       | .ok pa => some (t.1, pa)
       | _ => none
     let away := maskOf ((ts.filter fun t => match t.2.2 with
       | .ok _ => false
       | _ => true).map fun t => t.1)
     let as := loadAccesses o d m e.type here
     let v := u.setWarp c.w fun x =>
       let y := (x.zeroLanes d.toNat (widthRegs m.w) e).writeGroup d.toNat (widthRegs m.w) 0#32 away false fun _ => 0
       y.setP (predC (some q)) (writeMask (y.pred (predC (some q))) 0#32 e.mask e.zero (e.mask &&& ~~~ away))
     (as = [] → Completes (.ldgnf o q d a m) s v c) ∧ (c.Room v 0 as → Completes (.ldgnf o q d a m) s (c.issued v 0 true as) c)) ∧
    (let e := c.eff p
     let r := s.region c.die c.vd
     let lanes := (lanesOf e.mask).map fun l => (l, localAddr c.x a m l)
     let as := (loadAccesses none d m e.type (lanes.map fun l => (l.1, r.base * 2 ^ 20 + l.2))).map fun a => { a with weight := true }
     typeBad p e bitTypes = none → c.VClear p (vDst (widthRegs m.w) d :: localOps a m) → misaligned (widthOf m.w) lanes = none →
     c.Calm → lanes ≠ [] → r.valid = true → (∀ l ∈ lanes, l.2 < r.size * 2 ^ 20) →
     ∀ sl, (s.seal c.die c.vd).read c.b.kernel = .ok sl →
     let v := (s.setDie c.die fun x => { x with seals := put x.seals c.vd sl }).setWarp c.w fun x => x.zeroLanes d.toNat (widthRegs m.w) e
     c.Room v 0 as → Completes (.ldw p d a m) s (c.issued v 0 true as) c) ∧
    (let l := lowLane c.f.mask
     let va := (c.x.spair a.toNat).toNat
     c.guard = true → c.Clear [{ scalarData d w with reads := false, writes := true }, spOp a 1] → va % 2 ^ w.toNat = 0 →
     ∀ pa, c.Maps 0 w.toNat [(l, va)] [pa] u →
     let as := [scalarLoad o d w st l pa]
     c.Room u 0 as → Completes (.sld o d a w st) s (c.issued u 0 true as) c)

/-- The access of a store to one line (R357). -/
def Sys2Proof.storeAccess (c : Ctx) (o : Option OPfx) (d : BitVec 8) (m : MFld) (g : Nat × List (Nat × Nat)) : Access :=
  { id := 0, kind := .store, line := some g.1, lanes := g.2, width := widthOf m.w, pc := 0#64, frag := 0, instr := 0,
    args := g.2.map fun l => (l.1, c.x.groupN d.toNat (widthRegs m.w) l.1, 0), bypass := m.c || strongDv o }

/-- The access of `SST` (R319). -/
def Sys2Proof.scalarStore (c : Ctx) (o : Option OPfx) (d : BitVec 8) (w : BitVec 3) (st : Bool) (l pa id : Nat) : Access :=
  { id := id, inc := c.s.lineInc (pa / 128), kind := .store, line := some (pa / 128), lanes := [(l, pa)], width := 2 ^ w.toNat,
    args := [(l, if w = 3#3 then (c.x.spair d.toNat).toNat else (c.x.sf d.toNat).toNat, 0)], pc := c.pc, frag := c.f.id,
    vd := c.vd, bypass := st || strongDv o, instr := 0 }

/-- Stores (R207, R319, R357) as they issue: their bytes enter the cluster's write-combining buffer, line by line, and memory is not
written yet. A store comes after the warp's atomics and strong loads of its lines (R223, log 48), and its release passes on the remote
operations before it (R225). -/
def Obligations.Stores : Prop :=
  ∀ (s : State) (c : Ctx) (o : Option OPfx) (p : Option VPfx) (d a : BitVec 8) (m : MFld) (w : BitVec 3) (st : Bool)
    (u : State) (pas : List Nat), s.ctx = some c →
    (let e := c.eff p
     let lanes := globalLanes c.x a m e.mask
     let as := (byLine (physical lanes pas)).map (storeAccess c o d m)
     typeBad p e bitTypes = none → c.VClear p ({ vOp (widthRegs m.w) d 0 with code := 0 } :: addrOps a m) →
     let r := c.passed o 2
     misaligned (widthOf m.w) lanes = none → c.Released o 2 → r.Maps 1 m.w.toNat lanes pas u →
     u.wcbRoom c.g c.vd (as.filterMap fun a => a.line) = true → c.x.strongOut (as.filterMap fun a => a.line) = false →
     (c.Room u 1 as → Completes (.stg o p d a m) s
       ((numbered r u.nextId [as]).foldl (fun t a => t.setCl c.g fun k => k.store c.w a (a.line.getD 0)) (r.issued u 1 false as)) c) ∧
     (lanes = [] → Completes (.stg o p d a m) s u c)) ∧
    (let l := lowLane c.f.mask
     let va := (c.x.spair a.toNat).toNat
     c.guard = true → c.Clear [scalarData d w, spOp a 1] → va % 2 ^ w.toNat = 0 → Ctx.Released { c with s := u } o 2 →
     ∀ pa, c.Maps 1 w.toNat [(l, va)] [pa] u →
     let r := Ctx.passed { c with s := u } o 2
     let a' := scalarStore r o d w st l pa (u.nextId + 1)
     r.s.wcbRoom c.g c.vd [pa / 128] = true → c.x.strongOut [pa / 128] = false → r.Room r.s 1 [a'] →
     Completes (.sst o d a w st) s ((r.issued r.s 1 false [a']).setCl c.g fun k => k.store c.w a' (pa / 128)) c)

/-- The scratchpad (R204, R360, R371, R372): `LDS` reads the window at issue; `STS` writes it lane by lane; the atomics apply the
lanes in ascending order and return the old values. -/
def Obligations.Scratchpad : Prop :=
  ∀ (s : State) (c : Ctx) (o : Option OPfx) (p : Option VPfx) (d a : BitVec 8) (m : MFld), s.ctx = some c → c.Calm →
    let e := c.eff p
    let n := widthRegs m.w
    scratchBad c.x (256 * c.k.scratch) a m e.mask = none →
    (typeBad p e bitTypes = none → c.VClear p (vDst n d :: localOps a m) →
      let z := c.x.writeGroup d.toNat n 0#32 e.mask e.zero fun l =>
        extendLoad e.type (widthOf m.w) (c.b.img.scratch.readNat (localAddr c.x a m l) (widthOf m.w))
      Ends (.lds o p d a m) s c (z.setFrag c.f.id fun f => { f with
        iter := if e.mask = 0#32 then f.iter else f.iter ++ [(0, 0, (lanesOf e.mask).flatMap fun l =>
          (List.range n).map fun r => (4 * l + r, z.lane (d.toNat + r) l))] }) c.nextPc) ∧
    (typeBad p e bitTypes = none → c.VClear p ({ vOp n d 0 with code := 0 } :: localOps a m) → c.Released o 1 →
      Completes (.sts o p d a m) s
        (((c.passed o 1).s.setImg c.w.blk fun i => { i with scratch := (lanesOf e.mask).foldl (fun mem l =>
          mem.storeNat (localAddr c.x a m l) (widthOf m.w) (c.x.groupN d.toNat n l)) i.scratch }).setFrag c.w c.f.id fun f =>
            f.stores (e.mask != 0#32)) c) ∧
    (∀ q ∈ [(0, Instr.atomsAdd o p d a m), (1, .atomsMin o p d a m), (2, .atomsMax o p d a m), (3, .atomsAnd o p d a m),
        (4, .atomsOr o p d a m), (5, .atomsXor o p d a m), (6, .atomsExch o p d a m)] ++
        (match o with | some r => [(9, .atomsCas r p d a m)] | none => []),
      typeBad p e (atomTypesAt q.1 m.w) = none →
      c.VClear p ({ vDst n d with reads := true, writes := !nrOf o } :: localOps a m ++ cmpOps q.1 n o) → c.Released o 1 →
      let r := atomsRun q.1 e.type (widthOf m.w) c.b.img.scratch ((lanesOf e.mask).map fun l =>
        (l, localAddr c.x a m l, c.x.groupN d.toNat n l, cmpVal c.x q.1 n o l))
      Completes q.2 s (((c.passed o 1).s.setImg c.w.blk fun i => { i with scratch := r.1 }).setWarp c.w fun x =>
        (if nrOf o then x else x.writeGroup d.toNat n 0#32 e.mask e.zero fun l => ((r.2.find? fun v => v.1 = l).getD (0, 0)).2).setFrag
          c.f.id fun f => f.stores (e.mask != 0#32)) c)

/-- The access of an atomic to one line (R373). -/
def Sys2Proof.atomAccess (c : Ctx) (op t : Nat) (o : Option OPfx) (d : BitVec 8) (m : MFld) (lanes : List (Nat × Nat))
    (g : Nat × List (Nat × Nat)) : Access :=
  { id := 0, kind := if farOf o then .far op t else .near op t, line := some g.1, lanes := g.2, width := widthOf m.w,
    dst := if nrOf o then none else some (d.toNat, false), pc := 0#64, frag := 0, instr := 0,
    args := g.2.map fun l => (l.1, c.x.groupN d.toNat (widthRegs m.w) l.1, cmpVal c.x op (widthRegs m.w) o l.1), acq := acqOf o 2,
    va := ((lanes.find? fun l => (g.2.head?).any fun h => h.1 = l.1).getD (0, 0)).2 }

/-- The access of `SATOM` (R320). -/
def Sys2Proof.scalarAtomic (c : Ctx) (o : Option OPfx) (d : BitVec 8) (l va pa : Nat) : Access :=
  { id := 0, kind := .far 0 0, line := some (pa / 128), lanes := [(l, pa)], width := 4,
    dst := if nrOf o then none else some (d.toNat, true), pc := 0#64, frag := 0, instr := 0,
    args := [(l, (c.x.sf d.toNat).toNat, 0)], acq := acqOf o 2, va := va }

/-- The results of atomics (R371): integers, bits, comparands, and `FADD`, which adds each element of its type, rounded to nearest even
with subnormals kept (R371). Global atomics (R320, R371–R374) as they issue: near ones are outstanding until their line can be written; far
ones send their requests to the home, behind the warp's own accesses to their lines and its cluster's bytes of them (R223, log 48); those
without a return count as stores. -/
def Obligations.GlobalAtomics : Prop :=
  (∀ (t x a c : Nat), let w := if typeRegs t = 2 then 64 else 32
    x < 2 ^ w → a < 2 ^ w →
    atomNew 0 t x a c = (x + a) % 2 ^ w ∧
    atomNew 1 t x a c = (if intVal (isSigned t) w x ≤ intVal (isSigned t) w a then x else a) ∧
    atomNew 2 t x a c = (if intVal (isSigned t) w x ≤ intVal (isSigned t) w a then a else x) ∧
    atomNew 3 t x a c = x &&& a ∧ atomNew 4 t x a c = x ||| a ∧ atomNew 5 t x a c = x ^^^ a ∧ atomNew 6 t x a c = a ∧
    atomNew 7 t x a c = (if a ≤ x then 0 else x + 1) ∧ atomNew 9 t x a c = (if x = c then a else x) ∧
    (t ∈ floatTypes → ∀ k, k < elemCount t → let m := fmtOf t
      elemAt t (atomNew 8 t x a c) k = m.addRne (elemAt t x k) (elemAt t a k) % 2 ^ elemBits t ∧
      ((m.dec (elemAt t x k)).isNan = true ∨ (m.dec (elemAt t a k)).isNan = true →
        elemAt t (atomNew 8 t x a c) k = m.nanBits % 2 ^ elemBits t)) ∧
    (∀ op ∈ [0, 1, 2, 3, 4, 5, 6, 9], atomNew op t x a c < 2 ^ w)) ∧
  (∀ (s : State) (c : Ctx) (o : Option OPfx) (p : Option VPfx) (d a : BitVec 8) (m : MFld) (u : State) (pas : List Nat),
    s.ctx = some c → 
    let e := c.eff p
    let n := widthRegs m.w
    let lanes := globalLanes c.x a m e.mask
    let r := c.passed o 2
    (c.Released o 2 → ∀ q ∈ [(0, Instr.atomgAdd o p d a m), (1, .atomgMin o p d a m), (2, .atomgMax o p d a m), (3, .atomgAnd o p d a m),
        (4, .atomgOr o p d a m), (5, .atomgXor o p d a m), (6, .atomgExch o p d a m), (7, .atomgIncw o p d a m), (8, .atomgFadd o p d a m)] ++
        (match o with | some r => [(9, .atomgCas r p d a m)] | none => []),
      typeBad p e (atomTypesAt q.1 m.w) = none →
      c.VClear p ({ vDst n d with reads := true, writes := !nrOf o } :: addrOps a m ++ cmpOps q.1 n o) →
      misaligned (widthOf m.w) lanes = none → r.Maps 2 m.w.toNat lanes pas u →
      let v := if nrOf o then u else u.setWarp c.w fun x => x.zeroLanes d.toNat n e
      let as := (byLine (physical lanes pas)).map (atomAccess c q.1 e.type o d m lanes)
      (farOf o = false → c.Room v (if nrOf o then 1 else 0) as →
        Completes q.2 s (r.issued v (if nrOf o then 1 else 0) false as) c) ∧
      (farOf o = true → c.x.follows (as.map fun a => a.line) = false →
        (∀ a ∈ as, ∀ l, a.line = some l → v.l1Written c.g l = false) → ∀ v' as',
        sendAllFar r q.1 e.type (if typeRegs e.type = 2 then 8 else 4) (nrOf o) v as = (v', as') → c.Room v' (if nrOf o then 1 else 0) as' →
        Completes q.2 s (r.issued v' (if nrOf o then 1 else 0) false as') c)) ∧
    (let l := lowLane c.f.mask
     let va := (c.x.spair a.toNat).toNat
     c.guard = true → c.Clear [{ sOp d 0 with writes := !nrOf o }, spOp a 1] → va % 4 = 0 → ∀ pa, c.Maps 2 2 [(l, va)] [pa] u →
     Ctx.Released { c with s := u } o 2 →
     let r := Ctx.passed { c with s := u } o 2
     c.x.follows [some (pa / 128)] = false → r.s.l1Written c.g (pa / 128) = false → ∀ v' as',
     sendAllFar r 0 0 4 (nrOf o) r.s [scalarAtomic c o d l va pa] = (v', as') →
     c.Room v' (if nrOf o then 1 else 0) as' → Completes (.satom o d a) s (r.issued v' (if nrOf o then 1 else 0) false as') c))

/-- Alignment and range (R354, R360): a memory instruction with a misaligned active lane takes `MISALIGNED` with those lanes, one that
leaves the scratchpad `SCRATCH_RANGE`; neither accesses anything. -/
def Obligations.AlignmentFaults : Prop :=
  ∀ (s : State) (c : Ctx) (o : Option OPfx) (p : Option VPfx) (d a : BitVec 8) (m : MFld), s.ctx = some c → c.Calm →
    let e := c.eff p
    let n := widthRegs m.w
    let lanes := globalLanes c.x a m e.mask
    let bad := maskOf ((lanes.filter fun l => l.2 % widthOf m.w != 0).map fun l => l.1)
    let off := maskOf ((lanesOf e.mask).filter fun l => localAddr c.x a m l % widthOf m.w != 0)
    let out := maskOf ((lanesOf e.mask).filter fun l => 256 * c.k.scratch < localAddr c.x a m l + widthOf m.w)
    typeBad p e bitTypes = none →
    (bad ≠ 0#32 →
      (c.VClear p (vDst n d :: addrOps a m) → Faults (.ldg o p d a m) s c { code := 0x05, einfo := bad, lanes := some e.mask }) ∧
      (c.VClear p ({ vOp n d 0 with code := 0 } :: addrOps a m) →
        Faults (.stg o p d a m) s c { code := 0x05, einfo := bad, lanes := some e.mask })) ∧
    (off ≠ 0#32 → c.VClear p (vDst n d :: localOps a m) →
      Faults (.lds o p d a m) s c { code := 0x05, einfo := off, lanes := some e.mask }) ∧
    (off = 0#32 → out ≠ 0#32 →
      (c.VClear p (vDst n d :: localOps a m) → Faults (.lds o p d a m) s c { code := 0x09, einfo := out, lanes := some e.mask }) ∧
      (c.VClear p ({ vOp n d 0 with code := 0 } :: localOps a m) →
        Faults (.sts o p d a m) s c { code := 0x09, einfo := out, lanes := some e.mask }))

/-- `PREF`, `CFLUSH` and `PGREQ` (R155, R362): lanes that do not translate are skipped; a prefetch is counted nowhere, a flush in the
class of stores, without being one for the spin detector (R181);
a page request reports every non-present page without waiting. -/
def Obligations.LineInstructions : Prop :=
  ∀ (s : State) (c : Ctx) (p : Option VPfx) (a : BitVec 8) (m : MFld) (u : State) (ts : List (Nat × Nat × Tr)), s.ctx = some c →
    c.Calm → c.VClear p (addrOps a m) →
    transLanes c.place c.vd c.k.asid 0 c.s (globalLanes c.x a m (c.eff p).mask) = (u, ts) → (∀ t ∈ ts, t.2.2 ≠ .busy) →
    let ls := byLine (ts.filterMap fun t => match t.2.2 with
      | .ok pa => some (t.1, pa)
      | _ => none)
    let pref := ls.zipIdx.map fun g =>
      { id := u.nextId + g.2, kind := .pref (!m.c), line := some g.1.1, lanes := [], width := 0, pc := c.pc,
        frag := c.f.id, vd := c.vd, die := c.die, instr := u.nextId + g.2, inc := u.lineInc g.1.1 : Access }
    let flush := ls.map fun g =>
      { id := 0, kind := .flush m.c, line := some g.1, lanes := [], width := 0, pc := 0#64, frag := 0, instr := 0 : Access }
    let absent := fun (t : Nat × Nat × Tr) => match t.2.2 with
      | .replay _ _ absent => absent
      | _ => false
    Completes (.pref p a m) s ({ u with nextId := u.nextId + ls.length }.setWarp c.w fun x => { x with accesses := x.accesses ++ pref }) c ∧
    (c.Room u 1 flush → Completes (.cflush p a m) s ({ u with nextId := u.nextId + 1 + ls.length }.setWarp c.w fun x =>
      { x with accesses := x.accesses ++ numbered c u.nextId [flush] }.addClass 1 1) c) ∧ (ls = [] → Completes (.cflush p a m) s u c) ∧
    Completes (.pgreq p a m) s
      (u.report c.vd (pageRecords ((replays (ts.filter absent)).map fun f => (f.1, f.2.1, 0x06, f.2.2.2)) (c.recBase 8 7))) c

/-- Memory as the model holds it (R5, R67): a byte read back is the byte written last, a store changes no other byte, and numbers
are little-endian; every store keeps the canonical form. -/
def Obligations.MemoryLaws : Prop :=
  ∀ (m : Memory) (a : Nat) (bs : List Byte), m.wf = true →
    (m.store a bs).wf = true ∧ (∀ k, k < bs.length → (m.store a bs).read (a + k) = bs.getD k 0#8) ∧
    (∀ b, b < a ∨ a + bs.length ≤ b → (m.store a bs).read b = m.read b) ∧
    (∀ n v, v < 2 ^ (8 * n) → (m.storeNat a n v).readNat a n = v) ∧
    (∀ n, m.readNat a (n + 1) = (m.read a).toNat + 256 * m.readNat (a + 1) n) ∧
    (∀ m' : Memory, m'.wf = true → (∀ b, m.read b = m'.read b) → m = m')

/-- The instructions that only move data between registers leave every byte of memory alone, whatever
they come to: a result, a fault or an interlock. -/
def Obligations.RegisterFrame : Prop :=
  ∀ (s t : State) (p : Option VPfx) (h : Option (BitVec 24)) (n : BitVec 6) (d a b i : BitVec 8),
    ∀ j ∈ (scalarRegs d a b).map Prod.fst ++ (scalarUnary h n d a i).map Prod.fst ++ (vectorPairs p d a b).map Prod.fst ++
        (vectorUnary p h n d a i).map Prod.fst ++ (floatPairs p d a b).map Prod.fst ++ (floatUnary p d a).map Prod.fst ++
        (comparisons p d a b).map Prod.fst,
      exec j s = .next t → ∀ addr, t.mem.read addr = s.mem.read addr

-- ## Synchronisation

/-- `FENCE`, `WAITC`, `WAITT` and `TAGQ` (R375, R389–R392). Named barriers (R376, R377): a `BAR` parks its fragment behind it and then
counts its arrival, a `BARARV` goes on and counts it; the arrival of a fragment that is its warp's only one adds to the count, or ends the
phase, which wakes a parked fragment and counts its `BAR` (R256). An arrival is a release (R226), which passes on the remote operations
before it (R225). `BARWAIT` passes a phase that has ended. -/
def Obligations.BarriersAndWaits : Prop :=
  (∀ (s : State) (c : Ctx) (o : OPfx) (ld st cp tl : BitVec 6) (m d : BitVec 8), s.ctx = some c → c.guard = true →
    (c.Clear [] →
      (c.Calm → c.Released (some o) 2 → (c.x.counter 1).err = none →
        let r := (c.passed (some o) 2).s
        (o.ord.toNat % 2 = 0 → Completes (.fence o) s r c) ∧
        (o.ord.toNat % 2 = 1 → (∀ a ∈ c.x.accesses, a.dst = none) → r.canAcquire c.g c.vd o.scope.toNat = true →
          Completes (.fence o) s (r.acquire c.g c.die c.vd o.scope.toNat) c)) ∧
      (let lims := [ld.toNat, st.toNat, cp.toNat, tl.toNat]
       let at0 := c.f.waited.getD ((List.range 4).filter fun k => (c.x.counter k).count != 0)
       ((∃ k, k < 4 ∧ lims.getD k 0 < (c.x.counter k).count) →
         exec (.waitc ld st cp tl) s = .next (s.setFrag c.w c.f.id fun f =>
           ({ f with waited := some at0 } : Frag).park (.counters ld.toNat st.toNat cp.toNat tl.toNat))) ∧
       ((∀ k, k < 4 → (c.x.counter k).count ≤ lims.getD k 0) → (∀ k ∈ [1, 2, 3], (c.x.counter k).err = none) →
         Completes (.waitc ld st cp tl) s (s.setFrag c.w c.f.id fun f => { f with waited := none }) c)) ∧
      ((∃ k, k < 8 ∧ m.getLsbD k = true ∧ (c.x.counter (4 + k)).count ≠ 0) → Waits (.waitt m) s s c (.tags m.toNat)) ∧
      ((∀ k, k < 8 → m.getLsbD k = true → (c.x.counter (4 + k)).count = 0 ∧ (c.x.counter (4 + k)).err = none) →
        Ends (.waitt m) s c c.x c.nextPc)) ∧
    (c.Clear [sDst d] → ∃ v : Word, Ends (.tagq d) s c (c.x.setSf d.toNat v) c.nextPc ∧
      v.toNat < 2 ^ 16 ∧ ∀ k, k < 8 → v.getLsbD k = ((c.x.counter (4 + k)).count != 0) ∧ v.getLsbD (8 + k) = (c.x.counter (4 + k)).err.isSome)) ∧
  (∀ (s : State) (c : Ctx) (a : BitVec 8) (k : BitVec 4), s.ctx = some c → c.guard = true → c.Clear [sOp a 1] →
    (c.x.counter 1).err = none →
    let b := k.toNat
    let old := look c.b.img.bars b {}
    (let mine := look c.x.arrived b old.phase
     (mine < old.phase → Completes (.barwait a k) s (c.noted s) c) ∧
     (old.phase ≤ mine → exec (.barwait a k) s = .next (parkBehind c (c.noted s) (.bar b mine)))) ∧
    (c.Quiet → s.released c.g c.vd c.w c.x 1 = true →
      let r := c.noted (s.passRemotes c.w 1)
      let v := (c.x.sf a.toNat).toNat
      exec (.bar a k) s = .next (c.arrive (parkBehind c r (.bar b old.phase)) b v) ∧
      exec (.bararv a k) s = .next (c.arrive (retireTo c r c.nextPc id) b v) ∧
      (c.x.frags = [c.f] → c.x.arriving = [] → old.arrived.contains c.w.wi = false →
        ∀ want zero, old.expect.getD (if v % 256 = 0 then (c.k.warps, true) else (v % 256, false)) = (want, zero) →
        let mine := old.arrived ++ [c.w.wi]
        let total := old.count + 1 + if zero then (c.b.img.gone.filter fun w => !mine.contains w).length else 0
        (total < want → ∀ i ∈ [Instr.bar a k, .bararv a k], ∃ t x, exec i s = .next t ∧ t.blk c.w.blk = some x ∧ x.phases = c.b.phases ∧
          look x.img.bars b {} = { old with count := old.count + 1, arrived := mine, expect := some (want, zero) }) ∧
        (want ≤ total → c.b.stepping = false → c.b.proof = none → c.NoJoin c.nextPc →
          (∀ i ∈ [Instr.bar a k, .bararv a k], ∃ t x, exec i s = .next t ∧ t.blk c.w.blk = some x ∧ x.phases = c.b.phases + 1 ∧
            look x.img.bars b {} = { phase := old.phase + 1, count := if old.arrived = [] then min (total - want) old.count else 0 }) ∧
          ∃ t y, exec (.bar a k) s = .next t ∧ t.warp c.w = some y ∧ y.rwc = c.x.rwc + 1#64 ∧
            (y.frag c.f.id).map (fun f => (f.spot, f.wait, f.owes)) = some ((c.nextPc, c.f.mask), .ready, false)))))

/-- `GBAR` (R172, R378): only a cooperative kernel has one; it parks its fragment behind it and counts its arrival, and the last arrival
ends the kernel's phase, whose waiters go on, each with an acquire due (R226). `WAITSIG` (R379): at or above its comparand the signal lets
the fragment go on, with an acquire due before the warp's next access; below it the fragment parks at the instruction; a misaligned
address faults. The test needs a token of the word's line at the die outside any engine's window (R35, R230), and none of the warp's own
accesses and of the block's bytes of the line still on their way to die L2 (R223). -/
def Obligations.GridBarrierAndSignalWait : Prop :=
  (∀ (s : State) (c : Ctx), s.ctx = some c → c.guard = true → c.Clear [] →
    (c.k.coop = false → Faults .gbar s c { code := 0x0F, einfo := 1#32 }) ∧
    (c.k.coop = true → c.Quiet → s.released c.g c.vd c.w c.x 2 = true → (c.x.counter 1).err = none →
      exec .gbar s = .next (c.garrive (parkBehind c (c.noted (s.passRemotes c.w 2)) (.gbar c.k.gphase))) ∧
      (c.x.frags = [c.f] → c.x.arriving = [] → c.k.garrived.contains c.w = false → c.NoJoin c.nextPc → c.b.stepping = false →
        c.b.proof = none → c.b.place ≠ .exited → s.gbarFull c.b.kernel (c.k.garrived ++ [c.w]) = true →
        (∀ b x, find s.blocks b = some x → x.kernel = c.b.kernel → x.place ≠ .exited → b = c.w.blk) →
        ∃ t k y, exec .gbar s = .next t ∧ t.kern c.b.kernel = some k ∧ k.gphase = c.k.gphase + 1 ∧ k.garrived = [] ∧
          t.warp c.w = some y ∧ y.rwc = c.x.rwc + 1#64 ∧ y.acquire = true ∧
          (y.frag c.f.id).map (fun f => (f.spot, f.wait, f.owes)) = some ((c.nextPc, c.f.mask), .ready, false)))) ∧
  (∀ (s : State) (c : Ctx) (a b : BitVec 8) (u : State) (pa : Nat), s.ctx = some c → c.guard = true → c.Clear [spOp a 1, spOp b 2] →
    let va := (c.x.spair a.toNat).toNat
    (va % 8 ≠ 0 → Faults (.waitsig a b) s c { code := 0x05, einfo := 0#32 }) ∧
    (va % 8 = 0 → c.Maps 0 3 [(lowLane c.f.mask, va)] [pa] u → c.x.follows [some (pa / 128)] = false →
      u.l1Written c.g (pa / 128) = false → u.l2May c.die (pa / 128) false = true →
      u.isLost (pa / 128) = false → (u.held' (.die c.die) (pa / 128)).lost = false →
      (u.dieNat c.die pa 8 < (c.x.spair b.toNat).toNat → Waits (.waitsig a b) s u c (.sig va pa (c.x.spair b.toNat))) ∧
      ((c.x.spair b.toNat).toNat ≤ u.dieNat c.die pa 8 →
        Completes (.waitsig a b) s (u.setWarp c.w fun x => { x with acquire := true }) c)))

-- ## Remote operations

/-- The accesses of an instruction's groups, cut out of the list of all of them. -/
def Sys2Proof.regroup : List Nat → List Access → List (List Access)
  | [], _ => []
  | n :: ns, l => l.take n :: regroup ns (l.drop n)

/-- Remote instructions (R380–R385): where every capability allows the access, the requests of every peer group are outstanding, one count
of their class for each group, and all that their ports can carry are sent; without an active lane nothing is sent. `RFENCE` passes with
nothing outstanding that was sent to its peer, which of a reduction's entry is the group (R95, log 59). The checks of R96 on a capability, in
their order, as the faults they give. -/
def Obligations.RemoteAccess : Prop :=
  (∀ (s : State) (c : Ctx) (o : Option OPfx) (p : Option VPfx) (d a b : BitVec 8), s.ctx = some c → 
    (∀ q ∈ [(0, Instr.rld o p d a b), (1, .rst o p d a b), (2, .ratom o p d a b), (3, .rvadd o p d a b), (4, .rwsig o p d a b),
        (5, .rred o p d a b)],
      c.Calm → c.Released o 2 →
      let r := c.passed o 2
      let e := c.eff p
      let n := typeRegs e.type
      let nr := nrOf o
      let returns := q.1 = 0 ∨ (q.1 = 2 ∧ nr = false)
      let field := if q.1 = 0 then vDst n d else if q.1 = 2 then { vDst n d with reads := true, writes := !nr } else { vOp n d 0 with code := 0 }
      let gs := peerGroups c.x a b e.mask
      let size := if q.1 ≤ 2 then 4 * n else 128
      let lead := fun (g : Nat × List (Nat × Nat)) => if q.1 ≤ 2 then g.2 else g.2.take 1
      typeBad p e (remoteTypes q.1) = none → c.VClear p [field, vOp 1 a 1, vOp 1 b 2] →
      (∀ g ∈ gs, c.capBad q.1 g.1 size ((lead g).map Prod.snd) = none) →
      (∀ g ∈ gs, ∀ l ∈ lead g, l.2 % size = 0) →
      let v := if returns then r.s.setWarp c.w fun x => x.zeroLanes d.toNat n e else r.s
      let cls := if returns then 0 else 1
      let made := gs.map (groupAccesses q.1 e.type n nr d (acqOf o 2) r)
      (gs = [] → Completes q.2 s v.sendAll c) ∧
      (gs ≠ [] → ∀ u flat, tagOps r v made.flatten = (u, flat) →
        let all := numbered r u.nextId (regroup (made.map List.length) flat)
        (vget c.x.classes cls {}).count + gs.length ≤ 511 →
        u.ottUsed c.g + (dedup (all.filterMap Access.entry)).length ≤ 256 →
        Completes q.2 s ({ u with nextId := u.nextId + gs.length + all.length }.setWarp c.w fun x =>
          ({ x with accesses := x.accesses ++ all }.addClass cls gs.length).setFrag c.f.id fun f =>
            if q.1 = 0 then f else f.stores true).sendAll c)) ∧
    (c.guard = true → c.Clear [sOp a 1] →
      let i := (c.x.sf a.toNat).toNat
      let e := s.cap c.vd i
      (4096 ≤ i ∨ bit (s.cap c.vd i) 31 = false → Faults (.rfence a) s c { code := 0x0B, einfo := BitVec.ofNat 32 i }) ∧
      (i < 4096 → bit (s.cap c.vd i) 31 = true →
        (∀ r ∈ c.x.accesses, r.remoteKind.isSome = true → ∀ q, r.req = some q →
          if bit e 26 = true then q.kind = 5 → q.group ≠ bits e 63 48
          else q.kind ≠ 5 → q.module = bits e 11 0 → q.vd ≠ bits e 21 12) → (c.x.counter 1).err = none →
        Ends (.rfence a) s c c.x c.nextPc))) ∧
  (∀ (c : Ctx) (k i size : Nat) (offs : List Nat), let e := c.s.cap c.vd i
    (4096 ≤ i ∨ bit e 31 = false → c.capBad k i size offs = some { code := 0x0B, einfo := BitVec.ofNat 32 i }) ∧
    (i < 4096 → bit e 31 = true → bits e 47 32 = 0 → c.capBad k i size offs = some { code := 0x0C, einfo := BitVec.ofNat 32 i }) ∧
    (i < 4096 → bit e 31 = true → bits e 47 32 ≠ 0 →
      (bit e (permBit k) = false ∨ (∃ o ∈ offs, bits e 191 128 < o + size) ∨ (k = 4 ∧ bits e 191 128 < bits e 255 192 + 8)) →
      c.capBad k i size offs = some { code := 0x07, einfo := BitVec.ofNat 32 (7 + 4096 * i) }) ∧
    (i < 4096 → bit e 31 = true → bits e 47 32 ≠ 0 → bit e (permBit k) = true → (∀ o ∈ offs, o + size ≤ bits e 191 128) →
      (k = 4 → bits e 255 192 + 8 ≤ bits e 191 128) → c.capBad k i size offs = none))

-- ## Engine and matrix instructions

/-- A command finds room: queue slots, scoreboard entries, of which each scoreboard takes one in a cycle, no step of a sequencer in its way,
its class and its tag below their limits (R213–R216, R405). -/
abbrev Sys2Proof.Queues (c : Ctx) (u : State) (cmd : Command) (cls : Nat) : Prop :=
  (cmd.kind.isCopy = true → u.queued c.g CmdKind.isCopy < 32) ∧ (cmd.kind.isCpa = true → u.queued c.g CmdKind.isCpa < 64) ∧
  (∀ g ∈ u.sbClusters cmd, u.sbUsed g < 32 ∧ (u.cl g).sbAt ≠ some u.now) ∧ u.seqHolds cmd = false ∧ (vget c.x.classes cls {}).count < 511 ∧
  ∀ t ∈ cmd.tag, (c.x.counter (4 + t)).count < 255

/-- The state in which a command has been queued: it takes the next number as its place in the scoreboard order and counts in its class
and its tag (R213–R216). -/
def Sys2Proof.queuedIn (c : Ctx) (u : State) (cmd : Command) (cls : Nat) : State :=
  let u := (u.sbClusters cmd).foldl (fun t g => t.setCl g fun k => { k with sbAt := some t.now }) u
  { u with nextId := u.nextId + 1, cmds := put u.cmds u.nextId { cmd with order := u.nextId } }.setWarp c.w fun x =>
    match cmd.tag with
    | some t => (x.addClass cls 1).addTag t 1
    | none => x.addClass cls 1

/-- `CPA` and `TCOPY` (R363, R364, R366–R370) as they issue: a command is queued with its lanes or its descriptor, its scoreboard ranges and
its tag, and a copy from or to the weight store takes or keeps the seal (R73); a descriptor that fails a check of R368 faults. -/
def Obligations.CopyInstructions : Prop :=
  ∀ (s : State) (c : Ctx) (p : Option VPfx) (d a : BitVec 8) (size tag : BitVec 3) (bpc : BitVec 2), s.ctx = some c → c.Calm →
    (let e := c.eff p
     let n := 4 * 2 ^ size.toNat
     let spad := fun (l : Nat) => (c.x.lane d.toNat l).toNat
     let gadr := fun (l : Nat) => (c.x.spair (0xC0 + 56 + 2 * bpc.toNat) + (c.x.lane a.toNat l).signExtend 64).toNat
     let ls := lanesOf e.mask
     c.VClear p ([{ vOp 1 d 0 with code := 0 }, vOp 1 a 1, { k := .sp, val := 0xC0 + 56 + 2 * bpc.toNat, code := 1 }] ++ cpaCOp p) →
     (ls = [] → Ends (.cpa p d a size tag bpc) s c c.x c.nextPc) ∧
     (ls ≠ [] → (∀ l ∈ ls, spad l % n = 0 ∧ gadr l % n = 0 ∧ spad l + n ≤ 256 * c.k.scratch) →
       let cmd := { c.command (.cpa (ls.map fun l => (l, spad l, gadr l, cpaCount p c.x n l)) n []) with
         tag := some tag.toNat
         write := some (.scratch (ls.foldl (fun m l => min m (spad l)) (spad (ls.headD 0))) (ls.foldl (fun m l => max m (spad l)) 0 + n)) }
       Queues c (c.noted s) cmd 2 → Completes (.cpa p d a size tag bpc) s (queuedIn c (c.noted s) cmd 2) c)) ∧
    (c.guard = true → c.Clear [sOp a 1] →
      let off := (c.x.sf a.toNat).toNat
      let bs := c.b.img.scratch.bytes off 64
      (8 ≤ d.toNat → Faults (.tcopy d a) s c { code := 0x01, einfo := s.base }) ∧
      (d.toNat < 8 → off % 64 ≠ 0 → Faults (.tcopy d a) s c { code := 0x05, einfo := 0#32 }) ∧
      (d.toNat < 8 → off % 64 = 0 → 256 * c.k.scratch < off + 64 → Faults (.tcopy d a) s c { code := 0x09, einfo := 0#32 }) ∧
      (d.toNat < 8 → off % 64 = 0 → off + 64 ≤ 256 * c.k.scratch →
        (∀ i, c.copyBad bs (copyDesc bs) = .error i → Faults (.tcopy d a) s c i) ∧
        (∀ sl, c.copyBad bs (copyDesc bs) = .ok sl →
          let u := match sl with
            | some q => s.setDie c.die fun x => { x with seals := put x.seals c.vd q }
            | none => s
          Queues c (c.noted u) (c.copyCommand d.toNat (copyDesc bs)) 2 →
          Completes (.tcopy d a) s (queuedIn c (c.noted u) (c.copyCommand d.toNat (copyDesc bs)) 2) c)))

/-- Matrix steps, loops and stores of results (R398–R404) as they issue, and the faults of a step and of an `MSTORE` without a grant, of a type
that the grant does not have, of a slot that is not the block's, of addresses out of place (R398, R403). -/
def Obligations.MatrixInstructions : Prop :=
  (∀ (s : State) (c : Ctx) (d a b : BitVec 8), s.ctx = some c → c.guard = true → c.b.img.grant = none →
    (c.Clear [sOp d 0] → Faults (.mzero d) s c { code := 0x04, einfo := 0#32 }) ∧
    (c.Clear [sOp d 0, sOp a 1, sOp b 2] →
      ∀ i ∈ [Instr.mma d a b, .mmaz d a b, .mscacc d a b], Faults i s c { code := 0x04, einfo := 0#32 }) ∧
    (c.Clear [sOp d 0, spOp a 1, sOp b 2] → c.Quiet →
      let v := (c.x.sf d.toNat).toNat
      bits v 21 19 = 0 → bits v 31 26 = 0 → bits v 23 22 % 2 = 0 → bits v 25 24 ≠ 3 →
      Faults (.mstore d a b) s c { code := 0x04, einfo := 0#32 })) ∧
  ∀ (s : State) (c : Ctx) (d a b : BitVec 8) (n : BitVec 2) (g : Grant), s.ctx = some c → c.guard = true → c.b.img.grant = some g →
    (∀ q ∈ [(0xD6, Instr.mzero d, [sOp d 0], 0xC0#8, 0xC0#8), (0xD7, .mma d a b, [sOp d 0, sOp a 1, sOp b 2], a, b),
        (0xD8, .mmaz d a b, [sOp d 0, sOp a 1, sOp b 2], a, b), (0xD9, .mscacc d a b, [sOp d 0, sOp a 1, sOp b 2], a, b)],
      c.Clear q.2.2.1 →
      let m := stepOf q.1 (c.x.sf d.toNat) (c.x.sf q.2.2.2.1.toNat) (c.x.sf q.2.2.2.2.toNat)
      (stepAccepts q.1 g.type = false → Faults q.2.1 s c { code := 0x04, einfo := BitVec.ofNat 32 g.type }) ∧
      (stepAccepts q.1 g.type = true → ∀ id, m.badSlot c.b.img.claimed = some id →
        Faults q.2.1 s c { code := 0x0A, einfo := BitVec.ofNat 32 id }) ∧
      (stepAccepts q.1 g.type = true → m.badSlot c.b.img.claimed = none → c.b.img.steps = [] → s.stepQueue c.w.blk < 8 →
        let cmd := { c.command (.step m) with reads := m.reads, write := some m.write }
        Queues c s cmd 3 → Completes q.2.1 s (queuedIn c s cmd 3) c)) ∧
    (c.Clear [sOp a 1, sOp b 2] → ∀ u ws body os, c.fetchN (n.toNat + 1) s c.nextPc = (u, .ok ws) → loopBody c ws = .ok (body, os) →
      c.Clear os → u.warp c.w = some c.x →
      let inc := (c.x.sf b.toNat).toNat
      let q : Sequencer := { body, count := (c.x.sf a.toNat).toNat % 65536, warp := c.w, pc := c.pc,
                             inc := (sextInt 8 (bits inc 7 0), sextInt 8 (bits inc 15 8), sextInt 8 (bits inc 23 16)) }
      q.rest.findSome? (fun m => m.badSlot c.b.img.claimed) = none → c.b.img.steps = [] →
      let next := c.nextPc + BitVec.ofNat 64 (4 * (n.toNat + 1))
      (q.count = 0 → EndsIn (.mloop n a b) s u c c.x next) ∧
      (q.count ≠ 0 → (vget c.x.classes 3 {}).count < 511 →
        EndsIn (.mloop n a b) s (u.setImg c.w.blk fun i => { i with seq := some q }) c (c.x.addClass 3 1) next)) ∧
    (c.Clear [sOp d 0, spOp a 1, sOp b 2] → c.Quiet → c.b.replay = none →
      let v := (c.x.sf d.toNat).toNat
      let kind := bits v 23 22
      let out := bits v 25 24
      let slot := bits v 15 0
      let e := if out = 0 then 4 else 2
      let stride := (c.x.sf b.toNat).toNat
      let addr := if kind = 0 then (c.x.spair a.toNat).toNat else (c.x.sf a.toNat).toNat
      let last := addr + (g.m - 1) * stride + g.n * e
      (bits v 21 19 ≠ 0 ∨ bits v 31 26 ≠ 0 ∨ kind % 2 = 1 ∨ out = 3 → Faults (.mstore d a b) s c { code := 0x01, einfo := s.base }) ∧
      (bits v 21 19 = 0 → bits v 31 26 = 0 → kind % 2 = 0 → out ≠ 3 →
        (g.type = 7 → out ≠ 0 → Faults (.mstore d a b) s c { code := 0x04, einfo := 7#32 }) ∧
        ((g.type = 7 → out = 0) → slotOk c.b.img.claimed true slot = false →
          Faults (.mstore d a b) s c { code := 0x0A, einfo := BitVec.ofNat 32 slot }) ∧
        ((g.type = 7 → out = 0) → slotOk c.b.img.claimed true slot = true →
          (addr % e ≠ 0 ∨ stride % e ≠ 0 → Faults (.mstore d a b) s c { code := 0x05, einfo := 0#32 }) ∧
          (addr % e = 0 → stride % e = 0 → kind = 2 → 256 * c.k.scratch < last →
            Faults (.mstore d a b) s c { code := 0x09, einfo := 0#32 }))) ∧
      (bits v 21 19 = 0 → bits v 31 26 = 0 → kind % 2 = 0 → out ≠ 3 → (g.type = 7 → out = 0) →
        slotOk c.b.img.claimed true slot = true → addr % e = 0 → stride % e = 0 → (kind = 2 → last ≤ 256 * c.k.scratch) →
        let cmd := { c.command (.mstore slot kind out addr stride) with
          tag := some (bits v 18 16)
          reads := [.acc slot (slot + 1)]
          write := if kind = 2 then some (.scratch addr last) else none }
        Queues c s cmd 3 → Completes (.mstore d a b) s (queuedIn c s cmd 3) c))

/-- Slots and grants (R209, R393–R396): `TSHAPE` rounds the extents up and grants them; `SCLAIM` takes the lowest free run or
answers all ones; `SREL` gives slots back, or faults on one that is not the block's. Granted shapes (R25, R393): each extent is
rounded up to 32, 64, 96 or 128 and capped at 128; in the third power mode N is then the largest of these with which the product
stays within 8,192. -/
def Obligations.SlotsAndGrants : Prop :=
  (∀ (s : State) (c : Ctx) (d a b : BitVec 8) (t : BitVec 4) (acc : Bool), s.ctx = some c → c.guard = true →
    (c.Clear [sDst d, sOp a 1] →
      (t.toNat ∉ [3, 4, 7, 12, 13, 14] → Faults (.tshape d a t) s c { code := 0x04, einfo := t.setWidth 32 }) ∧
      (t.toNat ∈ [3, 4, 7, 12, 13, 14] → s.matrixBusy c.w.blk c.b.img = false →
        let v := (c.x.sf a.toNat).toNat
        let g := grantShape s.power.mode (bits v 7 0) (bits v 15 8)
        EndsIn (.tshape d a t) s (s.setImg c.w.blk fun i => { i with grant := some { m := g.1, n := g.2, type := t.toNat } }) c
          (c.x.setSf d.toNat (BitVec.ofNat 32 (g.1 + 256 * g.2 + 65536 * t.toNat))) c.nextPc) ∧
      (let n := (c.x.sf a.toNat).toNat
       let free := freeRun c.b.img.claimed (if acc then 0x100 else 0) (if acc then c.k.aslots else c.k.oslots) n
       (free = none → Ends (.sclaim d a acc) s c (c.x.setSf d.toNat 0xFFFFFFFF#32) c.nextPc) ∧
       (∀ i, free = some i →
         (∀ k, k < n → i + k ∉ c.b.img.claimed) ∧
         EndsIn (.sclaim d a acc) s (s.setImg c.w.blk fun g => { g with claimed := g.claimed ++ (List.range n).map (i + ·) }) c
           (c.x.setSf d.toNat (BitVec.ofNat 32 i)) c.nextPc))) ∧
    (c.Clear [sOp a 1, sOp b 2] →
      let i := (c.x.sf a.toNat).toNat
      let n := (c.x.sf b.toNat).toNat
      n ≤ 273 →
      (∀ k, k < n → i + k ∉ c.b.img.claimed → (∀ j, j < k → i + j ∈ c.b.img.claimed) →
        Faults (.srel a b) s c { code := 0x0A, einfo := BitVec.ofNat 32 (i + k) }) ∧
      ((∀ k, k < n → i + k ∈ c.b.img.claimed) → (∀ m ∈ s.cmdsOf c.w.blk, m.write = none ∧ m.reads = [] ∧ m.kind.isStep = false) →
        c.b.img.seq = none →
        EndsIn (.srel a b) s (s.setImg c.w.blk fun g => { g with claimed := g.claimed.filter fun k => !((List.range n).map (i + ·)).contains k })
          c c.x c.nextPc))) ∧
  (∀ (mode m n : Nat), let g := grantShape mode m n
    let r := fun (v : Nat) => if v ≤ 32 then 32 else if v ≤ 64 then 64 else if v ≤ 96 then 96 else 128
    g.1 = r m ∧ (mode ≠ 2 ∨ r m * r n ≤ 8192 → g.2 = r n) ∧
    (mode = 2 → 8192 < r m * r n → g.2 ∈ [32, 64, 96, 128] ∧ g.1 * g.2 ≤ 8192 ∧ ∀ k ∈ [32, 64, 96, 128], g.1 * k ≤ 8192 → k ≤ g.2))

/-- The lane results of the forms that may carry `ACB` (R342: `VMAD` and `VFMA` excepted), over source `A` and the element `bv l`; `VSEL`
chooses by the guard, in every lane of the fragment's mask (R334). -/
def Sys2Proof.fragmentForms (p : VPfx) (c : Ctx) (d a b : BitVec 8) (bv : Nat → Nat) :
    List (Instr × List Nat × (Nat → Nat × Bool)) :=
  let e := c.eff (some p)
  let two := fun (f : VEnv → Nat → Nat → Nat × Bool) (l : Nat) => mapElems e.type fun k =>
    f (envOf c.x e) (elemAt e.type (c.x.laneN (typeRegs e.type) a.toNat l) k) (elemAt e.type (bv l) k)
  (((vectorPairs (some p) d a b).take 11).map fun q => (q.1, q.2.1, two q.2.2)) ++
  [(.vfadd (some p) d a b, floatTypes, two fadd), (.vfsub (some p) d a b, floatTypes, two fsub), (.vfmul (some p) d a b, floatTypes, two fmul),
   (.vfmin (some p) d a b, floatTypes, two (fminmax false)), (.vfmax (some p) d a b, floatTypes, two (fminmax true)),
   (.vsel (some p) d a b, bitTypes, fun l => (if e.g.getLsbD l then c.x.laneN (typeRegs e.type) a.toNat l else bv l, false))]

/-- Accumulator fragments (R210, R342, R343): an instruction under `ACB` reads fragment f of a claimed slot as its source `B`, and writes it
back where its destination is the fragment; the checks of R342 fault in their order, each form's own types before them. -/
def Obligations.AccumulatorFragments : Prop :=
  ∀ (s : State) (c : Ctx) (p : VPfx) (d a b : BitVec 8), s.ctx = some c → p.acb = true →
    let e := c.eff (some p)
    let n := typeRegs e.type
    let id := 0x100 + (p.c.extractLsb' 4 4).toNat
    let f := (c.x.sf b.toNat).toNat
    let size := match c.b.img.grant with
      | some g => g.m * g.n
      | none => 0
    let bv := fun (l : Nat) => (c.b.img.acc id (32 * f + l)).toNat
    ∀ q ∈ fragmentForms p c d a b bv,
      let all := match q.1 with
        | .vsel .. => true
        | _ => false
      let m := if all then c.f.mask else e.mask
      let zero := e.zero && !all
      let raised := maskOf ((lanesOf m).filter fun l => (q.2.2 l).2)
      typeBad (some p) e q.2.1 (roundsRnd q.1) = none →
      c.VClear (some p) ((if d.toNat = 0xC0 then [] else [vDst n d]) ++ [vOp n a 1, { k := .s, val := b.toNat, code := 2 }]) →
      (id ∉ c.b.img.claimed → Faults q.1 s c { code := 0x0A, einfo := BitVec.ofNat 32 id, lanes := some e.mask }) ∧
      (id ∈ c.b.img.claimed → 2 < e.type →
        Faults q.1 s c { code := 0x04, einfo := BitVec.ofNat 32 (e.type % 16 + 16 * e.rnd), lanes := some e.mask }) ∧
      (id ∈ c.b.img.claimed → e.type ≤ 2 → size / 32 ≤ f →
        Faults q.1 s c { code := 0x03, einfo := BitVec.ofNat 32 (f % 256 + 512), lanes := some e.mask }) ∧
      (id ∈ c.b.img.claimed → e.type ≤ 2 → f < size / 32 → slotBusy s c.w.blk c.b.img id = false →
        (d.toNat = 0xC0 → slotRead s c.w.blk c.b.img id = false) →
        (mFpx c.x.mode = true → raised ≠ 0#32 → Faults q.1 s c { code := 0x16, einfo := raised, lanes := some m }) ∧
        (mFpx c.x.mode = false ∨ raised = 0#32 →
          (d.toNat < 0xC0 → Ends q.1 s c (c.x.writeGroup d.toNat 1 0#32 m zero fun l => (q.2.2 l).1) c.nextPc) ∧
          (d.toNat = 0xC0 → ∃ t y, exec q.1 s = .next t ∧ t.blk c.w.blk = some y ∧
            ∀ l, l < 32 → y.img.acc id (32 * f + l) =
              if m.getLsbD l then BitVec.ofNat 32 (q.2.2 l).1 else if zero then 0#32 else c.b.img.acc id (32 * f + l))))

/-- Execute-from-vector (R347–R351): an instruction that begins checks its words in every active lane: `VEXEC` faults where one is not
permitted, before any runs, and `VEXECQ` notes those lanes, which follow the policy with the other inactive ones. The words that are left
stand in ascending order, each with its lanes; after the 2 cycles that the instruction occupies its warp for, each issue slot runs one
of them, once no register that it uses is still to be written, and the instruction completes with the last; a word that faults ends it with the
number of those before it. That its beginning takes no slot is log 55's. -/
def Obligations.ExecuteFromVector : Prop :=
  ∀ (s : State) (c : Ctx) (p : Option VPfx) (d a : BitVec 8), s.ctx = some c →
    let e := c.eff p
    let word := { vDst 1 a with code := 1, reads := true, writes := false }
    let bad := maskOf ((lanesOf e.mask).filter fun l => !wordOk c.x p e (c.x.lane a.toNat l))
    let go := e.mask &&& ~~~ bad
    (c.f.vx = none → c.Quiet →
      (c.VClear p [word] → bad ≠ 0#32 → (c.k.handler = none ∨ c.x.handler = false ∨ c.f.inHandler = true) →
        exec (.vexec p a) s = .next (takeFault { c with s := s.setWarp c.w fun x => { x with vexecDone := 0#32 } }
          { code := 0x0D, einfo := bad, lanes := some e.mask })) ∧
      (∀ q ∈ [(Instr.vexec p a, [word], c.x), (.vexecq p d a, [pDst d, word], c.x.setP d.toNat (writeMask (c.x.pred d.toNat) 0#32 e.mask false bad))],
        c.VClear p q.2.1 → (q.1 = .vexec p a → bad = 0#32) →
        let run : VexecRun := { instr := q.1, word := s.word, nwords := s.nwords, base := s.base, act := go
                                left := wordGroups c.x a.toNat go, ready := s.now + 2 * s.cycleTicks c.g }
        exec q.1 s = .next { s.setWarp c.w fun _ => q.2.2.setFrag c.f.id fun f => { f with vx := some run } with held := some .reg })) ∧
    (∀ r, c.f.vx = some r → ∀ i ∈ [Instr.vexec p a, .vexecq p d a],
      (s.now < r.ready → exec i s = .next { s with held := some .reg }) ∧
      (r.ready ≤ s.now → r.left = [] → Completes i s (s.setFrag c.w c.f.id r.finish) c) ∧
      (∀ w m rest, r.ready ≤ s.now → r.left = (w, m) :: rest →
        (∀ k ∈ ((wordAct p w).toList.flatMap (wordOpnds e)).flatMap Opnd.regs, k ∉ c.x.pending) →
        let st : VexecSt := { x := c.x, scratch := c.b.img.scratch, stored := r.stored, loaded := r.loaded }
        (∀ t, wordRun p (c.k.scratch * 256) r.act m w st = .ok t →
          let r' := { r with left := rest, done := r.done + 1, stored := t.stored, loaded := t.loaded }
          let u := (s.setImg c.w.blk fun i => { i with scratch := t.scratch }).setWarp c.w fun _ => t.x
          (rest = [] → Completes i s (u.setFrag c.w c.f.id r'.finish) c) ∧
          (rest ≠ [] → exec i s = .next (u.setFrag c.w c.f.id fun f => { f with vx := some r' }))) ∧
        (∀ f, wordRun p (c.k.scratch * 256) r.act m w st = .error f → (c.k.handler = none ∨ c.x.handler = false ∨ c.f.inHandler = true) →
          exec i s = .next (takeFault
            { c with s := s.setWarp c.w fun x => { x.setFrag c.f.id r.finish with vexecDone := BitVec.ofNat 32 r.done } }
            { f with lanes := some (f.lanes.getD r.act) }))))

-- ## The package network and power

/-- Flits (R13–R16): an endpoint's first waiting flit enters its router while an output is free; a router sends on every flit that it
holds, each with its message, half and age over a link that has room, the oldest over one that shortens its path where one has; an endpoint
takes the oldest flit that it accepts, and a message is delivered when its last half has come. That a younger flit is ejected where the oldest
is refused is log 37's choice. A router that holds more flits than its links take (R13 rules it out) is not spoken of. -/
def Obligations.NetworkSteps : Prop :=
  ∀ (s : State) (e : Endpoint) (r : Router) (f : Flit) (pre post : List Flit),
    (s.focus = .endpoint e → s.net.waiting = pre ++ f :: post → (find s.net.msgs f.msg).any (fun m => m.src = e) = true →
      (∀ g ∈ pre, (find s.net.msgs g.msg).any (fun m => m.src = e) = false) →
      (s.flitsAt (routerOf e)).length < s.outputRoom (routerOf e) →
      exec .flitInjection s = .next { s with net := { s.net with
        waiting := pre ++ post
        flying := s.net.flying ++ [({ f with age := s.cycle % 2 ^ 48, ready := s.cycle }, routerOf e)] } }) ∧
    (s.focus = .router r → s.flitsAt r = f :: post → (s.flitsAt r).length ≤ s.outputRoom r →
      ∃ moved : List (Flit × Router),
        exec .flitArrival s = .next { s with net := { s.net with
          flying := s.net.flying.filter (fun p => !(p.2 = r && p.1.ready ≤ s.cycle)) ++ moved } } ∧
        (s.flitsAt r).Perm ((s.net.flying.filter fun p => p.2 = r && p.1.ready ≤ s.cycle).map Prod.fst) ∧
        moved.map (fun p => (p.1.msg, p.1.half, p.1.age)) = (s.flitsAt r).map (fun g => (g.msg, g.half, g.age)) ∧
        (∀ p ∈ moved, p.1.came = some r ∧ ∃ g ∈ s.flitsAt r, ∃ o ∈ s.outputs r, 0 < o.2 ∧
          p.2 = landing (routerOf (s.goal g)) g.came o.1 ∧ p.1.ready = s.cycle + linkTime r p.2) ∧
        ((∃ o ∈ s.outputs r, 0 < o.2 ∧ productive r (routerOf (s.goal f)) o.1 = true) →
          ∃ o, productive r (routerOf (s.goal f)) o = true ∧ let n := landing (routerOf (s.goal f)) f.came o
            moved.head? = some ({ f with came := some r, ready := s.cycle + linkTime r n }, n))) ∧
    (s.focus = .endpoint e → s.flitsAt (routerOf e) = pre ++ f :: post → s.goal f = e → s.accepts e f = true →
      (∀ g ∈ pre, s.goal g = e → s.accepts e g = false) →
      let n := { s.net with flying := s.net.flying.erase (f, routerOf e) }
      let joined := s.net.reasm.any fun g => g.msg = f.msg
      (f.half = 0 → exec .flitEjection s = .next { s with net := { n with inbox := s.net.inbox ++ [f.msg] } }) ∧
      (f.half ≠ 0 → joined = true → exec .flitEjection s = .next { s with net := { n with
        reasm := s.net.reasm.filter fun g => g.msg != f.msg, inbox := s.net.inbox ++ [f.msg] } }) ∧
      (f.half ≠ 0 → joined = false → exec .flitEjection s = .next { s with net := { n with reasm := s.net.reasm ++ [f] } }))

/-- Power and heat (R24, R26, R27, R74): a settled mode; a window above the cap costs one budget step, ten in a row 5 % below it give
one back; a die is hot from 105 °C until below 100 °C and fails at 115 °C; refresh phases follow each other. -/
def Obligations.PowerSteps : Prop :=
  ∀ (s : State),
    (∀ m t, s.power.settle = some (m, t) → t ≤ s.now →
      exec .powerModeClockSettle s = .next { s with power := { s.power with settle := none } }) ∧
    (∀ mw, s.focus = .power mw →
      let cap := capMilliwatts s.power.mode
      (cap < mw → Does .powerWindowEnd s fun t => t.power.k = max 1 (s.power.k - 1) ∧ t.power.low = 0 ∧
        (∀ g, g < 512 → (t.cl g).mxLimit = 16 * t.power.k ∧ (t.cl g).mxLevel ≤ 2 * (t.cl g).mxLimit) ∧
        t = { s with power := t.power, clusters := t.clusters }) ∧
      (mw ≤ cap → 95 * cap < 100 * mw → exec .powerWindowEnd s = .next { s with power := { s.power with low := 0 } }) ∧
      (100 * mw ≤ 95 * cap → s.power.low < 9 ∨ modeSteps s.power.mode ≤ s.power.k →
        exec .powerWindowEnd s = .next { s with power := { s.power with low := s.power.low + 1 } }) ∧
      (100 * mw ≤ 95 * cap → 9 ≤ s.power.low → s.power.k < modeSteps s.power.mode → Does .powerWindowEnd s fun t => t.power.k = s.power.k + 1 ∧
        (∀ g, g < 512 → (t.cl g).mxLimit = 16 * t.power.k) ∧ t = { s with power := t.power, clusters := t.clusters })) ∧
    (∀ d τ, s.focus = .temp d τ →
      (d < 32 → s.dieEnabled d = true → Does .temperatureReport s fun t => (t.die d).temp = τ ∧
        (t.die d).hot = (decide (1050 ≤ τ) || ((s.die d).hot && decide (1000 ≤ τ))) ∧
        t = { s with dies := t.dies, agenda := if 1150 ≤ τ then s.agenda ++ [(.fatalDieError, .die d)] else s.agenda }) ∧
      (32 ≤ d → 1150 ≤ τ → exec .temperatureReport s = .next { s with agenda := s.agenda ++ [(.deviceReset, .none)] })) ∧
    (∀ d, s.focus = .die d → (s.die d).phaseEnd ≤ s.now →
      exec .refreshPhaseEnd s = .next (s.setDie d fun x =>
        { x with phase := (x.phase + 1) % 8, phaseStart := x.phaseStart + ticksPerNs * x.phaseNs
                 phaseNs := if 1050 ≤ x.temp then 256 else 512 }))

-- ## Token coherence

/-- The tokens of a line wherever they are: at its home, at the 33 other holders, and in messages (R33, R34). -/
def Sys2Proof.tokenSum (s : State) (line : Nat) : Nat :=
  (s.homeTag line).tokens + ((List.range 33).map fun k => (look (look s.coh.held k []) line {}).tokens).sum +
  ((s.net.msgs.filter fun m => m.2.line = line).map fun m => m.2.tokens).sum

/-- What a holder or the home sends is what it gives up (R35, R36): the message names its tokens, its owner token and its dirty
bit. A token request at its home (R38, R39), a forwarded one at a holder (R40), tokens at their receiver (R41, R50), evictions
(R36, R49) and reissues (R43). Sending and receiving keep the sum of a line's tokens, for every line (R34). -/
def Obligations.TokenProtocol : Prop :=
  (∀ (s : State) (h : Holder) (line n v : Nat) (dst : Endpoint) (own data : Bool),
    (let t := s.held' h line
     let u := s.sendHeld h line dst n own data v
     find u.net.msgs s.nextId = some { src := hEnd line h, dst, kind := .tokens data, line, vd := v, inc := t.inc, tokens := n, owner := own
                                       dirty := own && t.dirty, lost := t.lost && data } ∧
     (n < t.tokens → (u.held' h line).tokens + n = t.tokens ∧ (u.held' h line).owner = (t.owner && !own)) ∧
     (∀ k l, (k, l) ≠ (hIdx h, line) → look (look u.coh.held k []) l {} = look (look s.coh.held k []) l {}) ∧
     (n ≤ t.tokens → hIdx h < 33 → risingFrom 0 (look s.coh.held (hIdx h) []) = true → find s.net.msgs s.nextId = none →
       ∀ l, tokenSum u l = tokenSum s l) ∧
     u = { s with coh := { s.coh with held := u.coh.held }, net := u.net, nextId := s.nextId + 1 }) ∧
    (let t := s.homeTag line
     let u := s.sendHome line h n own data v
     find u.net.msgs s.nextId = some { src := homeOf line, dst := hEnd line h, kind := .tokens data, line, vd := v, inc := s.lineInc line
                                       tokens := n, owner := own, lost := data && s.isLost line } ∧
     (u.homeTag line).tokens = t.tokens - n ∧ (u.homeTag line).owner = (t.owner && !own) ∧
     (n ≤ t.tokens → find s.net.msgs s.nextId = none → ∀ l, tokenSum u l = tokenSum s l) ∧
     (∀ l, l ≠ line → u.homeTag l = s.homeTag l) ∧ u.locator line = some ((s.locator line).getD 0 ||| 2 ^ hIdx h) ∧
     (data = false ∨ s.cxl.cxlMode = true ∨ 128 * line < hostBase → u.coh.llc = s.coh.llc) ∧
     u = { s with
       coh := { s.coh with home := u.coh.home, locator := u.coh.locator, llc := u.coh.llc }, net := u.net, nextId := s.nextId + 1 })) ∧
  (∀ (s : State),
    (∀ i m u, s.focus = .msg i → s.takeMsg i = some (m, u) →
      (∀ write first req, m.kind = .request write first req → m.inc = s.lineInc m.line → s.gathering m.line = false →
        s.homeKeeps m.line = false → s.inForce (mirrorOf m.line none) m.line = none →
        let t := s.homeTag m.line
        let mask := if first then some ((s.locator m.line).getD (2 ^ 33 - 1)) else none
        let alone := (s.locator m.line).all fun k => k = 0 || k = 2 ^ hIdx req
        let give := fun (n : Nat) (own data : Bool) =>
          let v := if data then u.fillLlc m.line m.vd false else u
          v.sendHome m.line req n own data m.vd
        (write = true → t.tokens = 64 → (t.owner = true → s.ready m.line = true) →
          exec .transientRequest s = .next (give 64 t.owner t.owner)) ∧
        (write = true → 0 < t.tokens → t.tokens < 64 → (t.owner = true → s.ready m.line = true) →
          exec .transientRequest s =
            .next ((give t.tokens t.owner t.owner).forwards m.line write mask (some req) m.vd)) ∧
        (write = true → t.tokens = 0 → t.owner = false → exec .transientRequest s = .next (u.forwards m.line write mask (some req) m.vd)) ∧
        (write = false → t.tokens = 64 → alone = true → s.ready m.line = true → exec .transientRequest s = .next (give 64 true true)) ∧
        (write = false → (t.tokens ≠ 64 ∨ alone = false) → t.owner = true → 2 ≤ t.tokens → s.ready m.line = true →
          exec .transientRequest s = .next (give 1 false true)) ∧
        (write = false → t.owner = true → t.tokens = 1 → s.ready m.line = true → exec .transientRequest s = .next (give 1 true true)) ∧
        (write = false → t.owner = false → t.tokens ≠ 64 →
          exec .transientRequest s = .next (u.forwards m.line write mask (some req) m.vd))) ∧
      (∀ write req h, m.kind = .forward write req → holderAt m.line m.dst = some h → s.keeps h m.line = false →
        s.inForce (hIdx h) m.line = none → (h ≠ .proxy ∨ find s.cxl.hostLines m.line = none) →
        let t := s.held' h m.line
        let dst := reqEndpoint m.line req
        (write = true → t.tokens ≠ 0 → exec .forwardedRequest s =
          .next (u.sendHeld h m.line dst t.tokens t.owner (t.owner && (t.dirty || dst != homeOf m.line)) m.vd)) ∧
        (write = false → t.owner = true → 2 ≤ t.tokens → exec .forwardedRequest s = .next (u.sendHeld h m.line dst 1 false true m.vd)) ∧
        (write = false → t.owner = true → t.tokens < 2 → exec .forwardedRequest s = .next (u.sendHeld h m.line dst t.tokens true true m.vd)) ∧
        (write = false → t.owner = false → exec .forwardedRequest s = .next u)) ∧
      (∀ data, m.kind = .tokens data → m.inc ≠ s.lineInc m.line → exec .tokenArrival s = .next u) ∧
      (∀ data h, m.kind = .tokens data → m.inc = s.lineInc m.line → holderAt m.line m.dst = some h → 0 < m.tokens →
        s.inForce (hIdx h) m.line = none →
        (h = .proxy → (∀ w ∈ s.walks, w.line ≠ m.line) ∧ ∀ w ∈ s.posted, ∃ l, w.line = some l ∧ l ≠ m.line) →
        let t := s.held' h m.line
        Does .tokenArrival s fun v =>
          v.held' h m.line = { tokens := t.tokens + m.tokens, owner := t.owner || m.owner, valid := t.valid || data, dirty := t.dirty || m.dirty
                               lost := t.lost || m.lost, inc := m.inc, ctx := m.vd, used := s.now } ∧
          (∀ r ∈ v.coh.reqs, r.h = some h → r.line = m.line → r.served = true ∨ v.satisfied (some h) m.line r.write = false) ∧
          (hIdx h < 33 → ∀ l, tokenSum v l = tokenSum s l) ∧
          v = { s with
            coh := { s.coh with held := v.coh.held, reqs := v.coh.reqs }, net := v.net, nextId := v.nextId, agenda := v.agenda
            cxl := { s.cxl with stale := v.cxl.stale } }) ∧
      (∀ data, m.kind = .tokens data → m.inc = s.lineInc m.line → holderAt m.line m.dst = none →
        s.inForce (mirrorOf m.line none) m.line = none →
        (hostLine m.line = true → (∀ w ∈ s.walks, w.line ≠ m.line) ∧ ∀ w ∈ s.posted, ∃ l, w.line = some l ∧ l ≠ m.line) →
        let t := s.homeTag m.line
        Does .tokenArrival s fun v =>
          (v.homeTag m.line).tokens = t.tokens + m.tokens ∧ (v.homeTag m.line).owner = (t.owner || m.owner) ∧
          (m.lost = true → hostLine m.line = false → v.isLost m.line = true) ∧ (∀ l, tokenSum v l = tokenSum s l) ∧
          v = { s with coh := v.coh, net := v.net, hbm := v.hbm, cxl := v.cxl, nextId := v.nextId, agenda := v.agenda, out := v.out })) ∧
    (∀ h line, s.focus = .held h line → s.keeps h line = false → (s.held' h line).tokens ≠ 0 →
      let t := s.held' h line
      ((h ≠ .proxy ∨ find s.cxl.hostLines line = none) →
        exec .holderEviction s = .next (s.sendHeld h line (homeOf line) t.tokens t.owner (t.owner && t.dirty) t.ctx true)) ∧
      (h = .proxy → find s.cxl.hostLines line ≠ none → s.recalling line = false →
        exec .holderEviction s = .next (s.backInvalidate line t.ctx .home))) ∧
    (∀ line t, s.focus = .line line → find s.coh.llc line = some t →
      let u := { s with coh := { s.coh with llc := del s.coh.llc line } }
      (t.dirty = false → exec .llcEviction s = .next u) ∧
      (t.dirty = true → exec .llcEviction s = .next { u with
        nextId := s.nextId + 1
        hbm := { s.hbm with reqs := s.hbm.reqs ++ [{ id := s.nextId, line, vd := t.ctx, write := true, time := s.now }] } })) ∧
    (∀ h line pre r post, s.focus = .held h line → s.coh.reqs = pre ++ r :: post → r.h = some h → r.line = line → r.persistent = false →
      r.served = false → s.satisfied (some h) line r.write = false → r.issues ≠ 0 → (∀ q ∈ pre, q.h ≠ some h ∨ q.line ≠ line) → r.time + 1000 * ticksPerNs * r.issues ≤ s.now →
      let set := fun (q : TokReq) => { s with coh := { s.coh with reqs := pre ++ q :: post } }
      let inc := s.reissueInc r
      (r.issues < 3 → exec .requestReissue s = .next ((set { r with issues := r.issues + 1, inc }).send
        { src := hEnd line h, dst := homeOf line, kind := .request r.write false h, line, vd := r.vd, inc })) ∧
      (3 ≤ r.issues → exec .requestReissue s = .next ((set { r with inc, persistent := true }).send
        { src := hEnd line h, dst := .arbiter (arbiterOf h), kind := .persist r.write h, line, vd := r.vd, inc }))))

/-- Persistent requests (R44–R48): an arbiter's bank queues them and activates one at a time at every mirror table; a table that has
noted an activation or a deactivation acknowledges it; a deactivation that names another request than the active one, or one that is
being deactivated, is ignored; with the last acknowledgement of a deactivation the bank goes on. -/
def Obligations.PersistentRequests : Prop :=
  ∀ (s u : State) (i : Nat) (m : Msg), s.focus = .msg i → s.takeMsg i = some (m, u) →
    (∀ write req a, m.kind = .persist write req → m.dst = .arbiter a →
      let k := s.bank a (m.line % 8)
      let q : PReq := { line := m.line, req, write, vd := m.vd }
      (k.fifo.length < 64 → k.active.isSome = true →
        exec .persistentRequest s = .next (u.setBank a (m.line % 8) { k with fifo := k.fifo ++ [q] })) ∧
      (k.fifo = [] → k.active = none → k.last ≠ some m.line → Does .persistentRequest s fun v =>
        v.bank a (m.line % 8) = { k with active := some q, acks := (s.mirrors m.line).length, deactivating := false } ∧
        v = { s with coh := { s.coh with banks := v.coh.banks }, net := v.net, nextId := s.nextId + (s.mirrors m.line).length })) ∧
    (∀ a b write req, m.kind = .activate a b write req → Does .persistentActivation s fun v =>
      find v.coh.mirror (64 * mirrorAt m.dst + 8 * a + b) = some { line := m.line, req, write, vd := m.vd } ∧
      find v.net.msgs s.nextId = some { src := m.dst, dst := .arbiter a, kind := .ack a b, line := m.line }) ∧
    (∀ b a, m.kind = .done b → m.dst = .arbiter a →
      (∀ q, (s.bank a b).active = some q → q.line ≠ m.line ∨ hEnd q.line q.req ≠ m.src ∨ (s.bank a b).deactivating = true) → exec .persistentDeactivation s = .next u) ∧
    (∀ b a q, m.kind = .done b → m.dst = .arbiter a → (s.bank a b).active = some q → q.line = m.line → hEnd q.line q.req = m.src →
      (s.bank a b).deactivating = false → (s.bank a b).acks = 0 → Does .persistentDeactivation s fun v =>
      v.bank a b = { s.bank a b with acks := (s.mirrors m.line).length, deactivating := true } ∧
      v = { s with coh := { s.coh with banks := v.coh.banks }, net := v.net, nextId := s.nextId + (s.mirrors m.line).length }) ∧
    (∀ a b, m.kind = .deactivate a b →
      let v := { u with coh := { u.coh with mirror := del u.coh.mirror (64 * mirrorAt m.dst + 8 * a + b) } }.send
        { src := m.dst, dst := .arbiter a, kind := .ack a b, line := m.line }
      v.inForce (mirrorAt m.dst) m.line = none → exec .persistentDeactivation s = .next v) ∧
    (∀ a b, m.kind = .ack a b →
      let k := s.bank a b
      (k.acks ≠ 1 → 0 < k.acks → exec .deactivationAcksDone s = .next (u.setBank a b { k with acks := k.acks - 1 })) ∧
      (k.acks = 1 → k.deactivating = false → exec .deactivationAcksDone s = .next (u.setBank a b { k with acks := 0 })) ∧
      (k.acks = 1 → k.deactivating = true → k.fifo = [] → exec .deactivationAcksDone s =
        .next (u.setBank a b { k with acks := 0, active := none, deactivating := false, last := some m.line })) ∧
      (∀ q rest, k.acks = 1 → k.deactivating = true → k.fifo = q :: rest → q.line ≠ m.line → Does .deactivationAcksDone s fun v =>
        v.bank a b = { k with fifo := rest, active := some q, acks := (s.mirrors q.line).length, deactivating := false, last := some m.line }))

-- ## Combining stations

/-- Far atomics at their station (R54–R63): an arriving request joins the first waiting group of its address, where it fits, or begins
one; a group is applied in the order of its members, each on what the one before left; replies go to their requesters; a requester that
waits 20 µs asks what became of its members, and the station answers from its groups and, with the entry logged last, its log. That a
request of a dead incarnation is dropped at the station is the model's reading (log 39); that an entry takes its record with its first
merge is the model's choice (log 7). -/
def Obligations.StationSteps : Prop :=
  ∀ (s : State),
    (∀ i m u, s.focus = .msg i → s.takeMsg i = some (m, u) →
      (∀ op type addr width bound members, m.kind = .atomic op type addr width bound members →
        let x := s.station (locSlice m.line)
        let g : Group := { line := m.line, addr, width, inc := m.inc, cls := if hostLine m.line then 2 else classOf op type
                           op, type, bound, members, vd := m.vd, time := s.now }
        let owned := (s.tag (128 * m.line)).bound = true ∧ find s.keySlots (s.tag (128 * m.line)).key = some m.vd
        let live := m.inc = s.lineInc m.line ∨ owned
        (¬ live → exec .atomicStationArrival s = .next u) ∧
        (live → (∀ o ∈ x.groups, o.addr = addr → o.applied = true) →
          (hostLine m.line = true ∨ (x.groups.filter fun o => !o.applied).length < 64) →
          exec .atomicStationArrival s = .next (u.setStation (locSlice m.line) fun _ => { x with groups := x.groups ++ [g] })) ∧
        (∀ pre o post, live → x.groups = pre ++ o :: post → o.addr = addr → o.applied = false →
          (∀ p ∈ pre, p.addr = addr → p.applied = true) → o.cls = g.cls → g.cls ≠ 2 → o.width = width → o.inc = m.inc →
          (g.cls = 1 → o.bound = bound) → o.members.length + members.length ≤ 8 → (o.record = true ∨ x.records < 128) →
          exec .atomicStationArrival s = .next (u.setStation (locSlice m.line) fun _ =>
            { x with groups := pre ++ { o with members := o.members ++ members, record := true } :: post }))) ∧
      (∀ module op, m.kind = .query module op → exec .outcomeQuery s =
        let a := (s.station (locSlice m.line)).lookup module op
        .next (u.send { src := m.dst, dst := m.src, kind := .answer module op a.1 a.2, line := m.line, vd := m.vd, inc := m.inc })) ∧
      (∀ module op what v, m.kind = .answer module op what v → (∀ p, m.dst ≠ .port p) → m.dst ≠ .control →
        (s.byOp op = none → exec .outcomeQueryAnswer s = .next u) ∧
        (∀ w a, s.byOp op = some (w, a) →
          (what = 0 → exec .outcomeQueryAnswer s = .next (u.setAccess w a.id fun a => { a with timer := s.now })) ∧
          (what = 1 → exec .outcomeQueryAnswer s = .next (u.memberDone op v none)) ∧
          (what = 2 → a.dst = none → exec .outcomeQueryAnswer s = .next (u.memberDone op v none)) ∧
          (what = 2 → a.dst ≠ none → exec .outcomeQueryAnswer s = .next (u.memberDone op 0 (some 0x11)))))) ∧
    (∀ i k ok g, s.focus = .group i k ok → (s.station i).groups[k]? = some g →
      (g.applied = false → s.mayLeave (s.station i) k g = true → s.satisfied none g.line true = true → s.ready g.line = true →
        let leave := fun (rs : List Nat) (s : State) => s.setStation i fun x =>
          { groups := modAt x.groups k fun g => { g with applied := true, results := rs }
            log := (x.log ++ (g.members.zip rs).map fun m => (m.1.op, m.1.module, m.2)).drop (x.log.length + rs.length - 256)
            recent := (x.recent.filter fun r => s.now < r.2 + 48) ++ [(g.line, s.now)] }
        (s.isLost g.line = true → exec .groupApply s = .next (leave [] s)) ∧
        (s.isLost g.line = false →
          let a := applyMembers g.op g.type (s.mem.readNat g.addr g.width) g.members
          exec .groupApply s = .next (leave a.1 ((s.poke g.addr (leBytes g.width a.2)).fillLlc g.line g.vd true)))) ∧
      (g.applied = true →
        let u := s.setStation i fun x => { x with groups := x.groups.eraseIdx k }
        (g.record = true → ok = false → exec .groupReply s = .next u) ∧
        ((g.record = false ∨ ok = true) → exec .groupReply s = .next (u.replyAll g)))) ∧
    (∀ (x : Nat) (ms : List Member), x < 2 ^ 32 →
      let a := applyMembers 0 0 x ms
      a.1.length = ms.length ∧ a.2 = (x + (ms.map fun m => m.arg).sum) % 2 ^ 32 ∧
      ∀ k, k < ms.length → a.1[k]? = some ((x + ((ms.take k).map fun m => m.arg).sum) % 2 ^ 32)) ∧
    (∀ (x : Station) (module op : Nat),
      ((∃ g ∈ x.groups, (g.applied = false ∨ g.record = true) ∧ ∃ m ∈ g.members, m.op = op ∧ m.module = module) →
        x.lookup module op = (0, 0)) ∧
      (∀ pre e post, (∀ g ∈ x.groups, g.applied = false ∨ g.record = true → ∀ m ∈ g.members, m.op ≠ op ∨ m.module ≠ module) → x.log = pre ++ e :: post → e.1 = op →
        e.2.1 = module → (∀ f ∈ post, f.1 ≠ op ∨ f.2.1 ≠ module) → x.lookup module op = (1, e.2.2)) ∧
      ((∀ g ∈ x.groups, g.applied = false ∨ g.record = true → ∀ m ∈ g.members, m.op ≠ op ∨ m.module ≠ module) → (∀ f ∈ x.log, f.1 ≠ op ∨ f.2.1 ≠ module) →
        x.lookup module op = (2, 0))) ∧
    (∀ w id a line op t, s.focus = .access w id → s.access w id = some a → a.kind = .far op t → combinable op t = true → a.ops ≠ [] →
      a.line = some line → hostLine line = false → a.timer + 20000 * ticksPerNs ≤ s.now →
      exec .combineTimerExpiry s = .next (a.ops.foldl (fun s o => s.send
        { src := opEndpoint o.2, dst := homeOf line, kind := .query s.fabric.module o.2, line, vd := a.vd, inc := s.lineInc line })
        (s.setAccess w id fun a => { a with timer := s.now })))

-- ## HBM4E

/-- HBM4E (R52, R75–R78, R81–R84, R87): slots and their charge, refills, reads with one retry, writes under the next counters, errors of
the SRAMs, and the regeneration of a killed VD's frame, which binds no retired frame (R88). -/
def Obligations.HbmSteps : Prop :=
  ∀ (s : State),
    (∀ st ch r, s.focus = .channel st ch →
      let n := 192 * st + ch
      let waiting := fun (k : Nat) => s.hbm.reqs.filter fun q =>
        q.stage = 0 && stackOf (128 * q.line) = st && pchOf (128 * q.line) = ch && s.slotClass q = k
      let serve := fun (free : Bool) => { s with hbm := { s.hbm with
        openRow := put s.hbm.openRow n (rowOf r.line)
        reqs := modFirst (fun q => q.id = r.id) (fun q => { q with stage := 1, free }) s.hbm.reqs } }
      let cost := 1 + Config.treeTransfers r.line s.now
      (s.slotChoice n (waiting 0) = some r →
        (s.metered r = false → exec .pseudoChannelSlot s = .next (serve false)) ∧
        (s.metered r = true → exec .pseudoChannelSlot s = .next ((serve false).setBucket (mdieOf (128 * r.line)) r.vd fun k =>
          { k with level := max (-(2 ^ 24)) (k.level - cost), used := k.used + BitVec.ofNat 64 cost }))) ∧
      (waiting 0 = [] → s.slotChoice n (waiting 1) = some r → s.metered r = true →
        exec .pseudoChannelSlot s = .next ((serve true).setBucket (mdieOf (128 * r.line)) r.vd fun k =>
          { k with idled := k.idled + BitVec.ofNat 64 cost }))) ∧
    (∀ n r rs, (∀ q ∈ rs, r.time ≤ q.time) → 200 * ticksPerNs ≤ s.now - r.time → s.slotChoice n (r :: rs) = some r) ∧
    (Does .quotaRefill s fun t => (∀ m v, t.bucket m v =
        { s.bucket m v with level := min ((s.bucket m v).depth : Int) ((s.bucket m v).level + (s.bucket m v).rate) }) ∧
      t = { s with hbm := { s.hbm with buckets := t.hbm.buckets } }) ∧
    (∀ line ok pre r post, s.focus = .lineOk line ok → s.hbm.reqs = pre ++ r :: post → r.line = line → r.write = false →
      (∀ q ∈ pre, q.line ≠ line ∧ q.id ≠ r.id) →
      (let t := s.endRead r
       (∀ q ∈ t.hbm.reqs, q.id ≠ r.id) ∧ t.agenda = s.agenda ++ r.users ++ [(.persistentActivation, .line line)]) ∧
      (r.stage = 1 → s.ready line = true → exec .hbm4eReadComplete s = .next (s.endRead r)) ∧
      (r.stage = 1 → s.ready line = false → ok = true → s.macOk line = true → exec .hbm4eReadComplete s = .next ((s.endRead r).fillLlc line r.vd false)) ∧
      (r.stage = 1 → s.ready line = false → (ok = false ∨ s.macOk line = false) →
        exec .hbm4eReadComplete s = .next { s with hbm := { s.hbm with reqs := pre ++ { r with stage := 2 } :: post } }) ∧
      (r.stage = 2 → s.ready line = false → ok = true → s.macOk line = true → exec .hbm4eReadRetryComplete s =
        let u := s.endRead r
        .next ({ u with hbm := { u.hbm with transientErrors := s.hbm.transientErrors ++ [line] } }.fillLlc line r.vd false)) ∧
      (r.stage = 2 → s.ready line = false → (ok = false ∨ s.macOk line = false) → Does .hbm4eReadRetryComplete s fun t =>
        t.isLost line = true ∧ line / 32 ∈ t.hbm.retired ∧ (∀ q ∈ t.hbm.reqs, q.id ≠ r.id) ∧
        t.out = s.out ++ [.vdc 0x10 r.vd (line / 32) 0] ∧
        t = { s with hbm := t.hbm, out := t.out, agenda := (s.endRead r).agenda })) ∧
    (∀ d line ok, s.focus = .weightRetry d line ok → Does .hbm4eReadRetryComplete s fun t =>
      (ok = false → line % 2 ^ 22 ∈ (t.die d).wlost ∧ (t.die d).wtransient = (s.die d).wtransient) ∧
      (ok = true → line % 2 ^ 22 ∈ (t.die d).wtransient ∧ (t.die d).wlost = (s.die d).wlost) ∧ t = { s with dies := t.dies }) ∧
    (∀ line pre r post, s.focus = .line line → s.hbm.reqs = pre ++ r :: post → r.line = line → r.write = true → r.stage = 1 →
      (∀ q ∈ pre, q.line = line → q.write = true → q.stage ≠ 1) → s.frozen line = false →
      (s.exhaustedAt line = none → Does .hbm4eWrite s fun t =>
        find t.hbm.cipher line = some ((s.advance line).encrypt line (s.lineData line)) ∧
        t.group line = (s.group line).bump (memberOf (128 * line)) 127 ∧ (∀ q ∈ t.hbm.reqs, q.id ≠ r.id) ∧
        t = { s with hbm := t.hbm }) ∧
      (s.exhaustedAt line = some 0 → Does .hbm4eWrite s fun t => (t.group line).frozen = true ∧ t.frozen line = true) ∧
      (∀ k, s.exhaustedAt line = some (k + 1) → k < 6 → Does .hbm4eWrite s fun t => t.frozen line = true)) ∧
    (∀ (c : Counters) (child limit : Nat),
      (look c.minors child 0 < limit → look (c.bump child limit).minors child 0 = look c.minors child 0 + 1 ∧
        (c.bump child limit).major = c.major) ∧
      (limit ≤ look c.minors child 0 → (c.bump child limit).minors = [] ∧ (c.bump child limit).major = c.major + 1)) ∧
    (∀ d line tag, s.focus = .sram (some (.die d)) line tag →
      let t := s.held' (.die d) line
      (tag = true → exec .sramUncorrectableError s = .next { s with agenda := s.agenda ++ [(.fatalDieError, .die d)] }) ∧
      (tag = false → t.tokens ≠ 0 → t.dirty = true → exec .sramUncorrectableError s =
        .next ((s.setHeld (.die d) line { t with lost := true }).sendHeld (.die d) line (homeOf line) t.tokens t.owner true t.ctx true)) ∧
      (tag = false → t.tokens ≠ 0 → t.dirty = false → exec .sramUncorrectableError s =
        .next (s.sendHeld (.die d) line (homeOf line) t.tokens t.owner false t.ctx true))) ∧
    (∀ line tag, s.focus = .sram none line tag →
      (tag = true → exec .sramUncorrectableError s = .next { s with agenda := s.agenda ++ [(.deviceReset, .none)] }) ∧
      (∀ t, tag = false → find s.coh.llc line = some t → Does .sramUncorrectableError s fun u =>
        u.coh.llc = del s.coh.llc line ∧ (t.dirty = true → u.isLost line = true) ∧ (t.dirty = false → u.hbm = s.hbm))) ∧
    (∀ f value v x k, s.focus = .frame f value → s.vds.find? (fun v => v.2.kill.any fun k => k.erased && k.frames.contains f) = some (v, x) →
      x.kill = some k → s.watermark < (s.now - k.time) / 15 →
      (bit value 10 = true → f ∉ s.hbm.retired ∧ s.mixes k.frames f (value % 1024) = false) → Does .tokenRegeneration s fun t =>
        t.tag (4096 * f) = { key := value % 1024, gen := ((s.tag (4096 * f)).gen + 1) % 256, bound := bit value 10 } ∧
        (∀ l, l / 32 = f → (t.homeTag l).tokens = 64 ∧ (∀ h, (t.held' h l).tokens = 0) ∧ t.isLost l = false ∧ l ∉ t.hbm.written) ∧
        (∀ a, a / 4096 = f → t.mem.read a = 0#8) ∧ (∀ a, a / 4096 ≠ f → t.mem.read a = s.mem.read a)) ∧
    (∀ f value, s.focus = .frame f value → bit value 10 = true → f ∈ s.hbm.retired → exec .tokenRegeneration s = .next s)

-- ## The fabric and CXL

/-- A request of kind `kind` from another module may be performed at the physical addresses `pas`: its VD takes requests, none of its
source for the line waits before it, and its addresses translate, after which the state is `t` (R92, R98). -/
abbrev Sys2Proof.Arrives (s t : State) (kind : Nat) (q : InReq) (pas : List Nat) : Prop :=
  (s.vd q.vd).open = true ∧ (∀ o ∈ s.fabric.held, o.q ≠ q ∧ HeldReq.sameLine { q, kind } o = false) ∧
  pas.length = (HeldReq.uses { q, kind }).length ∧
  s.fabricTrans q.vd (HeldReq.uses { q, kind }) = (t, ((HeldReq.uses { q, kind }).zip pas).map fun e => (e.1.1, Tr.ok e.2))

/-- A platen agent may use a line (R33, R35, R42, R49, R106): its holder has the tokens, no copy in the host's cache and no copy agent's
buffer stands in the way, and the data of a line homed at the proxy is there. -/
abbrev Sys2Proof.May (t : State) (line : Nat) (write : Bool) : Prop :=
  t.satisfied (platenHolder line) line write = true ∧ t.hostHas line write = false ∧ (hostLine line = true → t.ready line = true) ∧
  t.buffered line = false

/-- Fabric requests that arrive (R92–R94, R98, R99): what each does where its addresses translate and the port holds the tokens (it waits
at its port meanwhile), and the refusal of a VD that takes none, of each member of an `RATOM`. `RVADD` leaves elements outside its mask as
they are (R384). That an `RLD` or `RVADD` of a lost line is refused, and that `RVADD` takes two steps of half a line, are the model's
choices (log 59); how requests wait for one another is its reading (log 47). -/
def Obligations.FabricRequests : Prop :=
  ∀ (s t : State) (q : InReq) (pa sg : Nat), s.focus = .remote q →
    let line := pa / 128
    let k := fun (kind : Nat) => t.hold { q, kind }
    let refused := fun (t : State) => (t.setVd q.vd id).emit (.fabricReply q.srcModule q.op true [])
    let done := fun (kind : Nat) (t : State) => (t.unhold { q, kind }).emit (.fabricReply q.srcModule q.op false [])
    ((s.vd q.vd).open = false → (∀ o ∈ s.fabric.held, o.q ≠ q) →
      (∀ i ∈ [Instr.rldRequest, .rstRequest, .rvaddRequest, .rwsigRequest], exec i s = .next (refused s)) ∧
      exec .ratomRequest s =
        .next (q.members.foldl (fun s m => s.emit (.fabricReply m.2.2.2 m.1 true [])) (s.setVd q.vd id))) ∧
    (Arrives s t 0 q [pa] → May t line false →
      ((t.isLost line = true ∨ (t.held' .proxy line).lost = true) →
        exec .rldRequest s = .next ((refused (t.touch line)).passOn line)) ∧
      (t.isLost line = false → (t.held' .proxy line).lost = false → exec .rldRequest s =
        .next (((t.touch line).emit (.fabricReply q.srcModule q.op false [(t.lineData line).toNat])).passOn line))) ∧
    (Arrives s t 1 q [pa] → May t line true →
      exec .rstRequest s = .next ((done 1 (((k 1).touch line).writeMasked pa q.vd q.data q.mask)).passOn line)) ∧
    (Arrives s t 2 q [pa] → exec .ratomRequest s = .next (((k 2).hold { q, kind := 2, half := 1 }).send
      { src := t.portFor q.plane, dst := homeOf line, line, vd := q.vd, inc := t.inc pa
        kind := .atomic 0 (if q.kind = 1 then 9 else 0) pa (if q.kind = 1 then 8 else 4) 0
          (q.members.map fun m => { op := m.1, arg := m.2.1, nr := m.2.2.1, module := m.2.2.2, src := t.portFor q.plane }) })) ∧
    (Arrives s t 3 q [pa] → t.isLost line = true → exec .rvaddRequest s = .next (refused t)) ∧
    (Arrives s t 3 q [pa] → t.isLost line = false → (hostLine line = true → t.buffered line = false) → t.satisfied none line true = true → t.ready line = true →
      let a := line * 128
      exec .rvaddRequest s = .next ((((k 3).poke a (addHalf q.kind (q.mask.toNat % 2 ^ 64) (t.mem.bytes a 64)
        ((List.range 64).map (lineByte q.data)))).fillLlc line q.vd true).hold { q, kind := 3, half := 1 })) ∧
    (Arrives s t 4 q [pa, sg] → May t line true →
      exec .rwsigRequest s = .next ((((((k 4).touch line).writeMasked pa q.vd q.data q.mask).hold
        { q, kind := 4, half := 1, sigPa := sg, timer := t.now }).portAtomic
        (t.portFor q.plane) q.vd sg 9 8 [{ op := q.op, arg := 1, nr := true, module := q.srcModule, src := t.portFor q.plane }]).passOn
          line)) ∧
    (∀ i m u op h v bad p, s.focus = .msg i → s.takeMsg i = some (m, u) → m.kind = .reply q.srcModule op v bad → m.dst = .port p →
      u.signalOf q.srcModule op = some h → h.kind = 4 →
      exec .groupReply s = .next ((u.unhold h).emit (.fabricReply h.q.srcModule h.q.op bad []))) ∧
    (∀ pre h post, s.fabric.held = pre ++ h :: post → h.q = q → h.kind = 3 → h.left = [] → h.half = 1 → (∀ o ∈ pre, o.q ≠ q) →
      (∀ o ∈ pre, h.sameLine o = false) → (s.vd q.vd).open = true → s.fabricTrans q.vd h.uses = (t, [(q.fa, .ok pa)]) →
      t.isLost line = false → (hostLine line = true → t.buffered line = false) → t.satisfied none line true = true →
      t.ready line = true →
      let a := line * 128 + 64
      exec .rvaddRequest s = .next ((((t.poke a (addHalf q.kind (q.mask.toNat / 2 ^ 64 % 2 ^ 64) (t.mem.bytes a 64)
        ((List.range 64).map fun k => lineByte q.data (64 + k)))).fillLlc line q.vd true).unhold h).emit
          (.fabricReply q.srcModule q.op false []))) ∧
    (∀ (ty m k : Nat) (mem data : List Byte), mem.length = 64 → k < 64 → bit m k = false →
      (addHalf ty m mem data).getD k 0#8 = mem.getD k 0#8) ∧
    (∀ (d : LineData) (m : ByteMask) (v k : Nat), s.mem.wf = true → k < 128 →
      (s.writeMasked pa v d m).mem.read (128 * line + k) =
        if m.getLsbD k then lineByte d k else s.mem.read (128 * line + k))

/-- Replies, timeouts and reductions at the requester (R97, R98, R104): a reply gives the access its values, or the fault of a
refusal, and sends what waited for the allowance; a timeout ends it with the link's fault; a reduction's result is written to
our window and our signal is incremented; the reply to what an aborted kernel had sent gives its unit back. Ports and planes (R100, R101): a port whose retries are exhausted drains, hands its
planes over, trains again, and takes its plane back. -/
def Obligations.FabricReplySteps : Prop :=
  (∀ (s : State) (w : WarpRef) (a : Access),
    (∀ op refused data g, s.focus = .reply op refused data → s.byPacket op = some (w, a) → (a.remoteKind ≠ some 5 ∨ refused = true) →
      (s.blk w.blk).bind Block.cluster = some g → a.line = none →
      let b := { a with sent := 3, ops := [], got := a.got ++ if refused then [] else a.replyVals data
                        failed := a.failed.or (if refused then some (0x17, 1#32) else none) }
      let u := s.setAccess w a.id fun _ => b
      let acq := if a.acq = 6 then 3 else a.acq
      let vals := if a.dst.isSome then sortBy (fun g => g.1) b.got else []
      (u.acqReady g a.vd acq = true → exec .fabricReply s =
        .next (((u.complete w { b with acq := 0 } vals b.failed).acqDone g a.die a.vd acq).sendAll)) ∧
      (u.acqReady g a.vd acq = false → exec .fabricReply s = .next u.sendAll)) ∧
    (∀ op refused data, s.focus = .reply op refused data → s.byPacket op = none → (s.orphan op).isSome = true →
      exec .fabricReply s = .next (s.dropOrphan op).sendAll) ∧
    (∀ id, s.focus = .access w id → s.access w id = some a → a.remoteKind.isSome = true → a.sent = 1 →
      a.time + ticksPerNs * s.fabric.timeoutNs ≤ s.now → s.planeHandled a.plane = false →
      exec .fabricTimeout s = .next (s.complete w { a with acq := 0 } [] (some (0x17, 0#32))).sendAll) ∧
    (∀ op lines ty t pa sg, s.focus = .reduced op lines → s.byOp op = some (w, a) → a.kind = .remote 5 ty → a.sent = 1 →
      2 ≤ lines.length → lines.length ≤ 256 → a.payload.1 ∈ lines →
      let e := s.cap a.vd a.cap
      let q : InReq := { plane := a.plane, srcModule := s.fabric.module, srcVd := a.vd, op, vd := a.vd, fa := a.fa
                         mask := BitVec.allOnes 128, data := reduceLines ty lines, kind := ty, members := []
                         sig := bits e 127 64 + bits e 255 192 }
      Arrives (s.setAccess w a.id fun a => { a with sent := 3 }) t 5 q [pa, sg] →
      May t (pa / 128) true →
      exec .rredResult s =
        .next ((((((t.hold { q, kind := 5 }).touch (pa / 128)).writeMasked pa a.vd q.data q.mask).hold
          { q, kind := 5, half := 1, sigPa := sg, timer := t.now }).portAtomic (t.portFor a.plane) a.vd
          sg 9 8 [{ op, arg := 1, nr := true, module := s.fabric.module, src := t.portFor a.plane }]).passOn (pa / 128)).sendAll)) ∧
  (∀ (s : State) (p : Nat), let k := look s.fabric.ports p {}
    (∀ n, s.focus = .plane p n → k.state = 2 ∨ k.state = 5 → exec .portRetryExhausted s = .next (s.setPort p fun k =>
      { k with state := 3, restoring := false, drainAt := some (s.now + ticksPerNs * s.fabric.timeoutNs)
               retries := min (2 ^ 24 - 1) (k.retries + n) }).sendAll) ∧
    (∀ c, s.focus = .plane p c → k.state = 3 → (∀ t, k.drainAt = some t → t ≤ s.now) →
      (c = 16 ∨ (c < 16 ∧ c ≠ p ∧ (look s.fabric.ports c {}).state = 2)) → Does .portDrainEnd s fun t =>
        (look t.fabric.ports p {}).state = 4 ∧ (look t.fabric.ports p {}).drainAt = none ∧
        (c < 16 → ∀ q ∈ k.carries, (look t.fabric.ports c {}).planes.getLsbD q = true)) ∧
    (∀ c, s.focus = .plane p c → p < 16 →
      (c < 16 → (look s.fabric.ports c {}).state = 2 → s.carrierOf p ≠ some c → c ≠ p ∨ s.carrierOf p = none →
        exec .planeRemapNotice s = .next (s.movePlane p c).sendAll) ∧
      (c = p → k.state = 2 → s.carrierOf p ≠ some p → s.carrierOf p ≠ none →
        exec .planeRemapNotice s = .next (s.setPort p fun k => { k with restoring := true })) ∧
      (c = 16 → exec .planeRemapNotice s = .next ((s.movePlane p 16).resend [p]))) ∧
    (∀ n, s.focus = .plane p n → p < 16 → exec .linkRetrained s = .next (s.setPort p fun k =>
      { k with retries := min (2 ^ 24 - 1) (k.retries + n) })) ∧
    (∀ c, p < 16 → c < 16 → c ≠ p → (s.movePlane p c).carrierOf p = some c ∧ (s.movePlane p 16).carrierOf p = none) ∧
    (s.focus = .port p →
      (k.state = 4 → exec .linkRetrained s = .next (s.setPort p fun k => { k with state := 5 })) ∧
      (k.state = 5 → exec .fportctlRestore s = .next (s.setPort p fun k => { k with restoring := true })) ∧
      (k.state = 5 ∨ k.state = 2 → k.restoring = true → (∀ a ∈ s.allAccesses, a.2.remoteKind.isSome = true → a.2.sent = 1 → a.2.plane = p →
          a.2.time + ticksPerNs * s.fabric.timeoutNs ≤ s.now) →
        (∀ a ∈ s.fabric.orphans, a.2.plane = p → a.2.time + ticksPerNs * s.fabric.timeoutNs ≤ s.now) →
        exec .planeRestoreComplete s =
          .next (((s.movePlane p p).setPort p fun k => { k with state := 2, restoring := false }).resend [p]))))

/-- CXL (R49, R106–R109): transactions, the host's requests and snoops, its answers to a recall, timeouts, links that fail and come back,
and an expander's capacity. That the retry's timer starts at the failure and again at the retrain, that a retrain heals lost host lines,
and how over PCIe a line's copies stand apart, are the model's (log 61). -/
def Obligations.CxlSteps : Prop :=
  ∀ (s : State),
    (∀ id t, s.focus = .txn id → s.txn id = some t →
      (s.linkWorks t.port = true →
        (t.kind = 0 → t.orphan = false → exec .cxlTransactionComplete s = .next (((s.takeHost t.line).atProxy t.line t.vd).endTxn t)) ∧
        (t.kind = 0 → t.orphan = true → exec .cxlTransactionComplete s = .next (s.endTxn t)) ∧
        (t.kind = 1 → exec .cxlTransactionComplete s = .next ((s.putHost t.line t.data).endTxn t))) ∧
      (t.time + ticksPerNs * vget s.cxl.timeoutNs t.port 0 ≤ s.now →
        (t.retried = false → exec .cxlCompletionTimeout s = .next (s.setCxl fun c =>
          { c with table := modFirst (fun x => x.id = id) (fun x => { x with retried := true, time := s.now }) c.table })) ∧
        (t.retried = true → exec .cxlCompletionTimeout s = .next (s.failTxn t)))) ∧
    (∀ line write, s.focus = .hostReq line write →
      (s.cxl.cxlMode = true → hostLine line = false → s.recalling line = false → s.buffered line = false →
        s.satisfied (some .proxy) line write.isSome = true →
        let own := write.isSome || look s.cxl.hostLines line false
        let u := (s.setCxl fun c => { c with hostLines := put c.hostLines line own }).touch line
        (write = none → exec .hostCxlRequest s = .next u) ∧
        (∀ d, write = some d → exec .hostCxlRequest s =
          .next (u.platenPoke (128 * line) (leBytes 128 d.toNat) (s.ownerOf line)))) ∧
      (s.cxl.cxlMode = false → hostLine line = false → s.agentMay line write.isSome = true →
        (write = none → exec .hostCxlRequest s = .next (((s.touch line).emit (.cxl 4 line)).passOn line)) ∧
        (∀ d, write = some d → exec .hostCxlRequest s =
          .next ((((s.touch line).platenPoke (128 * line) (leBytes 128 d.toNat) (s.ownerOf line)).emit (.cxl 4 line)).passOn line))) ∧
      (hostBase ≤ 128 * line → 128 * line < 2 * hostBase →
        (s.cxl.cxlMode = true → s.satisfied none line true = true → s.buffered line = false → s.hasTxn 1 line = false →
          let h := (s.takeHost line).emit (.cxl 3 line)
          let u := { h with coh := { h.coh with llc := del h.coh.llc line } }
          (write = none → exec .hostSnoop s = .next u) ∧
          (∀ d, write = some d → exec .hostSnoop s = .next { u with mem := u.mem.store (128 * line) (leBytes 128 d.toNat) })) ∧
        (∀ d, s.cxl.cxlMode = false → write = some d → exec .hostSnoop s = .next (s.putHost line d)))) ∧
    (∀ line data t, s.focus = .backInv line data → s.cxl.table.find? (fun t => t.line = line && t.kind = 2) = some t →
      s.linkWorks 2 = true →
      let u := fun (s : State) => ((s.setCxl fun c => { c with hostLines := del c.hostLines line }).giveUp t false).endTxn t
      (data = none → exec .backInvalidationResponse s = .next (u s)) ∧
      (∀ d, data = some d → look s.cxl.hostLines line false = true → exec .backInvalidationResponse s =
        .next (u (s.platenPoke (128 * line) (leBytes 128 d.toNat) t.vd)))) ∧
    (∀ p, s.focus = .port p → p < 3 →
      (s.linkWorks p = true → exec .cxlLinkDown s =
        .next (((s.cxl.table.filter fun t => t.port = p).map fun t => t.id).foldl State.troubled
          (s.setCxl fun c => { c with linkUp := c.linkUp.setIfInBounds p false }))) ∧
      (s.linkWorks p = false → Does .cxlLinkRetrain s fun t =>
        t.linkWorks p = true ∧ (∀ l, hostLine l = true → portOf l = p → t.isLost l = false) ∧
        (∀ x ∈ t.cxl.table, x.port = p → x.retried = true → x.time = s.now) ∧
        t.out = s.out ++ (s.cxl.table.filter fun x => x.port = p && x.retried).map (fun x => .cxl x.kind x.line) ∧
        t = { s with cxl := t.cxl, hbm := { s.hbm with lost := t.hbm.lost }, out := t.out })) ∧
    (∀ n, s.focus = .capacity 2 n → s.linkWorks 2 = false → exec .cxlLinkRetrain s = .next (s.trainHost (n != 0)) ∧
      (s.trainHost (n != 0)).cxl.cxlMode = (n != 0) ∧ (n = 0 → (s.trainHost false).cxl.hostLines = [])) ∧
    (∀ p n, s.focus = .capacity p n → p < 2 → Does .expanderRetrain s fun t =>
      t.linkWorks p = true ∧ vget t.cxl.capacity p 0 = min n 0x40000000000)

-- ## The virtual device controller

/-- How a mailbox command ends (R118): its status and sequence number are in the status register, its results in the result
registers, and vector 0 of the PF is pending, or has sent its message. Mailbox commands (R24, R118, R119, R133, R161): what each
does where the device, its arguments and the VD's state allow it, and the status of a command that they do not allow, which
changes nothing. That a command is one step, the status of code 0 and of codes above 10, `LOAD_IMAGE`'s arguments and its status 2, and
`QUERY_VD` of a `FREE` VD are the model's choices (log 63), as is which key id `CREATE_VD` takes, with status 4 where none is free
(log 54). -/
def Obligations.Mailbox : Prop :=
  (∀ (s : State) (seq status : Nat) (res : List Nat), seq < 2 ^ 16 → status < 2 ^ 8 →
    let t := s.mbEnd seq status res
    t.pf.mbstat.toNat = 256 * status + 65536 * seq ∧
    (∀ k, k < res.length → k < 4 → res.getD k 0 < 2 ^ 64 → (vget t.pf.mbres k 0#64).toNat = res.getD k 0) ∧
    (let v := look s.pf.msix 0 {}
     (v.masked = true → (look t.pf.msix 0 {}) = { v with pending := true } ∧ t.out = s.out) ∧
     (v.masked = false → (look t.pf.msix 0 {}) = { v with pending := false } ∧ t.out = s.out ++ [.msix 0 0 v.data])) ∧
    t = { s with pf := t.pf, out := t.out }) ∧
  (∀ (s : State) (seq code : Nat), s.focus = .mailbox seq code →
    let v := s.arg 0
    let x := s.vd v
    (s.boot.recovery = false → v < s.boot.record.maxVds →
      (∀ k, 1 ≤ s.arg 1 → s.arg 1 ≤ 255 → 1 ≤ s.arg 2 → s.arg 2 ≤ 512 → x.state = .free → s.freeKey = some k → exec .createVd s = .next
        ({ s with
           vds := put s.vds v { state := .configured, weight := s.arg 1, stride := 2 ^ 20 / s.arg 1, maxClusters := s.arg 2, keyId := k }
           keySlots := put s.keySlots k v }.mbEnd seq 0 [])) ∧
      (1 ≤ s.arg 1 → s.arg 1 ≤ 255 → 1 ≤ s.arg 2 → s.arg 2 ≤ 512 → x.state = .free → s.freeKey = none →
        exec .createVd s = .next (s.mbEnd seq 4 [])) ∧
      (x.state = .configured → x.nvdie ≠ 0 → exec .startVd s =
        .next (((s.setVd v fun x => { x with state := .active, launchSeq := 1#32 }).enterActive v).mbEnd seq 0 [])) ∧
      (x.state = .active → exec .suspendVd s = .next ((s.setVd v fun x => { x with state := .suspended }).mbEnd seq 0 [])) ∧
      (x.state = .suspended → exec .resumeVd s =
        .next (((s.setVd v fun x => { x with state := .active }).enterActive v).mbEnd seq 0 [])) ∧
      (x.state ≠ .free → exec .resetVd s = .next ((s.beginKill v false 0 false []).mbEnd seq 0 [])) ∧
      (x.state ≠ .free → exec .destroyVd s = .next ((s.beginKill v true 0 false []).mbEnd seq 0 [])) ∧
      (x.state ≠ .free → 1 ≤ s.arg 1 → s.arg 1 ≤ 255 → exec .setWeight s =
        .next ((s.setVd v fun x => { x with weight := s.arg 1 }).mbEnd seq 0 [])) ∧
      (s.arg 1 ≤ 1 → exec .queryVd s = .next (s.mbEnd seq 0
        ((List.range 4).map fun k => bytesNat x.controlBlock (32 * s.arg 1 + 8 * k) 8))) ∧
      (s.arg 1 = 2 → x.weight ≠ 0 → exec .queryVd s = .next (s.mbEnd seq 0 [x.pass.toNat, 2 ^ 20 / x.weight, 0, 0])) ∧
      (∀ c ∈ [(Instr.startVd, [VdState.configured]), (.suspendVd, [.active]), (.resumeVd, [.suspended])],
        x.state ∉ c.2 → exec c.1 s = .next (s.mbEnd seq 3 []))) ∧
    (s.boot.recovery = false →
      (s.boot.record.minMode ≤ v → v ≤ 2 →
        exec .setPowerMode s = .next ({ s with power := { s.power with pending := some v } }.mbEnd seq 0 [])) ∧
      (v < s.boot.record.minMode ∨ 2 < v → exec .setPowerMode s = .next (s.mbEnd seq 2 [])) ∧
      (s.boot.record.maxVds ≤ v → ∀ i ∈ [Instr.createVd, .startVd, .suspendVd, .resumeVd, .resetVd, .destroyVd, .setWeight, .queryVd],
        exec i s = .next (s.mbEnd seq 5 [])) ∧
      exec .loadImage s = .next (s.mbEnd seq 3 [])) ∧
    (s.boot.recovery = true →
      let get := fun (k : Nat) => s.mem.bytes (hostBase + s.arg k) (s.arg (k + 1))
      (∀ r, parseRecord (get 2) = some r → Config.signaturesOk (get 0) (get 2) = true → exec .loadImage s =
        .next ((s.bringUp { s.boot with
          record := r, image := Config.sha384 (get 0), recordDigest := Config.sha384 (get 2), chain := get 4 }).mbEnd seq 0 [])) ∧
      ((parseRecord (get 2) = none ∨ Config.signaturesOk (get 0) (get 2) = false) → exec .loadImage s = .next (s.mbEnd seq 2 [])) ∧
      ∀ i ∈ [Instr.createVd, .startVd, .suspendVd, .resumeVd, .resetVd, .destroyVd, .setWeight, .setPowerMode, .queryVd],
        exec i s = .next (s.mbEnd seq 3 [])) ∧
    (code = 0 ∨ 10 < code → exec .unknownCommand s = .next (s.mbEnd seq 1 [])))

/-- Table and register writes of the VDC (R20, R72, R79, R80, R116, R117, R130, R143, R159): what an allowed write stores, and that one
that is not allowed leaves the state as it was but for its error status. -/
def Obligations.TableWrites : Prop :=
  ∀ (s : State),
    (∀ v i val, s.focus = .entry v i val →
      let x := s.vd v
      let t := modAt x.vdie i fun _ => BitVec.ofNat 16 (val &&& 0x801F)
      (i < 32 → x.state ∈ [VdState.configured, .killing] → s.vdieOk t i = true →
        exec .virtualDieTableWrite s = .next (s.setVd v fun x => { x with vdie := t })) ∧
      ((32 ≤ i ∨ x.state ∉ [VdState.configured, .suspended, .killing] ∨ s.vdieOk t i = false) →
        exec .virtualDieTableWrite s = .next (s.emit (.tableError 1))) ∧
      (i < 64 → bits val 15 6 = v + 1 → exec .interruptRemapWrite s =
        .next (s.setVd v fun x => { x with remap := put x.remap i (BitVec.ofNat 32 (val &&& 0x8000FFFF)) })) ∧
      (i < 64 → bits val 15 6 = 0 → bits val 5 0 < 8 → exec .interruptRemapWrite s =
        .next (s.setVd v fun x => { x with remap := put x.remap i (BitVec.ofNat 32 (val &&& 0x8000FFFF)) })) ∧
      (64 ≤ i ∨ (bits val 15 6 ≠ 0 ∧ bits val 15 6 ≠ v + 1) ∨ (bits val 15 6 = 0 ∧ 8 ≤ bits val 5 0) → exec .interruptRemapWrite s = .next (s.emit (.tableError 7))) ∧
      (i = 0 → bits val 7 0 = x.state.code → exec .vdControlBlockWrite s = .next (s.setVd v fun x =>
        { x with weight := bits val 15 8, maxClusters := bits val 31 16, keyId := bits val 41 32 })) ∧
      (i = 0 → lifecycle x (bits val 7 0) = false → exec .vdControlBlockWrite s = .next (s.emit (.tableError 0))) ∧
      (let root := 4096 * bits val 47 12
       let bad := s.unnamed root 4096 || s.foreign v root 4096
       (i = 1 → bad = false → exec .vdControlBlockWrite s = .next (s.setVd v fun x => { x with s2root := BitVec.ofNat 64 val })) ∧
       (i = 1 → bad = true → exec .vdControlBlockWrite s = .next (s.emit (.tableError 4)))) ∧
      (i = 5 → (x.state = .active ∨ x.state = .suspended) → exec .vdControlBlockWrite s =
        .next { s with agenda := s.agenda ++ [(.deviceLaunchQueueRestart, .vdValue v val)] })) ∧
    (∀ d v val, s.focus = .region d v val →
      let r : Region := { base := bits val 8 0, size := bits val 18 9, valid := bit val 31 }
      let overlaps := ∃ o ∈ (s.die d).regions, o.1 ≠ v ∧ o.2.valid = true ∧ r.valid = true ∧ 0 < r.size ∧ 0 < o.2.size ∧
        o.2.base < r.base + r.size ∧ r.base < o.2.base + o.2.size
      ((overlaps ∨ 512 < r.base + r.size) → exec .regionTableWrite s = .next (s.emit (.tableError 2))) ∧
      (¬ overlaps → r.base + r.size ≤ 512 →
        exec .regionTableWrite s = .next (s.setDie d fun x => { x with regions := put x.regions v r }))) ∧
    (∀ f val, s.focus = .frame f val → 4096 * f < hbmEnd →
      let key := bits val 9 0
      let t := s.tag (4096 * f)
      let home := ∀ l ∈ frameLines f, s.satisfied none l true = true
      (bit val 18 = true → s.mixes [] f key = true → exec .keyTagWrite s = .next (s.emit (.tableError 3))) ∧
      (bit val 18 = true → s.mixes [] f key = false → home → (t.bound = false ∨ t.key ≠ key) →
        (s.rekeys f key = false → s.retired f = false → Does .keyTagWrite s fun u =>
          u.tag (4096 * f) = { t with key, bound := true } ∧ (∀ a, a / 4096 = f → u.mem.read a = 0#8) ∧
          (∀ a, a / 4096 ≠ f → u.mem.read a = s.mem.read a)) ∧
        (s.rekeys f key = true → Does .keyTagWrite s fun u =>
          u.tag (4096 * f) = { t with key, bound := true } ∧ (∀ a, u.mem.read a = s.mem.read a))) ∧
      (bit val 18 = true → s.mixes [] f key = false → t.bound = true → t.key = key → exec .keyTagWrite s = .next s) ∧
      (bit val 18 = true → s.mixes [] f key = false → s.retired f = true → t.bound = false → exec .keyTagWrite s = .next s) ∧
      (bit val 18 = false → t.key = key → exec .keyTagWrite s =
        .next (State.unfreeze { s with hbm := { s.hbm with tags := put s.hbm.tags f { t with key, bound := false } } } f))) ∧
    (∀ v level addr e, s.focus = .leaf v level addr e →
      (s.hartBad addr = true → exec .stage2EntryWrite s = .next (s.emit (.hartFault addr))) ∧
      (s.hartBad addr = false → s.leafBad v level addr e = true → exec .stage2EntryWrite s = .next (s.emit (.tableError 4))) ∧
      (s.hartBad addr = false → s.leafBad v level addr e = false → s.agentMay (addr / 128) true = true →
        expanderOf (4096 * bits e 47 12) = none →
        exec .stage2EntryWrite s = .next (((s.touch (addr / 128)).platenPoke addr (leBytes 8 e) v).passOn (addr / 128)))) ∧
    (∀ v k, s.focus = .vdValue v k →
      let other := ∃ o, s.keyOwner k = some o ∧ o ≠ v ∧ ∃ t ∈ s.hbm.tags, t.2.bound = true ∧ t.2.key = k
      ((k = 0 ∨ 1024 ≤ k ∨ other) → exec .keySlotLoad s = .next (s.emit (.tableError 8))) ∧
      (0 < k → k < 1024 → ¬ other → exec .keySlotLoad s = .next { s with keySlots := put s.keySlots k v })) ∧
    (∀ val, s.focus = .value val →
      (20 ≤ bits val 13 0 → bits val 13 0 ≤ 10000 → exec .schcfgWrite s = .next { s with quantumNew := bits val 13 0 }) ∧
      ((bits val 13 0 < 20 ∨ 10000 < bits val 13 0) → exec .schcfgWrite s = .next (s.emit (.tableError 9)))) ∧
    (∀ d val, s.focus = .dieValue d val →
      ((s.dieEnabled d = true ∨ bits val 15 0 = 0) → exec .schpoolWrite s = .next { s with poolNew := put s.poolNew d (bits val 15 0) }) ∧
      (s.dieEnabled d = false → bits val 15 0 ≠ 0 → exec .schpoolWrite s = .next (s.emit (.tableError 10))))

/-- Resets (R119, R132–R137): a VD enters KILLING and KILL goes to every engine; an engine that receives it drops what it holds and
acknowledges; after the last acknowledgement the VD's key is erased, and when its frames and signals are done the VD is as R119 says, also
one whose reset began at FAULTED; a late engine takes its die or the device with it; a failed die is disabled; a device reset brings the
module up again. That interrupted kernels' signal addresses are translated before the frames are cleared is the model's reading (log 62);
which key id a kept VD gets is its choice (log 54). -/
def Obligations.ResetSteps : Prop :=
  ∀ (s : State),
    (∀ v, s.focus = .vd v → (s.vd v).state ≠ .free → (s.vd v).state ≠ .killing → exec .vfFunctionLevelReset s =
      .next (s.killEngines.foldl (fun s e => s.send { src := .control, dst := engineAt e, kind := .kill e, vd := v })
        (s.setVd v fun x => { x with
          state := .killing, lastCode := 0
          kill := some { fromState := (s.vd v).state, left := s.killEngines, time := s.now } }))) ∧
    (∀ i m u e, s.focus = .msg i → s.takeMsg i = some (m, u) →
      (m.kind = .kill e → exec .engineKill s = .next ((u.killAt m.vd e).send
        { src := m.dst, dst := .control, kind := .killAck e, vd := m.vd })) ∧
      (∀ k, m.kind = .killAck e → (s.vd m.vd).kill = some k → Does .killAcksComplete s fun t =>
        (t.vd m.vd).kill = some { k with left := k.left.filter (· ≠ e) } ∧
        (k.left.all (· = e) = true → k.erased = false → (.killAcksComplete, .vd m.vd) ∈ t.agenda))) ∧
    (∀ v g, ((∀ b c, ((s.killAt v (.copyEngine g)).cmds.contains (b, c) → c.cluster = g → s.cmdVd c = v → c.kind.isStep = true)) ∧
      (∀ e ∈ ((s.killAt v (.cluster g)).cl g).tlb, e.vd ≠ v) ∧ (∀ e ∈ ((s.killAt v (.cluster g)).cl g).wcb, e.vd ≠ v) ∧
      (∀ l ∈ ((s.killAt v (.cluster g)).cl g).l1, l.2.vd ≠ v))) ∧
    (∀ v e k, s.focus = .engine v e → (s.vd v).kill = some k → e ∈ k.left → k.time + 10000 * ticksPerNs ≤ s.now →
      (∀ d, engineDie e = some d → exec .killAckTimeout s = .next { s with agenda := s.agenda ++ [(.fatalDieError, .die d)] }) ∧
      (engineDie e = none → exec .killAckTimeout s = .next { s with agenda := s.agenda ++ [(.deviceReset, .none)] })) ∧
    (∀ v k, s.focus = .vd v → (s.vd v).kill = some k → k.left = [] →
      (k.erased = false → ∀ u sigs, s.signalAddrs v k.kernels = (u, some sigs) → Does .killAcksComplete s fun t =>
        (∃ frames, (t.vd v).kill = some { k with erased := true, frames, sigs }) ∧
        (∀ b ∈ t.blocks, u.vdOf b.2 ≠ v) ∧ (k.release = true → ∀ e ∈ t.keySlots, e.2 ≠ v) ∧
        (.killAcksComplete, .vd v) ∈ t.agenda) ∧
      (k.erased = true → k.frames = [] → k.sigs = [] → exec .killAcksComplete s = .next (s.endKill v k))) ∧
    (∀ (k : KillRun) (key : Bool) (dies : Nat),
      (k.release = true → k.next key dies = .free) ∧
      (k.release = false → key = false → k.next key dies = .faulted) ∧
      (k.release = false → key = true → k.fromState = .configured → k.next key dies = .configured) ∧
      (k.release = false → key = true → k.fromState ≠ .configured → dies = 0 → k.next key dies = .faulted) ∧
      (k.release = false → key = true → k.fromState = .suspended → dies ≠ 0 → k.next key dies = .suspended) ∧
      (k.release = false → key = true → k.fromState = .active ∨ k.fromState = .faulted → dies ≠ 0 → k.next key dies = .active)) ∧
    (∀ d, s.focus = .die d → s.dieEnabled d = true → Does .fatalDieError s fun t =>
      t.dieEnabled d = false ∧ (∀ e, e ≠ d → t.dieEnabled e = s.dieEnabled e) ∧ (∀ c ∈ t.cmds, c.2.cluster / 16 ≠ d) ∧
      (∀ c ∈ t.clusters, c.1 / 16 ≠ d)) ∧
    (s.boot.recovery = false → Does .deviceReset s fun t => t.vds = [] ∧ t.blocks = [] ∧ t.kernels = [] ∧ t.cmds = [] ∧ t.coh = {} ∧
      (∀ a, a < hbmEnd → t.mem.read a = 0#8) ∧
      (s.mem.wf = true → ∀ a, hbmEnd ≤ a → find s.cxl.apart (a / 128) = none → t.mem.read a = s.mem.read a) ∧
      (∀ g ∈ t.hbm.tags, g.2.bound = false) ∧ t.power.mode = s.boot.record.minMode ∧
      t.boot.number = s.boot.number + 1)

/-- Writes of BAR 0 (R29, R110–R115, R118, R131): the mailbox, kick pages, control pages and interrupt tables, a VD that takes no writes,
and the vector that an unmask lets go, unless its VD is in KILLING (R120). -/
def Obligations.RegisterWriteSteps : Prop :=
  ∀ (s : State) (fn off size value : Nat), s.focus = .write fn off size value → size = 4 ∨ size = 8 →
    (fn = 0 → off = 0 → s.pf.mbstat.getLsbD 0 = false → Does .registerWrite s fun t =>
      t.pf.mbstat = 1#32 ∧ t.pf.mbcmd = BitVec.ofNat 32 value ∧
      (∃ i, t.agenda = s.agenda ++ [(i, .mailbox (bits value 31 16) (bits value 15 0))] ∧
        (bits value 15 0 = 1 → i = .createVd) ∧ (bits value 15 0 = 2 → i = .startVd) ∧ (bits value 15 0 = 3 → i = .suspendVd) ∧
        (bits value 15 0 = 4 → i = .resumeVd) ∧ (bits value 15 0 = 5 → i = .resetVd) ∧ (bits value 15 0 = 6 → i = .destroyVd) ∧
        (bits value 15 0 = 7 → i = .setWeight) ∧ (bits value 15 0 = 8 → i = .setPowerMode) ∧ (bits value 15 0 = 9 → i = .queryVd) ∧
        (bits value 15 0 = 10 → i = .loadImage) ∧ ((bits value 15 0 = 0 ∨ 10 < bits value 15 0) → i = .unknownCommand)) ∧
      t = { s with pf := t.pf, agenda := t.agenda }) ∧
    (fn = 0 → off = 0 → s.pf.mbstat.getLsbD 0 = true → exec .registerWrite s = .next s) ∧
    (fn = 0 → 0x48 ≤ off → s.boot.recovery = true → exec .registerWrite s = .next s) ∧
    (fn = 1024 → exec .registerWrite s = .next (s.vdcWrite off value)) ∧
    (1 ≤ fn → fn < 1024 → s.totalVfs < fn ∨ (s.vd (fn - 1)).state = .free → exec .registerWrite s = .next s) ∧
    (1 ≤ fn → fn < 1024 → fn ≤ s.totalVfs → (s.vd (fn - 1)).state ≠ .free →
      (off < 0x200 → exec .registerWrite s = .next { s with agenda := s.agenda ++ [(.kickPageWrite, .write fn off size value)] }) ∧
      (0x2000 ≤ off → off < 0x3000 → (s.vd (fn - 1)).open = true →
        exec .registerWrite s = .next (s.controlWrite (fn - 1) (off - 0x2000) size value))) ∧
    (∀ v q, q < 64 → s.controlWrite v (8 * q) size value = { s with agenda := s.agenda ++
      (if bit value 1 then [(.queueRestart, .queue v q 0)] else []) ++
      [(if bit value 0 then .queueEnable else .queueDisable, .queue v q 0)] }) ∧
    (1 ≤ fn → off < 512 → off % 8 = 0 → exec .kickPageWrite s = .next (s.offer (fn - 1) (off / 8) (BitVec.ofNat 32 value))) ∧
    (s.silent fn = false → (s.vector fn off).masked = false → (s.vector fn off).pending = true → Does .msixVectorUnmask s fun t =>
      t.out = s.out ++ [.msix fn off (s.vector fn off).data] ∧ t.vector fn off = { s.vector fn off with pending := false }) ∧
    ((s.silent fn = true ↔ 1 ≤ fn ∧ (s.vd (fn - 1)).state = .killing) ∧ (s.silent fn = true → exec .msixVectorUnmask s = .next s))

-- ## Queues and packets

/-- Lines that a platen agent uses count as used (R49). -/
abbrev Sys2Proof.touched (t : State) (lines : List Nat) : State := lines.foldl State.touch t

/-- A queue engine's access of `n` bytes translates to `pa`, and their lines may be used (R33, R35, R122); then the state is `t`. -/
abbrev Sys2Proof.Gets (s : State) (v q asid va n : Nat) (write : Bool) (t : State) (pa : Nat) : Prop :=
  ∃ u, s.queueAccess v q asid va write = .ok u pa ∧ (∀ l ∈ linesOf pa n, May u l write) ∧ t = touched u (linesOf pa n)

/-- What follows the use of the lines of `n` bytes: over PCIe the proxy passes host lines on (R106). -/
abbrev Sys2Proof.passed (t : State) (pa n : Nat) : State := (linesOf pa n).foldl State.passOn t

/-- Queues (R115, R121–R125, R145, R173): enabling takes the descriptor or stops the queue with a reason; disabling waits for started
packets and for the head's write-back; a restart clears the error; a slot that holds a published packet without a defect starts it and
`HEAD` advances. That a lost line of the table, the descriptor or a slot stops the queue with `REASON` 7 is the model's choice (log 76). -/
def Obligations.QueueSteps : Prop :=
  ∀ (s : State),
    (∀ v q i, s.focus = .queue v q i → (s.vd v).open = true →
      let k := s.queue v q
      (k.enabled = false → k.waiting = none →
        let u := s.setQueue v q fun k => { k with enabling := true }
        let tl := dedup (u.s2Lines v 0)
        let r := touched u tl
        (∀ l ∈ tl, May u l false) →
        ∀ size perm pt, r.s2 v 0 0 = .ok size perm pt → (∀ l ∈ linesOf pt 1024, May r l false) → r.anyLost (linesOf pt 1024) = false →
          let r := touched r (linesOf pt 1024)
          let tab := r.tableAt pt
          let asid := if q = 64 then 0 else queueAsid tab q
          let at' := if q = 64 then (s.vd v).dlq.toNat else (s.vd v).qtbase.toNat + 32 * q
          ∀ t pa, Gets (r.keepRoots v tab [0, asid]) v q 0 at' 32 false t pa →
            let bs := t.mem.bytes pa 32
            let ends := fun (t : State) => Host.Outcome.next (tl.foldl State.passOn (passed (passed t pa 32) pt 1024))
            let fail := fun (reason : Nat) => (t.setQueue v q fun k => { k with enabling := false }).stopQueue v q reason 1
            (t.anyLost (linesOf pa 32) = true → exec .queueEnable s = ends (fail 7)) ∧
            (t.anyLost (linesOf pa 32) = false →
              (descBad bs = false → exec .queueEnable s = ends (t.setQueue v q fun k => k.load bs asid)) ∧
              (descBad bs = true → exec .queueEnable s = ends (fail 5)))) ∧
      (k.enabled = true → k.started = [] → k.wbWaits = false → k.restartAt = none → Does .queueDisable s fun t =>
        (t.queue v q).enabled = false ∧ (t.queue v q).disabling = false ∧ (t.queue v q).waiting = none) ∧
      (k.enabled = false → Does .queueDisable s fun t =>
        (t.queue v q).enabling = false ∧ (t.queue v q).enabled = false ∧ (t.queue v q).waiting = none ∧
        ∀ r, k.waiting = some r → (t.vd v).undelivered = (s.vd v).undelivered.erase r) ∧
      (k.enabled = true → k.started ≠ [] ∨ k.wbWaits = true → exec .queueDisable s = .next (s.setQueue v q fun k => { k with disabling := true })) ∧
      (k.stopped = true → exec .queueRestart s = .next (s.setQueue v q fun k =>
        { k with stopped := false, reason := 0, overkick := false, diskick := false, reread := true }))) ∧
    (∀ v a, s.focus = .vdValue v a → (s.vd v).open = true → Does .deviceLaunchQueueRestart s fun t =>
      (t.vd v).dlq = BitVec.ofNat 64 a ∧
      ((s.queue v 64).started = [] → (s.queue v 64).wbWaits = false → (t.queue v 64).enabled = false ∧ (t.queue v 64).restartAt = none ∧
        (BitVec.ofNat 64 a ≠ 0#64 → t.agenda = s.agenda ++ [(.queueEnable, .queue v 64 0)])) ∧
      ((s.queue v 64).started ≠ [] ∨ (s.queue v 64).wbWaits = true → (t.queue v 64).restartAt = some (BitVec.ofNat 64 a) ∧
        (t.queue v 64).enabled = (s.queue v 64).enabled)) ∧
    (∀ v q i, s.focus = .queue v q i → (s.vd v).open = true → (s.queue v q).enabled = true → (s.queue v q).waiting = none →
      let k := s.queue v q
      (k.wbWaits = true → ∀ t pa, Gets s v q k.asid k.headWb.toNat 4 true t pa → exec .slotPoll s = .next
        (passed (((t.platenPoke pa (leBytes 4 k.head.toNat) v).setQueue v q fun k => { k with wbWaits := false }).queueIdle v q) pa 4)) ∧
      ((s.vd v).state = .active → k.stopped = false → k.disabling = false → k.restartAt = none → k.wbWaits = false →
        k.head ≠ k.tail → (∀ p ∈ k.started, p.type ≠ 3) →
        ∀ t pa, Gets s v q k.asid (k.ring.toNat + 64 * (k.head.toNat % 2 ^ k.log2)) 64 false t pa → t.anyLost [pa / 128] = false →
          let p : Packet := { idx := k.head.toNat, bytes := t.mem.bytes pa 64, progress := if t.mem.read pa = 5#8 then t.ns else 0 }
          let again := t.setQueue v q fun k => { k with reread := false, pollAt := t.now + 2000 * ticksPerNs }
          let ends := fun (t : State) => Host.Outcome.next (passed t pa 64)
          (p.lap ≠ (k.head.toNat >>> k.log2) % 65536 → exec .slotPoll s = ends again) ∧
          (p.barrier = true → k.started ≠ [] → exec .slotPoll s = ends again) ∧
          (p.lap = (k.head.toNat >>> k.log2) % 65536 → (p.barrier = false ∨ k.started = []) →
            (∀ r, t.defect v q p = some r → exec .slotPoll s = ends (again.stopQueue v q r (again.errSrc v q))) ∧
            (t.defect v q p = none → exec .slotPoll s = ends { (t.setQueue v q fun k =>
                { k with head := k.head + 1#32, started := k.started ++ [p], reread := true, wbWaits := k.headWb != 0#64 }) with
              agenda := t.agenda ++ (if k.headWb = 0#64 then [] else [(.slotPoll, .queue v q 0)]) ++ [(p.step, .queue v q p.idx)] }))))

/-- Started packets (R126–R129, R174, R191, R192): a launch makes its kernel and blocks, a copy moves the bytes of a line, a
wait ends when its condition holds or the code is not 0, a signal is written, a time is stored; a packet that is performed
completes, is counted, and its interrupt is raised; so does a kernel. Kernels that end (R128, R129, R191, R192): with its last
block, or after its abort, a kernel signals, is counted as its packet, and leaves the machine; an abort notes its code. -/
def Obligations.PacketsAndKernels : Prop :=
  (∀ (s : State) (v q i : Nat) (p : Packet), s.focus = .queue v q i → s.packet v q i = some p → (s.queue v q).waiting = none →
    (s.vd v).open = true →
    let k := s.queue v q
    (p.performed = false →
      (p.type = 0 → exec .nopPacket s = .next (s.performed v q p.idx 0)) ∧
      (p.type = 1 → p.kernel = none →
        let kid := (find k.kids p.idx).getD (k.asid, 0#32)
        let kn := if q = 64 then p.toKernel v q kid.1 k.prio kid.2.toNat else p.toKernel v q k.asid k.prio 0
        let bs := gridBlocks s.nextId kn (s.vd v)
        let u := (s.setPacket v q p.idx fun p => { p with kernel := some s.nextId }).setQueue v q fun k => { k with kids := del k.kids p.idx }
        exec .launchPacket s = .next (State.fillVd { u with
          nextId := s.nextId + 1 + bs.length
          kernels := put s.kernels s.nextId kn
          blocks := s.blocks ++ bs.zipIdx.map fun b => (s.nextId + 1 + b.2, b.1) } v)) ∧
      (p.type = 2 →
        let dst := p.n 16 8 + p.progress
        let n := min (p.n 24 8 - p.progress) (128 - dst % 128)
        let got := p.staged.getD ([], false)
        (got.1.length < n →
          let src := p.n 8 8 + p.progress + got.1.length
          let m := min (n - got.1.length) (128 - src % 128)
          ∀ t pa, Gets s v q k.asid (src % 2 ^ 64) m false t pa → exec .copyPacket s = .next (passed (t.setPacket v q p.idx fun p =>
            { p with staged := some (got.1 ++ (t.mem.bytes pa m).map BitVec.toNat, got.2 || t.anyLost [pa / 128]) }) pa m)) ∧
        (got.1.length = n → got.2 = false → (∀ b, b < n → dst + b < p.n 8 8 ∨ p.n 8 8 + p.n 24 8 ≤ dst + b) →
          ∀ t pa, s.queueAccess v q k.asid (dst % 2 ^ 64) true = .ok t pa → t.agentHas (pa / 128) true = true →
            let u := (t.setPacket v q p.idx fun p => { p with hold := some (pa / 128) }).touch (pa / 128)
            let w := (({ u with free := u.free + n }).platenPoke pa (got.1.map (BitVec.ofNat 8)) v).heal (pa / 128) (byteMask (pa % 128) n)
            let z := w.setPacket v q p.idx fun x => { x with progress := x.progress + n, staged := none, hold := none, code := p.code }
            exec .copyPacket s = .next
              (((if p.progress + n = p.n 24 8 then z.performed v q p.idx p.code else z).letGo (pa / 128)).passOn (pa / 128)))) ∧
      (p.type = 3 → ∀ t pa, Gets s v q k.asid (p.n 8 8 % 2 ^ 64) 16 false t pa → t.anyLost [pa / 128] = false →
        let x := t.mem.readNat pa 8
        let code := (t.mem.read (pa + 8)).toNat
        let c := p.n 16 8
        let holds := (bits p.flags 2 0 = 0 ∧ c ≤ x) ∨ (bits p.flags 2 0 = 1 ∧ x = c) ∨ (bits p.flags 2 0 = 2 ∧ x ≠ c) ∨
          (3 ≤ bits p.flags 2 0 ∧ x < c)
        ∀ j ∈ [Instr.waitSignalPacket, .waitSignalRetest],
          ((holds ∨ code ≠ 0) → exec j s = .next (passed (t.performed v q p.idx code) pa 16)) ∧
          (¬ holds → code = 0 → exec j s =
            .next (passed (t.setPacket v q p.idx fun p => { p with progress := t.now + 1000 * ticksPerNs }) pa 16))) ∧
      (p.type = 4 → s.domainRelease v p.domain none = .ok s → ∀ t pa, Gets s v q k.asid (p.n 8 8 % 2 ^ 64) 8 true t pa →
        (bit p.flags 0 = true ∨ t.anyLost [pa / 128] = false) →
        let x := if bit p.flags 0 then p.n 16 8 else t.mem.readNat pa 8 + p.n 16 8
        exec .writeSignalPacket s = .next (passed ((t.platenPoke pa (leBytes 8 x) v).performed v q p.idx 0) pa 8)) ∧
      (p.type = 5 → ∀ t pa, Gets s v q k.asid (p.n 8 8 % 2 ^ 64) 8 true t pa →
        exec .timestampPacket s = .next (passed ((t.platenPoke pa (leBytes 8 p.progress) v).performed v q p.idx 0) pa 8))) ∧
    (p.performed = true →
      let sends := fun (t : State) (r : SigRun) =>
        let g := t.sendSignal v p.code r
        g.1.setPacket v q i fun p => { p with sig := some g.2 }
      (p.sig = none → s.domainRelease v p.domain none = .ok s →
        (p.signal = 0 → exec .packetCompletion s = .next (s.packetDone v q i p.irq)) ∧
        (∀ t pa, p.signal ≠ 0 → s.queueAccess v q k.asid p.signal true = .ok t pa →
          exec .packetCompletion s = .next (sends t { pa, phase := if p.code = 0 then 2 else 1, since := t.nextId }))) ∧
      (∀ r, p.sig = some r →
        (r.op.isSome = true → exec .packetCompletion s = .next s) ∧
        (r.op = none → r.phase < 3 → exec .packetCompletion s = .next (sends s r)) ∧
        (r.op = none → 3 ≤ r.phase → (p.domain = 0 ∨ s.hasTxn 1 (r.pa / 128) = false) →
          exec .packetCompletion s = .next (s.packetDone v q i p.irq)))) ∧
    (let t := s.packetDone v q i none
     (t.queue v q).done = (s.queue v q).done + 1#64 ∧ ∀ o ∈ (t.queue v q).started, o.idx ≠ i)) ∧
  (∀ (s : State) (n code : Nat) (k : Kernel), s.focus = .kernel n code → s.kern n = some k → k.complete = false →
    (k.left = 0 → (s.queue k.vd k.queue).waiting = none → (s.vd k.vd).open = true → s.abortUnwritten k = false →
      let ends := fun (t : State) => Host.Outcome.next
        (((t.setKern n fun k => { k with complete := true }).packetDone k.vd k.queue k.idx k.irq).dropKernel n)
      let sends := fun (t : State) (r : SigRun) =>
        let g := t.sendSignal k.vd (k.abort.getD 0) r
        g.1.setPacket k.vd k.queue k.idx fun p => { p with sig := some g.2 }
      let run := (s.packet k.vd k.queue k.idx).bind fun p => p.sig
      (run = none → s.domainRelease k.vd k.domain (some n) = .ok s →
        (k.signal = 0#64 → exec .kernelCompletion s = ends (s.unseal k.vd n)) ∧
        (∀ t pa, k.signal ≠ 0#64 → (s.unseal k.vd n).queueAccess k.vd k.queue k.asid k.signal.toNat true = .ok t pa →
          exec .kernelCompletion s = .next (sends t { pa, phase := if k.abort.getD 0 = 0 then 2 else 1, since := t.nextId }))) ∧
      (∀ r, run = some r →
        (r.op = none → r.phase < 3 → exec .kernelCompletion s = .next (sends s r)) ∧
        (r.op = none → 3 ≤ r.phase → (k.domain = 0 ∨ s.hasTxn 1 (r.pa / 128) = false) → exec .kernelCompletion s = ends s))) ∧
    (k.abort = none → exec .kernelAbort s = .next ((s.abort n (code % 256) none).fillVd k.vd))) ∧
  (∀ (s : State) (v c : Nat) (r : SigRun), ∃ (u : State) (op : Nat),
    let member := fun (arg : Nat) => [{ op, arg, nr := true, module := s.fabric.module, src := .control : Member }]
    let line := r.pa / 128
    s.sendSignal v c r = (u.send
      { src := .control, dst := homeOf line, line, vd := v, inc := u.lineInc line
        kind := if r.phase = 1 then .atomic 9 1 (r.pa + 8) 1 0 (member c) else .atomic 0 9 r.pa 8 0 (member 1) },
      { r with op := some op, time := u.now })) ∧
  (∀ (x c : Nat) (m : Member), m.cmp = 0 →
    (m.arg = c → (applyMembers 9 1 x [m]).2 = if x = 0 then c else x) ∧ (m.arg = 1 → (applyMembers 0 9 x [m]).2 = (x + 1) % 2 ^ 64)) ∧
  (∀ (s u : State) (i n op : Nat) (m : Msg) (val : Option Nat) (bad : Bool), s.focus = .msg i → s.takeMsg i = some (m, u) →
    m.dst = .control → m.kind = .reply n op val bad → exec .groupReply s = .next (u.signalWritten op))

-- ## SPDM

/-- SPDM requests (R138, R139): the requests of a connection in their order, the error of one that comes out of order, and, in the PF's
session, a key of the host port's IDE (R105). What leaves goes by `State.say`, sealed once a session is open; the chain ends with the alias
key's certificate. The codes, the order and the form of the IDE request are the model's (log 33). -/
def Obligations.SpdmSteps : Prop :=
  ∀ (s : State) (fn a b : Nat) (x : Spdm), s.focus = .spdm fn a b → s.spdm fn = some x →
    exec .spdmGetVersion s = .next ((s.setSpdm fn fun _ => { version := 0x13 }).respond fn 0x84 a b 0x04 [0x12#8, 0x13#8]) ∧
    (x.version ≠ 0 →
      exec .spdmGetCapabilities s = .next
        ((s.setSpdm fn fun x => { x with version := if a = 0x12 then 0x12 else 0x13 }).respond fn 0xE1 a b 0x61 (leBytes 1 a)) ∧
      exec .spdmNegotiateAlgorithms s =
        .next ((s.setSpdm fn fun x => { x with negotiated := true }).respond fn 0xE3 a b 0x63 [0x80#8, 0x02#8, 0x10#8, 0x02#8])) ∧
    (x.negotiated = true →
      exec .spdmGetDigests s = .next (s.respond fn 0x81 a b 0x01 (leBytes 48 (Config.sha384 s.chain).toNat)) ∧
      exec .spdmGetCertificate s = .next (s.respond fn 0x82 a b 0x02 ((s.chain.drop a).take b)) ∧
      (let body := leBytes 4 a ++ leBytes 32 (Config.random s.free).toNat
       exec .spdmChallenge s = .next ({ s with free := s.free + 1 }.respond fn 0x83 a b 0x03 (body ++ s.sign x body))) ∧
      (∀ m, s.measurement fn a = some m → exec .spdmGetMeasurements s =
        .next (s.respond fn 0xE0 a b 0x60 (leBytes 1 a ++ m ++ if b = 0 then [] else s.sign x (leBytes 1 a ++ m)))) ∧
      (s.measurement fn a = none → exec .spdmGetMeasurements s = .next (s.say fn 0x7F [0x01#8])) ∧
      Does .spdmKeyExchange s fun t => ∃ y, t.spdm fn = some y ∧ y.session = some (Config.ecdh (Config.ephemeral s.free) a) ∧
        y.finished = false) ∧
    (x.session.isSome = true → x.finished = false → Does .spdmFinish s fun t => ∃ y, t.spdm fn = some y ∧ y.finished = true ∧
      y.session = x.session) ∧
    (x.finished = true → Does .spdmEndSession s fun t => ∃ y, t.spdm fn = some y ∧ y.finished = false ∧ y.session = none) ∧
    ((x.finished = true ∧ fn = 0 ∧ a % 256 = 0xFE) → exec .spdmUnsupportedRequest s =
      .next (State.say { s with cxl := { s.cxl with ide := put s.cxl.ide (a / 256) b } } fn 0x7E [0x03#8])) ∧
    (¬ (x.finished = true ∧ fn = 0 ∧ a % 256 = 0xFE) →
      exec .spdmUnsupportedRequest s = .next (s.say fn 0x7F (0x07#8 :: leBytes 1 a))) ∧
    (∀ code body, (x.session = none → s.say fn code body = s.emit (.spdm fn code body)) ∧
      ∀ k, x.session = some k →
        (s.say fn code body).out = s.out ++ [.spdmSecured fn x.seq (Config.gcm k x.seq (leBytes 1 code ++ body))]) ∧
    (∀ q ∈ [(Instr.spdmGetCapabilities, x.version != 0), (.spdmNegotiateAlgorithms, x.version != 0), (.spdmGetDigests, x.negotiated),
        (.spdmGetCertificate, x.negotiated), (.spdmChallenge, x.negotiated), (.spdmGetMeasurements, x.negotiated),
        (.spdmKeyExchange, x.negotiated), (.spdmFinish, x.session.isSome && !x.finished), (.spdmEndSession, x.finished)],
      q.2 = false → exec q.1 s = .next (s.say fn 0x7F [0x04#8]))

-- ## Translation and paging

/-- A platen agent may read lines; once it has, the state is `t` (R35, R49). -/
abbrev Sys2Proof.Reads (s : State) (lines : List Nat) (t : State) : Prop :=
  (∀ l ∈ lines, May s l false) ∧ t = touched s lines

/-- The lines of the stage-2 tables that lead to some guest physical addresses of a VD, each once. -/
abbrev Sys2Proof.tableLines (s : State) (v : Nat) (gpas : List Nat) : List Nat := dedup (gpas.flatMap (s.s2Lines v))

/-- The lines of a VD's hint records. -/
abbrev Sys2Proof.hintLines (s : State) (v : Nat) : List Nat :=
  dedup ((List.range (s.vd v).rhCount).filterMap fun i => (s.hintAddr v i).map (· / 128))

/-- A VD's hint table is read, the stage-2 tables that lead to it first; then the state is `t` (R35, R156). -/
abbrev Sys2Proof.HintsRead (s : State) (v : Nat) (t : State) : Prop :=
  let is := List.range (s.vd v).rhCount
  ∃ r u, Reads s (tableLines s v (is.map fun i => (s.vd v).rhBase + 32 * i)) r ∧ Reads r (hintLines r v) u ∧
    t = u.setVd v fun x => { x with hints := is.filterMap fun i => u.hintAt v i, hintsDue := false }

/-- The lines of the tables down to a guest page's leaf, each once. -/
abbrev Sys2Proof.leafLines (s : State) (v gpage : Nat) : List Nat := dedup ((s.leafPath v gpage).map (· / 128))

/-- Invalidation, replay, the fault queue, demand paging and migration (R148–R158). How a fault's resolution and an eviction bind, copy and
free a frame is the model's reading (log 77). That a resolution matches every stage-2 record of the VD is its choice (log 48), and so are
when an invalidation reads the table again and that a hart's fault is an output (log 80). A halt's record waits for its dump (R265). -/
def Obligations.PagingSteps : Prop :=
  ∀ (s : State),
    (∀ v w, s.focus = .vdValue v w → (s.vd v).open = true →
      (∀ i ∈ [(Instr.tlbInvalidateRange, 0), (.tlbInvalidateAsid, 1), (.tlbInvalidateVd, 2)], (s.vd v).tlbinv = none → bits w 1 0 = i.2 →
        Does i.1 s fun t => (t.vd v).tlbinv = some (BitVec.ofNat 64 w, s.nextId) ∧ (t.vd v).rootsDue = (i.2 != 0) ∧
          ∀ e : TlbEntry, e.vd = v →
            (i.2 = 2 ∨ (i.2 = 1 ∧ e.asid = bits w 7 2) ∨
              (i.2 = 0 ∧ e.asid = bits w 7 2 ∧ bits e.va 56 0 < bits w 56 12 * 4096 + 4096 * 2 ^ bits w 11 8 ∧
                bits w 56 12 * 4096 < bits e.va 56 0 + e.size)) →
            (∀ c ∈ t.clusters, e ∉ c.2.tlb) ∧ ∀ d ∈ t.dies, e ∉ d.2.tlb) ∧
      (∀ e, find (s.die (bits w 16 12)).waits (bits w 11 0) = some e → e.waiter.isSome = true → e.vd = v → e.gen = bits w 31 17 →
        exec .replaytWrite s = .next (s.setDie (bits w 16 12) fun x => { x with waits := put x.waits (bits w 11 0) { e with left := [] } })) ∧
      (bit w 6 = false → Does .replayPage s fun t => (t.vd v).epoch = (s.vd v).epoch + 1 ∧
        ∀ d ∈ t.dies, ∀ e ∈ d.2.waits, e.2.vd = v → ∀ r ∈ e.2.left, r.stage2 = true ∨ r.asid ≠ bits w 5 0 ∨ r.page ≠ bits w 56 12) ∧
      (bit w 6 = true → Does .replayAll s fun t => (t.vd v).epoch = (s.vd v).epoch + 1 ∧
        ∀ d ∈ t.dies, ∀ e ∈ d.2.waits, e.2.vd = v → ∀ r ∈ e.2.left, r.stage2 = true) ∧
      ((BitVec.ofNat 32 w - (s.vd v).fqHead).toNat ≤ ((s.vd v).fqTail - (s.vd v).fqHead).toNat →
        exec .fqheadWrite s = .next (s.setVd v fun x => { x with fqHead := BitVec.ofNat 32 w })) ∧
      (let u := s.setVd v fun x => { x with rhCount := bits w 7 0, rhBase := 4096 * bits w 47 12, hintsDue := true }
       exec .rhbaseWrite s = .next { u with agenda := s.agenda ++ [(.rhbaseWrite, .vd v)] })) ∧
    (∀ v u, s.focus = .vd v → (s.vd v).hintsDue = true → HintsRead s v u → Does .rhbaseWrite s fun t =>
      (t.vd v).hintsDue = false ∧ (t.vd v).hints = (List.range (s.vd v).rhCount).filterMap fun i => s.hintAt v i) ∧
    (∀ v base size, s.focus = .range v base size →
      (Does .stage2Invalidate s fun t => t.s2inv = s.s2inv ++ [(v, base, size, s.nextId)] ∧
        ∀ e : TlbEntry, e.vd = v → (size = 0 ∨ (e.gpa < base + size ∧ base < e.gpa + e.size)) →
          (∀ c ∈ t.clusters, e ∉ c.2.tlb) ∧ ∀ d ∈ t.dies, e ∉ d.2.tlb) ∧
      (∀ e, s.s2inv.find? (fun e => e.1 = v && e.2.1 = base && e.2.2.1 = size) = some e → s.settled v e.2.2.2 = true →
        let ended := fun (m : Migration) => m.vd = v ∧ m.switched = true ∧ m.since < e.2.2.2 ∧
          (size = 0 ∨ (base ≤ 4096 * m.gpage ∧ 4096 * m.gpage + 4096 ≤ base + size))
        ((∀ m ∈ s.migr, ¬ ended m.2) → exec .invalidationComplete s = .next { s with s2inv := s.s2inv.erase e }) ∧
        (∀ slot m, (keys s.migr).Nodup → find s.migr slot = some m → ended m → Does .invalidationComplete s fun t =>
          find t.migr slot = none ∧ (t.tag (4096 * m.oldF)).bound = false))) ∧
    (∀ v, s.focus = .vd v →
      (∀ w mark, (s.vd v).tlbinv = some (w, mark) → (s.vd v).rootsDue = false → s.settled v mark = true →
        exec .invalidationComplete s = .next (s.setVd v fun x => { x with tlbinv := none, tlbDone := x.tlbDone + 1#16 })) ∧
      (∀ r rest n g b pa,
        let x := s.vd v
        x.undelivered = r :: rest → x.state ≠ .killing → x.state ≠ .faulted → n = bits x.fq.toNat 3 0 →
        (x.fqTail - x.fqHead).toNat < 2 ^ n → (r.code = 0x13 ∨ r.code = 0x14 → s.dumping v = false) →
        let a := 4096 * bits x.fq.toNat 47 12 + 32 * (x.fqTail.toNat % 2 ^ n)
        let tl := tableLines s v [a]
        (∀ l ∈ tl, May s l false) → s.s2 v a 1 = .ok g b pa → May s (pa / 128) true →
        let u := ((State.touch (touched s tl) (pa / 128)).platenPoke pa r.bytes v).setVd v fun x =>
          { x with fqTail := x.fqTail + 1#32, undelivered := rest }
        exec .faultRecordDelivery s =
          .next (tl.foldl State.passOn ((if x.fqTail = x.fqHead then u.raise v 0 else u).passOn (pa / 128))))) ∧
    (∀ d i e w, s.focus = .waiter d i → find (s.die d).waits i = some e → e.left = [] →
      (e.waiter = some (.warp w) → Does .waiterWake s fun t => (∀ x, s.warp w = some x → t.warp w = some { x with parked := none }) ∧
        find (t.die d).waits i = some { gen := if e.gen + 1 = 32768 then 1 else e.gen + 1 }) ∧
      (∀ n c, e.waiter = some (.command n) → find s.cmds n = some c → Does .waiterWake s fun t =>
        find t.cmds n = some { c with parked := none })) ∧
    (∀ d, s.focus = .die d → s.freeWait d ≠ none → exec .waitTableEntryFree s = .next { s with held := none }) ∧
    (∀ v gpage la leaf src u, s.focus = .resolve v gpage la leaf src → HintsRead s v u →
      let f := bits leaf 47 12
      let key := bits leaf 63 54
      let h := (u.vd v).hint gpage
      let bound := 4096 * f < hbmEnd ∧ (u.tag (4096 * f)).bound = true ∧ (u.tag (4096 * f)).key = key
      u.leafBad v 0 la leaf = false → bit leaf 5 = false → (∀ x, h = some x → x.places f = true) → u.mixes [] f key = false →
      u.hartBad la = false → (bound ∨ s.retired f = false) → May u (la / 128) true →
      (∀ o, src = some o → u.unnamed (4096 * o) 4096 = false ∧ (∀ l ∈ frameLines o, May u l false) ∧
        (hbmEnd ≤ 4096 * f → ∀ l ∈ frameLines f, May u l true)) →
      ((bound ∧ src = none) ∨ (4096 * f < hbmEnd → ∀ l ∈ frameLines f, u.satisfied none l true = true)) →
      Does .stage2FaultResolution s fun t =>
        (h = none → s.mem.wf = true → s.migr = [] → la % 8 = 0 → leaf < 2 ^ 64 → t.mem.readNat la 8 = leaf ∧
          ∀ o a, src = some o → o ≠ f → la / 4096 ≠ f → (∀ l ∈ frameLines o, u.anyLost [l] = false) → a < 4096 →
            t.mem.read (4096 * f + a) = s.mem.read (4096 * o + a)) ∧
        (∀ d ∈ t.dies, ∀ e ∈ d.2.waits, e.2.vd = v → ∀ r ∈ e.2.left, r.stage2 = false) ∧
        (4096 * f < hbmEnd → (t.tag (4096 * f)).bound = true ∧ (t.tag (4096 * f)).key = key)) ∧
    (∀ v gpage f host r u, s.focus = .evict v gpage f host → HintsRead s v r → Reads r (leafLines r v gpage) u →
      u.anyLost (leafLines r v gpage) = false →
      let kept := fun (e : TlbEntry) => e.vd = v → f < e.pa / 4096 ∨ e.pa + e.size ≤ 4096 * f
      (∀ h, (u.vd v).hint gpage = some h → ∀ a ∈ h.agents, a = 0xFF) → (∀ e ∈ s.s2inv, e.1 ≠ v) →
      (∀ c ∈ s.clusters, ∀ e ∈ c.2.tlb, kept e) → (∀ d ∈ s.dies, ∀ e ∈ d.2.tlb, kept e) →
      (∀ l, u.leafOf v gpage = some l → bit l.2 0 = false) → (u.tag (4096 * f)).bound = true → host ≠ f →
      u.unnamed (4096 * host) 4096 = false → (∀ l ∈ frameLines host, May u l true) →
      (4096 * f < hbmEnd → ∀ l ∈ frameLines f, u.satisfied none l true = true ∧ u.ready l = true) → Does .pageEviction s fun t =>
        (t.tag (4096 * f)).bound = false ∧
        (s.mem.wf = true → s.migr = [] → (∀ l ∈ frameLines f, u.anyLost [l] = false) → ∀ a, a < 4096 →
          t.mem.read (4096 * host + a) = s.mem.read (4096 * f + a))) ∧
    (∀ slot v gpage la newF, s.focus = .migrate slot v gpage la newF →
      let e := s.mem.readNat la 8
      let oldF := bits e 47 12
      (find s.migr slot = none → slot < 256 → s.leafOf v gpage = some (la, e) → bits e 1 0 = 1 → bits e 6 5 = 0 →
        (oldF ∉ s.hbm.retired ∨ ∀ l ∈ frameLines oldF, s.isLost l = false) → newF ∉ s.hbm.retired →
        (∀ h, (s.vd v).hint gpage = some h → h.places newF = true) → (s.tag (4096 * newF)).bound = true →
        (s.tag (4096 * newF)).key = (s.tag (4096 * oldF)).key →
        let ll := leafLines s v gpage
        (∀ l ∈ ll, May s l false) → s.anyLost ll = false → May s (la / 128) true → exec .migrationStart s =
          .next (ll.foldl State.passOn (State.passOn { (State.touch (touched s ll) (la / 128)).platenPoke la (leBytes 8 (e + 64)) v with
            migr := put s.migr slot { vd := v, leaf := la, gpage, oldF, newF } } (la / 128)))) ∧
      (∀ m, find s.migr slot = some m → m.vd = v → m.switched = false → m.bitmap = 0xFFFFFFFF#32 → May s (m.leaf / 128) true →
        s.anyLost [m.leaf / 128] = false →
        Does .migrationSwitch s fun t => find t.migr slot = some { m with switched := true, since := s.nextId } ∧
          t.agenda = s.agenda ++ [(.stage2Invalidate, .range v (4096 * m.gpage) 4096)] ∧
          (s.mem.wf = true → m.leaf % 8 = 0 → bits (t.mem.readNat m.leaf 8) 47 12 = m.newF % 2 ^ 36 ∧
            bit (t.mem.readNat m.leaf 8) 6 = false))) ∧
    (∀ slot l m, s.focus = .slotLine slot l → find s.migr slot = some m → l < 32 → m.bitmap.getLsbD l = false →
      (∀ i, i < l → m.bitmap.getLsbD i = true) → s.anyLost [32 * m.oldF + l] = false →
      (∀ n ∈ [32 * m.oldF + l, 32 * m.newF + l], s.agentHas n true = true ∧ (∀ w ∈ s.walks, w.line ≠ n) ∧
        ∀ p ∈ s.posted, ∃ k, p.line = some k ∧ k ≠ n) → Does .migrationLineCopy s fun t =>
        find t.migr slot = some { m with bitmap := m.bitmap ||| (1#32 <<< l) } ∧
        t.mem = (s.platenPoke (128 * (32 * m.newF + l)) (s.mem.bytes (128 * (32 * m.oldF + l)) 128) m.vd).mem)

-- ## Scheduling

/-- A grant (R162, R163): the eligible VD with the least pass, which is charged its stride. Boundaries, offers, saves, restores,
exits, sleeps (R24, R159–R166, R184–R190, R317). -/
def Obligations.Scheduler : Prop :=
  (∀ (s : State) (d : Nat),
    ((s.grantOne d).2 = none → (s.grantOne d).1 = s ∧ ∀ v ∈ keys s.vds, s.isEligible v d = false) ∧
    (∀ v, (s.grantOne d).2 = some v → v ∈ keys s.vds ∧ s.isEligible v d = true ∧
      (∀ u ∈ keys s.vds, s.isEligible u d = true → (s.vd v).pass.toNat ≤ (s.vd u).pass.toNat) ∧
      ((s.grantOne d).1.vd v).pass = (s.vd v).pass + BitVec.ofNat 64 (s.vd v).stride ∧
      look ((s.grantOne d).1.vd v).granted d 0 = look (s.vd v).granted d 0 + 1 ∧
      ∀ u, u ≠ v → (s.grantOne d).1.vd u = s.vd u) ∧
    ∀ v, s.isEligible v d = true → (s.vd v).state = .active ∧ (s.vd v).grantTotal < (s.vd v).maxClusters ∧
      look (s.vd v).granted d 0 < s.runnableOn v d) ∧
  (∀ (s : State),
    (∀ n, 0 < s.quantum → s.now = 1000 * ticksPerNs * s.quantum * n → Does .quantumBoundary s fun t =>
      t.pool = s.poolNew ∧ (s.quantumNew = s.quantum → t.quantum = s.quantum) ∧
      (s.power.pending = none → t.power = s.power) ∧
      (∀ m, s.power.pending = some m → t.power = { s.power with
        k := max 1 (s.power.k + modeSteps m - modeSteps s.power.mode), mode := m, pending := none, settle := some (max m s.power.mode, s.now + ticksPerNs * min 50000 Config.settleNs) }) ∧
      ∀ v, (t.vd v).stride = if (s.vd v).weight = 0 then 0 else 2 ^ 20 / (s.vd v).weight) ∧
    (∀ g u v, s.focus = .cluster g → s.atMicrosecond = true → s.atBoundary = false → (s.cl g).draining = none →
      bit (s.poolOf (g / 16)) (g % 16) = true → s.residents g = [] → (((∀ o, (s.cl g).vd = some o → s.hasGang o = false) ∧ s.grantOne (g / 16) = (u, some v)) ∨
        ((s.cl g).vd = some v ∧ s.hasGang v = true ∧ (s.leastPass (g / 16) = some v ∨ s.isEligible v (g / 16) = true) ∧
          s.grantTo v (g / 16) = (u, some v))) →
      let w := u.switchTo g (some v)
      ((w.agenda ++ w.due).any w.offered = true → exec .clusterOffer s = .next w) ∧
      ((w.agenda ++ w.due).any w.offered = false → exec .clusterOffer s = .next w.fillAll)) ∧
    (∀ g t v, s.focus = .cluster g →
      ((s.cl g).draining = some t → s.residents g = [] → exec .blockSave s = .next (s.handIfEmpty g)) ∧
      (∀ n b, (n, b) ∈ s.blocks → b.place = .saving g → b.savingAt = some t → (s.cl g).vd = some v → (s.cl g).overrun = false →
        t + 40000 * ticksPerNs ≤ s.now → exec .drainOverrun s = .next ((s.emit (.vdc 0x100 v (g / 16) (g % 16))).setCl g fun c => { c with overrun := true }))) ∧
    (∀ n b k g, s.focus = .blk n → s.blk n = some b → s.kern b.kernel = some k →
      (b.place = .saving g → s.cmds.any (fun c => c.2.parkedAt n) = true → exec .blockSave s = .next (s.abandonFor n)) ∧
      (b.place = .saving g → (∀ c ∈ s.cmds, c.2.parkedAt n = false) → s.drained n b = true → (∀ h ∈ (s.vd k.vd).halts, h.2 ≠ n) →
        let u := (s.abandon n).setImg n fun i => { i with warps := i.warps.map fun x =>
          { x with accesses := x.accesses.filter fun a => match a.kind with | .pref _ => false | _ => true } }
        let w := u.writeImage b k
        let keep := (w.vd k.vd).state = VdState.active && b.target.any fun t => (w.mapped k.vd b.die).contains t
        let y := { w.setBlk n fun b => { b with place := .saved, savedAt := w.nextId, savingAt := none, base := 0
                                                target := if keep then b.target else none } with nextId := w.nextId + 1 }
        let z := y.handIfEmpty g
        exec .blockSave s = .next (if (z.cl g).draining.isSome then z else z.fill k.vd b.die)) ∧
      (b.place = .saved → b.target = some g → (s.mapped k.vd b.die).contains g = true → Does .blockRestore s fun t =>
        t.blk n = some { b with place := .resident g, base := b.targetBase, target := none, abandoned := []
                                img := { b.img with warps := b.img.warps.zipIdx.map fun x =>
                                  { x.1 with slot := s.slotFor g x.2, acquire := true } } } ∧
        (∀ c ∈ t.cmds, c.2.warp.blk = n → c.2.cluster = g) ∧
        (∀ c ∈ b.abandoned, ∃ e ∈ t.cmds, e.2 = { c with cluster := g })) ∧
      (b.place = .resident g → b.stepping = false → s.blockDone n b = true → exec .blockExit s =
        .next (((((s.discardBlock n).setKern b.kernel fun k => { k with left := k.left - 1 }).testGbar b.kernel).handIfEmpty g).fill
          k.vd b.die)) ∧
      ((s.discardBlock n).blk n).map (fun x => (x.place, x.img)) = some (.exited, {})) ∧
    (∀ w f x fr t, s.focus = .frag w f → s.warp w = some x → x.frag f = some fr → fr.wait = .sleep t → t ≤ s.ns →
      exec .sleepDeadline s = .next (s.setWarp w fun x => x.wake f)))

-- ## Accesses and caches

/-- A vector load of words that completes (R85, R216): its lanes receive their values, the others keep theirs, the access is no
longer outstanding, and with its instruction's last part the class counter falls. Loads that return, stores that are
acknowledged, written bytes on their way to die L2, instruction fetches, and the retest of `WAITSIG` (R206, R207, R216, R223,
R227, R359, R362, R373, R379). A far atomic whose values are here drops the cluster's clean copy of its line (log 56). -/
def Obligations.CachesAndAccesses : Prop :=
  (∀ (s : State) (w : WarpRef) (a : Access) (x : Warp) (vals : List (Nat × Nat)) (d : Nat), s.warp w = some x → x.exited ≠ allLanes →
    a.dst = some (d, false) → a.width = 4 → a.kind = .load false → d < 0xC0 → d < x.vregs.length → vals ≠ [] → (∀ v ∈ vals, v.1 < 32) →
    ∃ y, (s.complete w a vals none).warp w = some y ∧
      (∀ l v, vals.find? (fun v => v.1 = l) = some v → y.lane d l = BitVec.ofNat 32 v.2) ∧
      (∀ l, l < 32 → vals.find? (fun v => v.1 = l) = none → y.lane d l = x.lane d l) ∧
      (∀ r, r ≠ d → y.vreg r = x.vreg r) ∧ y.sregs = x.sregs ∧ y.preds = x.preds ∧
      (∀ b ∈ y.accesses, b.id ≠ a.id) ∧
      ((∀ b ∈ x.accesses, b.id ≠ a.id → b.instr ≠ a.instr) →
        (vget y.classes 0 {}).count = (vget x.classes 0 {}).count - 1)) ∧
  (∀ (s : State),
    (∀ w id x a b g line, s.focus = .access w id → s.warp w = some x → s.access w id = some a → s.blk w.blk = some b → b.cluster = some g →
      a.line = some line →
      let lost := s.isLost line || (s.held' (.die a.die) line).lost
      let fin := fun (t : State) (vals : List (Nat × Nat)) (bad : Option (Nat × Word)) =>
        (t.complete w { a with acq := 0 } vals bad).acqDone g a.die a.vd a.acq
      ((a.kind = .sload ∨ a.kind = .load true ∨ a.kind = .load false) → a.weight = false → x.before a = false →
        s.acqReady g a.vd a.acq = true →
        (∀ l, a.bypass = false → s.l1Line g line a.vd = some l →
          exec .loadReturn s = .next ((s.complete w { a with acq := 0, hit := true } (a.laneValues (s.ownBytes g line w x a l.data))
            none).acqDone g a.die a.vd a.acq)) ∧
        (((a.bypass = false ∧ s.l1Line g line a.vd = none) ∨ (a.bypass = true ∧ s.l1Written g line = false)) →
          s.l2May a.die line false = true →
          (lost = true → exec .loadReturn s = .next (fin s [] (some (0x10, a.pc.setWidth 32)))) ∧
          (lost = false →
            let t := if a.bypass || a.stream then s else s.fillL1 g line a.vd
            exec .loadReturn s = .next (fin t (a.laneValues (t.ownBytes g line w x a (s.dieLine a.die line))) none)))) ∧
      ((a.kind = .sload ∨ a.kind = .load true ∨ a.kind = .load false) → a.weight = true →
        (line ∈ (s.die a.die).wlost → exec .loadReturn s = .next (s.complete w a [] (some (0x10, a.pc.setWidth 32)))) ∧
        (line ∉ (s.die a.die).wlost → exec .loadReturn s =
          .next (s.complete w a (a.laneValues (lineOf ((s.die a.die).wstore.bytes (128 * line) 128))) none))) ∧
      (∀ op t i, a.kind = .near op t → ((i = .loadReturn ∧ a.dst ≠ none) ∨ (i = .storeAck ∧ a.dst = none)) → x.before a = false →
        s.l1Written g line = false → s.acqReady g a.vd a.acq = true → s.l2May a.die line true = true → lost = false →
        let size := if typeRegs t = 2 then 8 else 4
        let arg := fun (l : Nat) => (a.args.find? fun v => v.1 = l).getD (0, 0, 0)
        let r := atomsRun op t size s.mem (a.lanes.map fun l => (l.1, l.2, (arg l.1).2.1, (arg l.1).2.2))
        let u := ((a.lanes.foldl (fun s l => s.poke l.2 (r.1.bytes l.2 size)) s).markDirty a.die line).refreshL1 g line
        exec i s = .next (fin u (if a.dst.isSome then r.2 else []) none)) ∧
      (∀ op t, a.kind = .far op t → a.ops = [] →
        let acq := if a.acq = 6 then 3 else a.acq
        let vals := if a.dst.isSome then sortBy (fun g => g.1) a.got else []
        let u := ((s.refreshL1 g line).complete w { a with acq := 0 } vals a.failed).acqDone g a.die a.vd acq
        s.acqReady g a.vd acq = true →
        (a.dst ≠ none → exec .loadReturn s = .next u) ∧ (a.dst = none → exec .storeAck s = .next u)) ∧
      (∀ l1, a.kind = .pref l1 → s.l2May a.die line false = true → exec .loadReturn s = .next
        ((if l1 ∧ s.isLost line = false ∧ s.l1Line g line a.vd = none ∧ s.l1Written g line = false then s.fillL1 g line a.vd else s).finish
          w a)) ∧
      (a.kind = .store → s.storeDone g w a line = true → exec .storeAck s = .next (s.complete w a [] none)) ∧
      (∀ host, a.kind = .flush host → x.before a = false → (∀ e ∈ (s.cl g).wcb, e.line ≠ line ∨ e.vd ≠ a.vd) → s.l1Written g line = false →
        let u := s.setCl g fun k => { k with l1 := del k.l1 line }
        let t := s.held' (.die a.die) line
        (a.sent ≠ 1 → (host = false ∨ hostLine line = false ∨ t.dirty = false) → exec .storeAck s = .next (u.complete w a [] none)) ∧
        (a.sent ≠ 1 → host = true → hostLine line = true → t.dirty = true → exec .storeAck s =
          .next (((u.setHeld (.die a.die) line { t with dirty := false }).cxlStart 1 line a.vd).setAccess w a.id fun a =>
            { a with sent := 1 })) ∧
        (a.sent = 1 → s.hasTxn 1 line = false → exec .storeAck s = .next (s.complete w a [] none)))) ∧
    (∀ i m u module op val bad c r, s.focus = .msg i → s.takeMsg i = some (m, u) → m.kind = .reply module op val bad → m.dst = .cluster c →
      u.byOp op = some r → (r.2.dst ≠ none → exec .loadReturn s = .next (u.replyArrives op val bad)) ∧
        (r.2.dst = none → exec .storeAck s = .next (u.replyArrives op val bad))) ∧
    (∀ g line, s.focus = .clusterLine g line →
      let d := g / 16
      (∀ e, (s.cl g).wcb.find? (fun e => e.line = line && !s.wcbWaits e) = some e →
        (∀ l, e.bypass = false → s.l1Line g line e.vd = some l → exec .wcbDrain s = .next (s.setCl g fun k => { k with
          wcb := k.wcb.erase e
          l1 := put k.l1 line { l with
            data := mergeLine l.data e.data e.mask, dirty := l.dirty ||| e.mask, inc := e.inc
            first := if l.dirty = 0#128 then e.first else min l.first e.first } })) ∧
        (e.bypass = false → s.l1Line g line e.vd = none → s.isLost line = false → (s.held' (.die d) line).lost = false →
          s.l2May d line false = true → ∀ k, (s.cl g).l1Room line = some k → Does .wcbDrain s fun t =>
            (t.cl g).wcb = k.wcb.erase e ∧ find (t.cl g).l1 line = some
              { data := mergeLine (s.dieLine d line) e.data e.mask, dirty := e.mask, first := e.first, inc := e.inc, vd := e.vd }) ∧
        (e.bypass = true → s.l1Written g line = false → s.l2May d line true = true → exec .wcbDrain s =
          .next ((((s.setCl g fun k => { k with wcb := k.wcb.erase e }).pokeMask line e.data e.mask).markDirty d line).refreshL1 g line))) ∧
      (∀ l, (∀ e ∈ (s.cl g).wcb, e.line ≠ line) → find (s.cl g).l1 line = some l → l.dirty ≠ 0#128 →
        s.l2May d line true = true →
        let u := (s.pokeMask line l.data l.dirty).markDirty d line
        exec .wcbDrain s = .next (u.setCl g fun k => { k with l1 := put k.l1 line { l with data := u.lineData line, dirty := 0#128 } })) ∧
      (find (s.cl g).icache line = none → s.isLost line = false → s.l2May d line false = true →
        Does .instructionCacheFill s fun t => find (t.cl g).icache line = some (s.dieLine d line) ∧ t = { s with clusters := t.clusters })) ∧
    (∀ w f x fr b k g va pa' v u pa, s.focus = .frag w f → s.warp w = some x → x.frag f = some fr → s.blk w.blk = some b →
      s.kern b.kernel = some k → fr.wait = .sig va pa' v → b.cluster = some g →
      s.translate (some (b.die, g)) k.vd k.asid va 0 = (u, .ok pa) →
      let t := u.setFrag w f fun fr => { fr with wait := .sig va pa v }
      t.l1Written g (pa / 128) = false → t.l2May b.die (pa / 128) false = true →
      ((t.isLost (pa / 128) || (t.held' (.die b.die) (pa / 128)).lost) = true →
        exec .waitsigRetest s = .next (t.setFrag w f fun fr => { fr with wait := .ready })) ∧
      (t.isLost (pa / 128) = false → (t.held' (.die b.die) (pa / 128)).lost = false →
        (v.toNat ≤ t.dieNat b.die pa 8 → exec .waitsigRetest s = .next (t.setWarp w fun x => x.passSig f)) ∧
        (t.dieNat b.die pa 8 < v.toNat → exec .waitsigRetest s = .next t))))

-- ## Engines

/-- Engine commands (R212–R219, R230, R364–R370, R398–R404): starts, ownership windows, lines that land, completion, matrix steps and their
power units, and the sequencer. Bytes that a copy's source and destination share are free values (log 10); the engine keeps the byte last
read at each operand offset (log 41). -/
def Obligations.EngineSteps : Prop :=
  ∀ (s : State),
    (∀ id c b k, s.focus = .command id → find s.cmds id = some c → s.blk c.warp.blk = some b → s.kern b.kernel = some k → c.parked = none →
      (c.started = false → c.gone = false → c.kind.isStep = false → s.conflicts c = false → b.cluster ≠ none →
        (∀ d, c.kind = .tcopy d → d.multicast = false) →
        exec .engineCommandStart s = .next (s.setCmd id fun c => { c with started := true })) ∧
      (c.started = true → c.window = [] →
        let slot := match s.warp c.warp with | some x => x.slot | none => 0
        let ls := ((c.outLines b.img).filter fun l => !c.done.contains l).take 64
        ls ≠ [] → s.spoiling id = false → ∀ t u ws pls, s.outBytes id c b k slot ls = (t, .ok ws) →
          t.engineLines c k.vd k.asid slot 5 (ws.map Prod.fst) = (u, .ok pls) →
        let x := u.staged c ls ws
        exec .ownershipWindow s = .next (x.1.setCmd id fun c => { c with
          source := [], incs := pls.foldl (fun m p => put m p.2 (x.1.lineInc p.2)) [], window := sortBy (fun w => w.2.1) (pls.map fun p =>
          (p.1, p.2, (stagedLine x.2 p.1).1, (stagedLine x.2 p.1).2)) })) ∧
      (∀ w rest, c.started = true → c.window = w :: rest → s.satisfied (some (.die (c.cluster / 16))) w.2.1 true = false →
        s.wanted (some (.die (c.cluster / 16))) w.2.1 true [(.ownershipWindow, .command id)] = false →
        exec .ownershipWindow s = .next (s.want (some (.die (c.cluster / 16))) w.2.1 true k.vd (look c.incs w.2.1 0)
          [(.ownershipWindow, .command id)])) ∧
      (∀ m, c.started = true → c.kind = .step m → exec .engineCommandComplete s =
        .next ((s.setImg c.warp.blk fun i => i.step m).endCommand id)) ∧
      (∀ lanes size landed, c.started = true → c.kind = .cpa lanes size landed → (∀ l ∈ lanes, l.1 ∈ landed) →
        exec .engineCommandComplete s = .next (s.endCommand id)) ∧
      (∀ d, c.started = true → c.kind = .tcopy d → d.dkind = 0 → c.window = [] → s.spoiling id = false →
        (∀ l ∈ c.outLines b.img, l ∈ c.done) → exec .engineCommandComplete s = .next (s.endCommand id)) ∧
      (∀ d slot t bs u own, c.started = true → c.kind = .tcopy d → d.dkind = 2 → d.multicast = false →
        slot = (match s.warp c.warp with | some x => x.slot | none => 0) → s.stage .engineCommandComplete id c b k slot d d.pairs = (t, .ok bs) →
        t.spoil d d.pairs bs = (u, own) → exec .engineCommandComplete s = .next
          (((u.noteAt c.warp.blk c.log bs).setImg c.warp.blk fun i => { i with
            scratch := (d.pairs.zip own).foldl (fun m t => m.write t.1.2.toNat (BitVec.ofNat 8 t.2)) i.scratch }).endCommand id)) ∧
      (∀ sl out addr stride g, c.started = true → c.kind = .mstore sl 2 out addr stride → b.img.grant = some g →
        exec .engineCommandComplete s = .next ((s.setImg c.warp.blk fun i => { i with
          scratch := (storeBytes i g sl out addr stride).foldl (fun m w => m.write w.1 (BitVec.ofNat 8 w.2)) i.scratch }).endCommand id)) ∧
      (∀ m n, s.nextStep c.cluster = some (id, c, n) → c.kind = .step m →
        exec .matrixStepStart s = .next ((s.setCl c.cluster fun k =>
          { k with mxLevel := k.mxLevel - n, prev := overlay (stepBytes b.img m) k.prev }).setCmd id fun c => { c with started := true }))) ∧
    (∀ d line pre id c post w rest, s.focus = .held (.die d) line → s.satisfied (some (.die d)) line true = true →
      s.cmds = pre ++ (id, c) :: post → (∀ e ∈ pre, e.2.cluster / 16 ≠ d) → c.cluster / 16 = d → c.window = w :: rest → w.2.1 = line →
      let u := ((s.pokeMask line w.2.2.1 w.2.2.2).markDirty d line).heal line w.2.2.2
      let v := u.setHeld (.die d) line { u.held' (.die d) line with lost := u.isLost line }
      exec .engineWriteLanded s = .next ((v.setCmd id fun c =>
        { c with window := rest, done := c.done ++ [w.1], wrote := c.wrote ++ [line] }).obey (.die d) line)) ∧
    (∀ g, s.focus = .cluster g → exec .matrixBudgetRefill s =
      .next (s.setCl g fun k => { k with mxLevel := min (2 * k.mxLimit) (k.mxLevel + k.mxLimit) })) ∧
    (∀ n b q m g x, s.focus = .blk n → s.blk n = some b → b.img.seq = some q → q.step q.iter q.idx = some m → b.place = .resident g →
      s.warp q.warp = some x → s.stepQueue n < 8 → s.sbUsed g < 32 → (s.cl g).sbAt ≠ some s.now → (vget x.classes 3 {}).count < 511 →
      let cmd : Command := { kind := .step m, cluster := g, warp := q.warp, tag := none, pc := q.pc, reads := m.reads, write := some m.write
                             order := s.nextId }
      let t := s.setCl g fun k => { k with sbAt := some s.now }
      let u := { t with nextId := s.nextId + 1, cmds := put t.cmds s.nextId cmd }.setImg n fun i => { i with seq := q.next }
      exec .mloopStepIssue s = .next (u.setWarp q.warp fun x => if q.next.isSome then x.addClass 3 1 else x))

-- ## Sampler and debugger

/-- The sampler (R257–R262): its registers, ticks in slot order, and records of sampled requests, whose times are free values (log 32):
each record is in the ring, waits to be written, or is dropped and counted. Debugger commands (R264, R267, R270): continue, step and roll
back of a halted block, the status of a command that names none, and the halt of a block that has re-executed to its count; the order of
the statuses is log 66's. -/
def Obligations.SamplerAndDebugger : Prop :=
  (∀ (s : State),
    (∀ v w, s.focus = .vdValue v w → (s.vd v).open = true →
      (bits w 2 1 ≤ 1 → bits w 23 8 ≠ 0 → Does .smpcfgWrite s fun t =>
        bits (t.vd v).smpcfg.toNat 2 0 = bits w 2 0 ∧ bits (t.vd v).smpcfg.toNat 23 8 = bits w 23 8 ∧
        bits (t.vd v).smpcfg.toNat 28 24 = (if bit (s.vd v).smpcfg.toNat 0 then bits (s.vd v).smpcfg.toNat 28 24
          else if 6 ≤ bits w 28 24 ∧ bits w 28 24 ≤ 20 then bits w 28 24 else 6) ∧
        (∀ u, u ≠ v → t.vd u = s.vd u)) ∧
      ((BitVec.ofNat 32 w - (s.vd v).smphead).toNat ≤ ((s.vd v).smptail - (s.vd v).smphead).toNat →
        exec .smpheadWrite s = .next (s.setVd v fun x => { x with smphead := BitVec.ofNat 32 w })) ∧
      exec .smpdropClear s = .next (s.setVd v fun x => { x with smpdrop := 0#32 })) ∧
    (∀ g q v, s.focus = .quad g q → q < 4 → (s.cl g).vd = some v → 120 * (vget (s.cl g).smp q {}).period ≤ (vget (s.cl g).smp q {}).counter →
      bit (s.vd v).smpcfg.toNat 0 = false → Does .samplerTick s fun t => (vget (t.cl g).smp q {}).armed = none ∧ t.vds = s.vds ∧
        t.posted = s.posted ∧ (vget (t.cl g).smp q {}).period = bits (s.vd v).smpcfg.toNat 23 8) ∧
    (∀ g q v, s.focus = .quad g q → q < 4 → (s.cl g).vd = some v → 120 * (vget (s.cl g).smp q {}).period ≤ (vget (s.cl g).smp q {}).counter →
      bit (s.vd v).smpcfg.toNat 0 = true →
      let ptr := (vget (s.cl g).smp q {}).ptr
      let slots := (s.quadSlots g q).map fun w => w.1
      Does .samplerTick s fun t =>
        look (t.vd v).smpSeq (4 * g + q) 0 = (look (s.vd v).smpSeq (4 * g + q) 0 + 1) % 2 ^ 32 ∧
        (vget (t.cl g).smp q {}).counter = (vget (s.cl g).smp q {}).counter - 120 * (vget (s.cl g).smp q {}).period ∧
        (slots = [] → (vget (t.cl g).smp q {}).ptr = ptr) ∧
        (∀ k, k < 16 → (ptr + 1 + k) % 16 ∈ slots → (∀ j, j < k → (ptr + 1 + j) % 16 ∉ slots) →
          (vget (t.cl g).smp q {}).ptr = (ptr + 1 + k) % 16) ∧
        (bits (s.vd v).smpcfg.toNat 2 1 = 1 → (vget (t.cl g).smp q {}).armed = some (look (s.vd v).smpSeq (4 * g + q) 0) ∧ t.mem = s.mem) ∧
        (bits (s.vd v).smpcfg.toNat 2 1 = 0 → (vget (t.cl g).smp q {}).armed = none)) ∧
    (∀ w id stages m, s.focus = .times w id stages → s.samples.find? (fun m => m.id = id) = some m → Does .memreqRecord s fun t =>
      (∀ n ∈ t.samples, n.id ≠ id) ∧ t.free = s.free + 12 ∧
      ((t.vd m.vd).smptail - (s.vd m.vd).smptail + BitVec.ofNat 32 (t.posted.filter fun p => p.tail && p.vd = m.vd).length +
          ((t.vd m.vd).smpdrop - (s.vd m.vd).smpdrop) = BitVec.ofNat 32 ((s.posted.filter fun p => p.tail && p.vd = m.vd).length + 1) ∨
        (t.vd m.vd).smpdrop = 0xFFFFFFFF#32))) ∧
  (∀ (s : State),
    (∀ v w, s.focus = .vdValue v w → (s.vd v).open = true → s.dbgRuns v = false →
      let i := bits w 5 2
      (s.haltedAt v i = none → ∀ c ∈ [Instr.debugContinue, .debugStep, .debugRollback],
        exec c s = .next (s.setVd v fun x => { x with dbgStatus := 1, dbgBusy := false })) ∧
      (∀ n, s.haltedAt v i = some n →
        exec .debugContinue s = .next ((s.release v i n).dbgEnd v 0) ∧
        exec .debugStep s = .next (((s.setBlk n fun b => { b with stepping := true }).release v i n).dbgEnd v 0) ∧
        (∀ b e img lo hi, s.blk n = some b → b.proof = some e → b.snap = some img → b.logFull = false →
          let wi := bits w 10 6
          let count := bits w 63 12
          img.warps[wi]? = some lo → b.img.warps[wi]? = some hi →
          (lo.rwc.toNat % 2 ^ 52 ≤ count → count ≤ hi.rwc.toNat % 2 ^ 52 → exec .debugRollback s =
            .next (((s.rollBack n wi count b img).release v i n).setVd v fun x => { x with dbgBusy := true })) ∧
          ((count < lo.rwc.toNat % 2 ^ 52 ∨ hi.rwc.toNat % 2 ^ 52 < count) → exec .debugRollback s = .next (s.dbgEnd v 2))) ∧
        (∀ b e img, s.blk n = some b → b.proof = some e → b.snap = some img → b.logFull = true →
          exec .debugRollback s = .next (s.dbgEnd v 3)) ∧
        (∀ b, s.blk n = some b → b.proof = none → exec .debugRollback s = .next (s.dbgEnd v 4)))) ∧
    (∀ n b g r k i, s.focus = .blk n → s.blk n = some b → b.cluster = some g → b.replay = some r → b.reached = true → s.vdOf b = k →
      (∀ c ∈ s.cmds, c.2.parkedAt n = false) →
      (∀ j, j < i → find (s.vd k).halts j ≠ none) → i < 16 → find (s.vd k).halts i = none → Does .rollbackCountReached s fun t =>
        find (t.vd k).halts i = some n ∧ (t.blk n).map (fun x => (x.place, x.replay, x.img)) = some (.saving g, none, b.img) ∧
        (t.vd k).dbgStatus = 0 ∧ (t.vd k).dbgBusy = false))

-- ## Reset and steps

/-- What the spec says of the machine after reset and of a warp at its start (R24, R30, R52, R80, R148, R151, R159, R177, R196, R218,
R257, R264, R268, R283). -/
def Obligations.ResetValues : Prop :=
  let s := State.reset
  s.now = 0 ∧ s.power.mode = s.boot.record.minMode ∧ s.quantum = 250 ∧ (∀ d, d < 32 → s.poolOf d = 0xFFFF) ∧
  (∀ v, (s.vd v).state = .free ∧ (s.vd v).smpcfg = 0x06040000#32 ∧ (s.vd v).smpbase = 0#64 ∧ (s.vd v).smptail = 0#32 ∧
    (s.vd v).smphead = 0#32 ∧ (s.vd v).smpdrop = 0#32 ∧ (s.vd v).attach = false ∧ (s.vd v).dbgBusy = false ∧ (s.vd v).dbgStatus = 0 ∧
    (s.vd v).dbgdump = 0#64 ∧ (∀ k, k < 4 → vget (s.vd v).waddr k 1#64 = 0#64 ∧ vget (s.vd v).wctl k 1#32 = 0#32) ∧
    bits (s.vd v).prfcfg.toNat 7 0 = 0 ∧ bits (s.vd v).prfcfg.toNat 15 8 = 20 ∧ (s.vd v).prfbase = 0#64) ∧
  (∀ g, (s.cl g).mxLimit = 256 ∧ (s.cl g).mxLevel = 512 ∧ (s.cl g).tlb = [] ∧ (s.cl g).l1 = [] ∧ (s.cl g).icache = [] ∧ (s.cl g).wcb = []) ∧
  (∀ d, (s.die d).tlb = [] ∧ (s.die d).waits = []) ∧
  (∀ l, (s.homeTag l).tokens = 64 ∧ (s.homeTag l).owner = true ∧ ∀ h, (s.held' h l).tokens = 0) ∧
  (∀ a, a < hbmEnd → s.mem.read a = 0#8) ∧ s.mem.wf = true ∧ s.blocks = [] ∧ s.kernels = [] ∧
  (∀ (k : Kernel) (slot : Nat), let x := startWarp k slot
    (∀ r l, (x.vreg r) = Vector.replicate 32 0#32 ∧ x.vregs.length = k.vregs ∧ (r < 0xC0 → x.lane r l = 0#32)) ∧
    (∀ p, 0 < p → x.pred p = 0#32) ∧ x.mode = 0#32 ∧ x.sreg 48 = k.arg.extractLsb' 0 32 ∧ x.sreg 49 = k.arg.extractLsb' 32 32 ∧
    (∀ r, r ≠ 48 → r ≠ 49 → x.sreg r = 0#32) ∧
    x.frags.map (fun f => (f.pc, f.mask, f.rejoin, f.parent, f.running)) = [(k.entry, 0xFFFFFFFF#32, none, none, true)] ∧
    (∀ n, (x.counter n).count = 0 ∧ (x.counter n).err = none))

/-- A step runs the decoded instruction (R177, R179, R281): with nothing of the device's to come first, the first warp of the quadrant's
order fetches the words at its chosen fragment's PC, and where they decode to `i` the step is `exec i` in the state in which that fragment
is chosen and the words are noted; a fragment within a `VEXEC` goes on with it (R351); the warp is then the quadrant's last issuer, and the warps after it choose their fragments. An
instruction that is held leaves the issue to the warps after it; a step of the device that waits is executed first. -/
def Obligations.StepRunsDecoded : Prop :=
  ∀ (s : State),
    (∀ g q rest w n ws f c u words i len, s.agenda = [] → s.due = [] → s.turn = .warps → s.quads = (g, q) :: rest →
      let a := ({ s with quads := rest }).prepare w
      ({ s with quads := rest }).offerers g q = (w, n) :: ws → a.held = none → (a.warp w).bind Warp.offer = some f →
      (a.choose w f.id).ctx = some c →
      (∀ r t, c.f.vx = some r →
        exec r.instr { a.choose w f.id with word := r.word, nwords := r.nwords, base := r.base } = .next t → t.held = none →
        step s = .next (((t.issuedBy g q w n f.pc).prepareRest ws).noteStalls ((a.cl g).vd.getD 0) ws)) ∧
      (c.f.vx = none → c.fetchInstr 3 (a.choose w f.id) f.pc = (u, .ok words) → decodeWords words = .ok i len →
      (∀ t, exec i (u.fetched words) = .next t → t.held = none →
        step s = .next (((t.issuedBy g q w n f.pc).prepareRest ws).noteStalls ((a.cl g).vd.getD 0) ws)) ∧
      (∀ t r, exec i (u.fetched words) = .next t → t.held = some r → step s = issueFirst g q ws (t.noteHold w (some r))) ∧
      (∀ e, exec i (u.fetched words) = .fault e → step s = .fault e))) ∧
    (∀ i f rest, s.agenda = (i, f) :: rest → step s = exec i { s with agenda := rest, focus := f }) ∧
    (∀ i f rest, s.agenda = [] → s.due = (i, f) :: rest → step s = exec i { s with due := rest, focus := f })

/-- Every Billek instruction that a warp issues answers a next state, and so does every step of the device, whatever the state;
nothing is refused, and a Billek instruction without a warp that issues it stops by name. -/
def Obligations.EveryInstructionAnswers : Prop :=
  (∀ (i : Instr) (s : State), i.isStep = true ∨ s.ctx.isSome = true → ∃ t, exec i s = .next t) ∧
  (∀ (i : Instr) (s : State), i.isStep = false → s.ctx = none → exec i s = .fault .noWarp) ∧
  ∀ (s : State) (r : Refusal), step s ≠ .refused r

/-- Every step keeps the memory in its canonical form: addresses strictly rise and no byte listed is what an unlisted one reads as; so
equal memories are equal data. -/
def Obligations.MemoryStaysCanonical : Prop :=
  ∀ s t : State, s.mem.wf = true → step s = .next t → t.mem.wf = true
end

