-- ==== Sys2Proof/Laws/Memory.lean ====
section
/-!
SUPPORT. Sparse maps and memories: what a look-up finds after an update, and that every memory operation keeps the canonical
form.
-/
namespace Sys2Proof.Machine

-- ## Look-ups

@[simp] theorem find_put_same {α : Type} (m : NMap α) (k : Nat) (v : α) : find (put m k v) k = some v := by
  induction m with
  | nil => simp [put, find]
  | cons e m ih =>
    obtain ⟨j, u⟩ := e
    unfold put
    split
    · simp [find]
    · split
      · simp [find]
      · rw [find, if_neg (by omega), ih]

theorem find_put_other {α : Type} (m : NMap α) (k j : Nat) (v : α) (h : j ≠ k) : find (put m k v) j = find m j := by
  induction m with
  | nil => simp [put, find, Ne.symm h]
  | cons e m ih =>
    obtain ⟨i, u⟩ := e
    unfold put
    split
    · simp [find, Ne.symm h]
    · split
      · subst_vars; simp [find, Ne.symm h]
      · simp only [find, ih]

theorem find_none_of_rising {α : Type} (m : NMap α) (lo k : Nat) (h : risingFrom lo m = true) (hk : k < lo) :
    find m k = none := by
  induction m generalizing lo with
  | nil => rfl
  | cons e m ih =>
    obtain ⟨j, u⟩ := e
    simp only [risingFrom, Bool.and_eq_true, decide_eq_true_eq] at h
    rw [find, if_neg (by omega), ih (j + 1) h.2 (by omega)]

theorem find_del_same {α : Type} (m : NMap α) (lo k : Nat) (h : risingFrom lo m = true) : find (del m k) k = none := by
  induction m generalizing lo with
  | nil => rfl
  | cons e m ih =>
    obtain ⟨j, u⟩ := e
    simp only [risingFrom, Bool.and_eq_true, decide_eq_true_eq] at h
    unfold del
    split
    · exact find_none_of_rising m (j + 1) k h.2 (by omega)
    · rw [find, if_neg ‹_›, ih (j + 1) h.2]

theorem find_del_other {α : Type} (m : NMap α) (k j : Nat) (h : j ≠ k) : find (del m k) j = find m j := by
  induction m with
  | nil => rfl
  | cons e m ih =>
    obtain ⟨i, u⟩ := e
    unfold del
    split
    · subst_vars; simp [find, Ne.symm h]
    · simp only [find, ih]

@[simp] theorem find_adj_same {α : Type} (m : NMap α) (k : Nat) (f : α → α) : find (adj m k f) k = (find m k).map f := by
  induction m with
  | nil => rfl
  | cons e m ih =>
    obtain ⟨j, u⟩ := e
    unfold adj
    by_cases h : j = k
    · simp [find, h]
    · simp [find, h, ih]

theorem find_adj_other {α : Type} (m : NMap α) (k j : Nat) (f : α → α) (h : j ≠ k) : find (adj m k f) j = find m j := by
  induction m with
  | nil => rfl
  | cons e m ih =>
    obtain ⟨i, u⟩ := e
    unfold adj
    by_cases hi : i = k
    · subst hi; simp [find, Ne.symm h]
    · simp [find, hi, ih]

@[simp] theorem look_put_same {α : Type} (m : NMap α) (k : Nat) (v d : α) : look (put m k v) k d = v := by simp [look]

theorem look_put_other {α : Type} (m : NMap α) (k j : Nat) (v d : α) (h : j ≠ k) : look (put m k v) j d = look m j d := by
  simp [look, find_put_other m k j v h]

@[simp] theorem look_upd_same {α : Type} (m : NMap α) (k : Nat) (d : α) (f : α → α) :
    look (upd m k d f) k d = f (look m k d) := by simp [upd]

theorem look_upd_other {α : Type} (m : NMap α) (k j : Nat) (d : α) (f : α → α) (h : j ≠ k) :
    look (upd m k d f) j d = look m j d := look_put_other m k j _ d h

@[simp] theorem getElem?_modAt_same {α : Type} (l : List α) (i : Nat) (f : α → α) : (modAt l i f)[i]? = l[i]?.map f := by
  induction l generalizing i with
  | nil => rfl
  | cons x l ih => cases i with
    | zero => rfl
    | succ i => simp [modAt, ih]

theorem getElem?_modAt_other {α : Type} (l : List α) (i j : Nat) (f : α → α) (h : j ≠ i) : (modAt l i f)[j]? = l[j]? := by
  induction l generalizing i j with
  | nil => rfl
  | cons x l ih => cases i with
    | zero => cases j with
      | zero => exact absurd rfl h
      | succ j => rfl
    | succ i => cases j with
      | zero => rfl
      | succ j => simp [modAt, ih i j (by omega)]

@[simp] theorem length_modAt {α : Type} (l : List α) (i : Nat) (f : α → α) : (modAt l i f).length = l.length := by
  induction l generalizing i with
  | nil => rfl
  | cons x l ih => cases i <;> simp [modAt, ih]

-- ## The canonical form

theorem risingFrom_mono {α : Type} (m : NMap α) (lo lo' : Nat) (h : risingFrom lo m = true) (hl : lo' ≤ lo) :
    risingFrom lo' m = true := by
  cases m with
  | nil => rfl
  | cons e m =>
    obtain ⟨j, u⟩ := e
    simp only [risingFrom, Bool.and_eq_true, decide_eq_true_eq] at h ⊢
    exact ⟨by omega, h.2⟩

theorem risingFrom_put {α : Type} (m : NMap α) (lo k : Nat) (v : α) (h : risingFrom lo m = true) (hk : lo ≤ k) :
    risingFrom lo (put m k v) = true := by
  induction m generalizing lo with
  | nil => simpa [put, risingFrom] using hk
  | cons e m ih =>
    obtain ⟨j, u⟩ := e
    simp only [risingFrom, Bool.and_eq_true, decide_eq_true_eq] at h
    unfold put
    split
    · simp only [risingFrom, Bool.and_eq_true, decide_eq_true_eq]
      exact ⟨hk, by omega, h.2⟩
    · split
      · subst_vars; simpa [risingFrom] using ⟨hk, h.2⟩
      · simp only [risingFrom, Bool.and_eq_true, decide_eq_true_eq]
        exact ⟨h.1, ih (j + 1) h.2 (by omega)⟩

theorem risingFrom_del {α : Type} (m : NMap α) (lo k : Nat) (h : risingFrom lo m = true) : risingFrom lo (del m k) = true := by
  induction m generalizing lo with
  | nil => rfl
  | cons e m ih =>
    obtain ⟨j, u⟩ := e
    simp only [risingFrom, Bool.and_eq_true, decide_eq_true_eq] at h
    unfold del
    split
    · exact risingFrom_mono m (j + 1) lo h.2 (by omega)
    · simp only [risingFrom, Bool.and_eq_true, decide_eq_true_eq]
      exact ⟨h.1, ih (j + 1) h.2⟩

theorem risingFrom_filter {α : Type} (m : NMap α) (lo : Nat) (p : Nat × α → Bool) (h : risingFrom lo m = true) :
    risingFrom lo (m.filter p) = true := by
  induction m generalizing lo with
  | nil => rfl
  | cons e m ih =>
    obtain ⟨j, u⟩ := e
    simp only [risingFrom, Bool.and_eq_true, decide_eq_true_eq] at h
    rw [List.filter_cons]
    split
    · simp only [risingFrom, Bool.and_eq_true, decide_eq_true_eq]
      exact ⟨h.1, ih (j + 1) h.2⟩
    · exact risingFrom_mono _ (j + 1) lo (ih (j + 1) h.2) (by omega)

theorem all_put {α : Type} (m : NMap α) (k : Nat) (v : α) (p : Nat × α → Bool) (h : m.all p = true) (hv : p (k, v) = true) :
    (put m k v).all p = true := by
  induction m with
  | nil => simpa [put] using hv
  | cons e m ih =>
    obtain ⟨j, u⟩ := e
    simp only [List.all_cons, Bool.and_eq_true] at h
    unfold put
    split
    · simp [hv, h.1, h.2]
    · split
      · simp [hv, h.2]
      · simp [h.1, ih h.2]

theorem all_del {α : Type} (m : NMap α) (k : Nat) (p : Nat × α → Bool) (h : m.all p = true) : (del m k).all p = true := by
  induction m with
  | nil => rfl
  | cons e m ih =>
    obtain ⟨j, u⟩ := e
    simp only [List.all_cons, Bool.and_eq_true] at h
    unfold del
    split
    · exact h.2
    · simp [h.1, ih h.2]

@[simp] theorem Memory.wf_nil : Memory.wf [] = true := rfl

theorem Memory.wf_write (m : Memory) (a : Nat) (b : Byte) (h : m.wf = true) : (m.write a b).wf = true := by
  simp only [Memory.wf, Bool.and_eq_true] at h ⊢
  unfold Memory.write
  split
  · exact ⟨risingFrom_del m 0 a h.1, all_del m a _ h.2⟩
  · exact ⟨risingFrom_put m 0 a b h.1 (Nat.zero_le a), all_put m a b _ h.2 (by simpa using ‹_›)⟩

theorem Memory.wf_store (m : Memory) (a : Nat) (bs : List Byte) (h : m.wf = true) : (m.store a bs).wf = true := by
  induction bs generalizing m a with
  | nil => exact h
  | cons b bs ih => exact ih _ _ (Memory.wf_write m a b h)

theorem Memory.wf_storeNat (m : Memory) (a n v : Nat) (h : m.wf = true) : (m.storeNat a n v).wf = true :=
  Memory.wf_store m a _ h

theorem Memory.wf_filter (m : Memory) (p : Host.Cell → Bool) (h : m.wf = true) : Memory.wf (m.filter p) = true := by
  simp only [Memory.wf, Bool.and_eq_true] at h ⊢
  refine ⟨risingFrom_filter m 0 p h.1, List.all_eq_true.2 fun e he => ?_⟩
  exact List.all_eq_true.1 h.2 e (List.mem_filter.1 he).1

-- ## Reads after writes

theorem Memory.read_write_same (m : Memory) (a : Nat) (b : Byte) (h : m.wf = true) : (m.write a b).read a = b := by
  simp only [Memory.wf, Bool.and_eq_true] at h
  unfold Memory.write Memory.read
  split
  · rw [find_del_same m 0 a h.1]; exact (‹b = 0#8›).symm
  · simp

@[simp] theorem Memory.read_write_other (m : Memory) (a j : Nat) (b : Byte) (h : j ≠ a) : (m.write a b).read j = m.read j := by
  unfold Memory.write Memory.read
  split
  · rw [find_del_other m a j h]
  · rw [find_put_other m a j b h]

theorem Memory.read_store_outside (m : Memory) (a j : Nat) (bs : List Byte) (h : j < a ∨ a + bs.length ≤ j) :
    (m.store a bs).read j = m.read j := by
  induction bs generalizing m a with
  | nil => rfl
  | cons b bs ih =>
    simp only [List.length_cons] at h
    rw [Memory.store, ih _ _ (by omega), Memory.read_write_other m a j b (by omega)]

@[simp] theorem length_leBytes (n x : Nat) : (leBytes n x).length = n := by
  induction n generalizing x with
  | zero => rfl
  | succ n ih => simp [leBytes, ih]

theorem Memory.read_storeNat_outside (m : Memory) (a n v j : Nat) (h : j < a ∨ a + n ≤ j) :
    (m.storeNat a n v).read j = m.read j := Memory.read_store_outside m a j _ (by simpa using h)

theorem leNat_leBytes (n x : Nat) : leNat (leBytes n x) = x % 256 ^ n := by
  induction n generalizing x with
  | zero => simp [leBytes, leNat, Nat.mod_one]
  | succ n ih =>
    have h := Nat.mod_mul (a := 256) (b := 256 ^ n) (x := x)
    rw [leBytes, leNat, ih, BitVec.toNat_ofNat, Nat.pow_succ' (m := 256), h]

theorem Memory.bytes_outside (m : Memory) (a n j : Nat) (b : Byte) (h : j < a ∨ a + n ≤ j) :
    (m.write j b).bytes a n = m.bytes a n := by
  induction n generalizing a with
  | zero => rfl
  | succ n ih =>
    rw [Memory.bytes, Memory.bytes, ih (a + 1) (by omega), Memory.read_write_other m j a b (by omega)]

theorem Memory.bytes_store_outside (m : Memory) (a n j : Nat) (bs : List Byte) (h : j + bs.length ≤ a ∨ a + n ≤ j) :
    (m.store j bs).bytes a n = m.bytes a n := by
  induction bs generalizing m j with
  | nil => rfl
  | cons b bs ih =>
    simp only [List.length_cons] at h
    rw [Memory.store]
    by_cases hn : n = 0
    · subst hn; rfl
    · rw [ih _ _ (by omega), Memory.bytes_outside m a n j b (by omega)]

/-- What was stored is what is read. -/
theorem Memory.bytes_store (m : Memory) (a : Nat) (bs : List Byte) (h : m.wf = true) :
    (m.store a bs).bytes a bs.length = bs := by
  induction bs generalizing m a with
  | nil => rfl
  | cons b bs ih =>
    rw [List.length_cons, Memory.bytes, Memory.store, ih _ _ (Memory.wf_write m a b h),
      Memory.read_store_outside _ _ _ _ (by omega), Memory.read_write_same m a b h]

theorem Memory.readNat_storeNat (m : Memory) (a n v : Nat) (h : m.wf = true) :
    (m.storeNat a n v).readNat a n = v % 256 ^ n := by
  have := Memory.bytes_store m a (leBytes n v) h
  rw [length_leBytes] at this
  rw [Memory.readNat, Memory.storeNat, this, leNat_leBytes]

end Sys2Proof.Machine
end

