-- ==== Sys2Proof/Laws/State.lean ====
section
/-!
SUPPORT. What each update of a State leaves alone: one lemma for each field and update, so that no proof unfolds a record
update.
-/
namespace Sys2Proof.Machine

-- ## setDie

@[simp] theorem State.setDie_now (s : State) (d : Nat) (f : Die → Die) : (s.setDie d f).now = s.now := rfl
@[simp] theorem State.setDie_boot (s : State) (d : Nat) (f : Die → Die) : (s.setDie d f).boot = s.boot := rfl
@[simp] theorem State.setDie_power (s : State) (d : Nat) (f : Die → Die) : (s.setDie d f).power = s.power := rfl
@[simp] theorem State.setDie_pf (s : State) (d : Nat) (f : Die → Die) : (s.setDie d f).pf = s.pf := rfl
@[simp] theorem State.setDie_vds (s : State) (d : Nat) (f : Die → Die) : (s.setDie d f).vds = s.vds := rfl
@[simp] theorem State.setDie_keySlots (s : State) (d : Nat) (f : Die → Die) : (s.setDie d f).keySlots = s.keySlots := rfl
@[simp] theorem State.setDie_quantum (s : State) (d : Nat) (f : Die → Die) : (s.setDie d f).quantum = s.quantum := rfl
@[simp] theorem State.setDie_quantumNew (s : State) (d : Nat) (f : Die → Die) : (s.setDie d f).quantumNew = s.quantumNew := rfl
@[simp] theorem State.setDie_pool (s : State) (d : Nat) (f : Die → Die) : (s.setDie d f).pool = s.pool := rfl
@[simp] theorem State.setDie_poolNew (s : State) (d : Nat) (f : Die → Die) : (s.setDie d f).poolNew = s.poolNew := rfl
@[simp] theorem State.setDie_clusters (s : State) (d : Nat) (f : Die → Die) : (s.setDie d f).clusters = s.clusters := rfl
@[simp] theorem State.setDie_kernels (s : State) (d : Nat) (f : Die → Die) : (s.setDie d f).kernels = s.kernels := rfl
@[simp] theorem State.setDie_blocks (s : State) (d : Nat) (f : Die → Die) : (s.setDie d f).blocks = s.blocks := rfl
@[simp] theorem State.setDie_cmds (s : State) (d : Nat) (f : Die → Die) : (s.setDie d f).cmds = s.cmds := rfl
@[simp] theorem State.setDie_mem (s : State) (d : Nat) (f : Die → Die) : (s.setDie d f).mem = s.mem := rfl
@[simp] theorem State.setDie_hbm (s : State) (d : Nat) (f : Die → Die) : (s.setDie d f).hbm = s.hbm := rfl
@[simp] theorem State.setDie_coh (s : State) (d : Nat) (f : Die → Die) : (s.setDie d f).coh = s.coh := rfl
@[simp] theorem State.setDie_net (s : State) (d : Nat) (f : Die → Die) : (s.setDie d f).net = s.net := rfl
@[simp] theorem State.setDie_fabric (s : State) (d : Nat) (f : Die → Die) : (s.setDie d f).fabric = s.fabric := rfl
@[simp] theorem State.setDie_cxl (s : State) (d : Nat) (f : Die → Die) : (s.setDie d f).cxl = s.cxl := rfl
@[simp] theorem State.setDie_migr (s : State) (d : Nat) (f : Die → Die) : (s.setDie d f).migr = s.migr := rfl
@[simp] theorem State.setDie_s2inv (s : State) (d : Nat) (f : Die → Die) : (s.setDie d f).s2inv = s.s2inv := rfl
@[simp] theorem State.setDie_samples (s : State) (d : Nat) (f : Die → Die) : (s.setDie d f).samples = s.samples := rfl
@[simp] theorem State.setDie_walks (s : State) (d : Nat) (f : Die → Die) : (s.setDie d f).walks = s.walks := rfl
@[simp] theorem State.setDie_walkCache (s : State) (d : Nat) (f : Die → Die) : (s.setDie d f).walkCache = s.walkCache := rfl
@[simp] theorem State.setDie_posted (s : State) (d : Nat) (f : Die → Die) : (s.setDie d f).posted = s.posted := rfl
@[simp] theorem State.setDie_agenda (s : State) (d : Nat) (f : Die → Die) : (s.setDie d f).agenda = s.agenda := rfl
@[simp] theorem State.setDie_due (s : State) (d : Nat) (f : Die → Die) : (s.setDie d f).due = s.due := rfl
@[simp] theorem State.setDie_focus (s : State) (d : Nat) (f : Die → Die) : (s.setDie d f).focus = s.focus := rfl
@[simp] theorem State.setDie_cur (s : State) (d : Nat) (f : Die → Die) : (s.setDie d f).cur = s.cur := rfl
@[simp] theorem State.setDie_word (s : State) (d : Nat) (f : Die → Die) : (s.setDie d f).word = s.word := rfl
@[simp] theorem State.setDie_nwords (s : State) (d : Nat) (f : Die → Die) : (s.setDie d f).nwords = s.nwords := rfl
@[simp] theorem State.setDie_base (s : State) (d : Nat) (f : Die → Die) : (s.setDie d f).base = s.base := rfl
@[simp] theorem State.setDie_pfx (s : State) (d : Nat) (f : Die → Die) : (s.setDie d f).pfx = s.pfx := rfl
@[simp] theorem State.setDie_quads (s : State) (d : Nat) (f : Die → Die) : (s.setDie d f).quads = s.quads := rfl
@[simp] theorem State.setDie_turn (s : State) (d : Nat) (f : Die → Die) : (s.setDie d f).turn = s.turn := rfl
@[simp] theorem State.setDie_held (s : State) (d : Nat) (f : Die → Die) : (s.setDie d f).held = s.held := rfl
@[simp] theorem State.setDie_free (s : State) (d : Nat) (f : Die → Die) : (s.setDie d f).free = s.free := rfl
@[simp] theorem State.setDie_nextId (s : State) (d : Nat) (f : Die → Die) : (s.setDie d f).nextId = s.nextId := rfl
@[simp] theorem State.setDie_out (s : State) (d : Nat) (f : Die → Die) : (s.setDie d f).out = s.out := rfl

-- ## setVd

@[simp] theorem State.setVd_now (s : State) (v : Nat) (f : Vd → Vd) : (s.setVd v f).now = s.now := rfl
@[simp] theorem State.setVd_boot (s : State) (v : Nat) (f : Vd → Vd) : (s.setVd v f).boot = s.boot := rfl
@[simp] theorem State.setVd_power (s : State) (v : Nat) (f : Vd → Vd) : (s.setVd v f).power = s.power := rfl
@[simp] theorem State.setVd_pf (s : State) (v : Nat) (f : Vd → Vd) : (s.setVd v f).pf = s.pf := rfl
@[simp] theorem State.setVd_keySlots (s : State) (v : Nat) (f : Vd → Vd) : (s.setVd v f).keySlots = s.keySlots := rfl
@[simp] theorem State.setVd_quantum (s : State) (v : Nat) (f : Vd → Vd) : (s.setVd v f).quantum = s.quantum := rfl
@[simp] theorem State.setVd_quantumNew (s : State) (v : Nat) (f : Vd → Vd) : (s.setVd v f).quantumNew = s.quantumNew := rfl
@[simp] theorem State.setVd_pool (s : State) (v : Nat) (f : Vd → Vd) : (s.setVd v f).pool = s.pool := rfl
@[simp] theorem State.setVd_poolNew (s : State) (v : Nat) (f : Vd → Vd) : (s.setVd v f).poolNew = s.poolNew := rfl
@[simp] theorem State.setVd_dies (s : State) (v : Nat) (f : Vd → Vd) : (s.setVd v f).dies = s.dies := rfl
@[simp] theorem State.setVd_clusters (s : State) (v : Nat) (f : Vd → Vd) : (s.setVd v f).clusters = s.clusters := rfl
@[simp] theorem State.setVd_kernels (s : State) (v : Nat) (f : Vd → Vd) : (s.setVd v f).kernels = s.kernels := rfl
@[simp] theorem State.setVd_blocks (s : State) (v : Nat) (f : Vd → Vd) : (s.setVd v f).blocks = s.blocks := rfl
@[simp] theorem State.setVd_cmds (s : State) (v : Nat) (f : Vd → Vd) : (s.setVd v f).cmds = s.cmds := rfl
@[simp] theorem State.setVd_mem (s : State) (v : Nat) (f : Vd → Vd) : (s.setVd v f).mem = s.mem := rfl
@[simp] theorem State.setVd_hbm (s : State) (v : Nat) (f : Vd → Vd) : (s.setVd v f).hbm = s.hbm := rfl
@[simp] theorem State.setVd_coh (s : State) (v : Nat) (f : Vd → Vd) : (s.setVd v f).coh = s.coh := rfl
@[simp] theorem State.setVd_net (s : State) (v : Nat) (f : Vd → Vd) : (s.setVd v f).net = s.net := rfl
@[simp] theorem State.setVd_fabric (s : State) (v : Nat) (f : Vd → Vd) : (s.setVd v f).fabric = s.fabric := rfl
@[simp] theorem State.setVd_cxl (s : State) (v : Nat) (f : Vd → Vd) : (s.setVd v f).cxl = s.cxl := rfl
@[simp] theorem State.setVd_migr (s : State) (v : Nat) (f : Vd → Vd) : (s.setVd v f).migr = s.migr := rfl
@[simp] theorem State.setVd_s2inv (s : State) (v : Nat) (f : Vd → Vd) : (s.setVd v f).s2inv = s.s2inv := rfl
@[simp] theorem State.setVd_samples (s : State) (v : Nat) (f : Vd → Vd) : (s.setVd v f).samples = s.samples := rfl
@[simp] theorem State.setVd_walks (s : State) (v : Nat) (f : Vd → Vd) : (s.setVd v f).walks = s.walks := rfl
@[simp] theorem State.setVd_walkCache (s : State) (v : Nat) (f : Vd → Vd) : (s.setVd v f).walkCache = s.walkCache := rfl
@[simp] theorem State.setVd_posted (s : State) (v : Nat) (f : Vd → Vd) : (s.setVd v f).posted = s.posted := rfl
@[simp] theorem State.setVd_agenda (s : State) (v : Nat) (f : Vd → Vd) : (s.setVd v f).agenda = s.agenda := rfl
@[simp] theorem State.setVd_due (s : State) (v : Nat) (f : Vd → Vd) : (s.setVd v f).due = s.due := rfl
@[simp] theorem State.setVd_focus (s : State) (v : Nat) (f : Vd → Vd) : (s.setVd v f).focus = s.focus := rfl
@[simp] theorem State.setVd_cur (s : State) (v : Nat) (f : Vd → Vd) : (s.setVd v f).cur = s.cur := rfl
@[simp] theorem State.setVd_word (s : State) (v : Nat) (f : Vd → Vd) : (s.setVd v f).word = s.word := rfl
@[simp] theorem State.setVd_nwords (s : State) (v : Nat) (f : Vd → Vd) : (s.setVd v f).nwords = s.nwords := rfl
@[simp] theorem State.setVd_base (s : State) (v : Nat) (f : Vd → Vd) : (s.setVd v f).base = s.base := rfl
@[simp] theorem State.setVd_pfx (s : State) (v : Nat) (f : Vd → Vd) : (s.setVd v f).pfx = s.pfx := rfl
@[simp] theorem State.setVd_quads (s : State) (v : Nat) (f : Vd → Vd) : (s.setVd v f).quads = s.quads := rfl
@[simp] theorem State.setVd_turn (s : State) (v : Nat) (f : Vd → Vd) : (s.setVd v f).turn = s.turn := rfl
@[simp] theorem State.setVd_held (s : State) (v : Nat) (f : Vd → Vd) : (s.setVd v f).held = s.held := rfl
@[simp] theorem State.setVd_free (s : State) (v : Nat) (f : Vd → Vd) : (s.setVd v f).free = s.free := rfl
@[simp] theorem State.setVd_nextId (s : State) (v : Nat) (f : Vd → Vd) : (s.setVd v f).nextId = s.nextId := rfl
@[simp] theorem State.setVd_out (s : State) (v : Nat) (f : Vd → Vd) : (s.setVd v f).out = s.out := rfl

-- ## setCl

@[simp] theorem State.setCl_now (s : State) (g : Nat) (f : Cluster → Cluster) : (s.setCl g f).now = s.now := rfl
@[simp] theorem State.setCl_boot (s : State) (g : Nat) (f : Cluster → Cluster) : (s.setCl g f).boot = s.boot := rfl
@[simp] theorem State.setCl_power (s : State) (g : Nat) (f : Cluster → Cluster) : (s.setCl g f).power = s.power := rfl
@[simp] theorem State.setCl_pf (s : State) (g : Nat) (f : Cluster → Cluster) : (s.setCl g f).pf = s.pf := rfl
@[simp] theorem State.setCl_vds (s : State) (g : Nat) (f : Cluster → Cluster) : (s.setCl g f).vds = s.vds := rfl
@[simp] theorem State.setCl_keySlots (s : State) (g : Nat) (f : Cluster → Cluster) : (s.setCl g f).keySlots = s.keySlots := rfl
@[simp] theorem State.setCl_quantum (s : State) (g : Nat) (f : Cluster → Cluster) : (s.setCl g f).quantum = s.quantum := rfl
@[simp] theorem State.setCl_quantumNew (s : State) (g : Nat) (f : Cluster → Cluster) : (s.setCl g f).quantumNew = s.quantumNew := rfl
@[simp] theorem State.setCl_pool (s : State) (g : Nat) (f : Cluster → Cluster) : (s.setCl g f).pool = s.pool := rfl
@[simp] theorem State.setCl_poolNew (s : State) (g : Nat) (f : Cluster → Cluster) : (s.setCl g f).poolNew = s.poolNew := rfl
@[simp] theorem State.setCl_dies (s : State) (g : Nat) (f : Cluster → Cluster) : (s.setCl g f).dies = s.dies := rfl
@[simp] theorem State.setCl_kernels (s : State) (g : Nat) (f : Cluster → Cluster) : (s.setCl g f).kernels = s.kernels := rfl
@[simp] theorem State.setCl_blocks (s : State) (g : Nat) (f : Cluster → Cluster) : (s.setCl g f).blocks = s.blocks := rfl
@[simp] theorem State.setCl_cmds (s : State) (g : Nat) (f : Cluster → Cluster) : (s.setCl g f).cmds = s.cmds := rfl
@[simp] theorem State.setCl_mem (s : State) (g : Nat) (f : Cluster → Cluster) : (s.setCl g f).mem = s.mem := rfl
@[simp] theorem State.setCl_hbm (s : State) (g : Nat) (f : Cluster → Cluster) : (s.setCl g f).hbm = s.hbm := rfl
@[simp] theorem State.setCl_coh (s : State) (g : Nat) (f : Cluster → Cluster) : (s.setCl g f).coh = s.coh := rfl
@[simp] theorem State.setCl_net (s : State) (g : Nat) (f : Cluster → Cluster) : (s.setCl g f).net = s.net := rfl
@[simp] theorem State.setCl_fabric (s : State) (g : Nat) (f : Cluster → Cluster) : (s.setCl g f).fabric = s.fabric := rfl
@[simp] theorem State.setCl_cxl (s : State) (g : Nat) (f : Cluster → Cluster) : (s.setCl g f).cxl = s.cxl := rfl
@[simp] theorem State.setCl_migr (s : State) (g : Nat) (f : Cluster → Cluster) : (s.setCl g f).migr = s.migr := rfl
@[simp] theorem State.setCl_s2inv (s : State) (g : Nat) (f : Cluster → Cluster) : (s.setCl g f).s2inv = s.s2inv := rfl
@[simp] theorem State.setCl_samples (s : State) (g : Nat) (f : Cluster → Cluster) : (s.setCl g f).samples = s.samples := rfl
@[simp] theorem State.setCl_walks (s : State) (g : Nat) (f : Cluster → Cluster) : (s.setCl g f).walks = s.walks := rfl
@[simp] theorem State.setCl_walkCache (s : State) (g : Nat) (f : Cluster → Cluster) : (s.setCl g f).walkCache = s.walkCache := rfl
@[simp] theorem State.setCl_posted (s : State) (g : Nat) (f : Cluster → Cluster) : (s.setCl g f).posted = s.posted := rfl
@[simp] theorem State.setCl_agenda (s : State) (g : Nat) (f : Cluster → Cluster) : (s.setCl g f).agenda = s.agenda := rfl
@[simp] theorem State.setCl_due (s : State) (g : Nat) (f : Cluster → Cluster) : (s.setCl g f).due = s.due := rfl
@[simp] theorem State.setCl_focus (s : State) (g : Nat) (f : Cluster → Cluster) : (s.setCl g f).focus = s.focus := rfl
@[simp] theorem State.setCl_cur (s : State) (g : Nat) (f : Cluster → Cluster) : (s.setCl g f).cur = s.cur := rfl
@[simp] theorem State.setCl_word (s : State) (g : Nat) (f : Cluster → Cluster) : (s.setCl g f).word = s.word := rfl
@[simp] theorem State.setCl_nwords (s : State) (g : Nat) (f : Cluster → Cluster) : (s.setCl g f).nwords = s.nwords := rfl
@[simp] theorem State.setCl_base (s : State) (g : Nat) (f : Cluster → Cluster) : (s.setCl g f).base = s.base := rfl
@[simp] theorem State.setCl_pfx (s : State) (g : Nat) (f : Cluster → Cluster) : (s.setCl g f).pfx = s.pfx := rfl
@[simp] theorem State.setCl_quads (s : State) (g : Nat) (f : Cluster → Cluster) : (s.setCl g f).quads = s.quads := rfl
@[simp] theorem State.setCl_turn (s : State) (g : Nat) (f : Cluster → Cluster) : (s.setCl g f).turn = s.turn := rfl
@[simp] theorem State.setCl_held (s : State) (g : Nat) (f : Cluster → Cluster) : (s.setCl g f).held = s.held := rfl
@[simp] theorem State.setCl_free (s : State) (g : Nat) (f : Cluster → Cluster) : (s.setCl g f).free = s.free := rfl
@[simp] theorem State.setCl_nextId (s : State) (g : Nat) (f : Cluster → Cluster) : (s.setCl g f).nextId = s.nextId := rfl
@[simp] theorem State.setCl_out (s : State) (g : Nat) (f : Cluster → Cluster) : (s.setCl g f).out = s.out := rfl

-- ## setBlk

@[simp] theorem State.setBlk_now (s : State) (b : Nat) (f : Block → Block) : (s.setBlk b f).now = s.now := rfl
@[simp] theorem State.setBlk_boot (s : State) (b : Nat) (f : Block → Block) : (s.setBlk b f).boot = s.boot := rfl
@[simp] theorem State.setBlk_power (s : State) (b : Nat) (f : Block → Block) : (s.setBlk b f).power = s.power := rfl
@[simp] theorem State.setBlk_pf (s : State) (b : Nat) (f : Block → Block) : (s.setBlk b f).pf = s.pf := rfl
@[simp] theorem State.setBlk_vds (s : State) (b : Nat) (f : Block → Block) : (s.setBlk b f).vds = s.vds := rfl
@[simp] theorem State.setBlk_keySlots (s : State) (b : Nat) (f : Block → Block) : (s.setBlk b f).keySlots = s.keySlots := rfl
@[simp] theorem State.setBlk_quantum (s : State) (b : Nat) (f : Block → Block) : (s.setBlk b f).quantum = s.quantum := rfl
@[simp] theorem State.setBlk_quantumNew (s : State) (b : Nat) (f : Block → Block) : (s.setBlk b f).quantumNew = s.quantumNew := rfl
@[simp] theorem State.setBlk_pool (s : State) (b : Nat) (f : Block → Block) : (s.setBlk b f).pool = s.pool := rfl
@[simp] theorem State.setBlk_poolNew (s : State) (b : Nat) (f : Block → Block) : (s.setBlk b f).poolNew = s.poolNew := rfl
@[simp] theorem State.setBlk_dies (s : State) (b : Nat) (f : Block → Block) : (s.setBlk b f).dies = s.dies := rfl
@[simp] theorem State.setBlk_clusters (s : State) (b : Nat) (f : Block → Block) : (s.setBlk b f).clusters = s.clusters := rfl
@[simp] theorem State.setBlk_kernels (s : State) (b : Nat) (f : Block → Block) : (s.setBlk b f).kernels = s.kernels := rfl
@[simp] theorem State.setBlk_cmds (s : State) (b : Nat) (f : Block → Block) : (s.setBlk b f).cmds = s.cmds := rfl
@[simp] theorem State.setBlk_mem (s : State) (b : Nat) (f : Block → Block) : (s.setBlk b f).mem = s.mem := rfl
@[simp] theorem State.setBlk_hbm (s : State) (b : Nat) (f : Block → Block) : (s.setBlk b f).hbm = s.hbm := rfl
@[simp] theorem State.setBlk_coh (s : State) (b : Nat) (f : Block → Block) : (s.setBlk b f).coh = s.coh := rfl
@[simp] theorem State.setBlk_net (s : State) (b : Nat) (f : Block → Block) : (s.setBlk b f).net = s.net := rfl
@[simp] theorem State.setBlk_fabric (s : State) (b : Nat) (f : Block → Block) : (s.setBlk b f).fabric = s.fabric := rfl
@[simp] theorem State.setBlk_cxl (s : State) (b : Nat) (f : Block → Block) : (s.setBlk b f).cxl = s.cxl := rfl
@[simp] theorem State.setBlk_migr (s : State) (b : Nat) (f : Block → Block) : (s.setBlk b f).migr = s.migr := rfl
@[simp] theorem State.setBlk_s2inv (s : State) (b : Nat) (f : Block → Block) : (s.setBlk b f).s2inv = s.s2inv := rfl
@[simp] theorem State.setBlk_samples (s : State) (b : Nat) (f : Block → Block) : (s.setBlk b f).samples = s.samples := rfl
@[simp] theorem State.setBlk_walks (s : State) (b : Nat) (f : Block → Block) : (s.setBlk b f).walks = s.walks := rfl
@[simp] theorem State.setBlk_walkCache (s : State) (b : Nat) (f : Block → Block) : (s.setBlk b f).walkCache = s.walkCache := rfl
@[simp] theorem State.setBlk_posted (s : State) (b : Nat) (f : Block → Block) : (s.setBlk b f).posted = s.posted := rfl
@[simp] theorem State.setBlk_agenda (s : State) (b : Nat) (f : Block → Block) : (s.setBlk b f).agenda = s.agenda := rfl
@[simp] theorem State.setBlk_due (s : State) (b : Nat) (f : Block → Block) : (s.setBlk b f).due = s.due := rfl
@[simp] theorem State.setBlk_focus (s : State) (b : Nat) (f : Block → Block) : (s.setBlk b f).focus = s.focus := rfl
@[simp] theorem State.setBlk_cur (s : State) (b : Nat) (f : Block → Block) : (s.setBlk b f).cur = s.cur := rfl
@[simp] theorem State.setBlk_word (s : State) (b : Nat) (f : Block → Block) : (s.setBlk b f).word = s.word := rfl
@[simp] theorem State.setBlk_nwords (s : State) (b : Nat) (f : Block → Block) : (s.setBlk b f).nwords = s.nwords := rfl
@[simp] theorem State.setBlk_base (s : State) (b : Nat) (f : Block → Block) : (s.setBlk b f).base = s.base := rfl
@[simp] theorem State.setBlk_pfx (s : State) (b : Nat) (f : Block → Block) : (s.setBlk b f).pfx = s.pfx := rfl
@[simp] theorem State.setBlk_quads (s : State) (b : Nat) (f : Block → Block) : (s.setBlk b f).quads = s.quads := rfl
@[simp] theorem State.setBlk_turn (s : State) (b : Nat) (f : Block → Block) : (s.setBlk b f).turn = s.turn := rfl
@[simp] theorem State.setBlk_held (s : State) (b : Nat) (f : Block → Block) : (s.setBlk b f).held = s.held := rfl
@[simp] theorem State.setBlk_free (s : State) (b : Nat) (f : Block → Block) : (s.setBlk b f).free = s.free := rfl
@[simp] theorem State.setBlk_nextId (s : State) (b : Nat) (f : Block → Block) : (s.setBlk b f).nextId = s.nextId := rfl
@[simp] theorem State.setBlk_out (s : State) (b : Nat) (f : Block → Block) : (s.setBlk b f).out = s.out := rfl

-- ## setKern

@[simp] theorem State.setKern_now (s : State) (k : Nat) (f : Kernel → Kernel) : (s.setKern k f).now = s.now := rfl
@[simp] theorem State.setKern_boot (s : State) (k : Nat) (f : Kernel → Kernel) : (s.setKern k f).boot = s.boot := rfl
@[simp] theorem State.setKern_power (s : State) (k : Nat) (f : Kernel → Kernel) : (s.setKern k f).power = s.power := rfl
@[simp] theorem State.setKern_pf (s : State) (k : Nat) (f : Kernel → Kernel) : (s.setKern k f).pf = s.pf := rfl
@[simp] theorem State.setKern_vds (s : State) (k : Nat) (f : Kernel → Kernel) : (s.setKern k f).vds = s.vds := rfl
@[simp] theorem State.setKern_keySlots (s : State) (k : Nat) (f : Kernel → Kernel) : (s.setKern k f).keySlots = s.keySlots := rfl
@[simp] theorem State.setKern_quantum (s : State) (k : Nat) (f : Kernel → Kernel) : (s.setKern k f).quantum = s.quantum := rfl
@[simp] theorem State.setKern_quantumNew (s : State) (k : Nat) (f : Kernel → Kernel) : (s.setKern k f).quantumNew = s.quantumNew := rfl
@[simp] theorem State.setKern_pool (s : State) (k : Nat) (f : Kernel → Kernel) : (s.setKern k f).pool = s.pool := rfl
@[simp] theorem State.setKern_poolNew (s : State) (k : Nat) (f : Kernel → Kernel) : (s.setKern k f).poolNew = s.poolNew := rfl
@[simp] theorem State.setKern_dies (s : State) (k : Nat) (f : Kernel → Kernel) : (s.setKern k f).dies = s.dies := rfl
@[simp] theorem State.setKern_clusters (s : State) (k : Nat) (f : Kernel → Kernel) : (s.setKern k f).clusters = s.clusters := rfl
@[simp] theorem State.setKern_blocks (s : State) (k : Nat) (f : Kernel → Kernel) : (s.setKern k f).blocks = s.blocks := rfl
@[simp] theorem State.setKern_cmds (s : State) (k : Nat) (f : Kernel → Kernel) : (s.setKern k f).cmds = s.cmds := rfl
@[simp] theorem State.setKern_mem (s : State) (k : Nat) (f : Kernel → Kernel) : (s.setKern k f).mem = s.mem := rfl
@[simp] theorem State.setKern_hbm (s : State) (k : Nat) (f : Kernel → Kernel) : (s.setKern k f).hbm = s.hbm := rfl
@[simp] theorem State.setKern_coh (s : State) (k : Nat) (f : Kernel → Kernel) : (s.setKern k f).coh = s.coh := rfl
@[simp] theorem State.setKern_net (s : State) (k : Nat) (f : Kernel → Kernel) : (s.setKern k f).net = s.net := rfl
@[simp] theorem State.setKern_fabric (s : State) (k : Nat) (f : Kernel → Kernel) : (s.setKern k f).fabric = s.fabric := rfl
@[simp] theorem State.setKern_cxl (s : State) (k : Nat) (f : Kernel → Kernel) : (s.setKern k f).cxl = s.cxl := rfl
@[simp] theorem State.setKern_migr (s : State) (k : Nat) (f : Kernel → Kernel) : (s.setKern k f).migr = s.migr := rfl
@[simp] theorem State.setKern_s2inv (s : State) (k : Nat) (f : Kernel → Kernel) : (s.setKern k f).s2inv = s.s2inv := rfl
@[simp] theorem State.setKern_samples (s : State) (k : Nat) (f : Kernel → Kernel) : (s.setKern k f).samples = s.samples := rfl
@[simp] theorem State.setKern_walks (s : State) (k : Nat) (f : Kernel → Kernel) : (s.setKern k f).walks = s.walks := rfl
@[simp] theorem State.setKern_walkCache (s : State) (k : Nat) (f : Kernel → Kernel) : (s.setKern k f).walkCache = s.walkCache := rfl
@[simp] theorem State.setKern_posted (s : State) (k : Nat) (f : Kernel → Kernel) : (s.setKern k f).posted = s.posted := rfl
@[simp] theorem State.setKern_agenda (s : State) (k : Nat) (f : Kernel → Kernel) : (s.setKern k f).agenda = s.agenda := rfl
@[simp] theorem State.setKern_due (s : State) (k : Nat) (f : Kernel → Kernel) : (s.setKern k f).due = s.due := rfl
@[simp] theorem State.setKern_focus (s : State) (k : Nat) (f : Kernel → Kernel) : (s.setKern k f).focus = s.focus := rfl
@[simp] theorem State.setKern_cur (s : State) (k : Nat) (f : Kernel → Kernel) : (s.setKern k f).cur = s.cur := rfl
@[simp] theorem State.setKern_word (s : State) (k : Nat) (f : Kernel → Kernel) : (s.setKern k f).word = s.word := rfl
@[simp] theorem State.setKern_nwords (s : State) (k : Nat) (f : Kernel → Kernel) : (s.setKern k f).nwords = s.nwords := rfl
@[simp] theorem State.setKern_base (s : State) (k : Nat) (f : Kernel → Kernel) : (s.setKern k f).base = s.base := rfl
@[simp] theorem State.setKern_pfx (s : State) (k : Nat) (f : Kernel → Kernel) : (s.setKern k f).pfx = s.pfx := rfl
@[simp] theorem State.setKern_quads (s : State) (k : Nat) (f : Kernel → Kernel) : (s.setKern k f).quads = s.quads := rfl
@[simp] theorem State.setKern_turn (s : State) (k : Nat) (f : Kernel → Kernel) : (s.setKern k f).turn = s.turn := rfl
@[simp] theorem State.setKern_held (s : State) (k : Nat) (f : Kernel → Kernel) : (s.setKern k f).held = s.held := rfl
@[simp] theorem State.setKern_free (s : State) (k : Nat) (f : Kernel → Kernel) : (s.setKern k f).free = s.free := rfl
@[simp] theorem State.setKern_nextId (s : State) (k : Nat) (f : Kernel → Kernel) : (s.setKern k f).nextId = s.nextId := rfl
@[simp] theorem State.setKern_out (s : State) (k : Nat) (f : Kernel → Kernel) : (s.setKern k f).out = s.out := rfl

-- ## setImg

@[simp] theorem State.setImg_now (s : State) (b : Nat) (f : Image → Image) : (s.setImg b f).now = s.now := rfl
@[simp] theorem State.setImg_boot (s : State) (b : Nat) (f : Image → Image) : (s.setImg b f).boot = s.boot := rfl
@[simp] theorem State.setImg_power (s : State) (b : Nat) (f : Image → Image) : (s.setImg b f).power = s.power := rfl
@[simp] theorem State.setImg_pf (s : State) (b : Nat) (f : Image → Image) : (s.setImg b f).pf = s.pf := rfl
@[simp] theorem State.setImg_vds (s : State) (b : Nat) (f : Image → Image) : (s.setImg b f).vds = s.vds := rfl
@[simp] theorem State.setImg_keySlots (s : State) (b : Nat) (f : Image → Image) : (s.setImg b f).keySlots = s.keySlots := rfl
@[simp] theorem State.setImg_quantum (s : State) (b : Nat) (f : Image → Image) : (s.setImg b f).quantum = s.quantum := rfl
@[simp] theorem State.setImg_quantumNew (s : State) (b : Nat) (f : Image → Image) : (s.setImg b f).quantumNew = s.quantumNew := rfl
@[simp] theorem State.setImg_pool (s : State) (b : Nat) (f : Image → Image) : (s.setImg b f).pool = s.pool := rfl
@[simp] theorem State.setImg_poolNew (s : State) (b : Nat) (f : Image → Image) : (s.setImg b f).poolNew = s.poolNew := rfl
@[simp] theorem State.setImg_dies (s : State) (b : Nat) (f : Image → Image) : (s.setImg b f).dies = s.dies := rfl
@[simp] theorem State.setImg_clusters (s : State) (b : Nat) (f : Image → Image) : (s.setImg b f).clusters = s.clusters := rfl
@[simp] theorem State.setImg_kernels (s : State) (b : Nat) (f : Image → Image) : (s.setImg b f).kernels = s.kernels := rfl
@[simp] theorem State.setImg_cmds (s : State) (b : Nat) (f : Image → Image) : (s.setImg b f).cmds = s.cmds := rfl
@[simp] theorem State.setImg_mem (s : State) (b : Nat) (f : Image → Image) : (s.setImg b f).mem = s.mem := rfl
@[simp] theorem State.setImg_hbm (s : State) (b : Nat) (f : Image → Image) : (s.setImg b f).hbm = s.hbm := rfl
@[simp] theorem State.setImg_coh (s : State) (b : Nat) (f : Image → Image) : (s.setImg b f).coh = s.coh := rfl
@[simp] theorem State.setImg_net (s : State) (b : Nat) (f : Image → Image) : (s.setImg b f).net = s.net := rfl
@[simp] theorem State.setImg_fabric (s : State) (b : Nat) (f : Image → Image) : (s.setImg b f).fabric = s.fabric := rfl
@[simp] theorem State.setImg_cxl (s : State) (b : Nat) (f : Image → Image) : (s.setImg b f).cxl = s.cxl := rfl
@[simp] theorem State.setImg_migr (s : State) (b : Nat) (f : Image → Image) : (s.setImg b f).migr = s.migr := rfl
@[simp] theorem State.setImg_s2inv (s : State) (b : Nat) (f : Image → Image) : (s.setImg b f).s2inv = s.s2inv := rfl
@[simp] theorem State.setImg_samples (s : State) (b : Nat) (f : Image → Image) : (s.setImg b f).samples = s.samples := rfl
@[simp] theorem State.setImg_walks (s : State) (b : Nat) (f : Image → Image) : (s.setImg b f).walks = s.walks := rfl
@[simp] theorem State.setImg_walkCache (s : State) (b : Nat) (f : Image → Image) : (s.setImg b f).walkCache = s.walkCache := rfl
@[simp] theorem State.setImg_posted (s : State) (b : Nat) (f : Image → Image) : (s.setImg b f).posted = s.posted := rfl
@[simp] theorem State.setImg_agenda (s : State) (b : Nat) (f : Image → Image) : (s.setImg b f).agenda = s.agenda := rfl
@[simp] theorem State.setImg_due (s : State) (b : Nat) (f : Image → Image) : (s.setImg b f).due = s.due := rfl
@[simp] theorem State.setImg_focus (s : State) (b : Nat) (f : Image → Image) : (s.setImg b f).focus = s.focus := rfl
@[simp] theorem State.setImg_cur (s : State) (b : Nat) (f : Image → Image) : (s.setImg b f).cur = s.cur := rfl
@[simp] theorem State.setImg_word (s : State) (b : Nat) (f : Image → Image) : (s.setImg b f).word = s.word := rfl
@[simp] theorem State.setImg_nwords (s : State) (b : Nat) (f : Image → Image) : (s.setImg b f).nwords = s.nwords := rfl
@[simp] theorem State.setImg_base (s : State) (b : Nat) (f : Image → Image) : (s.setImg b f).base = s.base := rfl
@[simp] theorem State.setImg_pfx (s : State) (b : Nat) (f : Image → Image) : (s.setImg b f).pfx = s.pfx := rfl
@[simp] theorem State.setImg_quads (s : State) (b : Nat) (f : Image → Image) : (s.setImg b f).quads = s.quads := rfl
@[simp] theorem State.setImg_turn (s : State) (b : Nat) (f : Image → Image) : (s.setImg b f).turn = s.turn := rfl
@[simp] theorem State.setImg_held (s : State) (b : Nat) (f : Image → Image) : (s.setImg b f).held = s.held := rfl
@[simp] theorem State.setImg_free (s : State) (b : Nat) (f : Image → Image) : (s.setImg b f).free = s.free := rfl
@[simp] theorem State.setImg_nextId (s : State) (b : Nat) (f : Image → Image) : (s.setImg b f).nextId = s.nextId := rfl
@[simp] theorem State.setImg_out (s : State) (b : Nat) (f : Image → Image) : (s.setImg b f).out = s.out := rfl

-- ## setWarp

@[simp] theorem State.setWarp_now (s : State) (w : WarpRef) (f : Warp → Warp) : (s.setWarp w f).now = s.now := rfl
@[simp] theorem State.setWarp_boot (s : State) (w : WarpRef) (f : Warp → Warp) : (s.setWarp w f).boot = s.boot := rfl
@[simp] theorem State.setWarp_power (s : State) (w : WarpRef) (f : Warp → Warp) : (s.setWarp w f).power = s.power := rfl
@[simp] theorem State.setWarp_pf (s : State) (w : WarpRef) (f : Warp → Warp) : (s.setWarp w f).pf = s.pf := rfl
@[simp] theorem State.setWarp_vds (s : State) (w : WarpRef) (f : Warp → Warp) : (s.setWarp w f).vds = s.vds := rfl
@[simp] theorem State.setWarp_keySlots (s : State) (w : WarpRef) (f : Warp → Warp) : (s.setWarp w f).keySlots = s.keySlots := rfl
@[simp] theorem State.setWarp_quantum (s : State) (w : WarpRef) (f : Warp → Warp) : (s.setWarp w f).quantum = s.quantum := rfl
@[simp] theorem State.setWarp_quantumNew (s : State) (w : WarpRef) (f : Warp → Warp) : (s.setWarp w f).quantumNew = s.quantumNew := rfl
@[simp] theorem State.setWarp_pool (s : State) (w : WarpRef) (f : Warp → Warp) : (s.setWarp w f).pool = s.pool := rfl
@[simp] theorem State.setWarp_poolNew (s : State) (w : WarpRef) (f : Warp → Warp) : (s.setWarp w f).poolNew = s.poolNew := rfl
@[simp] theorem State.setWarp_dies (s : State) (w : WarpRef) (f : Warp → Warp) : (s.setWarp w f).dies = s.dies := rfl
@[simp] theorem State.setWarp_clusters (s : State) (w : WarpRef) (f : Warp → Warp) : (s.setWarp w f).clusters = s.clusters := rfl
@[simp] theorem State.setWarp_kernels (s : State) (w : WarpRef) (f : Warp → Warp) : (s.setWarp w f).kernels = s.kernels := rfl
@[simp] theorem State.setWarp_cmds (s : State) (w : WarpRef) (f : Warp → Warp) : (s.setWarp w f).cmds = s.cmds := rfl
@[simp] theorem State.setWarp_mem (s : State) (w : WarpRef) (f : Warp → Warp) : (s.setWarp w f).mem = s.mem := rfl
@[simp] theorem State.setWarp_hbm (s : State) (w : WarpRef) (f : Warp → Warp) : (s.setWarp w f).hbm = s.hbm := rfl
@[simp] theorem State.setWarp_coh (s : State) (w : WarpRef) (f : Warp → Warp) : (s.setWarp w f).coh = s.coh := rfl
@[simp] theorem State.setWarp_net (s : State) (w : WarpRef) (f : Warp → Warp) : (s.setWarp w f).net = s.net := rfl
@[simp] theorem State.setWarp_fabric (s : State) (w : WarpRef) (f : Warp → Warp) : (s.setWarp w f).fabric = s.fabric := rfl
@[simp] theorem State.setWarp_cxl (s : State) (w : WarpRef) (f : Warp → Warp) : (s.setWarp w f).cxl = s.cxl := rfl
@[simp] theorem State.setWarp_migr (s : State) (w : WarpRef) (f : Warp → Warp) : (s.setWarp w f).migr = s.migr := rfl
@[simp] theorem State.setWarp_s2inv (s : State) (w : WarpRef) (f : Warp → Warp) : (s.setWarp w f).s2inv = s.s2inv := rfl
@[simp] theorem State.setWarp_samples (s : State) (w : WarpRef) (f : Warp → Warp) : (s.setWarp w f).samples = s.samples := rfl
@[simp] theorem State.setWarp_walks (s : State) (w : WarpRef) (f : Warp → Warp) : (s.setWarp w f).walks = s.walks := rfl
@[simp] theorem State.setWarp_walkCache (s : State) (w : WarpRef) (f : Warp → Warp) : (s.setWarp w f).walkCache = s.walkCache := rfl
@[simp] theorem State.setWarp_posted (s : State) (w : WarpRef) (f : Warp → Warp) : (s.setWarp w f).posted = s.posted := rfl
@[simp] theorem State.setWarp_agenda (s : State) (w : WarpRef) (f : Warp → Warp) : (s.setWarp w f).agenda = s.agenda := rfl
@[simp] theorem State.setWarp_due (s : State) (w : WarpRef) (f : Warp → Warp) : (s.setWarp w f).due = s.due := rfl
@[simp] theorem State.setWarp_focus (s : State) (w : WarpRef) (f : Warp → Warp) : (s.setWarp w f).focus = s.focus := rfl
@[simp] theorem State.setWarp_cur (s : State) (w : WarpRef) (f : Warp → Warp) : (s.setWarp w f).cur = s.cur := rfl
@[simp] theorem State.setWarp_word (s : State) (w : WarpRef) (f : Warp → Warp) : (s.setWarp w f).word = s.word := rfl
@[simp] theorem State.setWarp_nwords (s : State) (w : WarpRef) (f : Warp → Warp) : (s.setWarp w f).nwords = s.nwords := rfl
@[simp] theorem State.setWarp_base (s : State) (w : WarpRef) (f : Warp → Warp) : (s.setWarp w f).base = s.base := rfl
@[simp] theorem State.setWarp_pfx (s : State) (w : WarpRef) (f : Warp → Warp) : (s.setWarp w f).pfx = s.pfx := rfl
@[simp] theorem State.setWarp_quads (s : State) (w : WarpRef) (f : Warp → Warp) : (s.setWarp w f).quads = s.quads := rfl
@[simp] theorem State.setWarp_turn (s : State) (w : WarpRef) (f : Warp → Warp) : (s.setWarp w f).turn = s.turn := rfl
@[simp] theorem State.setWarp_held (s : State) (w : WarpRef) (f : Warp → Warp) : (s.setWarp w f).held = s.held := rfl
@[simp] theorem State.setWarp_free (s : State) (w : WarpRef) (f : Warp → Warp) : (s.setWarp w f).free = s.free := rfl
@[simp] theorem State.setWarp_nextId (s : State) (w : WarpRef) (f : Warp → Warp) : (s.setWarp w f).nextId = s.nextId := rfl
@[simp] theorem State.setWarp_out (s : State) (w : WarpRef) (f : Warp → Warp) : (s.setWarp w f).out = s.out := rfl

-- ## setFrag

@[simp] theorem State.setFrag_now (s : State) (w : WarpRef) (i : Nat) (f : Frag → Frag) : (s.setFrag w i f).now = s.now := rfl
@[simp] theorem State.setFrag_boot (s : State) (w : WarpRef) (i : Nat) (f : Frag → Frag) : (s.setFrag w i f).boot = s.boot := rfl
@[simp] theorem State.setFrag_power (s : State) (w : WarpRef) (i : Nat) (f : Frag → Frag) : (s.setFrag w i f).power = s.power := rfl
@[simp] theorem State.setFrag_pf (s : State) (w : WarpRef) (i : Nat) (f : Frag → Frag) : (s.setFrag w i f).pf = s.pf := rfl
@[simp] theorem State.setFrag_vds (s : State) (w : WarpRef) (i : Nat) (f : Frag → Frag) : (s.setFrag w i f).vds = s.vds := rfl
@[simp] theorem State.setFrag_keySlots (s : State) (w : WarpRef) (i : Nat) (f : Frag → Frag) : (s.setFrag w i f).keySlots = s.keySlots := rfl
@[simp] theorem State.setFrag_quantum (s : State) (w : WarpRef) (i : Nat) (f : Frag → Frag) : (s.setFrag w i f).quantum = s.quantum := rfl
@[simp] theorem State.setFrag_quantumNew (s : State) (w : WarpRef) (i : Nat) (f : Frag → Frag) : (s.setFrag w i f).quantumNew = s.quantumNew := rfl
@[simp] theorem State.setFrag_pool (s : State) (w : WarpRef) (i : Nat) (f : Frag → Frag) : (s.setFrag w i f).pool = s.pool := rfl
@[simp] theorem State.setFrag_poolNew (s : State) (w : WarpRef) (i : Nat) (f : Frag → Frag) : (s.setFrag w i f).poolNew = s.poolNew := rfl
@[simp] theorem State.setFrag_dies (s : State) (w : WarpRef) (i : Nat) (f : Frag → Frag) : (s.setFrag w i f).dies = s.dies := rfl
@[simp] theorem State.setFrag_clusters (s : State) (w : WarpRef) (i : Nat) (f : Frag → Frag) : (s.setFrag w i f).clusters = s.clusters := rfl
@[simp] theorem State.setFrag_kernels (s : State) (w : WarpRef) (i : Nat) (f : Frag → Frag) : (s.setFrag w i f).kernels = s.kernels := rfl
@[simp] theorem State.setFrag_cmds (s : State) (w : WarpRef) (i : Nat) (f : Frag → Frag) : (s.setFrag w i f).cmds = s.cmds := rfl
@[simp] theorem State.setFrag_mem (s : State) (w : WarpRef) (i : Nat) (f : Frag → Frag) : (s.setFrag w i f).mem = s.mem := rfl
@[simp] theorem State.setFrag_hbm (s : State) (w : WarpRef) (i : Nat) (f : Frag → Frag) : (s.setFrag w i f).hbm = s.hbm := rfl
@[simp] theorem State.setFrag_coh (s : State) (w : WarpRef) (i : Nat) (f : Frag → Frag) : (s.setFrag w i f).coh = s.coh := rfl
@[simp] theorem State.setFrag_net (s : State) (w : WarpRef) (i : Nat) (f : Frag → Frag) : (s.setFrag w i f).net = s.net := rfl
@[simp] theorem State.setFrag_fabric (s : State) (w : WarpRef) (i : Nat) (f : Frag → Frag) : (s.setFrag w i f).fabric = s.fabric := rfl
@[simp] theorem State.setFrag_cxl (s : State) (w : WarpRef) (i : Nat) (f : Frag → Frag) : (s.setFrag w i f).cxl = s.cxl := rfl
@[simp] theorem State.setFrag_migr (s : State) (w : WarpRef) (i : Nat) (f : Frag → Frag) : (s.setFrag w i f).migr = s.migr := rfl
@[simp] theorem State.setFrag_s2inv (s : State) (w : WarpRef) (i : Nat) (f : Frag → Frag) : (s.setFrag w i f).s2inv = s.s2inv := rfl
@[simp] theorem State.setFrag_samples (s : State) (w : WarpRef) (i : Nat) (f : Frag → Frag) : (s.setFrag w i f).samples = s.samples := rfl
@[simp] theorem State.setFrag_walks (s : State) (w : WarpRef) (i : Nat) (f : Frag → Frag) : (s.setFrag w i f).walks = s.walks := rfl
@[simp] theorem State.setFrag_walkCache (s : State) (w : WarpRef) (i : Nat) (f : Frag → Frag) : (s.setFrag w i f).walkCache = s.walkCache := rfl
@[simp] theorem State.setFrag_posted (s : State) (w : WarpRef) (i : Nat) (f : Frag → Frag) : (s.setFrag w i f).posted = s.posted := rfl
@[simp] theorem State.setFrag_agenda (s : State) (w : WarpRef) (i : Nat) (f : Frag → Frag) : (s.setFrag w i f).agenda = s.agenda := rfl
@[simp] theorem State.setFrag_due (s : State) (w : WarpRef) (i : Nat) (f : Frag → Frag) : (s.setFrag w i f).due = s.due := rfl
@[simp] theorem State.setFrag_focus (s : State) (w : WarpRef) (i : Nat) (f : Frag → Frag) : (s.setFrag w i f).focus = s.focus := rfl
@[simp] theorem State.setFrag_cur (s : State) (w : WarpRef) (i : Nat) (f : Frag → Frag) : (s.setFrag w i f).cur = s.cur := rfl
@[simp] theorem State.setFrag_word (s : State) (w : WarpRef) (i : Nat) (f : Frag → Frag) : (s.setFrag w i f).word = s.word := rfl
@[simp] theorem State.setFrag_nwords (s : State) (w : WarpRef) (i : Nat) (f : Frag → Frag) : (s.setFrag w i f).nwords = s.nwords := rfl
@[simp] theorem State.setFrag_base (s : State) (w : WarpRef) (i : Nat) (f : Frag → Frag) : (s.setFrag w i f).base = s.base := rfl
@[simp] theorem State.setFrag_pfx (s : State) (w : WarpRef) (i : Nat) (f : Frag → Frag) : (s.setFrag w i f).pfx = s.pfx := rfl
@[simp] theorem State.setFrag_quads (s : State) (w : WarpRef) (i : Nat) (f : Frag → Frag) : (s.setFrag w i f).quads = s.quads := rfl
@[simp] theorem State.setFrag_turn (s : State) (w : WarpRef) (i : Nat) (f : Frag → Frag) : (s.setFrag w i f).turn = s.turn := rfl
@[simp] theorem State.setFrag_held (s : State) (w : WarpRef) (i : Nat) (f : Frag → Frag) : (s.setFrag w i f).held = s.held := rfl
@[simp] theorem State.setFrag_free (s : State) (w : WarpRef) (i : Nat) (f : Frag → Frag) : (s.setFrag w i f).free = s.free := rfl
@[simp] theorem State.setFrag_nextId (s : State) (w : WarpRef) (i : Nat) (f : Frag → Frag) : (s.setFrag w i f).nextId = s.nextId := rfl
@[simp] theorem State.setFrag_out (s : State) (w : WarpRef) (i : Nat) (f : Frag → Frag) : (s.setFrag w i f).out = s.out := rfl

-- ## emit

@[simp] theorem State.emit_now (s : State) (o : Output) : (s.emit o).now = s.now := rfl
@[simp] theorem State.emit_boot (s : State) (o : Output) : (s.emit o).boot = s.boot := rfl
@[simp] theorem State.emit_power (s : State) (o : Output) : (s.emit o).power = s.power := rfl
@[simp] theorem State.emit_pf (s : State) (o : Output) : (s.emit o).pf = s.pf := rfl
@[simp] theorem State.emit_vds (s : State) (o : Output) : (s.emit o).vds = s.vds := rfl
@[simp] theorem State.emit_keySlots (s : State) (o : Output) : (s.emit o).keySlots = s.keySlots := rfl
@[simp] theorem State.emit_quantum (s : State) (o : Output) : (s.emit o).quantum = s.quantum := rfl
@[simp] theorem State.emit_quantumNew (s : State) (o : Output) : (s.emit o).quantumNew = s.quantumNew := rfl
@[simp] theorem State.emit_pool (s : State) (o : Output) : (s.emit o).pool = s.pool := rfl
@[simp] theorem State.emit_poolNew (s : State) (o : Output) : (s.emit o).poolNew = s.poolNew := rfl
@[simp] theorem State.emit_dies (s : State) (o : Output) : (s.emit o).dies = s.dies := rfl
@[simp] theorem State.emit_clusters (s : State) (o : Output) : (s.emit o).clusters = s.clusters := rfl
@[simp] theorem State.emit_kernels (s : State) (o : Output) : (s.emit o).kernels = s.kernels := rfl
@[simp] theorem State.emit_blocks (s : State) (o : Output) : (s.emit o).blocks = s.blocks := rfl
@[simp] theorem State.emit_cmds (s : State) (o : Output) : (s.emit o).cmds = s.cmds := rfl
@[simp] theorem State.emit_mem (s : State) (o : Output) : (s.emit o).mem = s.mem := rfl
@[simp] theorem State.emit_hbm (s : State) (o : Output) : (s.emit o).hbm = s.hbm := rfl
@[simp] theorem State.emit_coh (s : State) (o : Output) : (s.emit o).coh = s.coh := rfl
@[simp] theorem State.emit_net (s : State) (o : Output) : (s.emit o).net = s.net := rfl
@[simp] theorem State.emit_fabric (s : State) (o : Output) : (s.emit o).fabric = s.fabric := rfl
@[simp] theorem State.emit_cxl (s : State) (o : Output) : (s.emit o).cxl = s.cxl := rfl
@[simp] theorem State.emit_migr (s : State) (o : Output) : (s.emit o).migr = s.migr := rfl
@[simp] theorem State.emit_s2inv (s : State) (o : Output) : (s.emit o).s2inv = s.s2inv := rfl
@[simp] theorem State.emit_samples (s : State) (o : Output) : (s.emit o).samples = s.samples := rfl
@[simp] theorem State.emit_walks (s : State) (o : Output) : (s.emit o).walks = s.walks := rfl
@[simp] theorem State.emit_walkCache (s : State) (o : Output) : (s.emit o).walkCache = s.walkCache := rfl
@[simp] theorem State.emit_posted (s : State) (o : Output) : (s.emit o).posted = s.posted := rfl
@[simp] theorem State.emit_agenda (s : State) (o : Output) : (s.emit o).agenda = s.agenda := rfl
@[simp] theorem State.emit_due (s : State) (o : Output) : (s.emit o).due = s.due := rfl
@[simp] theorem State.emit_focus (s : State) (o : Output) : (s.emit o).focus = s.focus := rfl
@[simp] theorem State.emit_cur (s : State) (o : Output) : (s.emit o).cur = s.cur := rfl
@[simp] theorem State.emit_word (s : State) (o : Output) : (s.emit o).word = s.word := rfl
@[simp] theorem State.emit_nwords (s : State) (o : Output) : (s.emit o).nwords = s.nwords := rfl
@[simp] theorem State.emit_base (s : State) (o : Output) : (s.emit o).base = s.base := rfl
@[simp] theorem State.emit_pfx (s : State) (o : Output) : (s.emit o).pfx = s.pfx := rfl
@[simp] theorem State.emit_quads (s : State) (o : Output) : (s.emit o).quads = s.quads := rfl
@[simp] theorem State.emit_turn (s : State) (o : Output) : (s.emit o).turn = s.turn := rfl
@[simp] theorem State.emit_held (s : State) (o : Output) : (s.emit o).held = s.held := rfl
@[simp] theorem State.emit_free (s : State) (o : Output) : (s.emit o).free = s.free := rfl
@[simp] theorem State.emit_nextId (s : State) (o : Output) : (s.emit o).nextId = s.nextId := rfl

-- ## setQueue

@[simp] theorem State.setQueue_now (s : State) (v q : Nat) (f : Queue → Queue) : (s.setQueue v q f).now = s.now := rfl
@[simp] theorem State.setQueue_boot (s : State) (v q : Nat) (f : Queue → Queue) : (s.setQueue v q f).boot = s.boot := rfl
@[simp] theorem State.setQueue_power (s : State) (v q : Nat) (f : Queue → Queue) : (s.setQueue v q f).power = s.power := rfl
@[simp] theorem State.setQueue_pf (s : State) (v q : Nat) (f : Queue → Queue) : (s.setQueue v q f).pf = s.pf := rfl
@[simp] theorem State.setQueue_keySlots (s : State) (v q : Nat) (f : Queue → Queue) : (s.setQueue v q f).keySlots = s.keySlots := rfl
@[simp] theorem State.setQueue_quantum (s : State) (v q : Nat) (f : Queue → Queue) : (s.setQueue v q f).quantum = s.quantum := rfl
@[simp] theorem State.setQueue_quantumNew (s : State) (v q : Nat) (f : Queue → Queue) : (s.setQueue v q f).quantumNew = s.quantumNew := rfl
@[simp] theorem State.setQueue_pool (s : State) (v q : Nat) (f : Queue → Queue) : (s.setQueue v q f).pool = s.pool := rfl
@[simp] theorem State.setQueue_poolNew (s : State) (v q : Nat) (f : Queue → Queue) : (s.setQueue v q f).poolNew = s.poolNew := rfl
@[simp] theorem State.setQueue_dies (s : State) (v q : Nat) (f : Queue → Queue) : (s.setQueue v q f).dies = s.dies := rfl
@[simp] theorem State.setQueue_clusters (s : State) (v q : Nat) (f : Queue → Queue) : (s.setQueue v q f).clusters = s.clusters := rfl
@[simp] theorem State.setQueue_kernels (s : State) (v q : Nat) (f : Queue → Queue) : (s.setQueue v q f).kernels = s.kernels := rfl
@[simp] theorem State.setQueue_blocks (s : State) (v q : Nat) (f : Queue → Queue) : (s.setQueue v q f).blocks = s.blocks := rfl
@[simp] theorem State.setQueue_cmds (s : State) (v q : Nat) (f : Queue → Queue) : (s.setQueue v q f).cmds = s.cmds := rfl
@[simp] theorem State.setQueue_mem (s : State) (v q : Nat) (f : Queue → Queue) : (s.setQueue v q f).mem = s.mem := rfl
@[simp] theorem State.setQueue_hbm (s : State) (v q : Nat) (f : Queue → Queue) : (s.setQueue v q f).hbm = s.hbm := rfl
@[simp] theorem State.setQueue_coh (s : State) (v q : Nat) (f : Queue → Queue) : (s.setQueue v q f).coh = s.coh := rfl
@[simp] theorem State.setQueue_net (s : State) (v q : Nat) (f : Queue → Queue) : (s.setQueue v q f).net = s.net := rfl
@[simp] theorem State.setQueue_fabric (s : State) (v q : Nat) (f : Queue → Queue) : (s.setQueue v q f).fabric = s.fabric := rfl
@[simp] theorem State.setQueue_cxl (s : State) (v q : Nat) (f : Queue → Queue) : (s.setQueue v q f).cxl = s.cxl := rfl
@[simp] theorem State.setQueue_migr (s : State) (v q : Nat) (f : Queue → Queue) : (s.setQueue v q f).migr = s.migr := rfl
@[simp] theorem State.setQueue_s2inv (s : State) (v q : Nat) (f : Queue → Queue) : (s.setQueue v q f).s2inv = s.s2inv := rfl
@[simp] theorem State.setQueue_samples (s : State) (v q : Nat) (f : Queue → Queue) : (s.setQueue v q f).samples = s.samples := rfl
@[simp] theorem State.setQueue_walks (s : State) (v q : Nat) (f : Queue → Queue) : (s.setQueue v q f).walks = s.walks := rfl
@[simp] theorem State.setQueue_walkCache (s : State) (v q : Nat) (f : Queue → Queue) : (s.setQueue v q f).walkCache = s.walkCache := rfl
@[simp] theorem State.setQueue_posted (s : State) (v q : Nat) (f : Queue → Queue) : (s.setQueue v q f).posted = s.posted := rfl
@[simp] theorem State.setQueue_agenda (s : State) (v q : Nat) (f : Queue → Queue) : (s.setQueue v q f).agenda = s.agenda := rfl
@[simp] theorem State.setQueue_due (s : State) (v q : Nat) (f : Queue → Queue) : (s.setQueue v q f).due = s.due := rfl
@[simp] theorem State.setQueue_focus (s : State) (v q : Nat) (f : Queue → Queue) : (s.setQueue v q f).focus = s.focus := rfl
@[simp] theorem State.setQueue_cur (s : State) (v q : Nat) (f : Queue → Queue) : (s.setQueue v q f).cur = s.cur := rfl
@[simp] theorem State.setQueue_word (s : State) (v q : Nat) (f : Queue → Queue) : (s.setQueue v q f).word = s.word := rfl
@[simp] theorem State.setQueue_nwords (s : State) (v q : Nat) (f : Queue → Queue) : (s.setQueue v q f).nwords = s.nwords := rfl
@[simp] theorem State.setQueue_base (s : State) (v q : Nat) (f : Queue → Queue) : (s.setQueue v q f).base = s.base := rfl
@[simp] theorem State.setQueue_pfx (s : State) (v q : Nat) (f : Queue → Queue) : (s.setQueue v q f).pfx = s.pfx := rfl
@[simp] theorem State.setQueue_quads (s : State) (v q : Nat) (f : Queue → Queue) : (s.setQueue v q f).quads = s.quads := rfl
@[simp] theorem State.setQueue_turn (s : State) (v q : Nat) (f : Queue → Queue) : (s.setQueue v q f).turn = s.turn := rfl
@[simp] theorem State.setQueue_held (s : State) (v q : Nat) (f : Queue → Queue) : (s.setQueue v q f).held = s.held := rfl
@[simp] theorem State.setQueue_free (s : State) (v q : Nat) (f : Queue → Queue) : (s.setQueue v q f).free = s.free := rfl
@[simp] theorem State.setQueue_nextId (s : State) (v q : Nat) (f : Queue → Queue) : (s.setQueue v q f).nextId = s.nextId := rfl
@[simp] theorem State.setQueue_out (s : State) (v q : Nat) (f : Queue → Queue) : (s.setQueue v q f).out = s.out := rfl

end Sys2Proof.Machine
end

