-- ==== Sys2Proof/Laws/Ops.lean ====
section
/-!
SUPPORT. The shared operations of chapter 12's frame, once each: look-ups after updates, what the frame of an instruction
comes to, operand checks that pass, and that a change of fragments leaves a warp's registers alone.
-/
namespace Sys2Proof.Machine

-- ## Look-ups after updates

@[simp] theorem State.blk_setBlk_same (s : State) (b : Nat) (f : Block → Block) : (s.setBlk b f).blk b = (s.blk b).map f :=
  find_adj_same s.blocks b f
theorem State.blk_setBlk_other (s : State) (b n : Nat) (f : Block → Block) (h : n ≠ b) : (s.setBlk b f).blk n = s.blk n :=
  find_adj_other s.blocks b n f h
@[simp] theorem State.kern_setKern_same (s : State) (k : Nat) (f : Kernel → Kernel) :
    (s.setKern k f).kern k = (s.kern k).map f := find_adj_same s.kernels k f
theorem State.kern_setKern_other (s : State) (k n : Nat) (f : Kernel → Kernel) (h : n ≠ k) : (s.setKern k f).kern n = s.kern n :=
  find_adj_other s.kernels k n f h
@[simp] theorem State.vd_setVd_same (s : State) (v : Nat) (f : Vd → Vd) : (s.setVd v f).vd v = f (s.vd v) :=
  look_upd_same s.vds v _ f
theorem State.vd_setVd_other (s : State) (v n : Nat) (f : Vd → Vd) (h : n ≠ v) : (s.setVd v f).vd n = s.vd n :=
  look_upd_other s.vds v n _ f h
@[simp] theorem State.cl_setCl_same (s : State) (g : Nat) (f : Cluster → Cluster) : (s.setCl g f).cl g = f (s.cl g) :=
  look_upd_same s.clusters g _ f
theorem State.cl_setCl_other (s : State) (g n : Nat) (f : Cluster → Cluster) (h : n ≠ g) : (s.setCl g f).cl n = s.cl n :=
  look_upd_other s.clusters g n _ f h
@[simp] theorem State.die_setDie_same (s : State) (d : Nat) (f : Die → Die) : (s.setDie d f).die d = f (s.die d) :=
  look_upd_same s.dies d _ f
theorem State.die_setDie_other (s : State) (d n : Nat) (f : Die → Die) (h : n ≠ d) : (s.setDie d f).die n = s.die n :=
  look_upd_other s.dies d n _ f h
@[simp] theorem State.queue_setQueue_same (s : State) (v q : Nat) (f : Queue → Queue) :
    (s.setQueue v q f).queue v q = f (s.queue v q) := by simp [State.setQueue, State.queue]

@[simp] theorem State.blk_setImg_same (s : State) (b : Nat) (f : Image → Image) :
    (s.setImg b f).blk b = (s.blk b).map fun x => { x with img := f x.img } := State.blk_setBlk_same s b _

@[simp] theorem State.warp_setWarp_same (s : State) (w : WarpRef) (f : Warp → Warp) :
    (s.setWarp w f).warp w = (s.warp w).map f := by
  simp only [State.warp, State.setWarp, State.blk_setImg_same]
  cases s.blk w.blk <;> simp

theorem State.warp_setWarp_other (s : State) (w w' : WarpRef) (f : Warp → Warp) (h : w' ≠ w) :
    (s.setWarp w f).warp w' = s.warp w' := by
  simp only [State.warp, State.setWarp, State.setImg]
  by_cases hb : w'.blk = w.blk
  · rw [hb, State.blk_setBlk_same]
    have hi : w'.wi ≠ w.wi := fun hi => h (by cases w; cases w'; simp_all)
    cases s.blk w.blk <;> simp [getElem?_modAt_other _ _ _ _ hi]
  · rw [State.blk_setBlk_other _ _ _ _ hb]

@[simp] theorem adj_adj {α : Type} (m : NMap α) (k : Nat) (f g : α → α) : adj (adj m k f) k g = adj m k fun a => g (f a) := by
  induction m with
  | nil => rfl
  | cons e m ih =>
    obtain ⟨j, v⟩ := e
    by_cases h : j = k <;> simp [adj, h, ih]

@[simp] theorem modAt_modAt {α : Type} (l : List α) (i : Nat) (f g : α → α) : modAt (modAt l i f) i g = modAt l i fun a => g (f a) := by
  induction l generalizing i with
  | nil => rfl
  | cons x l ih => cases i <;> simp [modAt, ih]

@[simp] theorem State.setWarp_setWarp (s : State) (w : WarpRef) (f g : Warp → Warp) :
    (s.setWarp w f).setWarp w g = s.setWarp w fun x => g (f x) := by
  simp [State.setWarp, State.setImg, State.setBlk]

theorem adj_congr {α : Type} (m : NMap α) (k : Nat) (f g : α → α) (h : ∀ a, find m k = some a → f a = g a) :
    adj m k f = adj m k g := by
  induction m with
  | nil => rfl
  | cons e m ih =>
    obtain ⟨j, v⟩ := e
    by_cases hj : j = k
    · simp [adj, hj, h v (by simp [find, hj])]
    · simp only [adj, if_neg hj, ih fun a ha => h a (by simpa [find, hj] using ha)]

theorem modAt_congr {α : Type} (l : List α) (i : Nat) (f g : α → α) (h : ∀ a, l[i]? = some a → f a = g a) :
    modAt l i f = modAt l i g := by
  induction l generalizing i with
  | nil => rfl
  | cons x l ih => cases i with
    | zero => simp [modAt, h x rfl]
    | succ i => simp only [modAt, ih i fun a ha => h a (by simpa using ha)]

/-- A change of a warp depends only on what the change makes of it. -/
theorem State.setWarp_congr (s : State) (w : WarpRef) (f g : Warp → Warp) (h : ∀ x, s.warp w = some x → f x = g x) :
    s.setWarp w f = s.setWarp w g := by
  unfold State.setWarp State.setImg State.setBlk
  rw [adj_congr]
  intro b hb
  have hw : ∀ a, b.img.warps[w.wi]? = some a → f a = g a := fun a ha => h a (by
    simp only [State.warp, State.blk, hb, Option.bind_some, ha])
  simp only [modAt_congr _ _ f g hw]

theorem State.setWarp_const (s : State) (w : WarpRef) (f : Warp → Warp) (x : Warp) (h : s.warp w = some x) :
    s.setWarp w f = s.setWarp w fun _ => f x :=
  s.setWarp_congr w _ _ fun y hy => by rw [h] at hy; cases hy; rfl

theorem adj_self {α : Type} (m : NMap α) (k : Nat) (f : α → α) (h : ∀ a, find m k = some a → f a = a) : adj m k f = m := by
  induction m with
  | nil => rfl
  | cons e m ih =>
    obtain ⟨j, v⟩ := e
    by_cases hj : j = k
    · simp [adj, hj, h v (by simp [find, hj])]
    · simp only [adj, if_neg hj, ih fun a ha => h a (by simpa [find, hj] using ha)]

theorem modAt_self {α : Type} (l : List α) (i : Nat) (f : α → α) (h : ∀ a, l[i]? = some a → f a = a) : modAt l i f = l := by
  induction l generalizing i with
  | nil => rfl
  | cons x l ih => cases i with
    | zero => simp [modAt, h x rfl]
    | succ i => simp only [modAt, ih i fun a ha => h a (by simpa using ha)]

/-- A change that makes nothing of a warp is none. -/
theorem State.setWarp_self (s : State) (w : WarpRef) (x : Warp) (h : s.warp w = some x) : (s.setWarp w fun _ => x) = s := by
  unfold State.setWarp State.setImg State.setBlk
  rw [adj_self]
  intro b hb
  have hw : ∀ a, b.img.warps[w.wi]? = some a → x = a := fun a ha => by
    simp only [State.warp, State.blk, hb, Option.bind_some, ha] at h
    exact (Option.some.inj h).symm
  show { b with img := { b.img with warps := modAt b.img.warps w.wi fun _ => x } } = b
  rw [modAt_self _ _ _ hw]

@[simp] theorem State.mem_read_setWarp (s : State) (w : WarpRef) (f : Warp → Warp) (a : Nat) :
    (s.setWarp w f).mem.read a = s.mem.read a := rfl

-- ## The issuing warp and the frame of an instruction

/-- What the issuing warp's context holds. -/
theorem State.ctx_some {s : State} {c : Ctx} (h : s.ctx = some c) :
    c.s = s ∧ s.cur = some (c.w, c.f.id) ∧ s.warp c.w = some c.x ∧ c.x.frag c.f.id = some c.f ∧ s.blk c.w.blk = some c.b ∧
      s.kern c.b.kernel = some c.k := by
  unfold State.ctx ctxOf at h
  obtain ⟨⟨w, i⟩, hc, h⟩ := Option.bind_eq_some_iff.1 h
  obtain ⟨b, hb, h⟩ := Option.bind_eq_some_iff.1 h
  obtain ⟨x, hx, h⟩ := Option.bind_eq_some_iff.1 h
  obtain ⟨f, hf, h⟩ := Option.bind_eq_some_iff.1 h
  obtain ⟨k, hk, rfl⟩ := Option.map_eq_some_iff.1 h
  have hi : f.id = i := by simpa using List.find?_some hf
  subst hi
  exact ⟨rfl, hc, by simp only [State.warp, hb, Option.bind_some, hx], hf, hb, hk⟩

theorem runInstr_ctx {s : State} {c : Ctx} (h : s.ctx = some c) (f : Ctx → Res) : runInstr s f = .next (settle c (f c)) := by
  simp [runInstr, h]
theorem runInstr_none {s : State} (h : s.ctx = none) (f : Ctx → Res) : runInstr s f = .fault .noWarp := by
  simp [runInstr, h]
theorem runDevice_some {s t : State} {f : State → Option State} (h : f s = some t) : runDevice s f = .next t := by
  simp [runDevice, h]
theorem runDevice_none {s : State} {f : State → Option State} (h : f s = none) : runDevice s f = .next s := by
  simp [runDevice, h]

/-- A Billek instruction never refuses, and faults only where no warp issues it. -/
theorem runInstr_cases (s : State) (f : Ctx → Res) :
    (∃ c, s.ctx = some c ∧ runInstr s f = .next (settle c (f c))) ∨ (s.ctx = none ∧ runInstr s f = .fault .noWarp) := by
  cases h : s.ctx with
  | none => exact .inr ⟨rfl, runInstr_none h f⟩
  | some c => exact .inl ⟨c, rfl, runInstr_ctx h f⟩

theorem checkRange_ok (c : Ctx) (os : List Opnd) (f : Res) (h : badOpnd c.x.vregs.length os = none) : checkRange c os f = f := by
  simp [checkRange, h]
theorem checkReady_ok (c : Ctx) (os : List Opnd) (f : Res) (hp : ∀ r ∈ os.flatMap Opnd.regs, r ∉ c.x.pending)
    (hf : flagFault c.x os = none) (cls : Option Nat := none) : checkReady c os f cls = f := by
  have : ((os.flatMap Opnd.regs).any fun r => c.x.pending.contains r) = false := by
    simp only [List.any_eq_false, List.contains_iff_mem]
    exact fun r hr => hp r hr
  unfold checkReady
  rw [this, hf]
  rfl

/-- A guarded instruction whose guard fails completes as one that does nothing (R304). -/
theorem guarded_off (c : Ctx) (os : List Opnd) (f : Res) (h : badOpnd c.x.vregs.length os = none) (hg : c.guard = false) :
    guarded c os f = .done c.s := by
  simp [guarded, checkRange, h, hg]
theorem guarded_on (c : Ctx) (os : List Opnd) (f : Res) (h : badOpnd c.x.vregs.length os = none) (hg : c.guard = true)
    (hp : ∀ r ∈ os.flatMap Opnd.regs, r ∉ c.x.pending) (hf : flagFault c.x os = none) (cls : Option Nat := none) :
    guarded c os f cls = f := by
  simp [guarded, checkRange, h, hg, checkReady_ok c os f hp hf cls]

-- ## Changes of a warp's fragments alone

theorem Warp.setFrag_only (x : Warp) (i : Nat) (g : Frag → Frag) : x.setFrag i g = { x with frags := (x.setFrag i g).frags } := rfl
theorem Warp.countIssue_only (x : Warp) (i : Nat) : x.countIssue i = { x with frags := (x.countIssue i).frags } := rfl
theorem Warp.unspill_only (x : Warp) : { x.unspill with frags := x.frags } = x := by
  unfold Warp.unspill; split <;> rfl

theorem Warp.joinOnce_only (x y : Warp) (h : x.joinOnce = some y) : { y with frags := x.frags } = x := by
  simp only [Warp.joinOnce] at h
  split at h
  · cases h
  · cases h
    rfl

theorem Warp.joinAll_only (n : Nat) (x : Warp) : { Warp.joinAll n x with frags := x.frags } = x := by
  induction n generalizing x with
  | zero => rfl
  | succ n ih =>
    unfold Warp.joinAll
    split
    · have h1 := congrArg (fun y : Warp => { y with frags := x.frags }) (ih ‹Warp›)
      exact h1.trans (Warp.joinOnce_only x _ ‹_›)
    · rfl

theorem Warp.arrive_keeps (x : Warp) (i : Nat) : { x.arrive i with frags := x.frags } = x := by
  simp only [Warp.arrive]
  split
  · rfl
  · split
    · exact (congrArg (fun y : Warp => { y with frags := x.frags }) (Warp.joinAll_only _ _)).trans rfl
    · rfl

/-- Arriving at a PC changes only fragments. -/
theorem Warp.arrive_only (x : Warp) (i : Nat) : x.arrive i = { x with frags := (x.arrive i).frags } :=
  (congrArg (fun y : Warp => { y with frags := (x.arrive i).frags }) (Warp.arrive_keeps x i))
/-- The instruction waited behind counts, and nothing else of the warp's registers changes. -/
theorem Warp.pay_keeps (x : Warp) (i : Nat) : { x.pay i with rwc := x.rwc, frags := x.frags } = x := by
  unfold Warp.pay; split <;> rfl
theorem Warp.pay_rwc (x : Warp) (i : Nat) :
    (x.pay i).rwc = if (x.frag i).any fun f => f.owes then x.rwc + 1#64 else x.rwc := by
  unfold Warp.pay; split <;> rfl
theorem Warp.wake_keeps (x : Warp) (i : Nat) : { x.wake i with rwc := x.rwc, frags := x.frags } = x :=
  (congrArg (fun y : Warp => { y with rwc := x.rwc, frags := x.frags })
    (Warp.arrive_keeps ((x.pay i).setFrag i fun f => { f with wait := .ready }) i)).trans (x.pay_keeps i)
/-- Waking changes fragments, and counts the instruction that was waited behind (R256). -/
theorem Warp.wake_only (x : Warp) (i : Nat) : x.wake i = { x with rwc := (x.wake i).rwc, frags := (x.wake i).frags } :=
  congrArg (fun y : Warp => { y with rwc := (x.wake i).rwc, frags := (x.wake i).frags }) (x.wake_keeps i)

-- ## Completion

/-- The issuing warp after an instruction that left it as `x` and goes on at `pc`: the instruction is counted, and whatever
reconvergence is due happens. -/
def Ctx.after (c : Ctx) (now : Nat) (x : Warp) (pc : DWord) (g : Frag → Frag) : Warp :=
  (({ x with rwc := x.rwc + 1#64, passStop := false }.countIssue c.f.id).setFrag c.f.id fun f =>
    g { f with lastRan := now, pc := pc }).arrive c.f.id

theorem retireTo_eq (c : Ctx) (s : State) (pc : DWord) (g : Frag → Frag) :
    retireTo c s pc g = s.setWarp c.w fun x => c.after s.now x pc g := by
  unfold retireTo retire leave
  rw [State.setWarp_setWarp, State.setWarp_setWarp]
  rfl

/-- An instruction that parks behind itself changes its warp alone, and does not count yet (R256). -/
theorem parkBehind_eq (c : Ctx) (s : State) (w : Wait) :
    parkBehind c s w = s.setWarp c.w fun x => ({ x with passStop := false }.countIssue c.f.id).setFrag c.f.id fun f =>
      { f.park w with lastRan := s.now, pc := c.nextPc, owes := true } := rfl

/-- An instruction that completes with its warp changed by `g`: nothing but the warp is changed. -/
theorem settle_done_warp {s : State} {c : Ctx} (h : s.ctx = some c) (g : Warp → Warp) :
    settle c (.done (c.s.setWarp c.w g)) = s.setWarp c.w fun _ => c.after s.now (g c.x) c.nextPc id := by
  obtain ⟨hs, -, hw, -⟩ := State.ctx_some h
  rw [hs]
  show retireTo c (s.setWarp c.w g) c.nextPc id = _
  rw [retireTo_eq, State.setWarp_setWarp, s.setWarp_const _ _ _ hw]
  rfl

theorem settle_done_same {s : State} {c : Ctx} (h : s.ctx = some c) :
    settle c (.done c.s) = s.setWarp c.w fun _ => c.after s.now c.x c.nextPc id := by
  obtain ⟨hs, -, hw, -⟩ := State.ctx_some h
  rw [hs]
  show retireTo c s c.nextPc id = _
  rw [retireTo_eq, s.setWarp_const _ _ _ hw]

theorem settle_goto_warp {s : State} {c : Ctx} (h : s.ctx = some c) (g : Warp → Warp) (pc : DWord) (sp : Bool) :
    settle c (.goto (c.s.setWarp c.w g) pc sp) =
      s.setWarp c.w fun _ => c.after s.now (g c.x) pc fun f => if sp then f.spin c.basePc else f := by
  obtain ⟨hs, -, hw, -⟩ := State.ctx_some h
  rw [hs, settle, retireTo_eq, State.setWarp_setWarp, s.setWarp_const _ _ _ hw]
  rfl

/-- What retirement leaves of the warp: all but fragments, the instruction count and the passed stop. -/
theorem Ctx.after_only (c : Ctx) (now : Nat) (x : Warp) (pc : DWord) (g : Frag → Frag) :
    c.after now x pc g = { x with rwc := x.rwc + 1#64, passStop := false, frags := (c.after now x pc g).frags } := by
  unfold Ctx.after
  rw [Warp.arrive_only, Warp.setFrag_only, Warp.countIssue_only]

theorem modFirst_find_same {α : Type} (p : α → Bool) (f : α → α) (hf : ∀ a, p (f a) = p a) (l : List α) :
    (modFirst p f l).find? p = (l.find? p).map f := by
  induction l with
  | nil => rfl
  | cons a l ih =>
    by_cases h : p a = true
    · simp [modFirst, h, hf]
    · simp [modFirst, h, ih]

theorem mem_modFirst {α : Type} (p : α → Bool) (f : α → α) (l : List α) (a : α) (h : a ∈ modFirst p f l) :
    a ∈ l ∨ ∃ b ∈ l, a = f b := by
  induction l with
  | nil => exact .inl h
  | cons x l ih =>
    unfold modFirst at h
    split at h
    · rcases List.mem_cons.1 h with rfl | h
      · exact .inr ⟨x, List.mem_cons_self, rfl⟩
      · exact .inl (List.mem_cons_of_mem _ h)
    · rcases List.mem_cons.1 h with rfl | h
      · exact .inl List.mem_cons_self
      · rcases ih h with h | ⟨b, hb, rfl⟩
        · exact .inl (List.mem_cons_of_mem _ h)
        · exact .inr ⟨b, List.mem_cons_of_mem _ hb, rfl⟩

/-- What the issue of an instruction by fragment `i` makes of a fragment (R182). -/
def counted (i : Nat) (f : Frag) : Frag :=
  if f.id = i || !f.demoted then f
  else if 255 ≤ look f.sibIssues i 0 then f.promote else { f with sibIssues := upd f.sibIssues i 0 (· + 1) }

theorem Warp.countIssue_frags (x : Warp) (i : Nat) : (x.countIssue i).frags = x.frags.map (counted i) := rfl
theorem counted_self (f : Frag) : counted f.id f = f := by simp [counted]
theorem counted_keeps (i : Nat) (f : Frag) :
    (counted i f).id = f.id ∧ (counted i f).parent = f.parent ∧ (counted i f).rejoin = f.rejoin ∧ (counted i f).pc = f.pc ∧
      (counted i f).mask = f.mask ∧ (counted i f).wait = f.wait := by
  unfold counted Frag.promote
  split
  · exact ⟨rfl, rfl, rfl, rfl, rfl, rfl⟩
  · split
    · split <;> exact ⟨rfl, rfl, rfl, rfl, rfl, rfl⟩
    · exact ⟨rfl, rfl, rfl, rfl, rfl, rfl⟩

theorem Warp.countIssue_frag (x : Warp) (f : Frag) (h : x.frag f.id = some f) : (x.countIssue f.id).frag f.id = some f := by
  unfold Warp.frag at h ⊢
  rw [Warp.countIssue_frags, List.find?_map]
  have : ((fun g : Frag => decide (g.id = f.id)) ∘ counted f.id) = fun g : Frag => decide (g.id = f.id) :=
    funext fun g => by simp [(counted_keeps f.id g).1]
  rw [this, h, Option.map_some, counted_self]

theorem Warp.setFrag_frag (x : Warp) (i : Nat) (g : Frag → Frag) (hg : ∀ f, (g f).id = f.id) :
    (x.setFrag i g).frag i = (x.frag i).map g :=
  modFirst_find_same _ g (fun f => by simp [hg f]) x.frags

/-- Where no fragment is to reconverge at the PC, the issuing fragment stands there. -/
theorem Ctx.after_pc {s : State} {c : Ctx} (h : s.ctx = some c) (now : Nat) (x : Warp) (pc : DWord) (g : Frag → Frag)
    (hg : ∀ f, (g f).id = f.id ∧ (g f).pc = f.pc ∧ (g f).rejoin = f.rejoin ∧ (g f).parent = f.parent) (hx : x.frags = c.x.frags)
    (hj : c.f.rejoin ≠ some pc) (hc : ∀ g ∈ c.x.frags, g.parent = some c.f.id → g.rejoin ≠ some pc) :
    (c.after now x pc g).frag c.f.id = some (g { c.f with lastRan := now, pc := pc }) := by
  obtain ⟨-, -, -, hf, -⟩ := State.ctx_some h
  have h0 : ({ x with rwc := x.rwc + 1#64, passStop := false } : Warp).frag c.f.id = some c.f := by
    unfold Warp.frag at hf ⊢; rw [← hx] at hf; exact hf
  have h1 := Warp.countIssue_frag _ c.f h0
  have h2 := Warp.setFrag_frag (({ x with rwc := x.rwc + 1#64, passStop := false } : Warp).countIssue c.f.id) c.f.id
    (fun f => g { f with lastRan := now, pc := pc }) (fun f => (hg _).1)
  rw [h1, Option.map_some] at h2
  unfold Ctx.after Warp.arrive
  rw [h2]
  have hno : Warp.atJoin (({ x with rwc := x.rwc + 1#64, passStop := false }.countIssue c.f.id).setFrag c.f.id fun f =>
      g { f with lastRan := now, pc := pc }) (g { c.f with lastRan := now, pc := pc }) = false := by
    unfold Warp.atJoin
    simp only [Bool.or_eq_false_iff, List.any_eq_false, Bool.and_eq_true, decide_eq_true_eq, not_and, decide_eq_false_iff_not]
    refine ⟨by rw [(hg _).2.2.1, (hg _).2.1]; exact hj, fun k hk hp => ?_⟩
    rw [(hg _).1] at hp
    rw [(hg _).2.1]
    rcases mem_modFirst _ _ _ _ hk with h3 | ⟨b, h3, rfl⟩
    · rw [Warp.countIssue_frags] at h3
      obtain ⟨b, hb, rfl⟩ := List.mem_map.1 h3
      rw [(counted_keeps _ b).2.1] at hp
      rw [(counted_keeps _ b).2.2.1]
      exact hc b (hx ▸ hb) hp
    · rw [Warp.countIssue_frags] at h3
      obtain ⟨b, hb, rfl⟩ := List.mem_map.1 h3
      rw [(hg _).2.2.2, (counted_keeps _ b).2.1] at hp
      rw [(hg _).2.2.1, (counted_keeps _ b).2.2.1]
      exact hc b (hx ▸ hb) hp
  simp only [hno]
  exact h2

-- ## Fields of a warp that changes of its fragments leave alone

@[simp] theorem Warp.setFrag_sregs (x : Warp) (i : Nat) (g : Frag → Frag) : (x.setFrag i g).sregs = x.sregs := rfl
@[simp] theorem Warp.setFrag_vregs (x : Warp) (i : Nat) (g : Frag → Frag) : (x.setFrag i g).vregs = x.vregs := rfl
@[simp] theorem Warp.setFrag_preds (x : Warp) (i : Nat) (g : Frag → Frag) : (x.setFrag i g).preds = x.preds := rfl
@[simp] theorem Warp.setFrag_mode (x : Warp) (i : Nat) (g : Frag → Frag) : (x.setFrag i g).mode = x.mode := rfl
@[simp] theorem Warp.setFrag_latch (x : Warp) (i : Nat) (g : Frag → Frag) : (x.setFrag i g).latch = x.latch := rfl
@[simp] theorem Warp.setFrag_rwc (x : Warp) (i : Nat) (g : Frag → Frag) : (x.setFrag i g).rwc = x.rwc := rfl
@[simp] theorem Warp.setFrag_epc (x : Warp) (i : Nat) (g : Frag → Frag) : (x.setFrag i g).epc = x.epc := rfl
@[simp] theorem Warp.setFrag_ecause (x : Warp) (i : Nat) (g : Frag → Frag) : (x.setFrag i g).ecause = x.ecause := rfl
@[simp] theorem Warp.setFrag_einfo (x : Warp) (i : Nat) (g : Frag → Frag) : (x.setFrag i g).einfo = x.einfo := rfl
@[simp] theorem Warp.setFrag_emode (x : Warp) (i : Nat) (g : Frag → Frag) : (x.setFrag i g).emode = x.emode := rfl
@[simp] theorem Warp.setFrag_handler (x : Warp) (i : Nat) (g : Frag → Frag) : (x.setFrag i g).handler = x.handler := rfl
@[simp] theorem Warp.setFrag_vexecDone (x : Warp) (i : Nat) (g : Frag → Frag) : (x.setFrag i g).vexecDone = x.vexecDone := rfl
@[simp] theorem Warp.setFrag_nextFrag (x : Warp) (i : Nat) (g : Frag → Frag) : (x.setFrag i g).nextFrag = x.nextFrag := rfl
@[simp] theorem Warp.setFrag_exited (x : Warp) (i : Nat) (g : Frag → Frag) : (x.setFrag i g).exited = x.exited := rfl
@[simp] theorem Warp.setFrag_tags (x : Warp) (i : Nat) (g : Frag → Frag) : (x.setFrag i g).tags = x.tags := rfl
@[simp] theorem Warp.setFrag_classes (x : Warp) (i : Nat) (g : Frag → Frag) : (x.setFrag i g).classes = x.classes := rfl
@[simp] theorem Warp.setFrag_flags (x : Warp) (i : Nat) (g : Frag → Frag) : (x.setFrag i g).flags = x.flags := rfl
@[simp] theorem Warp.setFrag_accesses (x : Warp) (i : Nat) (g : Frag → Frag) : (x.setFrag i g).accesses = x.accesses := rfl
@[simp] theorem Warp.setFrag_parked (x : Warp) (i : Nat) (g : Frag → Frag) : (x.setFrag i g).parked = x.parked := rfl
@[simp] theorem Warp.setFrag_epoch (x : Warp) (i : Nat) (g : Frag → Frag) : (x.setFrag i g).epoch = x.epoch := rfl
@[simp] theorem Warp.setFrag_slot (x : Warp) (i : Nat) (g : Frag → Frag) : (x.setFrag i g).slot = x.slot := rfl
@[simp] theorem Warp.setFrag_stopCause (x : Warp) (i : Nat) (g : Frag → Frag) : (x.setFrag i g).stopCause = x.stopCause := rfl
@[simp] theorem Warp.setFrag_passStop (x : Warp) (i : Nat) (g : Frag → Frag) : (x.setFrag i g).passStop = x.passStop := rfl
@[simp] theorem Warp.setFrag_arrived (x : Warp) (i : Nat) (g : Frag → Frag) : (x.setFrag i g).arrived = x.arrived := rfl
@[simp] theorem Warp.setFrag_arriving (x : Warp) (i : Nat) (g : Frag → Frag) : (x.setFrag i g).arriving = x.arriving := rfl
@[simp] theorem Warp.setFrag_acquire (x : Warp) (i : Nat) (g : Frag → Frag) : (x.setFrag i g).acquire = x.acquire := rfl
@[simp] theorem Warp.setFrag_issued (x : Warp) (i : Nat) (g : Frag → Frag) : (x.setFrag i g).issued = x.issued := rfl
@[simp] theorem Warp.setFrag_stall (x : Warp) (i : Nat) (g : Frag → Frag) : (x.setFrag i g).stall = x.stall := rfl
@[simp] theorem Warp.countIssue_sregs (x : Warp) (i : Nat) : (x.countIssue i).sregs = x.sregs := rfl
@[simp] theorem Warp.countIssue_vregs (x : Warp) (i : Nat) : (x.countIssue i).vregs = x.vregs := rfl
@[simp] theorem Warp.countIssue_preds (x : Warp) (i : Nat) : (x.countIssue i).preds = x.preds := rfl
@[simp] theorem Warp.countIssue_mode (x : Warp) (i : Nat) : (x.countIssue i).mode = x.mode := rfl
@[simp] theorem Warp.countIssue_latch (x : Warp) (i : Nat) : (x.countIssue i).latch = x.latch := rfl
@[simp] theorem Warp.countIssue_rwc (x : Warp) (i : Nat) : (x.countIssue i).rwc = x.rwc := rfl
@[simp] theorem Warp.countIssue_epc (x : Warp) (i : Nat) : (x.countIssue i).epc = x.epc := rfl
@[simp] theorem Warp.countIssue_ecause (x : Warp) (i : Nat) : (x.countIssue i).ecause = x.ecause := rfl
@[simp] theorem Warp.countIssue_einfo (x : Warp) (i : Nat) : (x.countIssue i).einfo = x.einfo := rfl
@[simp] theorem Warp.countIssue_emode (x : Warp) (i : Nat) : (x.countIssue i).emode = x.emode := rfl
@[simp] theorem Warp.countIssue_handler (x : Warp) (i : Nat) : (x.countIssue i).handler = x.handler := rfl
@[simp] theorem Warp.countIssue_vexecDone (x : Warp) (i : Nat) : (x.countIssue i).vexecDone = x.vexecDone := rfl
@[simp] theorem Warp.countIssue_nextFrag (x : Warp) (i : Nat) : (x.countIssue i).nextFrag = x.nextFrag := rfl
@[simp] theorem Warp.countIssue_exited (x : Warp) (i : Nat) : (x.countIssue i).exited = x.exited := rfl
@[simp] theorem Warp.countIssue_tags (x : Warp) (i : Nat) : (x.countIssue i).tags = x.tags := rfl
@[simp] theorem Warp.countIssue_classes (x : Warp) (i : Nat) : (x.countIssue i).classes = x.classes := rfl
@[simp] theorem Warp.countIssue_flags (x : Warp) (i : Nat) : (x.countIssue i).flags = x.flags := rfl
@[simp] theorem Warp.countIssue_accesses (x : Warp) (i : Nat) : (x.countIssue i).accesses = x.accesses := rfl
@[simp] theorem Warp.countIssue_parked (x : Warp) (i : Nat) : (x.countIssue i).parked = x.parked := rfl
@[simp] theorem Warp.countIssue_epoch (x : Warp) (i : Nat) : (x.countIssue i).epoch = x.epoch := rfl
@[simp] theorem Warp.countIssue_slot (x : Warp) (i : Nat) : (x.countIssue i).slot = x.slot := rfl
@[simp] theorem Warp.countIssue_stopCause (x : Warp) (i : Nat) : (x.countIssue i).stopCause = x.stopCause := rfl
@[simp] theorem Warp.countIssue_passStop (x : Warp) (i : Nat) : (x.countIssue i).passStop = x.passStop := rfl
@[simp] theorem Warp.countIssue_arrived (x : Warp) (i : Nat) : (x.countIssue i).arrived = x.arrived := rfl
@[simp] theorem Warp.countIssue_arriving (x : Warp) (i : Nat) : (x.countIssue i).arriving = x.arriving := rfl
@[simp] theorem Warp.countIssue_acquire (x : Warp) (i : Nat) : (x.countIssue i).acquire = x.acquire := rfl
@[simp] theorem Warp.countIssue_issued (x : Warp) (i : Nat) : (x.countIssue i).issued = x.issued := rfl
@[simp] theorem Warp.countIssue_stall (x : Warp) (i : Nat) : (x.countIssue i).stall = x.stall := rfl
@[simp] theorem Warp.arrive_sregs (x : Warp) (i : Nat) : (x.arrive i).sregs = x.sregs := by rw [Warp.arrive_only]
@[simp] theorem Warp.arrive_vregs (x : Warp) (i : Nat) : (x.arrive i).vregs = x.vregs := by rw [Warp.arrive_only]
@[simp] theorem Warp.arrive_preds (x : Warp) (i : Nat) : (x.arrive i).preds = x.preds := by rw [Warp.arrive_only]
@[simp] theorem Warp.arrive_mode (x : Warp) (i : Nat) : (x.arrive i).mode = x.mode := by rw [Warp.arrive_only]
@[simp] theorem Warp.arrive_latch (x : Warp) (i : Nat) : (x.arrive i).latch = x.latch := by rw [Warp.arrive_only]
@[simp] theorem Warp.arrive_rwc (x : Warp) (i : Nat) : (x.arrive i).rwc = x.rwc := by rw [Warp.arrive_only]
@[simp] theorem Warp.arrive_epc (x : Warp) (i : Nat) : (x.arrive i).epc = x.epc := by rw [Warp.arrive_only]
@[simp] theorem Warp.arrive_ecause (x : Warp) (i : Nat) : (x.arrive i).ecause = x.ecause := by rw [Warp.arrive_only]
@[simp] theorem Warp.arrive_einfo (x : Warp) (i : Nat) : (x.arrive i).einfo = x.einfo := by rw [Warp.arrive_only]
@[simp] theorem Warp.arrive_emode (x : Warp) (i : Nat) : (x.arrive i).emode = x.emode := by rw [Warp.arrive_only]
@[simp] theorem Warp.arrive_handler (x : Warp) (i : Nat) : (x.arrive i).handler = x.handler := by rw [Warp.arrive_only]
@[simp] theorem Warp.arrive_vexecDone (x : Warp) (i : Nat) : (x.arrive i).vexecDone = x.vexecDone := by rw [Warp.arrive_only]
@[simp] theorem Warp.arrive_nextFrag (x : Warp) (i : Nat) : (x.arrive i).nextFrag = x.nextFrag := by rw [Warp.arrive_only]
@[simp] theorem Warp.arrive_exited (x : Warp) (i : Nat) : (x.arrive i).exited = x.exited := by rw [Warp.arrive_only]
@[simp] theorem Warp.arrive_tags (x : Warp) (i : Nat) : (x.arrive i).tags = x.tags := by rw [Warp.arrive_only]
@[simp] theorem Warp.arrive_classes (x : Warp) (i : Nat) : (x.arrive i).classes = x.classes := by rw [Warp.arrive_only]
@[simp] theorem Warp.arrive_flags (x : Warp) (i : Nat) : (x.arrive i).flags = x.flags := by rw [Warp.arrive_only]
@[simp] theorem Warp.arrive_accesses (x : Warp) (i : Nat) : (x.arrive i).accesses = x.accesses := by rw [Warp.arrive_only]
@[simp] theorem Warp.arrive_parked (x : Warp) (i : Nat) : (x.arrive i).parked = x.parked := by rw [Warp.arrive_only]
@[simp] theorem Warp.arrive_epoch (x : Warp) (i : Nat) : (x.arrive i).epoch = x.epoch := by rw [Warp.arrive_only]
@[simp] theorem Warp.arrive_slot (x : Warp) (i : Nat) : (x.arrive i).slot = x.slot := by rw [Warp.arrive_only]
@[simp] theorem Warp.arrive_stopCause (x : Warp) (i : Nat) : (x.arrive i).stopCause = x.stopCause := by rw [Warp.arrive_only]
@[simp] theorem Warp.arrive_passStop (x : Warp) (i : Nat) : (x.arrive i).passStop = x.passStop := by rw [Warp.arrive_only]
@[simp] theorem Warp.arrive_arrived (x : Warp) (i : Nat) : (x.arrive i).arrived = x.arrived := by rw [Warp.arrive_only]
@[simp] theorem Warp.arrive_arriving (x : Warp) (i : Nat) : (x.arrive i).arriving = x.arriving := by rw [Warp.arrive_only]
@[simp] theorem Warp.arrive_acquire (x : Warp) (i : Nat) : (x.arrive i).acquire = x.acquire := by rw [Warp.arrive_only]
@[simp] theorem Warp.arrive_issued (x : Warp) (i : Nat) : (x.arrive i).issued = x.issued := by rw [Warp.arrive_only]
@[simp] theorem Warp.arrive_stall (x : Warp) (i : Nat) : (x.arrive i).stall = x.stall := by rw [Warp.arrive_only]
@[simp] theorem Warp.wake_sregs (x : Warp) (i : Nat) : (x.wake i).sregs = x.sregs := by rw [Warp.wake_only]
@[simp] theorem Warp.wake_vregs (x : Warp) (i : Nat) : (x.wake i).vregs = x.vregs := by rw [Warp.wake_only]
@[simp] theorem Warp.wake_preds (x : Warp) (i : Nat) : (x.wake i).preds = x.preds := by rw [Warp.wake_only]
@[simp] theorem Warp.wake_mode (x : Warp) (i : Nat) : (x.wake i).mode = x.mode := by rw [Warp.wake_only]
@[simp] theorem Warp.wake_latch (x : Warp) (i : Nat) : (x.wake i).latch = x.latch := by rw [Warp.wake_only]
@[simp] theorem Warp.wake_rwc (x : Warp) (i : Nat) :
    (x.wake i).rwc = if (x.frag i).any fun f => f.owes then x.rwc + 1#64 else x.rwc :=
  (Warp.arrive_rwc ((x.pay i).setFrag i fun f => { f with wait := .ready }) i).trans (x.pay_rwc i)
@[simp] theorem Warp.wake_epc (x : Warp) (i : Nat) : (x.wake i).epc = x.epc := by rw [Warp.wake_only]
@[simp] theorem Warp.wake_ecause (x : Warp) (i : Nat) : (x.wake i).ecause = x.ecause := by rw [Warp.wake_only]
@[simp] theorem Warp.wake_einfo (x : Warp) (i : Nat) : (x.wake i).einfo = x.einfo := by rw [Warp.wake_only]
@[simp] theorem Warp.wake_emode (x : Warp) (i : Nat) : (x.wake i).emode = x.emode := by rw [Warp.wake_only]
@[simp] theorem Warp.wake_handler (x : Warp) (i : Nat) : (x.wake i).handler = x.handler := by rw [Warp.wake_only]
@[simp] theorem Warp.wake_vexecDone (x : Warp) (i : Nat) : (x.wake i).vexecDone = x.vexecDone := by rw [Warp.wake_only]
@[simp] theorem Warp.wake_nextFrag (x : Warp) (i : Nat) : (x.wake i).nextFrag = x.nextFrag := by rw [Warp.wake_only]
@[simp] theorem Warp.wake_exited (x : Warp) (i : Nat) : (x.wake i).exited = x.exited := by rw [Warp.wake_only]
@[simp] theorem Warp.wake_tags (x : Warp) (i : Nat) : (x.wake i).tags = x.tags := by rw [Warp.wake_only]
@[simp] theorem Warp.wake_classes (x : Warp) (i : Nat) : (x.wake i).classes = x.classes := by rw [Warp.wake_only]
@[simp] theorem Warp.wake_flags (x : Warp) (i : Nat) : (x.wake i).flags = x.flags := by rw [Warp.wake_only]
@[simp] theorem Warp.wake_accesses (x : Warp) (i : Nat) : (x.wake i).accesses = x.accesses := by rw [Warp.wake_only]
@[simp] theorem Warp.wake_parked (x : Warp) (i : Nat) : (x.wake i).parked = x.parked := by rw [Warp.wake_only]
@[simp] theorem Warp.wake_epoch (x : Warp) (i : Nat) : (x.wake i).epoch = x.epoch := by rw [Warp.wake_only]
@[simp] theorem Warp.wake_slot (x : Warp) (i : Nat) : (x.wake i).slot = x.slot := by rw [Warp.wake_only]
@[simp] theorem Warp.wake_stopCause (x : Warp) (i : Nat) : (x.wake i).stopCause = x.stopCause := by rw [Warp.wake_only]
@[simp] theorem Warp.wake_passStop (x : Warp) (i : Nat) : (x.wake i).passStop = x.passStop := by rw [Warp.wake_only]
@[simp] theorem Warp.wake_arrived (x : Warp) (i : Nat) : (x.wake i).arrived = x.arrived := by rw [Warp.wake_only]
@[simp] theorem Warp.wake_arriving (x : Warp) (i : Nat) : (x.wake i).arriving = x.arriving := by rw [Warp.wake_only]
@[simp] theorem Warp.wake_acquire (x : Warp) (i : Nat) : (x.wake i).acquire = x.acquire := by rw [Warp.wake_only]
@[simp] theorem Warp.wake_issued (x : Warp) (i : Nat) : (x.wake i).issued = x.issued := by rw [Warp.wake_only]
@[simp] theorem Warp.wake_stall (x : Warp) (i : Nat) : (x.wake i).stall = x.stall := by rw [Warp.wake_only]

end Sys2Proof.Machine
end

