-- ==== Sys2Proof/Laws/Ends.lean ====
section
/-!
SUPPORT. How a meaning's outcome ends an instruction, in the terms of the statements.
-/
namespace Sys2Proof.Machine

theorem modFirst_find_other {α : Type} (p q : α → Bool) (f : α → α) (hq : ∀ a, q (f a) = q a) (hpq : ∀ a, q a = true → p a = false)
    (l : List α) : (modFirst p f l).find? q = l.find? q := by
  induction l with
  | nil => rfl
  | cons a l ih =>
    by_cases h : p a = true
    · have : q a = false := by
        cases hh : q a with
        | false => rfl
        | true => exact absurd (hpq a hh) (by simp [h])
      simp [modFirst, h, hq, this]
    · have e : modFirst p f (a :: l) = a :: modFirst p f l := by simp [modFirst, h]
      rw [e, List.find?_cons, List.find?_cons, ih]

theorem find_map_same {α : Type} (q : α → Bool) (f : α → α) (hq : ∀ a, q (f a) = q a) (l : List α) :
    (l.map f).find? q = (l.find? q).map f := by
  induction l with
  | nil => rfl
  | cons a l ih => simp only [List.map_cons, List.find?_cons, hq]; cases q a <;> simp [ih]

theorem Ctx.after_kept (c : Ctx) (now : Nat) (x : Warp) (pc : DWord) (g : Frag → Frag) : Kept x (c.after now x pc g) :=
  Ctx.after_only c now x pc g

/-- What reconvergence looks at in a fragment. -/
def Frag.key (f : Frag) : Nat × DWord × Mask × Option Nat × Option DWord := (f.id, f.pc, f.mask, f.parent, f.rejoin)

theorem find_of_keys (l l' : List Frag) (h : l.map Frag.key = l'.map Frag.key) (n : Nat) :
    (l.find? fun f => f.id = n).map Frag.key = (l'.find? fun f => f.id = n).map Frag.key := by
  induction l generalizing l' with
  | nil => cases l' with
    | nil => rfl
    | cons b l' => simp at h
  | cons a l ih => cases l' with
    | nil => simp at h
    | cons b l' =>
      simp only [List.map_cons, List.cons.injEq] at h
      have hid : a.id = b.id := congrArg Prod.fst h.1
      simp only [List.find?_cons, hid]
      cases decide (b.id = n)
      · exact ih l' h.2
      · simp [h.1]

theorem counted_key (i : Nat) (f : Frag) : (counted i f).key = f.key := by
  have := counted_keeps i f
  simp [Frag.key, this]

theorem modFirst_keys (p : Frag → Bool) (g : Frag → Frag) (hg : ∀ f, (g f).key = f.key) (l : List Frag) :
    (modFirst p g l).map Frag.key = l.map Frag.key := by
  induction l with
  | nil => rfl
  | cons a l ih => unfold modFirst; split <;> simp [hg, ih]

theorem Warp.setFrag_keys (x : Warp) (i : Nat) (g : Frag → Frag) (hg : ∀ f, (g f).key = f.key) :
    (x.setFrag i g).frags.map Frag.key = x.frags.map Frag.key := modFirst_keys _ g hg _

theorem Warp.countIssue_keys (x : Warp) (i : Nat) : (x.countIssue i).frags.map Frag.key = x.frags.map Frag.key := by
  rw [Warp.countIssue_frags, List.map_map]
  congr 1
  funext f
  exact counted_key i f

theorem Ctx.after_stands {s : State} {c : Ctx} (h : s.ctx = some c) (now : Nat) (x : Warp) (pc : DWord) (g : Frag → Frag)
    (hg : ∀ f, (g f).key = f.key) (hx : x.frags.map Frag.key = c.x.frags.map Frag.key) :
    StandsAt c pc (c.after now x pc g) := by
  intro hj
  have hf : c.x.frag c.f.id = some c.f := (State.ctx_some h).2.2.2.1
  -- the warp before reconvergence
  let x1 : Warp := { x with rwc := x.rwc + 1#64, passStop := false }.countIssue c.f.id
  have hk1 : x1.frags.map Frag.key = c.x.frags.map Frag.key := (Warp.countIssue_keys _ _).trans hx
  have hgid : ∀ f : Frag, (g { f with lastRan := now, pc := pc }).id = f.id := fun f => congrArg Prod.fst (hg { f with lastRan := now, pc := pc })
  let x2 := x1.setFrag c.f.id fun f => g { f with lastRan := now, pc := pc }
  have hother : ∀ n, n ≠ c.f.id → (x2.frag n).map Frag.key = (c.x.frag n).map Frag.key := fun n hn => by
    have e : x2.frag n = x1.frag n :=
      modFirst_find_other _ _ _ (fun f => by simp [hgid f]) (fun f hf => by simp at hf ⊢; omega) x1.frags
    rw [e]
    exact find_of_keys _ _ hk1 n
  have hown : ∃ f1, x1.frag c.f.id = some f1 ∧ f1.key = c.f.key := by
    have := find_of_keys _ _ hk1 c.f.id
    unfold Warp.frag at hf ⊢
    rw [hf] at this
    cases e : x1.frags.find? (fun f => f.id = c.f.id) with
    | none => rw [e] at this; simp at this
    | some f1 => rw [e] at this; exact ⟨f1, rfl, by simpa using this⟩
  obtain ⟨f1, hf1, hk⟩ := hown
  have h2 : x2.frag c.f.id = some (g { f1 with lastRan := now, pc := pc }) := by
    have := Warp.setFrag_frag x1 c.f.id (fun f => g { f with lastRan := now, pc := pc }) hgid
    rw [hf1] at this
    exact this
  simp only [Frag.key, Prod.mk.injEq] at hk
  obtain ⟨k1, k2, k3, k4, k5⟩ := hk
  have hgk := hg { f1 with lastRan := now, pc := pc }
  simp only [Frag.key, Prod.mk.injEq] at hgk
  obtain ⟨e1, e2, e3, e4, e5⟩ := hgk
  have hno : x2.atJoin (g { f1 with lastRan := now, pc := pc }) = false := by
    unfold Warp.atJoin
    simp only [Bool.or_eq_false_iff, List.any_eq_false, Bool.and_eq_true, decide_eq_true_eq, not_and, decide_eq_false_iff_not]
    refine ⟨by rw [e5, e2, k5]; exact hj.1, fun q hq hp => ?_⟩
    rw [e1, k1] at hp
    rw [e2]
    have hmem : ∃ q' ∈ c.x.frags, q'.parent = q.parent ∧ q'.rejoin = q.rejoin := by
      have m1 : ∀ r ∈ x1.frags, ∃ q' ∈ c.x.frags, q'.parent = r.parent ∧ q'.rejoin = r.rejoin := fun r hr => by
        have : r.key ∈ c.x.frags.map Frag.key := hk1 ▸ List.mem_map_of_mem hr
        obtain ⟨q', hq', he⟩ := List.mem_map.1 this
        simp only [Frag.key, Prod.mk.injEq] at he
        exact ⟨q', hq', he.2.2.2.1, he.2.2.2.2⟩
      rcases mem_modFirst _ _ _ _ hq with h3 | ⟨b, h3, rfl⟩
      · exact m1 q h3
      · obtain ⟨q', hq', a, b'⟩ := m1 b h3
        have := hg { b with lastRan := now, pc := pc }
        simp only [Frag.key, Prod.mk.injEq] at this
        exact ⟨q', hq', a.trans this.2.2.2.1.symm, b'.trans this.2.2.2.2.symm⟩
    obtain ⟨q', hq', a, b⟩ := hmem
    rw [← b]
    exact hj.2 q' hq' (a.trans hp)
  have harr : c.after now x pc g = x2 := by
    show x2.arrive c.f.id = x2
    unfold Warp.arrive
    rw [h2]
    simp only [hno]
    rfl
  rw [harr]
  refine ⟨?_, fun n hn => ?_⟩
  · rw [h2, Option.map_some, Frag.spot, e2, e3, k3]
  · have := hother n hn
    have hs : ∀ o o' : Option Frag, o.map Frag.key = o'.map Frag.key → o.map Frag.spot = o'.map Frag.spot := by
      intro o o' ho
      cases o <;> cases o' <;> simp_all [Frag.key, Frag.spot]
    exact hs _ _ this

theorem Ends.of_done {i : Instr} {s : State} {c : Ctx} {f : Ctx → Res} (h : s.ctx = some c) (he : exec i s = runInstr s f)
    (g : Warp → Warp) (hf : f c = .done (c.s.setWarp c.w g)) (hg : (g c.x).frags.map Frag.key = c.x.frags.map Frag.key) :
    Ends i s c (g c.x) c.nextPc :=
  ⟨_, by rw [he, runInstr_ctx h, hf, settle_done_warp h], Ctx.after_kept ..,
    Ctx.after_stands h _ _ _ id (fun _ => rfl) hg⟩

theorem Ends.of_same {i : Instr} {s : State} {c : Ctx} {f : Ctx → Res} (h : s.ctx = some c) (he : exec i s = runInstr s f)
    (hf : f c = .done c.s) : Ends i s c c.x c.nextPc :=
  ⟨_, by rw [he, runInstr_ctx h, hf, settle_done_same h], Ctx.after_kept ..,
    Ctx.after_stands h _ _ _ id (fun _ => rfl) rfl⟩

theorem EndsIn.of_done {i : Instr} {s u : State} {c : Ctx} {x : Warp} {f : Ctx → Res} (h : s.ctx = some c)
    (he : exec i s = runInstr s f) (hf : f c = .done u) (hu : u.warp c.w = some x) (hg : x.frags.map Frag.key = c.x.frags.map Frag.key) :
    EndsIn i s u c x c.nextPc :=
  ⟨c.after u.now x c.nextPc id, by
    rw [he, runInstr_ctx h, hf]
    show Host.Outcome.next (retireTo c u c.nextPc id) = _
    rw [retireTo_eq, u.setWarp_const _ _ _ hu], Ctx.after_kept ..,
    Ctx.after_stands h _ _ _ id (fun _ => rfl) hg⟩

theorem Frag.spin_keeps (f : Frag) (pc : DWord) :
    (f.spin pc).id = f.id ∧ (f.spin pc).pc = f.pc ∧ (f.spin pc).rejoin = f.rejoin ∧ (f.spin pc).parent = f.parent ∧
      (f.spin pc).mask = f.mask := by
  unfold Frag.spin Frag.promote Frag.park
  dsimp only
  split
  · split <;> exact ⟨rfl, rfl, rfl, rfl, rfl⟩
  split
  · split <;> exact ⟨rfl, rfl, rfl, rfl, rfl⟩
  split
  · split <;> exact ⟨rfl, rfl, rfl, rfl, rfl⟩
  split
  · split <;> exact ⟨rfl, rfl, rfl, rfl, rfl⟩
  split <;> exact ⟨rfl, rfl, rfl, rfl, rfl⟩

theorem EndsIn.of_goto {i : Instr} {s u : State} {c : Ctx} {x : Warp} {f : Ctx → Res} {pc : DWord} {sp : Bool} (h : s.ctx = some c)
    (he : exec i s = runInstr s f) (hf : f c = .goto u pc sp) (hu : u.warp c.w = some x) (hg : x.frags.map Frag.key = c.x.frags.map Frag.key) :
    EndsIn i s u c x pc := by
  refine ⟨c.after u.now x pc (fun f => if sp then f.spin c.basePc else f), ?_, Ctx.after_kept ..,
    Ctx.after_stands h _ _ _ _ (fun f => ?_) hg⟩
  · rw [he, runInstr_ctx h, hf]
    show Host.Outcome.next (retireTo c u pc fun f => if sp then f.spin c.basePc else f) = _
    rw [retireTo_eq, u.setWarp_const _ _ _ hu]
  · have := Frag.spin_keeps f c.basePc
    split
    · simp [Frag.key, this]
    · rfl

theorem Warp.setFrag_frag_other (x : Warp) (i n : Nat) (g : Frag → Frag) (hg : ∀ f, (g f).id = f.id) (hn : n ≠ i) :
    (x.setFrag i g).frag n = x.frag n :=
  modFirst_find_other _ _ g (fun f => by simp [hg f]) (fun f hf => by simp at hf ⊢; omega) x.frags

theorem Warp.countIssue_frag_spot (x : Warp) (i n : Nat) :
    ((x.countIssue i).frag n).map Frag.spot = (x.frag n).map Frag.spot := by
  unfold Warp.frag
  rw [Warp.countIssue_frags, find_map_same _ _ (fun a => by simp [(counted_keeps _ a).1]), Option.map_map]
  congr 1
  funext a
  simp [Frag.spot, counted_keeps]

theorem Parks.of_park {i : Instr} {s u : State} {c : Ctx} {x : Warp} {f : Ctx → Res} {w : Wait} (h : s.ctx = some c)
    (he : exec i s = runInstr s f) (hf : f c = .park u w) (hu : u.warp c.w = some x) (hg : x.frags.map Frag.key = c.x.frags.map Frag.key) (hw : w ≠ .ready) :
    Parks i s u c x w := by
  refine ⟨({ x with passStop := false }.countIssue c.f.id).setFrag c.f.id fun f =>
    { f.park w with lastRan := u.now, pc := c.nextPc, owes := true }, ?_, ?_, ?_, fun n hn => ?_⟩
  · rw [he, runInstr_ctx h, hf]
    show Host.Outcome.next (if w = .ready then _ else _) = _
    rw [if_neg hw, parkBehind_eq, u.setWarp_const _ _ _ hu]
  · rw [Warp.setFrag_only, Warp.countIssue_only]
  · let x1 : Warp := { x with passStop := false }.countIssue c.f.id
    have hk1 : x1.frags.map Frag.key = c.x.frags.map Frag.key := (Warp.countIssue_keys _ _).trans hg
    have hf : c.x.frag c.f.id = some c.f := (State.ctx_some h).2.2.2.1
    have := find_of_keys _ _ hk1 c.f.id
    unfold Warp.frag at hf
    rw [hf] at this
    have hs := Warp.setFrag_frag x1 c.f.id (fun f => { f.park w with lastRan := u.now, pc := c.nextPc, owes := true }) (fun f => rfl)
    cases e : x1.frag c.f.id with
    | none => unfold Warp.frag at e; rw [e] at this; simp at this
    | some f1 =>
      have e' := e
      unfold Warp.frag at e'
      rw [e'] at this
      simp only [Option.map_some, Option.some.injEq, Frag.key, Prod.mk.injEq] at this
      rw [e] at hs
      rw [hs]
      simp [Frag.spot, Frag.park, this.2.2.1]
  · rw [Warp.setFrag_frag_other _ _ _ _ (by intro f; rfl) hn, Warp.countIssue_frag_spot]
    have := find_of_keys _ _ hg n
    unfold Warp.frag
    generalize x.frags.find? (fun f => f.id = n) = o at this ⊢
    generalize c.x.frags.find? (fun f => f.id = n) = o' at this ⊢
    cases o <;> cases o' <;> simp_all [Frag.key, Frag.spot]

theorem Waits.of_wait {i : Instr} {s u : State} {c : Ctx} {f : Ctx → Res} {w : Wait} (h : s.ctx = some c)
    (he : exec i s = runInstr s f) (hf : f c = .wait u w) : Waits i s u c w := by
  unfold Waits; rw [he, runInstr_ctx h, hf]; rfl

theorem Faults.of_fault {i : Instr} {s : State} {c : Ctx} {f : Ctx → Res} {k : FaultInfo} (h : s.ctx = some c)
    (he : exec i s = runInstr s f) (hf : f c = .fault k) : Faults i s c k := by
  unfold Faults; rw [he, runInstr_ctx h, hf]; rfl

theorem checked_ok (c : Ctx) (os : List Opnd) (f : Res) (h : c.Clear os) : checkRange c os (checkReady c os f) = f := by
  rw [checkRange_ok c os _ h.1, checkReady_ok c os f h.2.1 h.2.2]

theorem guarded_clear (c : Ctx) (os : List Opnd) (f : Res) (h : c.Clear os) (hg : c.guard = true) : guarded c os f = f :=
  guarded_on c os f h.1 hg h.2.1 h.2.2

end Sys2Proof.Machine
end

