-- ==== Sys2Proof/Laws/Access.lean ====
section
/-!
SUPPORT. What translation changes, and the outcome of the shared parts of memory instructions.
-/
namespace Sys2Proof.Machine

/-- Apart from memory with its coherence, network and links, TLBs, walkers and outputs, the state is `s`. -/
def State.Translated (s t : State) : Prop :=
  { t with mem := s.mem, clusters := s.clusters, dies := s.dies, hbm := s.hbm, coh := s.coh, net := s.net, cxl := s.cxl, walks := s.walks
           walkCache := s.walkCache, nextId := s.nextId, out := s.out } = s

theorem State.Translated.refl (s : State) : s.Translated s := rfl
theorem State.Translated.trans {s t u : State} (h : s.Translated t) (h' : t.Translated u) : s.Translated u := by
  have := congrArg (fun (x : State) => { x with
    mem := s.mem, clusters := s.clusters, dies := s.dies, hbm := s.hbm, coh := s.coh, net := s.net, cxl := s.cxl, walks := s.walks
    walkCache := s.walkCache, nextId := s.nextId, out := s.out }) h'
  exact this.trans h
theorem State.emit_translated (s : State) (o : Output) : s.Translated (s.emit o) := rfl
theorem State.Translated.foldl {α : Type} {f : State → α → State} (hf : ∀ (t : State) (a : α), t.Translated (f t a)) (l : List α) (s : State) :
    s.Translated (l.foldl f s) := by
  induction l generalizing s with
  | nil => exact .refl s
  | cons a l ih => exact (hf s a).trans (ih _)

-- ## Asking for tokens and data

theorem State.forwards_translated (s : State) (line : Nat) (write : Bool) (mask : Option Nat) (req : Option Holder) (v : Nat) :
    s.Translated (s.forwards line write mask req v) := by
  unfold State.forwards
  dsimp only
  refine State.Translated.foldl (fun t h => ?_) _ s
  rfl
theorem State.issueReq_translated (s : State) (r : TokReq) (first : Bool) : s.Translated (s.issueReq r first) := by
  unfold State.issueReq
  split
  · rfl
  · exact s.forwards_translated _ _ _ _ _
theorem State.enlist_translated (s : State) (h : Option Holder) (line : Nat) (write : Bool) (v inc : Nat) (us : List (Instr × Focus))
    (send : Bool) : s.Translated (s.enlist h line write v inc us send) := by
  unfold State.enlist
  dsimp only
  split
  · rfl
  split
  · refine State.Translated.trans ?_ (State.issueReq_translated _ _ _)
    rfl
  · rfl
theorem State.want_translated (s : State) (h : Option Holder) (line : Nat) (write : Bool) (v inc : Nat) (us : List (Instr × Focus)) :
    s.Translated (s.want h line write v inc us) := by
  unfold State.want
  split
  · rfl
  · exact s.enlist_translated _ _ _ _ _ _ _
theorem State.cxlTxn_translated (s : State) (kind line v : Nat) (owes : Owed) : s.Translated (s.cxlTxn kind line v owes) := by
  unfold State.cxlTxn
  dsimp only
  split <;> rfl
theorem State.follow_translated {s t : State} {kind line v : Nat} {us : List (Instr × Focus)} (h : s.follow kind line v us = some t) :
    s.Translated t := by
  unfold State.follow at h
  dsimp only at h
  split at h
  · cases h; exact s.cxlTxn_translated _ _ _ _
  split at h
  · cases h
  · cases h; rfl
theorem State.agentAsk_translated {s t : State} {line v : Nat} {write : Bool} {us : List (Instr × Focus)}
    (h : s.agentAsk line write v us = some t) : s.Translated t := by
  simp only [State.agentAsk] at h
  split at h
  · split at h
    · cases h
    · cases h; exact s.enlist_translated _ _ _ _ _ _ _
  split at h
  · split at h
    · cases h
    · cases h; exact s.want_translated _ _ _ _ _ _
  · exact State.follow_translated h
theorem State.agentAsk_getD (s : State) (line : Nat) (write : Bool) (v : Nat) (us : List (Instr × Focus)) :
    s.Translated ((s.agentAsk line write v us).getD s) := by
  cases h : s.agentAsk line write v us with
  | none => rfl
  | some t => exact State.agentAsk_translated h
theorem State.walkWaits_translated (s : State) (w : Walk) (write : Bool) : s.Translated (s.walkWaits w write) := by
  unfold State.walkWaits
  dsimp only
  split
  · exact s.agentAsk_getD _ _ _ _
  split
  · rfl
  · refine State.Translated.trans ?_ (State.agentAsk_getD _ _ _ _ _)
    rfl

-- ## Writes by a platen agent

theorem State.keepTarget_translated (s : State) (line : Nat) : s.Translated (s.keepTarget line) := by
  unfold State.keepTarget; split <;> rfl
theorem State.poke_translated (s : State) (pa : Nat) (bs : List Byte) : s.Translated (s.poke pa bs) := by
  refine (s.keepTarget_translated (pa / 128)).trans ?_
  unfold State.poke
  dsimp only
  split <;> rfl
theorem State.passOn_translated (s : State) (line : Nat) : s.Translated (s.passOn line) := by
  unfold State.passOn; split <;> rfl
theorem State.evictLlc_translated (s : State) (line : Nat) : s.Translated (s.evictLlc line) := by
  unfold State.evictLlc
  split
  · rfl
  · dsimp only
    split <;> rfl
theorem State.llcRoom_translated (s : State) (line : Nat) : s.Translated (s.llcRoom line) := by
  unfold State.llcRoom
  dsimp only
  split
  · rfl
  split
  · exact s.evictLlc_translated _
  · rfl
theorem State.fillLlc_translated (s : State) (line v : Nat) (dirty : Bool) : s.Translated (s.fillLlc line v dirty) := by
  unfold State.fillLlc
  split
  · split
    · have h : s.Translated (s.atProxy line v) := rfl
      exact (h.trans (State.passOn_translated _ _)).trans (State.cxlTxn_translated _ _ _ _ _)
    · rfl
  · dsimp only
    refine (s.llcRoom_translated line).trans ?_
    split <;> rfl
theorem State.platenPoke_translated (s : State) (pa : Nat) (bs : List Byte) (v : Nat) : s.Translated (s.platenPoke pa bs v) := by
  refine (s.poke_translated pa bs).trans ?_
  unfold State.platenPoke
  dsimp only
  split
  · rfl
  · exact State.fillLlc_translated _ _ _ _

-- ## Translation

theorem State.walk_translated (s : State) (place : Option (Nat × Nat)) (v asid va atype : Nat) :
    s.Translated (s.walk place v asid va atype).1 := by
  unfold State.walk
  dsimp only
  generalize List.find? _ (_ ++ _) = l
  cases l with
  | some l => exact s.walkWaits_translated _ _
  | none =>
    dsimp only
    generalize s.anyLost _ = lost
    cases lost with
    | true => rfl
    | false =>
      generalize s.walkOut v asid va atype = out
      cases out with
      | error r => rfl
      | ok r =>
        obtain ⟨t, e, addr⟩ := r
        simp only [Bool.false_eq_true, if_false]
        split
        · rfl
        · refine State.Translated.trans ?_ (State.platenPoke_translated _ _ _ _)
          rfl

theorem State.mapTlb_translated (s : State) (d g : Nat) (f : Nat → List TlbEntry → List TlbEntry) : s.Translated (s.mapTlb d g f) := by
  unfold State.mapTlb
  dsimp only
  split <;> rfl

theorem State.translate_translated (s : State) (place : Option (Nat × Nat)) (v asid va atype : Nat) :
    s.Translated (s.translate place v asid va atype).1 := by
  have fresh : ∀ t : State, s.Translated t → s.Translated
      (match t.walk place v asid va atype with
        | (s, .error r) => (s, r)
        | (s, .ok e) =>
          ((match place with
            | some (d, g) => s.mapTlb d g fun n l => tlbInsert n e l
            | none => s), Tr.ok (e.pa + va % e.size))).1 := by
    intro t ht
    have hw := State.walk_translated t place v asid va atype
    generalize t.walk place v asid va atype = r at hw
    obtain ⟨u, e⟩ := r
    cases e with
    | error r => exact ht.trans hw
    | ok e =>
      cases place with
      | none => exact ht.trans hw
      | some p => exact (ht.trans hw).trans (State.mapTlb_translated _ _ _ _)
  unfold State.translate
  dsimp only
  split
  · exact .refl s
  split
  · exact fresh s (.refl s)
  · dsimp only
    split
    · split
      · exact fresh s (.refl s)
      split <;> exact .refl s
    · exact fresh _ ((State.mapTlb_translated _ _ _ _).trans (State.emit_translated _ _))
    · exact fresh s (.refl s)

theorem transLanes_translated (place : Option (Nat × Nat)) (v asid atype : Nat) (l : List (Nat × Nat)) (s : State) :
    s.Translated (transLanes place v asid atype s l).1 := by
  induction l generalizing s with
  | nil => exact .refl s
  | cons a l ih =>
    unfold transLanes
    have h := State.translate_translated s place v asid a.2 atype
    exact h.trans (ih _)

theorem State.Translated.blocks {s t : State} (h : s.Translated t) : t.blocks = s.blocks := by
  have := congrArg State.blocks h
  exact this
theorem State.Translated.warp {s t : State} (h : s.Translated t) (w : WarpRef) : t.warp w = s.warp w := by
  unfold State.warp State.blk; rw [h.blocks]

end Sys2Proof.Machine
end

