-- ==== Sys2Proof/Laws/Coherence.lean ====
section
/-!
SUPPORT. What the shared operations of coherence, of releases and of the fabric can change.
-/
namespace Sys2Proof.Machine

-- ## Tags and requests (R33, R41, R47, R49)

theorem State.setHeld_only (s : State) (h : Holder) (line : Nat) (t : Tag) :
    s.setHeld h line t = { s with coh := { s.coh with held := (s.setHeld h line t).coh.held } } := rfl

/-- A use of a line changes the proxy's tags alone. -/
theorem State.touch_only (s : State) (line : Nat) : s.touch line = { s with coh := { s.coh with held := (s.touch line).coh.held } } := by
  unfold State.touch
  dsimp only
  split <;> rfl

@[simp] theorem State.touch_mem (s : State) (line : Nat) : (s.touch line).mem = s.mem := by rw [State.touch_only]
@[simp] theorem State.touch_net (s : State) (line : Nat) : (s.touch line).net = s.net := by rw [State.touch_only]
@[simp] theorem State.touch_home (s : State) (line : Nat) : (s.touch line).coh.home = s.coh.home := by rw [State.touch_only]

/-- Uses of lines change the proxy's tags alone. -/
theorem State.touches_only (lines : List Nat) (s : State) :
    lines.foldl State.touch s = { s with coh := { s.coh with held := (lines.foldl State.touch s).coh.held } } := by
  induction lines generalizing s with
  | nil => rfl
  | cons l ls ih =>
    rw [List.foldl_cons]
    refine (ih (s.touch l)).trans ?_
    generalize (ls.foldl State.touch (s.touch l)).coh.held = h
    rw [State.touch_only]

/-- Serving what is satisfied puts steps before all others, and marks requests (R41). -/
theorem State.settleReqs_only (s : State) (h : Option Holder) (line : Nat) :
    s.settleReqs h line =
      { s with agenda := (s.settleReqs h line).agenda, coh := { s.coh with reqs := (s.settleReqs h line).coh.reqs } } := by
  unfold State.settleReqs
  dsimp only
  split <;> rfl

theorem State.finishReqs_only (s : State) (h : Option Holder) (line : Nat) :
    s.finishReqs h line = { s with coh := { s.coh with reqs := (s.finishReqs h line).coh.reqs } } := rfl

-- ## Releases (R225)

/-- Passing remote operations on changes marks in warps alone. -/
theorem State.passRemotes_only (s : State) (w : WarpRef) (scope : Nat) :
    s.passRemotes w scope = { s with blocks := (s.passRemotes w scope).blocks } := by
  unfold State.passRemotes
  split <;> rfl

theorem State.passRemotes_zero (s : State) (w : WarpRef) : s.passRemotes w 0 = s := rfl

-- ## Packets (R91, R100)

/-- A packet that goes out starts the access's timers, and keeps the place in the order that its first sending took. -/
theorem Access.sending_eq (a : Access) (now n : Nat) :
    (a.sending now n).sent = 1 ∧ (a.sending now n).time = now ∧ (a.order ≠ 0 → (a.sending now n).order = a.order) ∧
      (a.order = 0 → (a.sending now n).order = n) := by
  refine ⟨rfl, rfl, fun h => ?_, fun h => ?_⟩ <;> simp [Access.sending, h]

/-- What goes out is the packet made at issue, on the port that carries its plane now. -/
theorem State.fabricPacket_some (s : State) (a : Access) (q : OutReq) (h : a.req = some q) :
    s.fabricPacket a = some { q with port := (s.carrierOf a.plane).getD a.plane } := by simp [State.fabricPacket, h]

end Sys2Proof.Machine
end

