-- ==== Sys2Proof/Laws/Encoding.lean ====
section
/-!
SUPPORT. Fields of encoded words: what the decoder's field readers find in what the encoder wrote, and when a decoding
succeeds.
-/
namespace Sys2Proof

theorem ext_hi {n m : Nat} (x : BitVec n) (y : BitVec m) (k w : Nat) : (x ++ y).extractLsb' (m + k) w = x.extractLsb' k w := by
  ext i hi
  simp only [BitVec.getElem_extractLsb', BitVec.getLsbD_append]
  rw [if_neg (by omega)]
  congr 1
  omega
theorem ext_lo {n m : Nat} (x : BitVec n) (y : BitVec m) (k w : Nat) (h : k + w ≤ m) :
    (x ++ y).extractLsb' k w = y.extractLsb' k w := by
  ext i hi
  simp only [BitVec.getElem_extractLsb', BitVec.getLsbD_append]
  rw [if_pos (by omega)]
theorem ext_all {n : Nat} (x : BitVec n) : x.extractLsb' 0 n = x := by
  ext i hi; simp
theorem lsb_hi {n m : Nat} (x : BitVec n) (y : BitVec m) (k : Nat) : (x ++ y).getLsbD (m + k) = x.getLsbD k := by
  rw [BitVec.getLsbD_append, if_neg (by omega), Nat.add_sub_cancel_left]
theorem lsb_lo {n m : Nat} (x : BitVec n) (y : BitVec m) (k : Nat) (h : k < m) : (x ++ y).getLsbD k = y.getLsbD k := by
  rw [BitVec.getLsbD_append, if_pos h]
theorem lsb_ofBool (b : Bool) : (BitVec.ofBool b).getLsbD 0 = b := by cases b <;> rfl

-- ## Format R and I

@[simp] theorem opcode_encR (op d a b : BitVec 8) :
    opcode (encR op d a b) = op.toNat :=
  congrArg BitVec.toNat ((ext_hi (op ++ d ++ a) b 16 8).trans ((ext_hi (op ++ d) a 8 8).trans ((ext_hi (op) d 0 8).trans (ext_all op))))
@[simp] theorem fD_encR (op d a b : BitVec 8) :
    fD (encR op d a b) = d :=
  (ext_hi (op ++ d ++ a) b 8 8).trans ((ext_hi (op ++ d) a 0 8).trans ((ext_lo (op) d 0 8 (by decide)).trans (ext_all d)))
@[simp] theorem fA_encR (op d a b : BitVec 8) :
    fA (encR op d a b) = a :=
  (ext_hi (op ++ d ++ a) b 0 8).trans ((ext_lo (op ++ d) a 0 8 (by decide)).trans (ext_all a))
@[simp] theorem fB_encR (op d a b : BitVec 8) :
    fB (encR op d a b) = b :=
  (ext_lo (op ++ d ++ a) b 0 8 (by decide)).trans (ext_all b)
@[simp] theorem low_0_4 (op d a b : BitVec 8) :
    (encR op d a b).extractLsb' 0 4 = b.extractLsb' 0 4 :=
  ext_lo (op ++ d ++ a) b 0 4 (by decide)
@[simp] theorem low_4_4 (op d a b : BitVec 8) :
    (encR op d a b).extractLsb' 4 4 = b.extractLsb' 4 4 :=
  ext_lo (op ++ d ++ a) b 4 4 (by decide)
@[simp] theorem low_0_6 (op d a b : BitVec 8) :
    (encR op d a b).extractLsb' 0 6 = b.extractLsb' 0 6 :=
  ext_lo (op ++ d ++ a) b 0 6 (by decide)
@[simp] theorem low_5_3 (op d a b : BitVec 8) :
    (encR op d a b).extractLsb' 5 3 = b.extractLsb' 5 3 :=
  ext_lo (op ++ d ++ a) b 5 3 (by decide)
@[simp] theorem low_2_3 (op d a b : BitVec 8) :
    (encR op d a b).extractLsb' 2 3 = b.extractLsb' 2 3 :=
  ext_lo (op ++ d ++ a) b 2 3 (by decide)
@[simp] theorem low_0_2 (op d a b : BitVec 8) :
    (encR op d a b).extractLsb' 0 2 = b.extractLsb' 0 2 :=
  ext_lo (op ++ d ++ a) b 0 2 (by decide)
@[simp] theorem low_1_4 (op d a b : BitVec 8) :
    (encR op d a b).extractLsb' 1 4 = b.extractLsb' 1 4 :=
  ext_lo (op ++ d ++ a) b 1 4 (by decide)
@[simp] theorem low_1_3 (op d a b : BitVec 8) :
    (encR op d a b).extractLsb' 1 3 = b.extractLsb' 1 3 :=
  ext_lo (op ++ d ++ a) b 1 3 (by decide)
@[simp] theorem low_16_2 (op d a b : BitVec 8) :
    (encR op d a b).extractLsb' 16 2 = d.extractLsb' 0 2 :=
  (ext_hi (op ++ d ++ a) b 8 2).trans ((ext_hi (op ++ d) a 0 2).trans (ext_lo op d 0 2 (by decide)))
@[simp] theorem bit_0 (op d a b : BitVec 8) :
    (encR op d a b).getLsbD 0 = b.getLsbD 0 :=
  lsb_lo (op ++ d ++ a) b 0 (by decide)
@[simp] theorem bit_4 (op d a b : BitVec 8) :
    (encR op d a b).getLsbD 4 = b.getLsbD 4 :=
  lsb_lo (op ++ d ++ a) b 4 (by decide)
/-- The fields under a mask are zero where each byte's are. -/
theorem z_encR (op d a b md ma mb : BitVec 8) (hd : d &&& md = 0#8) (ha : a &&& ma = 0#8) (hb : b &&& mb = 0#8) :
    z (encR op d a b) (encR 0#8 md ma mb) = true := by
  have h : encR op d a b &&& encR 0#8 md ma mb = (op &&& 0#8) ++ (d &&& md) ++ (a &&& ma) ++ (b &&& mb) := by
    unfold encR
    rw [BitVec.and_append, BitVec.and_append, BitVec.and_append]
  unfold z
  rw [h, hd, ha, hb, BitVec.and_zero]
  rfl
theorem isPrefix_encR (op d a b : BitVec 8) (h : op.extractLsb' 4 4 ≠ 0xF#4) : isPrefix (encR op d a b) = false := by
  have e : (encR op d a b).extractLsb' 28 4 = op.extractLsb' 4 4 := (ext_hi (op ++ d ++ a) b 20 4).trans ((ext_hi (op ++ d) a 12 4).trans (ext_hi (op) d 4 4))
  rw [isPrefix, e]; exact beq_false_of_ne h

-- ## The other formats

@[simp] theorem opcode_branch (op : BitVec 8) (sel : BitVec 6) (n : BitVec 1) (off : BitVec 17) :
    opcode (op ++ sel ++ n ++ off : BitVec 32) = op.toNat :=
  congrArg BitVec.toNat ((ext_hi (op ++ sel ++ n) off 7 8).trans ((ext_hi (op ++ sel) n 6 8).trans ((ext_hi (op) sel 0 8).trans (ext_all op))))
@[simp] theorem sel_branch (op : BitVec 8) (sel : BitVec 6) (n : BitVec 1) (off : BitVec 17) :
    BitVec.extractLsb' 18 6 (op ++ sel ++ n ++ off : BitVec 32) = sel :=
  (ext_hi (op ++ sel ++ n) off 1 6).trans ((ext_hi (op ++ sel) n 0 6).trans ((ext_lo (op) sel 0 6 (by decide)).trans (ext_all sel)))
@[simp] theorem off_branch (op : BitVec 8) (sel : BitVec 6) (n : BitVec 1) (off : BitVec 17) :
    BitVec.extractLsb' 0 17 (op ++ sel ++ n ++ off : BitVec 32) = off :=
  (ext_lo (op ++ sel ++ n) off 0 17 (by decide)).trans (ext_all off)
@[simp] theorem neg_branch (op : BitVec 8) (sel : BitVec 6) (n : Bool) (off : BitVec 17) :
    BitVec.getLsbD (op ++ sel ++ BitVec.ofBool n ++ off : BitVec 32) 17 = n :=
  (lsb_hi (op ++ sel ++ BitVec.ofBool n) off 0).trans ((lsb_lo (op ++ sel) (BitVec.ofBool n) 0 (by decide)).trans (lsb_ofBool n))
theorem isPrefix_branch (op : BitVec 8) (sel : BitVec 6) (n : BitVec 1) (off : BitVec 17) (h : op.extractLsb' 4 4 ≠ 0xF#4) : isPrefix (op ++ sel ++ n ++ off : BitVec 32) = false := by
  have e : BitVec.extractLsb' 28 4 (op ++ sel ++ n ++ off : BitVec 32) = op.extractLsb' 4 4 := (ext_hi (op ++ sel ++ n) off 11 4).trans ((ext_hi (op ++ sel) n 10 4).trans (ext_hi (op) sel 4 4))
  rw [isPrefix, e]; exact beq_false_of_ne h
@[simp] theorem opcode_long (op : BitVec 8) (x : BitVec 24) :
    opcode (op ++ x : BitVec 32) = op.toNat :=
  congrArg BitVec.toNat ((ext_hi (op) x 0 8).trans (ext_all op))
@[simp] theorem off_long (op : BitVec 8) (x : BitVec 24) :
    BitVec.extractLsb' 0 24 (op ++ x : BitVec 32) = x :=
  (ext_lo (op) x 0 24 (by decide)).trans (ext_all x)
theorem isPrefix_long (op : BitVec 8) (x : BitVec 24) (h : op.extractLsb' 4 4 ≠ 0xF#4) : isPrefix (op ++ x : BitVec 32) = false := by
  have e : BitVec.extractLsb' 28 4 (op ++ x : BitVec 32) = op.extractLsb' 4 4 := ext_hi (op) x 4 4
  rw [isPrefix, e]; exact beq_false_of_ne h
@[simp] theorem opcode_waits (op : BitVec 8) (p q r t : BitVec 6) :
    opcode (op ++ p ++ q ++ r ++ t : BitVec 32) = op.toNat :=
  congrArg BitVec.toNat ((ext_hi (op ++ p ++ q ++ r) t 18 8).trans ((ext_hi (op ++ p ++ q) r 12 8).trans ((ext_hi (op ++ p) q 6 8).trans ((ext_hi (op) p 0 8).trans (ext_all op)))))
@[simp] theorem waits_p (op : BitVec 8) (p q r t : BitVec 6) :
    BitVec.extractLsb' 18 6 (op ++ p ++ q ++ r ++ t : BitVec 32) = p :=
  (ext_hi (op ++ p ++ q ++ r) t 12 6).trans ((ext_hi (op ++ p ++ q) r 6 6).trans ((ext_hi (op ++ p) q 0 6).trans ((ext_lo (op) p 0 6 (by decide)).trans (ext_all p))))
@[simp] theorem waits_q (op : BitVec 8) (p q r t : BitVec 6) :
    BitVec.extractLsb' 12 6 (op ++ p ++ q ++ r ++ t : BitVec 32) = q :=
  (ext_hi (op ++ p ++ q ++ r) t 6 6).trans ((ext_hi (op ++ p ++ q) r 0 6).trans ((ext_lo (op ++ p) q 0 6 (by decide)).trans (ext_all q)))
@[simp] theorem waits_r (op : BitVec 8) (p q r t : BitVec 6) :
    BitVec.extractLsb' 6 6 (op ++ p ++ q ++ r ++ t : BitVec 32) = r :=
  (ext_hi (op ++ p ++ q ++ r) t 0 6).trans ((ext_lo (op ++ p ++ q) r 0 6 (by decide)).trans (ext_all r))
@[simp] theorem waits_t (op : BitVec 8) (p q r t : BitVec 6) :
    BitVec.extractLsb' 0 6 (op ++ p ++ q ++ r ++ t : BitVec 32) = t :=
  (ext_lo (op ++ p ++ q ++ r) t 0 6 (by decide)).trans (ext_all t)
theorem isPrefix_waits (op : BitVec 8) (p q r t : BitVec 6) (h : op.extractLsb' 4 4 ≠ 0xF#4) : isPrefix (op ++ p ++ q ++ r ++ t : BitVec 32) = false := by
  have e : BitVec.extractLsb' 28 4 (op ++ p ++ q ++ r ++ t : BitVec 32) = op.extractLsb' 4 4 := (ext_hi (op ++ p ++ q ++ r) t 22 4).trans ((ext_hi (op ++ p ++ q) r 16 4).trans ((ext_hi (op ++ p) q 10 4).trans (ext_hi (op) p 4 4)))
  rw [isPrefix, e]; exact beq_false_of_ne h

-- ## Low bytes

@[simp] theorem MFld.dec_encR (op d a : BitVec 8) (m : MFld) : MFld.dec (encR op d a m.enc) = m := by
  have h1 : m.enc.extractLsb' 5 3 = m.w := (ext_hi (m.w ++ (BitVec.ofBool m.x) ++ m.bp) (BitVec.ofBool m.c) 4 3).trans ((ext_hi (m.w ++ (BitVec.ofBool m.x)) m.bp 1 3).trans ((ext_hi (m.w) (BitVec.ofBool m.x) 0 3).trans (ext_all m.w)))
  have h2 : m.enc.getLsbD 4 = m.x := (lsb_hi (m.w ++ (BitVec.ofBool m.x) ++ m.bp) (BitVec.ofBool m.c) 3).trans ((lsb_hi (m.w ++ (BitVec.ofBool m.x)) m.bp 0).trans ((lsb_lo (m.w) (BitVec.ofBool m.x) 0 (by decide)).trans (lsb_ofBool m.x)))
  have h3 : m.enc.extractLsb' 1 3 = m.bp := (ext_hi (m.w ++ (BitVec.ofBool m.x) ++ m.bp) (BitVec.ofBool m.c) 0 3).trans ((ext_lo (m.w ++ (BitVec.ofBool m.x)) m.bp 0 3 (by decide)).trans (ext_all m.bp))
  have h4 : m.enc.getLsbD 0 = m.c := (lsb_lo (m.w ++ (BitVec.ofBool m.x) ++ m.bp) (BitVec.ofBool m.c) 0 (by decide)).trans (lsb_ofBool m.c)
  simp only [MFld.dec, low_5_3, bit_4, low_1_3, bit_0, h1, h2, h3, h4]
@[simp] theorem scalar_w (w : BitVec 3) (c : Bool) :
    BitVec.extractLsb' 5 3 (w ++ 8#4 ++ BitVec.ofBool c : BitVec 8) = w :=
  (ext_hi (w ++ 8#4) (BitVec.ofBool c) 4 3).trans ((ext_hi (w) 8#4 0 3).trans (ext_all w))
@[simp] theorem scalar_x (w : BitVec 3) (c : Bool) :
    BitVec.extractLsb' 1 4 (w ++ 8#4 ++ BitVec.ofBool c : BitVec 8) = 8#4 :=
  (ext_hi (w ++ 8#4) (BitVec.ofBool c) 0 4).trans ((ext_lo (w) 8#4 0 4 (by decide)).trans (ext_all 8#4))
@[simp] theorem scalar_c (w : BitVec 3) (c : Bool) :
    BitVec.getLsbD (w ++ 8#4 ++ BitVec.ofBool c : BitVec 8) 0 = c :=
  (lsb_lo (w ++ 8#4) (BitVec.ofBool c) 0 (by decide)).trans (lsb_ofBool c)
@[simp] theorem nibbles_hi (a b : BitVec 4) :
    BitVec.extractLsb' 4 4 (a ++ b : BitVec 8) = a :=
  (ext_hi (a) b 0 4).trans (ext_all a)
@[simp] theorem nibbles_lo (a b : BitVec 4) :
    BitVec.extractLsb' 0 4 (a ++ b : BitVec 8) = b :=
  (ext_lo (a) b 0 4 (by decide)).trans (ext_all b)
@[simp] theorem copy_size (s t : BitVec 3) (b : BitVec 2) :
    BitVec.extractLsb' 5 3 (s ++ t ++ b : BitVec 8) = s :=
  (ext_hi (s ++ t) b 3 3).trans ((ext_hi (s) t 0 3).trans (ext_all s))
@[simp] theorem copy_tag (s t : BitVec 3) (b : BitVec 2) :
    BitVec.extractLsb' 2 3 (s ++ t ++ b : BitVec 8) = t :=
  (ext_hi (s ++ t) b 0 3).trans ((ext_lo (s) t 0 3 (by decide)).trans (ext_all t))
@[simp] theorem copy_bar (s t : BitVec 3) (b : BitVec 2) :
    BitVec.extractLsb' 0 2 (s ++ t ++ b : BitVec 8) = b :=
  (ext_lo (s ++ t) b 0 2 (by decide)).trans (ext_all b)
@[simp] theorem six_low (x : BitVec 2) (n : BitVec 6) :
    BitVec.extractLsb' 0 6 (x ++ n : BitVec 8) = n :=
  (ext_lo x n 0 6 (by decide)).trans (ext_all n)
@[simp] theorem two_low (x : BitVec 6) (n : BitVec 2) :
    BitVec.extractLsb' 0 2 (x ++ n : BitVec 8) = n :=
  (ext_lo x n 0 2 (by decide)).trans (ext_all n)
@[simp] theorem one_low (x : BitVec 7) (b : Bool) :
    BitVec.getLsbD (x ++ BitVec.ofBool b : BitVec 8) 0 = b :=
  (lsb_lo x (BitVec.ofBool b) 0 (by decide)).trans (lsb_ofBool b)

theorem low_masked {n m : Nat} (x : BitVec m) (u : BitVec n) : (0#n ++ x) &&& (u ++ 0#m) = 0#(n + m) := by
  rw [BitVec.and_append]; simp

-- ## Prefixes

@[simp] theorem VPfx.dec_enc (p : VPfx) : VPfx.dec p.enc = p := by
  have h_gp : p.enc.extractLsb' 20 6 = p.gp := (ext_hi (0xF#4 ++ 0#2 ++ p.gp ++ (BitVec.ofBool p.gn) ++ (BitVec.ofBool p.gv) ++ p.rnd ++ p.mz ++ p.c ++ p.type) (BitVec.ofBool p.acb) 19 6).trans ((ext_hi (0xF#4 ++ 0#2 ++ p.gp ++ (BitVec.ofBool p.gn) ++ (BitVec.ofBool p.gv) ++ p.rnd ++ p.mz ++ p.c) p.type 15 6).trans ((ext_hi (0xF#4 ++ 0#2 ++ p.gp ++ (BitVec.ofBool p.gn) ++ (BitVec.ofBool p.gv) ++ p.rnd ++ p.mz) p.c 7 6).trans ((ext_hi (0xF#4 ++ 0#2 ++ p.gp ++ (BitVec.ofBool p.gn) ++ (BitVec.ofBool p.gv) ++ p.rnd) p.mz 5 6).trans ((ext_hi (0xF#4 ++ 0#2 ++ p.gp ++ (BitVec.ofBool p.gn) ++ (BitVec.ofBool p.gv)) p.rnd 2 6).trans ((ext_hi (0xF#4 ++ 0#2 ++ p.gp ++ (BitVec.ofBool p.gn)) (BitVec.ofBool p.gv) 1 6).trans ((ext_hi (0xF#4 ++ 0#2 ++ p.gp) (BitVec.ofBool p.gn) 0 6).trans ((ext_lo (0xF#4 ++ 0#2) p.gp 0 6 (by decide)).trans (ext_all p.gp))))))))
  have h_rnd : p.enc.extractLsb' 15 3 = p.rnd := (ext_hi (0xF#4 ++ 0#2 ++ p.gp ++ (BitVec.ofBool p.gn) ++ (BitVec.ofBool p.gv) ++ p.rnd ++ p.mz ++ p.c ++ p.type) (BitVec.ofBool p.acb) 14 3).trans ((ext_hi (0xF#4 ++ 0#2 ++ p.gp ++ (BitVec.ofBool p.gn) ++ (BitVec.ofBool p.gv) ++ p.rnd ++ p.mz ++ p.c) p.type 10 3).trans ((ext_hi (0xF#4 ++ 0#2 ++ p.gp ++ (BitVec.ofBool p.gn) ++ (BitVec.ofBool p.gv) ++ p.rnd ++ p.mz) p.c 2 3).trans ((ext_hi (0xF#4 ++ 0#2 ++ p.gp ++ (BitVec.ofBool p.gn) ++ (BitVec.ofBool p.gv) ++ p.rnd) p.mz 0 3).trans ((ext_lo (0xF#4 ++ 0#2 ++ p.gp ++ (BitVec.ofBool p.gn) ++ (BitVec.ofBool p.gv)) p.rnd 0 3 (by decide)).trans (ext_all p.rnd)))))
  have h_mz : p.enc.extractLsb' 13 2 = p.mz := (ext_hi (0xF#4 ++ 0#2 ++ p.gp ++ (BitVec.ofBool p.gn) ++ (BitVec.ofBool p.gv) ++ p.rnd ++ p.mz ++ p.c ++ p.type) (BitVec.ofBool p.acb) 12 2).trans ((ext_hi (0xF#4 ++ 0#2 ++ p.gp ++ (BitVec.ofBool p.gn) ++ (BitVec.ofBool p.gv) ++ p.rnd ++ p.mz ++ p.c) p.type 8 2).trans ((ext_hi (0xF#4 ++ 0#2 ++ p.gp ++ (BitVec.ofBool p.gn) ++ (BitVec.ofBool p.gv) ++ p.rnd ++ p.mz) p.c 0 2).trans ((ext_lo (0xF#4 ++ 0#2 ++ p.gp ++ (BitVec.ofBool p.gn) ++ (BitVec.ofBool p.gv) ++ p.rnd) p.mz 0 2 (by decide)).trans (ext_all p.mz))))
  have h_c : p.enc.extractLsb' 5 8 = p.c := (ext_hi (0xF#4 ++ 0#2 ++ p.gp ++ (BitVec.ofBool p.gn) ++ (BitVec.ofBool p.gv) ++ p.rnd ++ p.mz ++ p.c ++ p.type) (BitVec.ofBool p.acb) 4 8).trans ((ext_hi (0xF#4 ++ 0#2 ++ p.gp ++ (BitVec.ofBool p.gn) ++ (BitVec.ofBool p.gv) ++ p.rnd ++ p.mz ++ p.c) p.type 0 8).trans ((ext_lo (0xF#4 ++ 0#2 ++ p.gp ++ (BitVec.ofBool p.gn) ++ (BitVec.ofBool p.gv) ++ p.rnd ++ p.mz) p.c 0 8 (by decide)).trans (ext_all p.c)))
  have h_type : p.enc.extractLsb' 1 4 = p.type := (ext_hi (0xF#4 ++ 0#2 ++ p.gp ++ (BitVec.ofBool p.gn) ++ (BitVec.ofBool p.gv) ++ p.rnd ++ p.mz ++ p.c ++ p.type) (BitVec.ofBool p.acb) 0 4).trans ((ext_lo (0xF#4 ++ 0#2 ++ p.gp ++ (BitVec.ofBool p.gn) ++ (BitVec.ofBool p.gv) ++ p.rnd ++ p.mz ++ p.c) p.type 0 4 (by decide)).trans (ext_all p.type))
  have h_gn : p.enc.getLsbD 19 = p.gn := (lsb_hi (0xF#4 ++ 0#2 ++ p.gp ++ (BitVec.ofBool p.gn) ++ (BitVec.ofBool p.gv) ++ p.rnd ++ p.mz ++ p.c ++ p.type) (BitVec.ofBool p.acb) 18).trans ((lsb_hi (0xF#4 ++ 0#2 ++ p.gp ++ (BitVec.ofBool p.gn) ++ (BitVec.ofBool p.gv) ++ p.rnd ++ p.mz ++ p.c) p.type 14).trans ((lsb_hi (0xF#4 ++ 0#2 ++ p.gp ++ (BitVec.ofBool p.gn) ++ (BitVec.ofBool p.gv) ++ p.rnd ++ p.mz) p.c 6).trans ((lsb_hi (0xF#4 ++ 0#2 ++ p.gp ++ (BitVec.ofBool p.gn) ++ (BitVec.ofBool p.gv) ++ p.rnd) p.mz 4).trans ((lsb_hi (0xF#4 ++ 0#2 ++ p.gp ++ (BitVec.ofBool p.gn) ++ (BitVec.ofBool p.gv)) p.rnd 1).trans ((lsb_hi (0xF#4 ++ 0#2 ++ p.gp ++ (BitVec.ofBool p.gn)) (BitVec.ofBool p.gv) 0).trans ((lsb_lo (0xF#4 ++ 0#2 ++ p.gp) (BitVec.ofBool p.gn) 0 (by decide)).trans (lsb_ofBool p.gn)))))))
  have h_gv : p.enc.getLsbD 18 = p.gv := (lsb_hi (0xF#4 ++ 0#2 ++ p.gp ++ (BitVec.ofBool p.gn) ++ (BitVec.ofBool p.gv) ++ p.rnd ++ p.mz ++ p.c ++ p.type) (BitVec.ofBool p.acb) 17).trans ((lsb_hi (0xF#4 ++ 0#2 ++ p.gp ++ (BitVec.ofBool p.gn) ++ (BitVec.ofBool p.gv) ++ p.rnd ++ p.mz ++ p.c) p.type 13).trans ((lsb_hi (0xF#4 ++ 0#2 ++ p.gp ++ (BitVec.ofBool p.gn) ++ (BitVec.ofBool p.gv) ++ p.rnd ++ p.mz) p.c 5).trans ((lsb_hi (0xF#4 ++ 0#2 ++ p.gp ++ (BitVec.ofBool p.gn) ++ (BitVec.ofBool p.gv) ++ p.rnd) p.mz 3).trans ((lsb_hi (0xF#4 ++ 0#2 ++ p.gp ++ (BitVec.ofBool p.gn) ++ (BitVec.ofBool p.gv)) p.rnd 0).trans ((lsb_lo (0xF#4 ++ 0#2 ++ p.gp ++ (BitVec.ofBool p.gn)) (BitVec.ofBool p.gv) 0 (by decide)).trans (lsb_ofBool p.gv))))))
  have h_acb : p.enc.getLsbD 0 = p.acb := (lsb_lo (0xF#4 ++ 0#2 ++ p.gp ++ (BitVec.ofBool p.gn) ++ (BitVec.ofBool p.gv) ++ p.rnd ++ p.mz ++ p.c ++ p.type) (BitVec.ofBool p.acb) 0 (by decide)).trans (lsb_ofBool p.acb)
  simp only [VPfx.dec, h_gp, h_rnd, h_mz, h_c, h_type, h_gn, h_gv, h_acb]
@[simp] theorem VPfx.kind_enc (p : VPfx) : pfxKind p.enc = 0#2 :=
  (ext_hi (0xF#4 ++ 0#2 ++ p.gp ++ (BitVec.ofBool p.gn) ++ (BitVec.ofBool p.gv) ++ p.rnd ++ p.mz ++ p.c ++ p.type) (BitVec.ofBool p.acb) 25 2).trans ((ext_hi (0xF#4 ++ 0#2 ++ p.gp ++ (BitVec.ofBool p.gn) ++ (BitVec.ofBool p.gv) ++ p.rnd ++ p.mz ++ p.c) p.type 21 2).trans ((ext_hi (0xF#4 ++ 0#2 ++ p.gp ++ (BitVec.ofBool p.gn) ++ (BitVec.ofBool p.gv) ++ p.rnd ++ p.mz) p.c 13 2).trans ((ext_hi (0xF#4 ++ 0#2 ++ p.gp ++ (BitVec.ofBool p.gn) ++ (BitVec.ofBool p.gv) ++ p.rnd) p.mz 11 2).trans ((ext_hi (0xF#4 ++ 0#2 ++ p.gp ++ (BitVec.ofBool p.gn) ++ (BitVec.ofBool p.gv)) p.rnd 8 2).trans ((ext_hi (0xF#4 ++ 0#2 ++ p.gp ++ (BitVec.ofBool p.gn)) (BitVec.ofBool p.gv) 7 2).trans ((ext_hi (0xF#4 ++ 0#2 ++ p.gp) (BitVec.ofBool p.gn) 6 2).trans ((ext_hi (0xF#4 ++ 0#2) p.gp 0 2).trans ((ext_lo (0xF#4) 0#2 0 2 (by decide)).trans (ext_all 0#2)))))))))
@[simp] theorem VPfx.isPrefix_enc (p : VPfx) : isPrefix p.enc = true := by
  have e : p.enc.extractLsb' 28 4 = 0xF#4 := (ext_hi (0xF#4 ++ 0#2 ++ p.gp ++ (BitVec.ofBool p.gn) ++ (BitVec.ofBool p.gv) ++ p.rnd ++ p.mz ++ p.c ++ p.type) (BitVec.ofBool p.acb) 27 4).trans ((ext_hi (0xF#4 ++ 0#2 ++ p.gp ++ (BitVec.ofBool p.gn) ++ (BitVec.ofBool p.gv) ++ p.rnd ++ p.mz ++ p.c) p.type 23 4).trans ((ext_hi (0xF#4 ++ 0#2 ++ p.gp ++ (BitVec.ofBool p.gn) ++ (BitVec.ofBool p.gv) ++ p.rnd ++ p.mz) p.c 15 4).trans ((ext_hi (0xF#4 ++ 0#2 ++ p.gp ++ (BitVec.ofBool p.gn) ++ (BitVec.ofBool p.gv) ++ p.rnd) p.mz 13 4).trans ((ext_hi (0xF#4 ++ 0#2 ++ p.gp ++ (BitVec.ofBool p.gn) ++ (BitVec.ofBool p.gv)) p.rnd 10 4).trans ((ext_hi (0xF#4 ++ 0#2 ++ p.gp ++ (BitVec.ofBool p.gn)) (BitVec.ofBool p.gv) 9 4).trans ((ext_hi (0xF#4 ++ 0#2 ++ p.gp) (BitVec.ofBool p.gn) 8 4).trans ((ext_hi (0xF#4 ++ 0#2) p.gp 2 4).trans ((ext_hi (0xF#4) 0#2 0 4).trans (ext_all 0xF#4)))))))))
  rw [isPrefix, e]; rfl
@[simp] theorem OPfx.dec_enc (q : OPfx) : OPfx.dec q.enc = q := by
  have h_scope : q.enc.extractLsb' 23 3 = q.scope := (ext_hi (0xF#4 ++ 3#2 ++ q.scope ++ q.ord ++ (BitVec.ofBool q.far) ++ (BitVec.ofBool q.nr) ++ q.c) 0#11 12 3).trans ((ext_hi (0xF#4 ++ 3#2 ++ q.scope ++ q.ord ++ (BitVec.ofBool q.far) ++ (BitVec.ofBool q.nr)) q.c 4 3).trans ((ext_hi (0xF#4 ++ 3#2 ++ q.scope ++ q.ord ++ (BitVec.ofBool q.far)) (BitVec.ofBool q.nr) 3 3).trans ((ext_hi (0xF#4 ++ 3#2 ++ q.scope ++ q.ord) (BitVec.ofBool q.far) 2 3).trans ((ext_hi (0xF#4 ++ 3#2 ++ q.scope) q.ord 0 3).trans ((ext_lo (0xF#4 ++ 3#2) q.scope 0 3 (by decide)).trans (ext_all q.scope))))))
  have h_ord : q.enc.extractLsb' 21 2 = q.ord := (ext_hi (0xF#4 ++ 3#2 ++ q.scope ++ q.ord ++ (BitVec.ofBool q.far) ++ (BitVec.ofBool q.nr) ++ q.c) 0#11 10 2).trans ((ext_hi (0xF#4 ++ 3#2 ++ q.scope ++ q.ord ++ (BitVec.ofBool q.far) ++ (BitVec.ofBool q.nr)) q.c 2 2).trans ((ext_hi (0xF#4 ++ 3#2 ++ q.scope ++ q.ord ++ (BitVec.ofBool q.far)) (BitVec.ofBool q.nr) 1 2).trans ((ext_hi (0xF#4 ++ 3#2 ++ q.scope ++ q.ord) (BitVec.ofBool q.far) 0 2).trans ((ext_lo (0xF#4 ++ 3#2 ++ q.scope) q.ord 0 2 (by decide)).trans (ext_all q.ord)))))
  have h_c : q.enc.extractLsb' 11 8 = q.c := (ext_hi (0xF#4 ++ 3#2 ++ q.scope ++ q.ord ++ (BitVec.ofBool q.far) ++ (BitVec.ofBool q.nr) ++ q.c) 0#11 0 8).trans ((ext_lo (0xF#4 ++ 3#2 ++ q.scope ++ q.ord ++ (BitVec.ofBool q.far) ++ (BitVec.ofBool q.nr)) q.c 0 8 (by decide)).trans (ext_all q.c))
  have h_far : q.enc.getLsbD 20 = q.far := (lsb_hi (0xF#4 ++ 3#2 ++ q.scope ++ q.ord ++ (BitVec.ofBool q.far) ++ (BitVec.ofBool q.nr) ++ q.c) 0#11 9).trans ((lsb_hi (0xF#4 ++ 3#2 ++ q.scope ++ q.ord ++ (BitVec.ofBool q.far) ++ (BitVec.ofBool q.nr)) q.c 1).trans ((lsb_hi (0xF#4 ++ 3#2 ++ q.scope ++ q.ord ++ (BitVec.ofBool q.far)) (BitVec.ofBool q.nr) 0).trans ((lsb_lo (0xF#4 ++ 3#2 ++ q.scope ++ q.ord) (BitVec.ofBool q.far) 0 (by decide)).trans (lsb_ofBool q.far))))
  have h_nr : q.enc.getLsbD 19 = q.nr := (lsb_hi (0xF#4 ++ 3#2 ++ q.scope ++ q.ord ++ (BitVec.ofBool q.far) ++ (BitVec.ofBool q.nr) ++ q.c) 0#11 8).trans ((lsb_hi (0xF#4 ++ 3#2 ++ q.scope ++ q.ord ++ (BitVec.ofBool q.far) ++ (BitVec.ofBool q.nr)) q.c 0).trans ((lsb_lo (0xF#4 ++ 3#2 ++ q.scope ++ q.ord ++ (BitVec.ofBool q.far)) (BitVec.ofBool q.nr) 0 (by decide)).trans (lsb_ofBool q.nr)))
  simp only [OPfx.dec, h_scope, h_ord, h_c, h_far, h_nr]
@[simp] theorem OPfx.kind_enc (q : OPfx) : pfxKind q.enc = 3#2 :=
  (ext_hi (0xF#4 ++ 3#2 ++ q.scope ++ q.ord ++ (BitVec.ofBool q.far) ++ (BitVec.ofBool q.nr) ++ q.c) 0#11 15 2).trans ((ext_hi (0xF#4 ++ 3#2 ++ q.scope ++ q.ord ++ (BitVec.ofBool q.far) ++ (BitVec.ofBool q.nr)) q.c 7 2).trans ((ext_hi (0xF#4 ++ 3#2 ++ q.scope ++ q.ord ++ (BitVec.ofBool q.far)) (BitVec.ofBool q.nr) 6 2).trans ((ext_hi (0xF#4 ++ 3#2 ++ q.scope ++ q.ord) (BitVec.ofBool q.far) 5 2).trans ((ext_hi (0xF#4 ++ 3#2 ++ q.scope) q.ord 3 2).trans ((ext_hi (0xF#4 ++ 3#2) q.scope 0 2).trans ((ext_lo (0xF#4) 3#2 0 2 (by decide)).trans (ext_all 3#2)))))))
@[simp] theorem OPfx.isPrefix_enc (q : OPfx) : isPrefix q.enc = true := by
  have e : q.enc.extractLsb' 28 4 = 0xF#4 := (ext_hi (0xF#4 ++ 3#2 ++ q.scope ++ q.ord ++ (BitVec.ofBool q.far) ++ (BitVec.ofBool q.nr) ++ q.c) 0#11 17 4).trans ((ext_hi (0xF#4 ++ 3#2 ++ q.scope ++ q.ord ++ (BitVec.ofBool q.far) ++ (BitVec.ofBool q.nr)) q.c 9 4).trans ((ext_hi (0xF#4 ++ 3#2 ++ q.scope ++ q.ord ++ (BitVec.ofBool q.far)) (BitVec.ofBool q.nr) 8 4).trans ((ext_hi (0xF#4 ++ 3#2 ++ q.scope ++ q.ord) (BitVec.ofBool q.far) 7 4).trans ((ext_hi (0xF#4 ++ 3#2 ++ q.scope) q.ord 5 4).trans ((ext_hi (0xF#4 ++ 3#2) q.scope 2 4).trans ((ext_hi (0xF#4) 3#2 0 4).trans (ext_all 0xF#4)))))))
  rw [isPrefix, e]; rfl
@[simp] theorem OPfx.zeros_enc (q : OPfx) : z q.enc 0x000007FF#32 = true := by
  have h : q.enc &&& (0#21 ++ 0x7FF#11) = 0#21 ++ (0#11 &&& 0x7FF#11) := by
    unfold OPfx.enc
    rw [BitVec.and_append, BitVec.and_zero]
  exact beq_iff_eq.2 (h.trans rfl)
@[simp] theorem kind_encImm (x : BitVec 24) : pfxKind (encImm x) = 1#2 :=
  (ext_hi 0xF4#8 x 2 2).trans rfl
@[simp] theorem isPrefix_encImm (x : BitVec 24) : isPrefix (encImm x) = true := by
  have e : (encImm x).extractLsb' 28 4 = 0xF#4 := (ext_hi 0xF4#8 x 4 4).trans rfl
  rw [isPrefix, e]; rfl
@[simp] theorem value_encImm (x : BitVec 24) : (encImm x).extractLsb' 0 24 = x := (ext_lo 0xF4#8 x 0 24 (by decide)).trans (ext_all x)
@[simp] theorem zeros_encImm (x : BitVec 24) : z (encImm x) 0x03000000#32 = true := by
  have h : encImm x &&& (0x03#8 ++ 0#24) = (0xF4#8 &&& 0x03#8) ++ (x &&& 0#24) := by
    unfold encImm
    rw [BitVec.and_append]
  rw [BitVec.and_zero] at h
  exact beq_iff_eq.2 (h.trans rfl)
@[simp] theorem kind_encRejoin (x : BitVec 24) : pfxKind (encRejoin x) = 2#2 :=
  (ext_hi 0xF8#8 x 2 2).trans rfl
@[simp] theorem isPrefix_encRejoin (x : BitVec 24) : isPrefix (encRejoin x) = true := by
  have e : (encRejoin x).extractLsb' 28 4 = 0xF#4 := (ext_hi 0xF8#8 x 4 4).trans rfl
  rw [isPrefix, e]; rfl
@[simp] theorem value_encRejoin (x : BitVec 24) : (encRejoin x).extractLsb' 0 24 = x := (ext_lo 0xF8#8 x 0 24 (by decide)).trans (ext_all x)
@[simp] theorem zeros_encRejoin (x : BitVec 24) : z (encRejoin x) 0x03000000#32 = true := by
  have h : encRejoin x &&& (0x03#8 ++ 0#24) = (0xF8#8 &&& 0x03#8) ++ (x &&& 0#24) := by
    unfold encRejoin
    rw [BitVec.and_append]
  rw [BitVec.and_zero] at h
  exact beq_iff_eq.2 (h.trans rfl)

@[simp] theorem onePfx_v (p : VPfx) : onePfx p.enc = some { v := some p } := by simp [onePfx]
@[simp] theorem onePfx_o (q : OPfx) : onePfx q.enc = some { o := some q } := by simp [onePfx]
@[simp] theorem onePfx_i (x : BitVec 24) : onePfx (encImm x) = some { i := some x } := by simp [onePfx]
@[simp] theorem onePfx_j (x : BitVec 24) : onePfx (encRejoin x) = some { j := some x } := by simp [onePfx]

theorem arrange_v (p : Option VPfx) : arrange (optW VPfx.enc p) = some { v := p } := by
  cases p <;> simp [optW, arrange]
theorem arrange_i (x : Option (BitVec 24)) : arrange (optW encImm x) = some { i := x } := by
  cases x <;> simp [optW, arrange]
theorem arrange_j (x : Option (BitVec 24)) : arrange (optW encRejoin x) = some { j := x } := by
  cases x <;> simp [optW, arrange]
theorem arrange_o (q : Option OPfx) : arrange (optW OPfx.enc q) = some { o := q } := by
  cases q <;> simp [optW, arrange]
theorem arrange_iv (x : Option (BitVec 24)) (p : Option VPfx) : arrange (optW encImm x ++ optW VPfx.enc p) = some { i := x, v := p } := by
  cases x <;> cases p <;> simp [optW, arrange]
theorem arrange_ov (q : Option OPfx) (p : Option VPfx) : arrange (optW OPfx.enc q ++ optW VPfx.enc p) = some { o := q, v := p } := by
  cases q <;> cases p <;> simp [optW, arrange]

-- ## When a decoding succeeds

/-- At most two prefix words. -/
def Fits (ps : List (BitVec 32)) : Prop := ps.length ≤ 2 ∧ ∀ p ∈ ps, isPrefix p = true

theorem fits_nil : Fits [] := ⟨by decide, by simp⟩
theorem fits_one (p : BitVec 32) (h : isPrefix p = true) : Fits [p] := ⟨Nat.le_succ 1, by simpa using h⟩
theorem fits_opt {α : Type} (f : α → BitVec 32) (h : ∀ a, isPrefix (f a) = true) (x : Option α) : Fits (optW f x) := by
  cases x with
  | none => exact fits_nil
  | some a => exact fits_one _ (h a)
theorem fits_two {α β : Type} (f : α → BitVec 32) (g : β → BitVec 32) (hf : ∀ a, isPrefix (f a) = true)
    (hg : ∀ b, isPrefix (g b) = true) (x : Option α) (y : Option β) : Fits (optW f x ++ optW g y) := by
  cases x <;> cases y <;> simp [optW, Fits, hf, hg]

/-- A base word behind its prefixes decodes to what `build` makes of it, where checks 2 to 4 of R286 pass. -/
theorem decodeWords_ok {i : Instr} {w : BitVec 32} {ps : List (BitVec 32)} {x : Pfx} (hps : Fits ps) (hw : isPrefix w = false)
    (hr : reservedOp (opcode w) = false) (ha : arrange ps = some x) (hk : kindsFit (opcode w) x = true)
    (hb : build (opcode w) x w = some (i, true)) (hi : i.wf = true) : decodeWords (ps ++ [w]) = .ok i (ps ++ [w]).length := by
  have hbase : decodeBase ps w = .ok i (ps.length + 1) := by
    simp only [Instr.wf, Bool.and_eq_true] at hi
    simp [decodeBase, hr, ha, hk, hb, hi.1, hi.2]
  rw [List.length_append, List.length_singleton]
  obtain ⟨hl, hp⟩ := hps
  match ps, hl, hp, hbase with
  | [], _, _, hbase => simpa [decodeWords, hw] using hbase
  | [p], _, hp, hbase => simpa [decodeWords, hw, hp p (by simp)] using hbase
  | [p, q], _, hp, hbase => simpa [decodeWords, hw, hp p (by simp), hp q (by simp)] using hbase

-- ## Bytes

theorem wordsOf_bytes (ws : List (BitVec 32)) : wordsOf (ws.flatMap fun w => leBytes 4 w.toNat) = ws := by
  induction ws with
  | nil => rfl
  | cons w ws ih =>
    have hw : w.toNat < 2 ^ 32 := w.isLt
    have e : BitVec.ofNat 32 (leNat (leBytes 4 w.toNat)) = w := by
      apply BitVec.eq_of_toNat_eq
      simp only [leBytes, leNat, BitVec.toNat_ofNat]
      omega
    show BitVec.ofNat 32 (leNat (leBytes 4 w.toNat)) :: wordsOf (ws.flatMap fun w => leBytes 4 w.toNat) = w :: ws
    rw [e, ih]

end Sys2Proof
end

