-- ==== Sys2Proof/Laws/Exec.lean ====
section
/-!
SUPPORT. Dispatch, one equation a constructor: `exec` of an instruction is its meaning.
-/
namespace Sys2Proof.Machine

theorem exec_nop (s : State) : exec .nop s = execNop s := rfl
theorem exec_exit (s : State) : exec .exit s = execExit s := rfl
theorem exec_bra (off : BitVec 24) (s : State) : exec (.bra off) s = execBra off s := rfl
theorem exec_call (off : BitVec 24) (s : State) : exec (.call off) s = execCall off s := rfl
theorem exec_ret (s : State) : exec .ret s = execRet s := rfl
theorem exec_jmpr (a : BitVec 8) (s : State) : exec (.jmpr a) s = execJmpr a s := rfl
theorem exec_brs (sel : BitVec 6) (off : BitVec 17) (s : State) : exec (.brs sel off) s = execBrs sel off s := rfl
theorem exec_brsz (sel : BitVec 6) (off : BitVec 17) (s : State) : exec (.brsz sel off) s = execBrsz sel off s := rfl
theorem exec_brv (rejoin : Option (BitVec 24)) (sel : BitVec 6) (neg : Bool) (off : BitVec 17) (s : State) : exec (.brv rejoin sel neg off) s = execBrv rejoin sel neg off s := rfl
theorem exec_brany (sel : BitVec 6) (neg : Bool) (off : BitVec 17) (s : State) : exec (.brany sel neg off) s = execBrany sel neg off s := rfl
theorem exec_brall (sel : BitVec 6) (neg : Bool) (off : BitVec 17) (s : State) : exec (.brall sel neg off) s = execBrall sel neg off s := rfl
theorem exec_syncw (s : State) : exec .syncw s = execSyncw s := rfl
theorem exec_trap (code : BitVec 24) (s : State) : exec (.trap code) s = execTrap code s := rfl
theorem exec_brk (code : BitVec 24) (s : State) : exec (.brk code) s = execBrk code s := rfl
theorem exec_yield (s : State) : exec .yield s = execYield s := rfl
theorem exec_sleep (a : BitVec 8) (s : State) : exec (.sleep a) s = execSleep a s := rfl
theorem exec_sadd (d : BitVec 8) (a : BitVec 8) (b : BitVec 8) (s : State) : exec (.sadd d a b) s = execSadd d a b s := rfl
theorem exec_ssub (d : BitVec 8) (a : BitVec 8) (b : BitVec 8) (s : State) : exec (.ssub d a b) s = execSsub d a b s := rfl
theorem exec_smul (d : BitVec 8) (a : BitVec 8) (b : BitVec 8) (s : State) : exec (.smul d a b) s = execSmul d a b s := rfl
theorem exec_smulh (d : BitVec 8) (a : BitVec 8) (b : BitVec 8) (s : State) : exec (.smulh d a b) s = execSmulh d a b s := rfl
theorem exec_smulhn (d : BitVec 8) (a : BitVec 8) (b : BitVec 8) (s : State) : exec (.smulhn d a b) s = execSmulhn d a b s := rfl
theorem exec_sand (d : BitVec 8) (a : BitVec 8) (b : BitVec 8) (s : State) : exec (.sand d a b) s = execSand d a b s := rfl
theorem exec_sor (d : BitVec 8) (a : BitVec 8) (b : BitVec 8) (s : State) : exec (.sor d a b) s = execSor d a b s := rfl
theorem exec_sxor (d : BitVec 8) (a : BitVec 8) (b : BitVec 8) (s : State) : exec (.sxor d a b) s = execSxor d a b s := rfl
theorem exec_sshl (d : BitVec 8) (a : BitVec 8) (b : BitVec 8) (s : State) : exec (.sshl d a b) s = execSshl d a b s := rfl
theorem exec_sshr (d : BitVec 8) (a : BitVec 8) (b : BitVec 8) (s : State) : exec (.sshr d a b) s = execSshr d a b s := rfl
theorem exec_ssra (d : BitVec 8) (a : BitVec 8) (b : BitVec 8) (s : State) : exec (.ssra d a b) s = execSsra d a b s := rfl
theorem exec_smin (d : BitVec 8) (a : BitVec 8) (b : BitVec 8) (s : State) : exec (.smin d a b) s = execSmin d a b s := rfl
theorem exec_smax (d : BitVec 8) (a : BitVec 8) (b : BitVec 8) (s : State) : exec (.smax d a b) s = execSmax d a b s := rfl
theorem exec_sminn (d : BitVec 8) (a : BitVec 8) (b : BitVec 8) (s : State) : exec (.sminn d a b) s = execSminn d a b s := rfl
theorem exec_smaxn (d : BitVec 8) (a : BitVec 8) (b : BitVec 8) (s : State) : exec (.smaxn d a b) s = execSmaxn d a b s := rfl
theorem exec_sadd64 (d : BitVec 8) (a : BitVec 8) (b : BitVec 8) (s : State) : exec (.sadd64 d a b) s = execSadd64 d a b s := rfl
theorem exec_saddi (x : Option (BitVec 24)) (d : BitVec 8) (a : BitVec 8) (n : BitVec 8) (s : State) : exec (.saddi x d a n) s = execSaddi x d a n s := rfl
theorem exec_sandi (x : Option (BitVec 24)) (d : BitVec 8) (a : BitVec 8) (n : BitVec 8) (s : State) : exec (.sandi x d a n) s = execSandi x d a n s := rfl
theorem exec_sori (x : Option (BitVec 24)) (d : BitVec 8) (a : BitVec 8) (n : BitVec 8) (s : State) : exec (.sori x d a n) s = execSori x d a n s := rfl
theorem exec_sxori (x : Option (BitVec 24)) (d : BitVec 8) (a : BitVec 8) (n : BitVec 8) (s : State) : exec (.sxori x d a n) s = execSxori x d a n s := rfl
theorem exec_sshli (d : BitVec 8) (a : BitVec 8) (n : BitVec 6) (s : State) : exec (.sshli d a n) s = execSshli d a n s := rfl
theorem exec_sshri (d : BitVec 8) (a : BitVec 8) (n : BitVec 6) (s : State) : exec (.sshri d a n) s = execSshri d a n s := rfl
theorem exec_ssrai (d : BitVec 8) (a : BitVec 8) (n : BitVec 6) (s : State) : exec (.ssrai d a n) s = execSsrai d a n s := rfl
theorem exec_smovi (x : Option (BitVec 24)) (d : BitVec 8) (n : BitVec 8) (s : State) : exec (.smovi x d n) s = execSmovi x d n s := rfl
theorem exec_seq (d : BitVec 8) (a : BitVec 8) (b : BitVec 8) (s : State) : exec (.seq d a b) s = execSeq d a b s := rfl
theorem exec_slt (d : BitVec 8) (a : BitVec 8) (b : BitVec 8) (s : State) : exec (.slt d a b) s = execSlt d a b s := rfl
theorem exec_sltn (d : BitVec 8) (a : BitVec 8) (b : BitVec 8) (s : State) : exec (.sltn d a b) s = execSltn d a b s := rfl
theorem exec_sle (d : BitVec 8) (a : BitVec 8) (b : BitVec 8) (s : State) : exec (.sle d a b) s = execSle d a b s := rfl
theorem exec_spopc (d : BitVec 8) (a : BitVec 8) (s : State) : exec (.spopc d a) s = execSpopc d a s := rfl
theorem exec_sclz (d : BitVec 8) (a : BitVec 8) (s : State) : exec (.sclz d a) s = execSclz d a s := rfl
theorem exec_sffs (d : BitVec 8) (a : BitVec 8) (s : State) : exec (.sffs d a) s = execSffs d a s := rfl
theorem exec_ssel (d : BitVec 8) (a : BitVec 8) (b : BitVec 8) (s : State) : exec (.ssel d a b) s = execSsel d a b s := rfl
theorem exec_srd (d : BitVec 8) (n : BitVec 8) (s : State) : exec (.srd d n) s = execSrd d n s := rfl
theorem exec_swr (a : BitVec 8) (n : BitVec 8) (s : State) : exec (.swr a n) s = execSwr a n s := rfl
theorem exec_setmode (a : BitVec 8) (s : State) : exec (.setmode a) s = execSetmode a s := rfl
theorem exec_getmode (d : BitVec 8) (s : State) : exec (.getmode d) s = execGetmode d s := rfl
theorem exec_prd (d : BitVec 8) (a : BitVec 8) (s : State) : exec (.prd d a) s = execPrd d a s := rfl
theorem exec_pwr (d : BitVec 8) (a : BitVec 8) (s : State) : exec (.pwr d a) s = execPwr d a s := rfl
theorem exec_vgetl (d : BitVec 8) (a : BitVec 8) (b : BitVec 8) (s : State) : exec (.vgetl d a b) s = execVgetl d a b s := rfl
theorem exec_vsetl (d : BitVec 8) (a : BitVec 8) (b : BitVec 8) (s : State) : exec (.vsetl d a b) s = execVsetl d a b s := rfl
theorem exec_smov (d : BitVec 8) (a : BitVec 8) (s : State) : exec (.smov d a) s = execSmov d a s := rfl
theorem exec_sld (o : Option OPfx) (d : BitVec 8) (a : BitVec 8) (w : BitVec 3) (c : Bool) (s : State) : exec (.sld o d a w c) s = execSld o d a w c s := rfl
theorem exec_sst (o : Option OPfx) (d : BitVec 8) (a : BitVec 8) (w : BitVec 3) (c : Bool) (s : State) : exec (.sst o d a w c) s = execSst o d a w c s := rfl
theorem exec_satom (o : Option OPfx) (d : BitVec 8) (a : BitVec 8) (s : State) : exec (.satom o d a) s = execSatom o d a s := rfl
theorem exec_vdquery (d : BitVec 8) (a : BitVec 8) (b : BitVec 8) (s : State) : exec (.vdquery d a b) s = execVdquery d a b s := rfl
theorem exec_capq (d : BitVec 8) (a : BitVec 8) (s : State) : exec (.capq d a) s = execCapq d a s := rfl
theorem exec_launch (d : BitVec 8) (a : BitVec 8) (s : State) : exec (.launch d a) s = execLaunch d a s := rfl
theorem exec_kick (a : BitVec 8) (b : BitVec 8) (s : State) : exec (.kick a b) s = execKick a b s := rfl
theorem exec_vadd (p : Option VPfx) (d : BitVec 8) (a : BitVec 8) (b : BitVec 8) (s : State) : exec (.vadd p d a b) s = execVadd p d a b s := rfl
theorem exec_vsub (p : Option VPfx) (d : BitVec 8) (a : BitVec 8) (b : BitVec 8) (s : State) : exec (.vsub p d a b) s = execVsub p d a b s := rfl
theorem exec_vmul (p : Option VPfx) (d : BitVec 8) (a : BitVec 8) (b : BitVec 8) (s : State) : exec (.vmul p d a b) s = execVmul p d a b s := rfl
theorem exec_vmulh (p : Option VPfx) (d : BitVec 8) (a : BitVec 8) (b : BitVec 8) (s : State) : exec (.vmulh p d a b) s = execVmulh p d a b s := rfl
theorem exec_vmad (p : VPfx) (d : BitVec 8) (a : BitVec 8) (b : BitVec 8) (s : State) : exec (.vmad p d a b) s = execVmad p d a b s := rfl
theorem exec_vand (p : Option VPfx) (d : BitVec 8) (a : BitVec 8) (b : BitVec 8) (s : State) : exec (.vand p d a b) s = execVand p d a b s := rfl
theorem exec_vor (p : Option VPfx) (d : BitVec 8) (a : BitVec 8) (b : BitVec 8) (s : State) : exec (.vor p d a b) s = execVor p d a b s := rfl
theorem exec_vxor (p : Option VPfx) (d : BitVec 8) (a : BitVec 8) (b : BitVec 8) (s : State) : exec (.vxor p d a b) s = execVxor p d a b s := rfl
theorem exec_vshl (p : Option VPfx) (d : BitVec 8) (a : BitVec 8) (b : BitVec 8) (s : State) : exec (.vshl p d a b) s = execVshl p d a b s := rfl
theorem exec_vshr (p : Option VPfx) (d : BitVec 8) (a : BitVec 8) (b : BitVec 8) (s : State) : exec (.vshr p d a b) s = execVshr p d a b s := rfl
theorem exec_vmin (p : Option VPfx) (d : BitVec 8) (a : BitVec 8) (b : BitVec 8) (s : State) : exec (.vmin p d a b) s = execVmin p d a b s := rfl
theorem exec_vmax (p : Option VPfx) (d : BitVec 8) (a : BitVec 8) (b : BitVec 8) (s : State) : exec (.vmax p d a b) s = execVmax p d a b s := rfl
theorem exec_vabs (p : Option VPfx) (d : BitVec 8) (a : BitVec 8) (s : State) : exec (.vabs p d a) s = execVabs p d a s := rfl
theorem exec_vneg (p : Option VPfx) (d : BitVec 8) (a : BitVec 8) (s : State) : exec (.vneg p d a) s = execVneg p d a s := rfl
theorem exec_vclz (p : Option VPfx) (d : BitVec 8) (a : BitVec 8) (s : State) : exec (.vclz p d a) s = execVclz p d a s := rfl
theorem exec_vpopc (p : Option VPfx) (d : BitVec 8) (a : BitVec 8) (s : State) : exec (.vpopc p d a) s = execVpopc p d a s := rfl
theorem exec_vaddi (x : Option (BitVec 24)) (p : Option VPfx) (d : BitVec 8) (a : BitVec 8) (n : BitVec 8) (s : State) : exec (.vaddi x p d a n) s = execVaddi x p d a n s := rfl
theorem exec_vandi (x : Option (BitVec 24)) (p : Option VPfx) (d : BitVec 8) (a : BitVec 8) (n : BitVec 8) (s : State) : exec (.vandi x p d a n) s = execVandi x p d a n s := rfl
theorem exec_vori (x : Option (BitVec 24)) (p : Option VPfx) (d : BitVec 8) (a : BitVec 8) (n : BitVec 8) (s : State) : exec (.vori x p d a n) s = execVori x p d a n s := rfl
theorem exec_vxori (x : Option (BitVec 24)) (p : Option VPfx) (d : BitVec 8) (a : BitVec 8) (n : BitVec 8) (s : State) : exec (.vxori x p d a n) s = execVxori x p d a n s := rfl
theorem exec_vshli (p : Option VPfx) (d : BitVec 8) (a : BitVec 8) (n : BitVec 6) (s : State) : exec (.vshli p d a n) s = execVshli p d a n s := rfl
theorem exec_vshri (p : Option VPfx) (d : BitVec 8) (a : BitVec 8) (n : BitVec 6) (s : State) : exec (.vshri p d a n) s = execVshri p d a n s := rfl
theorem exec_vmovi (x : Option (BitVec 24)) (p : Option VPfx) (d : BitVec 8) (n : BitVec 8) (s : State) : exec (.vmovi x p d n) s = execVmovi x p d n s := rfl
theorem exec_vmov (p : Option VPfx) (d : BitVec 8) (a : BitVec 8) (s : State) : exec (.vmov p d a) s = execVmov p d a s := rfl
theorem exec_vsel (p : Option VPfx) (d : BitVec 8) (a : BitVec 8) (b : BitVec 8) (s : State) : exec (.vsel p d a b) s = execVsel p d a b s := rfl
theorem exec_vbfe (p : Option VPfx) (d : BitVec 8) (a : BitVec 8) (b : BitVec 8) (s : State) : exec (.vbfe p d a b) s = execVbfe p d a b s := rfl
theorem exec_vbfi (p : VPfx) (d : BitVec 8) (a : BitVec 8) (b : BitVec 8) (s : State) : exec (.vbfi p d a b) s = execVbfi p d a b s := rfl
theorem exec_vbrev (p : Option VPfx) (d : BitVec 8) (a : BitVec 8) (s : State) : exec (.vbrev p d a) s = execVbrev p d a s := rfl
theorem exec_vlaneid (p : Option VPfx) (d : BitVec 8) (s : State) : exec (.vlaneid p d) s = execVlaneid p d s := rfl
theorem exec_viota (p : Option VPfx) (d : BitVec 8) (s : State) : exec (.viota p d) s = execViota p d s := rfl
theorem exec_vfadd (p : Option VPfx) (d : BitVec 8) (a : BitVec 8) (b : BitVec 8) (s : State) : exec (.vfadd p d a b) s = execVfadd p d a b s := rfl
theorem exec_vfsub (p : Option VPfx) (d : BitVec 8) (a : BitVec 8) (b : BitVec 8) (s : State) : exec (.vfsub p d a b) s = execVfsub p d a b s := rfl
theorem exec_vfmul (p : Option VPfx) (d : BitVec 8) (a : BitVec 8) (b : BitVec 8) (s : State) : exec (.vfmul p d a b) s = execVfmul p d a b s := rfl
theorem exec_vfma (p : VPfx) (d : BitVec 8) (a : BitVec 8) (b : BitVec 8) (s : State) : exec (.vfma p d a b) s = execVfma p d a b s := rfl
theorem exec_vfmin (p : Option VPfx) (d : BitVec 8) (a : BitVec 8) (b : BitVec 8) (s : State) : exec (.vfmin p d a b) s = execVfmin p d a b s := rfl
theorem exec_vfmax (p : Option VPfx) (d : BitVec 8) (a : BitVec 8) (b : BitVec 8) (s : State) : exec (.vfmax p d a b) s = execVfmax p d a b s := rfl
theorem exec_vfabs (p : Option VPfx) (d : BitVec 8) (a : BitVec 8) (s : State) : exec (.vfabs p d a) s = execVfabs p d a s := rfl
theorem exec_vfneg (p : Option VPfx) (d : BitVec 8) (a : BitVec 8) (s : State) : exec (.vfneg p d a) s = execVfneg p d a s := rfl
theorem exec_vfdiv (p : Option VPfx) (d : BitVec 8) (a : BitVec 8) (b : BitVec 8) (s : State) : exec (.vfdiv p d a b) s = execVfdiv p d a b s := rfl
theorem exec_vfsqrt (p : Option VPfx) (d : BitVec 8) (a : BitVec 8) (s : State) : exec (.vfsqrt p d a) s = execVfsqrt p d a s := rfl
theorem exec_vrcp (p : Option VPfx) (d : BitVec 8) (a : BitVec 8) (s : State) : exec (.vrcp p d a) s = execVrcp p d a s := rfl
theorem exec_vrsq (p : Option VPfx) (d : BitVec 8) (a : BitVec 8) (s : State) : exec (.vrsq p d a) s = execVrsq p d a s := rfl
theorem exec_vexp2 (p : Option VPfx) (d : BitVec 8) (a : BitVec 8) (s : State) : exec (.vexp2 p d a) s = execVexp2 p d a s := rfl
theorem exec_vlog2 (p : Option VPfx) (d : BitVec 8) (a : BitVec 8) (s : State) : exec (.vlog2 p d a) s = execVlog2 p d a s := rfl
theorem exec_vsin (p : Option VPfx) (d : BitVec 8) (a : BitVec 8) (s : State) : exec (.vsin p d a) s = execVsin p d a s := rfl
theorem exec_vcos (p : Option VPfx) (d : BitVec 8) (a : BitVec 8) (s : State) : exec (.vcos p d a) s = execVcos p d a s := rfl
theorem exec_vtanh (p : Option VPfx) (d : BitVec 8) (a : BitVec 8) (s : State) : exec (.vtanh p d a) s = execVtanh p d a s := rfl
theorem exec_vsigm (p : Option VPfx) (d : BitVec 8) (a : BitVec 8) (s : State) : exec (.vsigm p d a) s = execVsigm p d a s := rfl
theorem exec_vround (p : Option VPfx) (d : BitVec 8) (a : BitVec 8) (s : State) : exec (.vround p d a) s = execVround p d a s := rfl
theorem exec_vfrac (p : Option VPfx) (d : BitVec 8) (a : BitVec 8) (s : State) : exec (.vfrac p d a) s = execVfrac p d a s := rfl
theorem exec_vcvt (p : Option VPfx) (d : BitVec 8) (a : BitVec 8) (dst : BitVec 4) (src : BitVec 4) (s : State) : exec (.vcvt p d a dst src) s = execVcvt p d a dst src s := rfl
theorem exec_vclass (p : Option VPfx) (d : BitVec 8) (a : BitVec 8) (s : State) : exec (.vclass p d a) s = execVclass p d a s := rfl
theorem exec_vcmpeq (p : Option VPfx) (d : BitVec 8) (a : BitVec 8) (b : BitVec 8) (s : State) : exec (.vcmpeq p d a b) s = execVcmpeq p d a b s := rfl
theorem exec_vcmpne (p : Option VPfx) (d : BitVec 8) (a : BitVec 8) (b : BitVec 8) (s : State) : exec (.vcmpne p d a b) s = execVcmpne p d a b s := rfl
theorem exec_vcmplt (p : Option VPfx) (d : BitVec 8) (a : BitVec 8) (b : BitVec 8) (s : State) : exec (.vcmplt p d a b) s = execVcmplt p d a b s := rfl
theorem exec_vcmple (p : Option VPfx) (d : BitVec 8) (a : BitVec 8) (b : BitVec 8) (s : State) : exec (.vcmple p d a b) s = execVcmple p d a b s := rfl
theorem exec_vcmpun (p : Option VPfx) (d : BitVec 8) (a : BitVec 8) (b : BitVec 8) (s : State) : exec (.vcmpun p d a b) s = execVcmpun p d a b s := rfl
theorem exec_vscale (p : Option VPfx) (d : BitVec 8) (a : BitVec 8) (b : BitVec 8) (s : State) : exec (.vscale p d a b) s = execVscale p d a b s := rfl
theorem exec_vpack (p : Option VPfx) (d : BitVec 8) (a : BitVec 8) (b : BitVec 8) (s : State) : exec (.vpack p d a b) s = execVpack p d a b s := rfl
theorem exec_vunpk (p : Option VPfx) (d : BitVec 8) (a : BitVec 8) (s : State) : exec (.vunpk p d a) s = execVunpk p d a s := rfl
theorem exec_vdot4 (p : VPfx) (d : BitVec 8) (a : BitVec 8) (b : BitVec 8) (s : State) : exec (.vdot4 p d a b) s = execVdot4 p d a b s := rfl
theorem exec_vdot2 (p : VPfx) (d : BitVec 8) (a : BitVec 8) (b : BitVec 8) (s : State) : exec (.vdot2 p d a b) s = execVdot2 p d a b s := rfl
theorem exec_pand (p : Option VPfx) (d : BitVec 8) (a : BitVec 8) (b : BitVec 8) (s : State) : exec (.pand p d a b) s = execPand p d a b s := rfl
theorem exec_por (p : Option VPfx) (d : BitVec 8) (a : BitVec 8) (b : BitVec 8) (s : State) : exec (.por p d a b) s = execPor p d a b s := rfl
theorem exec_pxor (p : Option VPfx) (d : BitVec 8) (a : BitVec 8) (b : BitVec 8) (s : State) : exec (.pxor p d a b) s = execPxor p d a b s := rfl
theorem exec_pnot (p : Option VPfx) (d : BitVec 8) (a : BitVec 8) (s : State) : exec (.pnot p d a) s = execPnot p d a s := rfl
theorem exec_pmov (p : Option VPfx) (d : BitVec 8) (a : BitVec 8) (s : State) : exec (.pmov p d a) s = execPmov p d a s := rfl
theorem exec_pseti (p : Option VPfx) (d : BitVec 8) (n : Bool) (s : State) : exec (.pseti p d n) s = execPseti p d n s := rfl
theorem exec_vshfl (p : Option VPfx) (d : BitVec 8) (a : BitVec 8) (b : BitVec 8) (s : State) : exec (.vshfl p d a b) s = execVshfl p d a b s := rfl
theorem exec_vshflx (p : Option VPfx) (d : BitVec 8) (a : BitVec 8) (b : BitVec 8) (s : State) : exec (.vshflx p d a b) s = execVshflx p d a b s := rfl
theorem exec_vshflu (p : Option VPfx) (d : BitVec 8) (a : BitVec 8) (b : BitVec 8) (s : State) : exec (.vshflu p d a b) s = execVshflu p d a b s := rfl
theorem exec_vshfld (p : Option VPfx) (d : BitVec 8) (a : BitVec 8) (b : BitVec 8) (s : State) : exec (.vshfld p d a b) s = execVshfld p d a b s := rfl
theorem exec_vbcast (p : Option VPfx) (d : BitVec 8) (a : BitVec 8) (b : BitVec 8) (s : State) : exec (.vbcast p d a b) s = execVbcast p d a b s := rfl
theorem exec_vred (p : Option VPfx) (d : BitVec 8) (a : BitVec 8) (op : BitVec 8) (s : State) : exec (.vred p d a op) s = execVred p d a op s := rfl
theorem exec_vscan (p : Option VPfx) (d : BitVec 8) (a : BitVec 8) (op : BitVec 8) (s : State) : exec (.vscan p d a op) s = execVscan p d a op s := rfl
theorem exec_vmatch (p : Option VPfx) (d : BitVec 8) (a : BitVec 8) (s : State) : exec (.vmatch p d a) s = execVmatch p d a s := rfl
theorem exec_vexec (p : Option VPfx) (a : BitVec 8) (s : State) : exec (.vexec p a) s = execVexec p a s := rfl
theorem exec_vexecq (p : Option VPfx) (d : BitVec 8) (a : BitVec 8) (s : State) : exec (.vexecq p d a) s = execVexecq p d a s := rfl
theorem exec_ldg (o : Option OPfx) (p : Option VPfx) (d : BitVec 8) (a : BitVec 8) (m : MFld) (s : State) : exec (.ldg o p d a m) s = execLdg o p d a m s := rfl
theorem exec_stg (o : Option OPfx) (p : Option VPfx) (d : BitVec 8) (a : BitVec 8) (m : MFld) (s : State) : exec (.stg o p d a m) s = execStg o p d a m s := rfl
theorem exec_ldgnf (o : Option OPfx) (p : VPfx) (d : BitVec 8) (a : BitVec 8) (m : MFld) (s : State) : exec (.ldgnf o p d a m) s = execLdgnf o p d a m s := rfl
theorem exec_lds (o : Option OPfx) (p : Option VPfx) (d : BitVec 8) (a : BitVec 8) (m : MFld) (s : State) : exec (.lds o p d a m) s = execLds o p d a m s := rfl
theorem exec_sts (o : Option OPfx) (p : Option VPfx) (d : BitVec 8) (a : BitVec 8) (m : MFld) (s : State) : exec (.sts o p d a m) s = execSts o p d a m s := rfl
theorem exec_ldw (p : Option VPfx) (d : BitVec 8) (a : BitVec 8) (m : MFld) (s : State) : exec (.ldw p d a m) s = execLdw p d a m s := rfl
theorem exec_pref (p : Option VPfx) (a : BitVec 8) (m : MFld) (s : State) : exec (.pref p a m) s = execPref p a m s := rfl
theorem exec_cflush (p : Option VPfx) (a : BitVec 8) (m : MFld) (s : State) : exec (.cflush p a m) s = execCflush p a m s := rfl
theorem exec_cpa (p : Option VPfx) (d : BitVec 8) (a : BitVec 8) (size : BitVec 3) (tag : BitVec 3) (bpc : BitVec 2) (s : State) : exec (.cpa p d a size tag bpc) s = execCpa p d a size tag bpc s := rfl
theorem exec_tcopy (d : BitVec 8) (a : BitVec 8) (s : State) : exec (.tcopy d a) s = execTcopy d a s := rfl
theorem exec_pgreq (p : Option VPfx) (a : BitVec 8) (m : MFld) (s : State) : exec (.pgreq p a m) s = execPgreq p a m s := rfl
theorem exec_atomgAdd (o : Option OPfx) (p : Option VPfx) (d : BitVec 8) (a : BitVec 8) (m : MFld) (s : State) : exec (.atomgAdd o p d a m) s = execAtomgAdd o p d a m s := rfl
theorem exec_atomgMin (o : Option OPfx) (p : Option VPfx) (d : BitVec 8) (a : BitVec 8) (m : MFld) (s : State) : exec (.atomgMin o p d a m) s = execAtomgMin o p d a m s := rfl
theorem exec_atomgMax (o : Option OPfx) (p : Option VPfx) (d : BitVec 8) (a : BitVec 8) (m : MFld) (s : State) : exec (.atomgMax o p d a m) s = execAtomgMax o p d a m s := rfl
theorem exec_atomgAnd (o : Option OPfx) (p : Option VPfx) (d : BitVec 8) (a : BitVec 8) (m : MFld) (s : State) : exec (.atomgAnd o p d a m) s = execAtomgAnd o p d a m s := rfl
theorem exec_atomgOr (o : Option OPfx) (p : Option VPfx) (d : BitVec 8) (a : BitVec 8) (m : MFld) (s : State) : exec (.atomgOr o p d a m) s = execAtomgOr o p d a m s := rfl
theorem exec_atomgXor (o : Option OPfx) (p : Option VPfx) (d : BitVec 8) (a : BitVec 8) (m : MFld) (s : State) : exec (.atomgXor o p d a m) s = execAtomgXor o p d a m s := rfl
theorem exec_atomgExch (o : Option OPfx) (p : Option VPfx) (d : BitVec 8) (a : BitVec 8) (m : MFld) (s : State) : exec (.atomgExch o p d a m) s = execAtomgExch o p d a m s := rfl
theorem exec_atomgIncw (o : Option OPfx) (p : Option VPfx) (d : BitVec 8) (a : BitVec 8) (m : MFld) (s : State) : exec (.atomgIncw o p d a m) s = execAtomgIncw o p d a m s := rfl
theorem exec_atomgFadd (o : Option OPfx) (p : Option VPfx) (d : BitVec 8) (a : BitVec 8) (m : MFld) (s : State) : exec (.atomgFadd o p d a m) s = execAtomgFadd o p d a m s := rfl
theorem exec_atomgCas (o : OPfx) (p : Option VPfx) (d : BitVec 8) (a : BitVec 8) (m : MFld) (s : State) : exec (.atomgCas o p d a m) s = execAtomgCas o p d a m s := rfl
theorem exec_fence (o : OPfx) (s : State) : exec (.fence o) s = execFence o s := rfl
theorem exec_bar (a : BitVec 8) (k : BitVec 4) (s : State) : exec (.bar a k) s = execBar a k s := rfl
theorem exec_bararv (a : BitVec 8) (k : BitVec 4) (s : State) : exec (.bararv a k) s = execBararv a k s := rfl
theorem exec_barwait (a : BitVec 8) (k : BitVec 4) (s : State) : exec (.barwait a k) s = execBarwait a k s := rfl
theorem exec_gbar (s : State) : exec .gbar s = execGbar s := rfl
theorem exec_waitsig (a : BitVec 8) (b : BitVec 8) (s : State) : exec (.waitsig a b) s = execWaitsig a b s := rfl
theorem exec_atomsAdd (o : Option OPfx) (p : Option VPfx) (d : BitVec 8) (a : BitVec 8) (m : MFld) (s : State) : exec (.atomsAdd o p d a m) s = execAtomsAdd o p d a m s := rfl
theorem exec_atomsMin (o : Option OPfx) (p : Option VPfx) (d : BitVec 8) (a : BitVec 8) (m : MFld) (s : State) : exec (.atomsMin o p d a m) s = execAtomsMin o p d a m s := rfl
theorem exec_atomsMax (o : Option OPfx) (p : Option VPfx) (d : BitVec 8) (a : BitVec 8) (m : MFld) (s : State) : exec (.atomsMax o p d a m) s = execAtomsMax o p d a m s := rfl
theorem exec_atomsAnd (o : Option OPfx) (p : Option VPfx) (d : BitVec 8) (a : BitVec 8) (m : MFld) (s : State) : exec (.atomsAnd o p d a m) s = execAtomsAnd o p d a m s := rfl
theorem exec_atomsOr (o : Option OPfx) (p : Option VPfx) (d : BitVec 8) (a : BitVec 8) (m : MFld) (s : State) : exec (.atomsOr o p d a m) s = execAtomsOr o p d a m s := rfl
theorem exec_atomsXor (o : Option OPfx) (p : Option VPfx) (d : BitVec 8) (a : BitVec 8) (m : MFld) (s : State) : exec (.atomsXor o p d a m) s = execAtomsXor o p d a m s := rfl
theorem exec_atomsExch (o : Option OPfx) (p : Option VPfx) (d : BitVec 8) (a : BitVec 8) (m : MFld) (s : State) : exec (.atomsExch o p d a m) s = execAtomsExch o p d a m s := rfl
theorem exec_atomsCas (o : OPfx) (p : Option VPfx) (d : BitVec 8) (a : BitVec 8) (m : MFld) (s : State) : exec (.atomsCas o p d a m) s = execAtomsCas o p d a m s := rfl
theorem exec_rld (o : Option OPfx) (p : Option VPfx) (d : BitVec 8) (a : BitVec 8) (b : BitVec 8) (s : State) : exec (.rld o p d a b) s = execRld o p d a b s := rfl
theorem exec_rst (o : Option OPfx) (p : Option VPfx) (d : BitVec 8) (a : BitVec 8) (b : BitVec 8) (s : State) : exec (.rst o p d a b) s = execRst o p d a b s := rfl
theorem exec_ratom (o : Option OPfx) (p : Option VPfx) (d : BitVec 8) (a : BitVec 8) (b : BitVec 8) (s : State) : exec (.ratom o p d a b) s = execRatom o p d a b s := rfl
theorem exec_rvadd (o : Option OPfx) (p : Option VPfx) (d : BitVec 8) (a : BitVec 8) (b : BitVec 8) (s : State) : exec (.rvadd o p d a b) s = execRvadd o p d a b s := rfl
theorem exec_rwsig (o : Option OPfx) (p : Option VPfx) (d : BitVec 8) (a : BitVec 8) (b : BitVec 8) (s : State) : exec (.rwsig o p d a b) s = execRwsig o p d a b s := rfl
theorem exec_rred (o : Option OPfx) (p : Option VPfx) (d : BitVec 8) (a : BitVec 8) (b : BitVec 8) (s : State) : exec (.rred o p d a b) s = execRred o p d a b s := rfl
theorem exec_rfence (a : BitVec 8) (s : State) : exec (.rfence a) s = execRfence a s := rfl
theorem exec_waitc (ld : BitVec 6) (st : BitVec 6) (cp : BitVec 6) (tl : BitVec 6) (s : State) : exec (.waitc ld st cp tl) s = execWaitc ld st cp tl s := rfl
theorem exec_waitt (mask : BitVec 8) (s : State) : exec (.waitt mask) s = execWaitt mask s := rfl
theorem exec_tagq (d : BitVec 8) (s : State) : exec (.tagq d) s = execTagq d s := rfl
theorem exec_tshape (d : BitVec 8) (a : BitVec 8) (t : BitVec 4) (s : State) : exec (.tshape d a t) s = execTshape d a t s := rfl
theorem exec_sclaim (d : BitVec 8) (a : BitVec 8) (acc : Bool) (s : State) : exec (.sclaim d a acc) s = execSclaim d a acc s := rfl
theorem exec_srel (a : BitVec 8) (b : BitVec 8) (s : State) : exec (.srel a b) s = execSrel a b s := rfl
theorem exec_mzero (d : BitVec 8) (s : State) : exec (.mzero d) s = execMzero d s := rfl
theorem exec_mma (d : BitVec 8) (a : BitVec 8) (b : BitVec 8) (s : State) : exec (.mma d a b) s = execMma d a b s := rfl
theorem exec_mmaz (d : BitVec 8) (a : BitVec 8) (b : BitVec 8) (s : State) : exec (.mmaz d a b) s = execMmaz d a b s := rfl
theorem exec_mscacc (d : BitVec 8) (a : BitVec 8) (b : BitVec 8) (s : State) : exec (.mscacc d a b) s = execMscacc d a b s := rfl
theorem exec_mloop (n : BitVec 2) (a : BitVec 8) (b : BitVec 8) (s : State) : exec (.mloop n a b) s = execMloop n a b s := rfl
theorem exec_mstore (d : BitVec 8) (a : BitVec 8) (b : BitVec 8) (s : State) : exec (.mstore d a b) s = execMstore d a b s := rfl
theorem exec_eret (s : State) : exec .eret s = execEret s := rfl
theorem exec_mark (x : Option (BitVec 24)) (a : BitVec 8) (n : BitVec 8) (s : State) : exec (.mark x a n) s = execMark x a n s := rfl
theorem exec_illegalOpcode (word : BitVec 32) (s : State) : exec (.illegalOpcode word) s = execIllegalOpcode word s := rfl
theorem exec_flitInjection (s : State) : exec .flitInjection s = execFlitInjection s := rfl
theorem exec_flitArrival (s : State) : exec .flitArrival s = execFlitArrival s := rfl
theorem exec_flitEjection (s : State) : exec .flitEjection s = execFlitEjection s := rfl
theorem exec_powerModeClockSettle (s : State) : exec .powerModeClockSettle s = execPowerModeClockSettle s := rfl
theorem exec_powerWindowEnd (s : State) : exec .powerWindowEnd s = execPowerWindowEnd s := rfl
theorem exec_temperatureReport (s : State) : exec .temperatureReport s = execTemperatureReport s := rfl
theorem exec_fatalDieError (s : State) : exec .fatalDieError s = execFatalDieError s := rfl
theorem exec_deviceReset (s : State) : exec .deviceReset s = execDeviceReset s := rfl
theorem exec_refreshPhaseEnd (s : State) : exec .refreshPhaseEnd s = execRefreshPhaseEnd s := rfl
theorem exec_transientRequest (s : State) : exec .transientRequest s = execTransientRequest s := rfl
theorem exec_forwardedRequest (s : State) : exec .forwardedRequest s = execForwardedRequest s := rfl
theorem exec_tokenArrival (s : State) : exec .tokenArrival s = execTokenArrival s := rfl
theorem exec_holderEviction (s : State) : exec .holderEviction s = execHolderEviction s := rfl
theorem exec_llcEviction (s : State) : exec .llcEviction s = execLlcEviction s := rfl
theorem exec_requestReissue (s : State) : exec .requestReissue s = execRequestReissue s := rfl
theorem exec_persistentRequest (s : State) : exec .persistentRequest s = execPersistentRequest s := rfl
theorem exec_persistentActivation (s : State) : exec .persistentActivation s = execPersistentActivation s := rfl
theorem exec_persistentDeactivation (s : State) : exec .persistentDeactivation s = execPersistentDeactivation s := rfl
theorem exec_deactivationAcksDone (s : State) : exec .deactivationAcksDone s = execDeactivationAcksDone s := rfl
theorem exec_engineWriteLanded (s : State) : exec .engineWriteLanded s = execEngineWriteLanded s := rfl
theorem exec_backInvalidationResponse (s : State) : exec .backInvalidationResponse s = execBackInvalidationResponse s := rfl
theorem exec_tokenRegeneration (s : State) : exec .tokenRegeneration s = execTokenRegeneration s := rfl
theorem exec_atomicStationArrival (s : State) : exec .atomicStationArrival s = execAtomicStationArrival s := rfl
theorem exec_groupApply (s : State) : exec .groupApply s = execGroupApply s := rfl
theorem exec_groupReply (s : State) : exec .groupReply s = execGroupReply s := rfl
theorem exec_combineTimerExpiry (s : State) : exec .combineTimerExpiry s = execCombineTimerExpiry s := rfl
theorem exec_outcomeQuery (s : State) : exec .outcomeQuery s = execOutcomeQuery s := rfl
theorem exec_outcomeQueryAnswer (s : State) : exec .outcomeQueryAnswer s = execOutcomeQueryAnswer s := rfl
theorem exec_hbm4eReadComplete (s : State) : exec .hbm4eReadComplete s = execHbm4eReadComplete s := rfl
theorem exec_hbm4eReadRetryComplete (s : State) : exec .hbm4eReadRetryComplete s = execHbm4eReadRetryComplete s := rfl
theorem exec_hbm4eWrite (s : State) : exec .hbm4eWrite s = execHbm4eWrite s := rfl
theorem exec_quotaRefill (s : State) : exec .quotaRefill s = execQuotaRefill s := rfl
theorem exec_pseudoChannelSlot (s : State) : exec .pseudoChannelSlot s = execPseudoChannelSlot s := rfl
theorem exec_sramUncorrectableError (s : State) : exec .sramUncorrectableError s = execSramUncorrectableError s := rfl
theorem exec_rldRequest (s : State) : exec .rldRequest s = execRldRequest s := rfl
theorem exec_rstRequest (s : State) : exec .rstRequest s = execRstRequest s := rfl
theorem exec_ratomRequest (s : State) : exec .ratomRequest s = execRatomRequest s := rfl
theorem exec_rvaddRequest (s : State) : exec .rvaddRequest s = execRvaddRequest s := rfl
theorem exec_rwsigRequest (s : State) : exec .rwsigRequest s = execRwsigRequest s := rfl
theorem exec_rredResult (s : State) : exec .rredResult s = execRredResult s := rfl
theorem exec_fabricReply (s : State) : exec .fabricReply s = execFabricReply s := rfl
theorem exec_fabricTimeout (s : State) : exec .fabricTimeout s = execFabricTimeout s := rfl
theorem exec_portRetryExhausted (s : State) : exec .portRetryExhausted s = execPortRetryExhausted s := rfl
theorem exec_portDrainEnd (s : State) : exec .portDrainEnd s = execPortDrainEnd s := rfl
theorem exec_planeRemapNotice (s : State) : exec .planeRemapNotice s = execPlaneRemapNotice s := rfl
theorem exec_linkRetrained (s : State) : exec .linkRetrained s = execLinkRetrained s := rfl
theorem exec_fportctlRestore (s : State) : exec .fportctlRestore s = execFportctlRestore s := rfl
theorem exec_planeRestoreComplete (s : State) : exec .planeRestoreComplete s = execPlaneRestoreComplete s := rfl
theorem exec_hostCxlRequest (s : State) : exec .hostCxlRequest s = execHostCxlRequest s := rfl
theorem exec_hostSnoop (s : State) : exec .hostSnoop s = execHostSnoop s := rfl
theorem exec_cxlTransactionComplete (s : State) : exec .cxlTransactionComplete s = execCxlTransactionComplete s := rfl
theorem exec_cxlCompletionTimeout (s : State) : exec .cxlCompletionTimeout s = execCxlCompletionTimeout s := rfl
theorem exec_cxlLinkDown (s : State) : exec .cxlLinkDown s = execCxlLinkDown s := rfl
theorem exec_expanderRetrain (s : State) : exec .expanderRetrain s = execExpanderRetrain s := rfl
theorem exec_kickPageWrite (s : State) : exec .kickPageWrite s = execKickPageWrite s := rfl
theorem exec_queueEnable (s : State) : exec .queueEnable s = execQueueEnable s := rfl
theorem exec_queueDisable (s : State) : exec .queueDisable s = execQueueDisable s := rfl
theorem exec_queueRestart (s : State) : exec .queueRestart s = execQueueRestart s := rfl
theorem exec_registerWrite (s : State) : exec .registerWrite s = execRegisterWrite s := rfl
theorem exec_createVd (s : State) : exec .createVd s = execCreateVd s := rfl
theorem exec_startVd (s : State) : exec .startVd s = execStartVd s := rfl
theorem exec_suspendVd (s : State) : exec .suspendVd s = execSuspendVd s := rfl
theorem exec_resumeVd (s : State) : exec .resumeVd s = execResumeVd s := rfl
theorem exec_resetVd (s : State) : exec .resetVd s = execResetVd s := rfl
theorem exec_destroyVd (s : State) : exec .destroyVd s = execDestroyVd s := rfl
theorem exec_setWeight (s : State) : exec .setWeight s = execSetWeight s := rfl
theorem exec_setPowerMode (s : State) : exec .setPowerMode s = execSetPowerMode s := rfl
theorem exec_queryVd (s : State) : exec .queryVd s = execQueryVd s := rfl
theorem exec_loadImage (s : State) : exec .loadImage s = execLoadImage s := rfl
theorem exec_vfFunctionLevelReset (s : State) : exec .vfFunctionLevelReset s = execVfFunctionLevelReset s := rfl
theorem exec_engineKill (s : State) : exec .engineKill s = execEngineKill s := rfl
theorem exec_killAcksComplete (s : State) : exec .killAcksComplete s = execKillAcksComplete s := rfl
theorem exec_killAckTimeout (s : State) : exec .killAckTimeout s = execKillAckTimeout s := rfl
theorem exec_slotPoll (s : State) : exec .slotPoll s = execSlotPoll s := rfl
theorem exec_nopPacket (s : State) : exec .nopPacket s = execNopPacket s := rfl
theorem exec_launchPacket (s : State) : exec .launchPacket s = execLaunchPacket s := rfl
theorem exec_copyPacket (s : State) : exec .copyPacket s = execCopyPacket s := rfl
theorem exec_waitSignalPacket (s : State) : exec .waitSignalPacket s = execWaitSignalPacket s := rfl
theorem exec_waitSignalRetest (s : State) : exec .waitSignalRetest s = execWaitSignalRetest s := rfl
theorem exec_writeSignalPacket (s : State) : exec .writeSignalPacket s = execWriteSignalPacket s := rfl
theorem exec_timestampPacket (s : State) : exec .timestampPacket s = execTimestampPacket s := rfl
theorem exec_packetCompletion (s : State) : exec .packetCompletion s = execPacketCompletion s := rfl
theorem exec_msixVectorUnmask (s : State) : exec .msixVectorUnmask s = execMsixVectorUnmask s := rfl
theorem exec_deviceLaunchQueueRestart (s : State) : exec .deviceLaunchQueueRestart s = execDeviceLaunchQueueRestart s := rfl
theorem exec_virtualDieTableWrite (s : State) : exec .virtualDieTableWrite s = execVirtualDieTableWrite s := rfl
theorem exec_regionTableWrite (s : State) : exec .regionTableWrite s = execRegionTableWrite s := rfl
theorem exec_keyTagWrite (s : State) : exec .keyTagWrite s = execKeyTagWrite s := rfl
theorem exec_stage2EntryWrite (s : State) : exec .stage2EntryWrite s = execStage2EntryWrite s := rfl
theorem exec_interruptRemapWrite (s : State) : exec .interruptRemapWrite s = execInterruptRemapWrite s := rfl
theorem exec_keySlotLoad (s : State) : exec .keySlotLoad s = execKeySlotLoad s := rfl
theorem exec_vdControlBlockWrite (s : State) : exec .vdControlBlockWrite s = execVdControlBlockWrite s := rfl
theorem exec_schcfgWrite (s : State) : exec .schcfgWrite s = execSchcfgWrite s := rfl
theorem exec_schpoolWrite (s : State) : exec .schpoolWrite s = execSchpoolWrite s := rfl
theorem exec_spdmGetVersion (s : State) : exec .spdmGetVersion s = execSpdmGetVersion s := rfl
theorem exec_spdmGetCapabilities (s : State) : exec .spdmGetCapabilities s = execSpdmGetCapabilities s := rfl
theorem exec_spdmNegotiateAlgorithms (s : State) : exec .spdmNegotiateAlgorithms s = execSpdmNegotiateAlgorithms s := rfl
theorem exec_spdmGetDigests (s : State) : exec .spdmGetDigests s = execSpdmGetDigests s := rfl
theorem exec_spdmGetCertificate (s : State) : exec .spdmGetCertificate s = execSpdmGetCertificate s := rfl
theorem exec_spdmChallenge (s : State) : exec .spdmChallenge s = execSpdmChallenge s := rfl
theorem exec_spdmGetMeasurements (s : State) : exec .spdmGetMeasurements s = execSpdmGetMeasurements s := rfl
theorem exec_spdmKeyExchange (s : State) : exec .spdmKeyExchange s = execSpdmKeyExchange s := rfl
theorem exec_spdmFinish (s : State) : exec .spdmFinish s = execSpdmFinish s := rfl
theorem exec_spdmEndSession (s : State) : exec .spdmEndSession s = execSpdmEndSession s := rfl
theorem exec_spdmUnsupportedRequest (s : State) : exec .spdmUnsupportedRequest s = execSpdmUnsupportedRequest s := rfl
theorem exec_tlbInvalidateRange (s : State) : exec .tlbInvalidateRange s = execTlbInvalidateRange s := rfl
theorem exec_tlbInvalidateAsid (s : State) : exec .tlbInvalidateAsid s = execTlbInvalidateAsid s := rfl
theorem exec_tlbInvalidateVd (s : State) : exec .tlbInvalidateVd s = execTlbInvalidateVd s := rfl
theorem exec_stage2Invalidate (s : State) : exec .stage2Invalidate s = execStage2Invalidate s := rfl
theorem exec_invalidationComplete (s : State) : exec .invalidationComplete s = execInvalidationComplete s := rfl
theorem exec_replaytWrite (s : State) : exec .replaytWrite s = execReplaytWrite s := rfl
theorem exec_replayPage (s : State) : exec .replayPage s = execReplayPage s := rfl
theorem exec_replayAll (s : State) : exec .replayAll s = execReplayAll s := rfl
theorem exec_fqheadWrite (s : State) : exec .fqheadWrite s = execFqheadWrite s := rfl
theorem exec_faultRecordDelivery (s : State) : exec .faultRecordDelivery s = execFaultRecordDelivery s := rfl
theorem exec_waiterWake (s : State) : exec .waiterWake s = execWaiterWake s := rfl
theorem exec_waitTableEntryFree (s : State) : exec .waitTableEntryFree s = execWaitTableEntryFree s := rfl
theorem exec_rhbaseWrite (s : State) : exec .rhbaseWrite s = execRhbaseWrite s := rfl
theorem exec_stage2FaultResolution (s : State) : exec .stage2FaultResolution s = execStage2FaultResolution s := rfl
theorem exec_migrationStart (s : State) : exec .migrationStart s = execMigrationStart s := rfl
theorem exec_migrationLineCopy (s : State) : exec .migrationLineCopy s = execMigrationLineCopy s := rfl
theorem exec_migrationSwitch (s : State) : exec .migrationSwitch s = execMigrationSwitch s := rfl
theorem exec_quantumBoundary (s : State) : exec .quantumBoundary s = execQuantumBoundary s := rfl
theorem exec_clusterOffer (s : State) : exec .clusterOffer s = execClusterOffer s := rfl
theorem exec_blockSave (s : State) : exec .blockSave s = execBlockSave s := rfl
theorem exec_drainOverrun (s : State) : exec .drainOverrun s = execDrainOverrun s := rfl
theorem exec_blockRestore (s : State) : exec .blockRestore s = execBlockRestore s := rfl
theorem exec_blockExit (s : State) : exec .blockExit s = execBlockExit s := rfl
theorem exec_kernelCompletion (s : State) : exec .kernelCompletion s = execKernelCompletion s := rfl
theorem exec_kernelAbort (s : State) : exec .kernelAbort s = execKernelAbort s := rfl
theorem exec_sleepDeadline (s : State) : exec .sleepDeadline s = execSleepDeadline s := rfl
theorem exec_loadReturn (s : State) : exec .loadReturn s = execLoadReturn s := rfl
theorem exec_storeAck (s : State) : exec .storeAck s = execStoreAck s := rfl
theorem exec_wcbDrain (s : State) : exec .wcbDrain s = execWcbDrain s := rfl
theorem exec_engineCommandStart (s : State) : exec .engineCommandStart s = execEngineCommandStart s := rfl
theorem exec_ownershipWindow (s : State) : exec .ownershipWindow s = execOwnershipWindow s := rfl
theorem exec_engineCommandComplete (s : State) : exec .engineCommandComplete s = execEngineCommandComplete s := rfl
theorem exec_matrixStepStart (s : State) : exec .matrixStepStart s = execMatrixStepStart s := rfl
theorem exec_matrixBudgetRefill (s : State) : exec .matrixBudgetRefill s = execMatrixBudgetRefill s := rfl
theorem exec_mloopStepIssue (s : State) : exec .mloopStepIssue s = execMloopStepIssue s := rfl
theorem exec_smpcfgWrite (s : State) : exec .smpcfgWrite s = execSmpcfgWrite s := rfl
theorem exec_smpheadWrite (s : State) : exec .smpheadWrite s = execSmpheadWrite s := rfl
theorem exec_smpdropClear (s : State) : exec .smpdropClear s = execSmpdropClear s := rfl
theorem exec_samplerTick (s : State) : exec .samplerTick s = execSamplerTick s := rfl
theorem exec_memreqRecord (s : State) : exec .memreqRecord s = execMemreqRecord s := rfl
theorem exec_debugContinue (s : State) : exec .debugContinue s = execDebugContinue s := rfl
theorem exec_debugStep (s : State) : exec .debugStep s = execDebugStep s := rfl
theorem exec_debugRollback (s : State) : exec .debugRollback s = execDebugRollback s := rfl
theorem exec_rollbackCountReached (s : State) : exec .rollbackCountReached s = execRollbackCountReached s := rfl
theorem exec_waitsigRetest (s : State) : exec .waitsigRetest s = execWaitsigRetest s := rfl
theorem exec_unknownCommand (s : State) : exec .unknownCommand s = execUnknownCommand s := rfl
theorem exec_cxlLinkRetrain (s : State) : exec .cxlLinkRetrain s = execCxlLinkRetrain s := rfl
theorem exec_instructionCacheFill (s : State) : exec .instructionCacheFill s = execInstructionCacheFill s := rfl
theorem exec_pageEviction (s : State) : exec .pageEviction s = execPageEviction s := rfl

end Sys2Proof.Machine
end

