-- ==== Sys2Proof/Laws/PerInstr.lean ====
section
/-!
SUPPORT. Per-instruction family RoundTrip: the words of a well-formed instruction decode to it, with every operand at every
value that its encoding admits; steps of the device and an illegal opcode have no words of their own.
-/
namespace Sys2Proof

theorem Laws.pairOk {i j : Instr} {b : Bool} (h : i = j) (hb : b = true) : some (i, b) = some (j, true) := by rw [h, hb]
@[simp] theorem Laws.neg_branch (op : BitVec 8) (sel : BitVec 6) (b : Bool) (off : BitVec 17) :
    (op ++ sel ++ BitVec.ofBool b ++ off : BitVec 32)[17] = b :=
  (lsb_hi (op ++ sel ++ BitVec.ofBool b) off 0).trans ((lsb_lo (op ++ sel) (BitVec.ofBool b) 0 (by decide)).trans (lsb_ofBool b))
@[simp] theorem Laws.bit_0 (op d a b : BitVec 8) : (encR op d a b)[0] = b[0] := lsb_lo (op ++ d ++ a) b 0 (by decide)
@[simp] theorem Laws.bit_ofBool {n : Nat} (x : BitVec n) (c : Bool) : (x ++ BitVec.ofBool c)[0] = c :=
  (lsb_lo x (BitVec.ofBool c) 0 (by decide)).trans (lsb_ofBool c)
theorem Laws.z_branch (op : BitVec 8) (sel : BitVec 6) (off : BitVec 17) :
    z (op ++ sel ++ 0#1 ++ off : BitVec 32) 0x00020000#32 = true := by
  have h : (op ++ sel ++ 0#1 ++ off) &&& (0#8 ++ 0#6 ++ 1#1 ++ 0#17) = (op &&& 0#8) ++ (sel &&& 0#6) ++ (0#1 &&& 1#1) ++ (off &&& 0#17) := by
    rw [BitVec.and_append, BitVec.and_append, BitVec.and_append]
  rw [BitVec.and_zero, BitVec.and_zero, BitVec.and_zero, BitVec.zero_and] at h
  exact beq_iff_eq.2 (h.trans rfl)

/-- Decoding the words of a well-formed instruction that has words gives it back, with their number. -/
def Laws.RoundTrip.Statement (i : Instr) : Prop :=
  i.wf = true → i.baseWord.isSome = true → decodeWords (encode i) = .ok i (encode i).length

theorem Laws.RoundTrip.nop : Laws.RoundTrip.Statement (.nop) := fun hi _ =>
  decodeWords_ok (ps := []) (w := (encR 0x00 0#8 0#8 0#8)) (x := {}) (fits_nil) (isPrefix_encR _ _ _ _ (by decide)) (by rw [opcode_encR]; rfl) (rfl)
    (by rw [opcode_encR]; rfl) (by
      rw [opcode_encR]
      exact (Laws.pairOk (by simp) (z_encR _ _ _ _ 0xFF 0xFF 0xFF (BitVec.zero_and) (BitVec.zero_and) (BitVec.zero_and)) : some (Instr.nop, z (encR 0x00 0#8 0#8 0#8) 0x00FFFFFF) = some (.nop, true))) hi
theorem Laws.RoundTrip.exit : Laws.RoundTrip.Statement (.exit) := fun hi _ =>
  decodeWords_ok (ps := []) (w := (encR 0x01 0#8 0#8 0#8)) (x := {}) (fits_nil) (isPrefix_encR _ _ _ _ (by decide)) (by rw [opcode_encR]; rfl) (rfl)
    (by rw [opcode_encR]; rfl) (by
      rw [opcode_encR]
      exact (Laws.pairOk (by simp) (z_encR _ _ _ _ 0xFF 0xFF 0xFF (BitVec.zero_and) (BitVec.zero_and) (BitVec.zero_and)) : some (Instr.exit, z (encR 0x01 0#8 0#8 0#8) 0x00FFFFFF) = some (.exit, true))) hi
theorem Laws.RoundTrip.bra (off : BitVec 24) : Laws.RoundTrip.Statement (.bra off) := fun hi _ =>
  decodeWords_ok (ps := []) (w := (0x02#8 ++ off)) (x := {}) (fits_nil) (isPrefix_long _ _ (by decide)) (by rw [opcode_long]; rfl) (rfl)
    (by rw [opcode_long]; rfl) (by
      rw [opcode_long]
      exact (Laws.pairOk (by simp) (by simp) : some (Instr.bra (BitVec.extractLsb' 0 24 ((0x02#8 ++ off) : BitVec 32)), true) = some (.bra off, true))) hi
theorem Laws.RoundTrip.call (off : BitVec 24) : Laws.RoundTrip.Statement (.call off) := fun hi _ =>
  decodeWords_ok (ps := []) (w := (0x03#8 ++ off)) (x := {}) (fits_nil) (isPrefix_long _ _ (by decide)) (by rw [opcode_long]; rfl) (rfl)
    (by rw [opcode_long]; rfl) (by
      rw [opcode_long]
      exact (Laws.pairOk (by simp) (by simp) : some (Instr.call (BitVec.extractLsb' 0 24 ((0x03#8 ++ off) : BitVec 32)), true) = some (.call off, true))) hi
theorem Laws.RoundTrip.ret : Laws.RoundTrip.Statement (.ret) := fun hi _ =>
  decodeWords_ok (ps := []) (w := (encR 0x04 0#8 0#8 0#8)) (x := {}) (fits_nil) (isPrefix_encR _ _ _ _ (by decide)) (by rw [opcode_encR]; rfl) (rfl)
    (by rw [opcode_encR]; rfl) (by
      rw [opcode_encR]
      exact (Laws.pairOk (by simp) (z_encR _ _ _ _ 0xFF 0xFF 0xFF (BitVec.zero_and) (BitVec.zero_and) (BitVec.zero_and)) : some (Instr.ret, z (encR 0x04 0#8 0#8 0#8) 0x00FFFFFF) = some (.ret, true))) hi
theorem Laws.RoundTrip.jmpr (a : BitVec 8) : Laws.RoundTrip.Statement (.jmpr a) := fun hi _ =>
  decodeWords_ok (ps := []) (w := (encR 0x05 0#8 a 0#8)) (x := {}) (fits_nil) (isPrefix_encR _ _ _ _ (by decide)) (by rw [opcode_encR]; rfl) (rfl)
    (by rw [opcode_encR]; rfl) (by
      rw [opcode_encR]
      exact (Laws.pairOk (by simp) (z_encR _ _ _ _ 0xFF 0x00 0xFF (BitVec.zero_and) (BitVec.and_zero) (BitVec.zero_and)) : some (Instr.jmpr (fA (encR 0x05 0#8 a 0#8)), z (encR 0x05 0#8 a 0#8) 0x00FF00FF) = some (.jmpr a, true))) hi
theorem Laws.RoundTrip.brs (sel : BitVec 6) (off : BitVec 17) : Laws.RoundTrip.Statement (.brs sel off) := fun hi _ =>
  decodeWords_ok (ps := []) (w := (0x06#8 ++ sel ++ 0#1 ++ off)) (x := {}) (fits_nil) (isPrefix_branch _ _ _ _ (by decide)) (by rw [opcode_branch]; rfl) (rfl)
    (by rw [opcode_branch]; rfl) (by
      rw [opcode_branch]
      exact (Laws.pairOk (by simp) (Laws.z_branch _ _ _) : some (Instr.brs (BitVec.extractLsb' 18 6 ((0x06#8 ++ sel ++ 0#1 ++ off) : BitVec 32)) (BitVec.extractLsb' 0 17 ((0x06#8 ++ sel ++ 0#1 ++ off) : BitVec 32)), z (0x06#8 ++ sel ++ 0#1 ++ off) 0x00020000) = some (.brs sel off, true))) hi
theorem Laws.RoundTrip.brsz (sel : BitVec 6) (off : BitVec 17) : Laws.RoundTrip.Statement (.brsz sel off) := fun hi _ =>
  decodeWords_ok (ps := []) (w := (0x07#8 ++ sel ++ 0#1 ++ off)) (x := {}) (fits_nil) (isPrefix_branch _ _ _ _ (by decide)) (by rw [opcode_branch]; rfl) (rfl)
    (by rw [opcode_branch]; rfl) (by
      rw [opcode_branch]
      exact (Laws.pairOk (by simp) (Laws.z_branch _ _ _) : some (Instr.brsz (BitVec.extractLsb' 18 6 ((0x07#8 ++ sel ++ 0#1 ++ off) : BitVec 32)) (BitVec.extractLsb' 0 17 ((0x07#8 ++ sel ++ 0#1 ++ off) : BitVec 32)), z (0x07#8 ++ sel ++ 0#1 ++ off) 0x00020000) = some (.brsz sel off, true))) hi
theorem Laws.RoundTrip.brv (j : Option (BitVec 24)) (sel : BitVec 6) (neg : Bool) (off : BitVec 17) : Laws.RoundTrip.Statement (.brv j sel neg off) := fun hi _ =>
  decodeWords_ok (ps := (optW encRejoin j)) (w := (0x08#8 ++ sel ++ BitVec.ofBool neg ++ off)) (x := { j := j }) (fits_opt _ isPrefix_encRejoin j) (isPrefix_branch _ _ _ _ (by decide)) (by rw [opcode_branch]; rfl) (arrange_j j)
    (by rw [opcode_branch]; cases j <;> rfl) (by
      rw [opcode_branch]
      exact (Laws.pairOk (by simp) (by simp) : some (Instr.brv j (BitVec.extractLsb' 18 6 ((0x08#8 ++ sel ++ BitVec.ofBool neg ++ off) : BitVec 32)) (BitVec.getLsbD ((0x08#8 ++ sel ++ BitVec.ofBool neg ++ off) : BitVec 32) 17) (BitVec.extractLsb' 0 17 ((0x08#8 ++ sel ++ BitVec.ofBool neg ++ off) : BitVec 32)), true) = some (.brv j sel neg off, true))) hi
theorem Laws.RoundTrip.brany (sel : BitVec 6) (neg : Bool) (off : BitVec 17) : Laws.RoundTrip.Statement (.brany sel neg off) := fun hi _ =>
  decodeWords_ok (ps := []) (w := (0x09#8 ++ sel ++ BitVec.ofBool neg ++ off)) (x := {}) (fits_nil) (isPrefix_branch _ _ _ _ (by decide)) (by rw [opcode_branch]; rfl) (rfl)
    (by rw [opcode_branch]; rfl) (by
      rw [opcode_branch]
      exact (Laws.pairOk (by simp) (by simp) : some (Instr.brany (BitVec.extractLsb' 18 6 ((0x09#8 ++ sel ++ BitVec.ofBool neg ++ off) : BitVec 32)) (BitVec.getLsbD ((0x09#8 ++ sel ++ BitVec.ofBool neg ++ off) : BitVec 32) 17) (BitVec.extractLsb' 0 17 ((0x09#8 ++ sel ++ BitVec.ofBool neg ++ off) : BitVec 32)), true) = some (.brany sel neg off, true))) hi
theorem Laws.RoundTrip.brall (sel : BitVec 6) (neg : Bool) (off : BitVec 17) : Laws.RoundTrip.Statement (.brall sel neg off) := fun hi _ =>
  decodeWords_ok (ps := []) (w := (0x0A#8 ++ sel ++ BitVec.ofBool neg ++ off)) (x := {}) (fits_nil) (isPrefix_branch _ _ _ _ (by decide)) (by rw [opcode_branch]; rfl) (rfl)
    (by rw [opcode_branch]; rfl) (by
      rw [opcode_branch]
      exact (Laws.pairOk (by simp) (by simp) : some (Instr.brall (BitVec.extractLsb' 18 6 ((0x0A#8 ++ sel ++ BitVec.ofBool neg ++ off) : BitVec 32)) (BitVec.getLsbD ((0x0A#8 ++ sel ++ BitVec.ofBool neg ++ off) : BitVec 32) 17) (BitVec.extractLsb' 0 17 ((0x0A#8 ++ sel ++ BitVec.ofBool neg ++ off) : BitVec 32)), true) = some (.brall sel neg off, true))) hi
theorem Laws.RoundTrip.syncw : Laws.RoundTrip.Statement (.syncw) := fun hi _ =>
  decodeWords_ok (ps := []) (w := (encR 0x0B 0#8 0#8 0#8)) (x := {}) (fits_nil) (isPrefix_encR _ _ _ _ (by decide)) (by rw [opcode_encR]; rfl) (rfl)
    (by rw [opcode_encR]; rfl) (by
      rw [opcode_encR]
      exact (Laws.pairOk (by simp) (z_encR _ _ _ _ 0xFF 0xFF 0xFF (BitVec.zero_and) (BitVec.zero_and) (BitVec.zero_and)) : some (Instr.syncw, z (encR 0x0B 0#8 0#8 0#8) 0x00FFFFFF) = some (.syncw, true))) hi
theorem Laws.RoundTrip.trap (off : BitVec 24) : Laws.RoundTrip.Statement (.trap off) := fun hi _ =>
  decodeWords_ok (ps := []) (w := (0x0C#8 ++ off)) (x := {}) (fits_nil) (isPrefix_long _ _ (by decide)) (by rw [opcode_long]; rfl) (rfl)
    (by rw [opcode_long]; rfl) (by
      rw [opcode_long]
      exact (Laws.pairOk (by simp) (by simp) : some (Instr.trap (BitVec.extractLsb' 0 24 ((0x0C#8 ++ off) : BitVec 32)), true) = some (.trap off, true))) hi
theorem Laws.RoundTrip.brk (off : BitVec 24) : Laws.RoundTrip.Statement (.brk off) := fun hi _ =>
  decodeWords_ok (ps := []) (w := (0x0D#8 ++ off)) (x := {}) (fits_nil) (isPrefix_long _ _ (by decide)) (by rw [opcode_long]; rfl) (rfl)
    (by rw [opcode_long]; rfl) (by
      rw [opcode_long]
      exact (Laws.pairOk (by simp) (by simp) : some (Instr.brk (BitVec.extractLsb' 0 24 ((0x0D#8 ++ off) : BitVec 32)), true) = some (.brk off, true))) hi
theorem Laws.RoundTrip.yield : Laws.RoundTrip.Statement (.yield) := fun hi _ =>
  decodeWords_ok (ps := []) (w := (encR 0x0E 0#8 0#8 0#8)) (x := {}) (fits_nil) (isPrefix_encR _ _ _ _ (by decide)) (by rw [opcode_encR]; rfl) (rfl)
    (by rw [opcode_encR]; rfl) (by
      rw [opcode_encR]
      exact (Laws.pairOk (by simp) (z_encR _ _ _ _ 0xFF 0xFF 0xFF (BitVec.zero_and) (BitVec.zero_and) (BitVec.zero_and)) : some (Instr.yield, z (encR 0x0E 0#8 0#8 0#8) 0x00FFFFFF) = some (.yield, true))) hi
theorem Laws.RoundTrip.sleep (a : BitVec 8) : Laws.RoundTrip.Statement (.sleep a) := fun hi _ =>
  decodeWords_ok (ps := []) (w := (encR 0x0F 0#8 a 0#8)) (x := {}) (fits_nil) (isPrefix_encR _ _ _ _ (by decide)) (by rw [opcode_encR]; rfl) (rfl)
    (by rw [opcode_encR]; rfl) (by
      rw [opcode_encR]
      exact (Laws.pairOk (by simp) (z_encR _ _ _ _ 0xFF 0x00 0xFF (BitVec.zero_and) (BitVec.and_zero) (BitVec.zero_and)) : some (Instr.sleep (fA (encR 0x0F 0#8 a 0#8)), z (encR 0x0F 0#8 a 0#8) 0x00FF00FF) = some (.sleep a, true))) hi
theorem Laws.RoundTrip.sadd (d a b : BitVec 8) : Laws.RoundTrip.Statement (.sadd d a b) := fun hi _ =>
  decodeWords_ok (ps := []) (w := (encR 0x10 d a b)) (x := {}) (fits_nil) (isPrefix_encR _ _ _ _ (by decide)) (by rw [opcode_encR]; rfl) (rfl)
    (by rw [opcode_encR]; rfl) (by
      rw [opcode_encR]
      exact (Laws.pairOk (by simp) (by simp) : some (Instr.sadd (fD (encR 0x10 d a b)) (fA (encR 0x10 d a b)) (fB (encR 0x10 d a b)), true) = some (.sadd d a b, true))) hi
theorem Laws.RoundTrip.ssub (d a b : BitVec 8) : Laws.RoundTrip.Statement (.ssub d a b) := fun hi _ =>
  decodeWords_ok (ps := []) (w := (encR 0x11 d a b)) (x := {}) (fits_nil) (isPrefix_encR _ _ _ _ (by decide)) (by rw [opcode_encR]; rfl) (rfl)
    (by rw [opcode_encR]; rfl) (by
      rw [opcode_encR]
      exact (Laws.pairOk (by simp) (by simp) : some (Instr.ssub (fD (encR 0x11 d a b)) (fA (encR 0x11 d a b)) (fB (encR 0x11 d a b)), true) = some (.ssub d a b, true))) hi
theorem Laws.RoundTrip.smul (d a b : BitVec 8) : Laws.RoundTrip.Statement (.smul d a b) := fun hi _ =>
  decodeWords_ok (ps := []) (w := (encR 0x12 d a b)) (x := {}) (fits_nil) (isPrefix_encR _ _ _ _ (by decide)) (by rw [opcode_encR]; rfl) (rfl)
    (by rw [opcode_encR]; rfl) (by
      rw [opcode_encR]
      exact (Laws.pairOk (by simp) (by simp) : some (Instr.smul (fD (encR 0x12 d a b)) (fA (encR 0x12 d a b)) (fB (encR 0x12 d a b)), true) = some (.smul d a b, true))) hi
theorem Laws.RoundTrip.smulh (d a b : BitVec 8) : Laws.RoundTrip.Statement (.smulh d a b) := fun hi _ =>
  decodeWords_ok (ps := []) (w := (encR 0x13 d a b)) (x := {}) (fits_nil) (isPrefix_encR _ _ _ _ (by decide)) (by rw [opcode_encR]; rfl) (rfl)
    (by rw [opcode_encR]; rfl) (by
      rw [opcode_encR]
      exact (Laws.pairOk (by simp) (by simp) : some (Instr.smulh (fD (encR 0x13 d a b)) (fA (encR 0x13 d a b)) (fB (encR 0x13 d a b)), true) = some (.smulh d a b, true))) hi
theorem Laws.RoundTrip.smulhn (d a b : BitVec 8) : Laws.RoundTrip.Statement (.smulhn d a b) := fun hi _ =>
  decodeWords_ok (ps := []) (w := (encR 0x14 d a b)) (x := {}) (fits_nil) (isPrefix_encR _ _ _ _ (by decide)) (by rw [opcode_encR]; rfl) (rfl)
    (by rw [opcode_encR]; rfl) (by
      rw [opcode_encR]
      exact (Laws.pairOk (by simp) (by simp) : some (Instr.smulhn (fD (encR 0x14 d a b)) (fA (encR 0x14 d a b)) (fB (encR 0x14 d a b)), true) = some (.smulhn d a b, true))) hi
theorem Laws.RoundTrip.sand (d a b : BitVec 8) : Laws.RoundTrip.Statement (.sand d a b) := fun hi _ =>
  decodeWords_ok (ps := []) (w := (encR 0x15 d a b)) (x := {}) (fits_nil) (isPrefix_encR _ _ _ _ (by decide)) (by rw [opcode_encR]; rfl) (rfl)
    (by rw [opcode_encR]; rfl) (by
      rw [opcode_encR]
      exact (Laws.pairOk (by simp) (by simp) : some (Instr.sand (fD (encR 0x15 d a b)) (fA (encR 0x15 d a b)) (fB (encR 0x15 d a b)), true) = some (.sand d a b, true))) hi
theorem Laws.RoundTrip.sor (d a b : BitVec 8) : Laws.RoundTrip.Statement (.sor d a b) := fun hi _ =>
  decodeWords_ok (ps := []) (w := (encR 0x16 d a b)) (x := {}) (fits_nil) (isPrefix_encR _ _ _ _ (by decide)) (by rw [opcode_encR]; rfl) (rfl)
    (by rw [opcode_encR]; rfl) (by
      rw [opcode_encR]
      exact (Laws.pairOk (by simp) (by simp) : some (Instr.sor (fD (encR 0x16 d a b)) (fA (encR 0x16 d a b)) (fB (encR 0x16 d a b)), true) = some (.sor d a b, true))) hi
theorem Laws.RoundTrip.sxor (d a b : BitVec 8) : Laws.RoundTrip.Statement (.sxor d a b) := fun hi _ =>
  decodeWords_ok (ps := []) (w := (encR 0x17 d a b)) (x := {}) (fits_nil) (isPrefix_encR _ _ _ _ (by decide)) (by rw [opcode_encR]; rfl) (rfl)
    (by rw [opcode_encR]; rfl) (by
      rw [opcode_encR]
      exact (Laws.pairOk (by simp) (by simp) : some (Instr.sxor (fD (encR 0x17 d a b)) (fA (encR 0x17 d a b)) (fB (encR 0x17 d a b)), true) = some (.sxor d a b, true))) hi
theorem Laws.RoundTrip.sshl (d a b : BitVec 8) : Laws.RoundTrip.Statement (.sshl d a b) := fun hi _ =>
  decodeWords_ok (ps := []) (w := (encR 0x18 d a b)) (x := {}) (fits_nil) (isPrefix_encR _ _ _ _ (by decide)) (by rw [opcode_encR]; rfl) (rfl)
    (by rw [opcode_encR]; rfl) (by
      rw [opcode_encR]
      exact (Laws.pairOk (by simp) (by simp) : some (Instr.sshl (fD (encR 0x18 d a b)) (fA (encR 0x18 d a b)) (fB (encR 0x18 d a b)), true) = some (.sshl d a b, true))) hi
theorem Laws.RoundTrip.sshr (d a b : BitVec 8) : Laws.RoundTrip.Statement (.sshr d a b) := fun hi _ =>
  decodeWords_ok (ps := []) (w := (encR 0x19 d a b)) (x := {}) (fits_nil) (isPrefix_encR _ _ _ _ (by decide)) (by rw [opcode_encR]; rfl) (rfl)
    (by rw [opcode_encR]; rfl) (by
      rw [opcode_encR]
      exact (Laws.pairOk (by simp) (by simp) : some (Instr.sshr (fD (encR 0x19 d a b)) (fA (encR 0x19 d a b)) (fB (encR 0x19 d a b)), true) = some (.sshr d a b, true))) hi
theorem Laws.RoundTrip.ssra (d a b : BitVec 8) : Laws.RoundTrip.Statement (.ssra d a b) := fun hi _ =>
  decodeWords_ok (ps := []) (w := (encR 0x1A d a b)) (x := {}) (fits_nil) (isPrefix_encR _ _ _ _ (by decide)) (by rw [opcode_encR]; rfl) (rfl)
    (by rw [opcode_encR]; rfl) (by
      rw [opcode_encR]
      exact (Laws.pairOk (by simp) (by simp) : some (Instr.ssra (fD (encR 0x1A d a b)) (fA (encR 0x1A d a b)) (fB (encR 0x1A d a b)), true) = some (.ssra d a b, true))) hi
theorem Laws.RoundTrip.smin (d a b : BitVec 8) : Laws.RoundTrip.Statement (.smin d a b) := fun hi _ =>
  decodeWords_ok (ps := []) (w := (encR 0x1B d a b)) (x := {}) (fits_nil) (isPrefix_encR _ _ _ _ (by decide)) (by rw [opcode_encR]; rfl) (rfl)
    (by rw [opcode_encR]; rfl) (by
      rw [opcode_encR]
      exact (Laws.pairOk (by simp) (by simp) : some (Instr.smin (fD (encR 0x1B d a b)) (fA (encR 0x1B d a b)) (fB (encR 0x1B d a b)), true) = some (.smin d a b, true))) hi
theorem Laws.RoundTrip.smax (d a b : BitVec 8) : Laws.RoundTrip.Statement (.smax d a b) := fun hi _ =>
  decodeWords_ok (ps := []) (w := (encR 0x1C d a b)) (x := {}) (fits_nil) (isPrefix_encR _ _ _ _ (by decide)) (by rw [opcode_encR]; rfl) (rfl)
    (by rw [opcode_encR]; rfl) (by
      rw [opcode_encR]
      exact (Laws.pairOk (by simp) (by simp) : some (Instr.smax (fD (encR 0x1C d a b)) (fA (encR 0x1C d a b)) (fB (encR 0x1C d a b)), true) = some (.smax d a b, true))) hi
theorem Laws.RoundTrip.sminn (d a b : BitVec 8) : Laws.RoundTrip.Statement (.sminn d a b) := fun hi _ =>
  decodeWords_ok (ps := []) (w := (encR 0x1D d a b)) (x := {}) (fits_nil) (isPrefix_encR _ _ _ _ (by decide)) (by rw [opcode_encR]; rfl) (rfl)
    (by rw [opcode_encR]; rfl) (by
      rw [opcode_encR]
      exact (Laws.pairOk (by simp) (by simp) : some (Instr.sminn (fD (encR 0x1D d a b)) (fA (encR 0x1D d a b)) (fB (encR 0x1D d a b)), true) = some (.sminn d a b, true))) hi
theorem Laws.RoundTrip.smaxn (d a b : BitVec 8) : Laws.RoundTrip.Statement (.smaxn d a b) := fun hi _ =>
  decodeWords_ok (ps := []) (w := (encR 0x1E d a b)) (x := {}) (fits_nil) (isPrefix_encR _ _ _ _ (by decide)) (by rw [opcode_encR]; rfl) (rfl)
    (by rw [opcode_encR]; rfl) (by
      rw [opcode_encR]
      exact (Laws.pairOk (by simp) (by simp) : some (Instr.smaxn (fD (encR 0x1E d a b)) (fA (encR 0x1E d a b)) (fB (encR 0x1E d a b)), true) = some (.smaxn d a b, true))) hi
theorem Laws.RoundTrip.sadd64 (d a b : BitVec 8) : Laws.RoundTrip.Statement (.sadd64 d a b) := fun hi _ =>
  decodeWords_ok (ps := []) (w := (encR 0x1F d a b)) (x := {}) (fits_nil) (isPrefix_encR _ _ _ _ (by decide)) (by rw [opcode_encR]; rfl) (rfl)
    (by rw [opcode_encR]; rfl) (by
      rw [opcode_encR]
      exact (Laws.pairOk (by simp) (by simp) : some (Instr.sadd64 (fD (encR 0x1F d a b)) (fA (encR 0x1F d a b)) (fB (encR 0x1F d a b)), true) = some (.sadd64 d a b, true))) hi
theorem Laws.RoundTrip.saddi (x : Option (BitVec 24)) (d a i : BitVec 8) : Laws.RoundTrip.Statement (.saddi x d a i) := fun hi _ =>
  decodeWords_ok (ps := (optW encImm x)) (w := (encR 0x20 d a i)) (x := { i := x }) (fits_opt _ isPrefix_encImm x) (isPrefix_encR _ _ _ _ (by decide)) (by rw [opcode_encR]; rfl) (arrange_i x)
    (by rw [opcode_encR]; cases x <;> rfl) (by
      rw [opcode_encR]
      exact (Laws.pairOk (by simp) (by simp) : some (Instr.saddi x (fD (encR 0x20 d a i)) (fA (encR 0x20 d a i)) (fB (encR 0x20 d a i)), true) = some (.saddi x d a i, true))) hi
theorem Laws.RoundTrip.sandi (x : Option (BitVec 24)) (d a i : BitVec 8) : Laws.RoundTrip.Statement (.sandi x d a i) := fun hi _ =>
  decodeWords_ok (ps := (optW encImm x)) (w := (encR 0x21 d a i)) (x := { i := x }) (fits_opt _ isPrefix_encImm x) (isPrefix_encR _ _ _ _ (by decide)) (by rw [opcode_encR]; rfl) (arrange_i x)
    (by rw [opcode_encR]; cases x <;> rfl) (by
      rw [opcode_encR]
      exact (Laws.pairOk (by simp) (by simp) : some (Instr.sandi x (fD (encR 0x21 d a i)) (fA (encR 0x21 d a i)) (fB (encR 0x21 d a i)), true) = some (.sandi x d a i, true))) hi
theorem Laws.RoundTrip.sori (x : Option (BitVec 24)) (d a i : BitVec 8) : Laws.RoundTrip.Statement (.sori x d a i) := fun hi _ =>
  decodeWords_ok (ps := (optW encImm x)) (w := (encR 0x22 d a i)) (x := { i := x }) (fits_opt _ isPrefix_encImm x) (isPrefix_encR _ _ _ _ (by decide)) (by rw [opcode_encR]; rfl) (arrange_i x)
    (by rw [opcode_encR]; cases x <;> rfl) (by
      rw [opcode_encR]
      exact (Laws.pairOk (by simp) (by simp) : some (Instr.sori x (fD (encR 0x22 d a i)) (fA (encR 0x22 d a i)) (fB (encR 0x22 d a i)), true) = some (.sori x d a i, true))) hi
theorem Laws.RoundTrip.sxori (x : Option (BitVec 24)) (d a i : BitVec 8) : Laws.RoundTrip.Statement (.sxori x d a i) := fun hi _ =>
  decodeWords_ok (ps := (optW encImm x)) (w := (encR 0x23 d a i)) (x := { i := x }) (fits_opt _ isPrefix_encImm x) (isPrefix_encR _ _ _ _ (by decide)) (by rw [opcode_encR]; rfl) (arrange_i x)
    (by rw [opcode_encR]; cases x <;> rfl) (by
      rw [opcode_encR]
      exact (Laws.pairOk (by simp) (by simp) : some (Instr.sxori x (fD (encR 0x23 d a i)) (fA (encR 0x23 d a i)) (fB (encR 0x23 d a i)), true) = some (.sxori x d a i, true))) hi
theorem Laws.RoundTrip.sshli (d a : BitVec 8) (n : BitVec 6) : Laws.RoundTrip.Statement (.sshli d a n) := fun hi _ =>
  decodeWords_ok (ps := []) (w := (encR 0x24 d a (0#2 ++ n))) (x := {}) (fits_nil) (isPrefix_encR _ _ _ _ (by decide)) (by rw [opcode_encR]; rfl) (rfl)
    (by rw [opcode_encR]; rfl) (by
      rw [opcode_encR]
      exact (Laws.pairOk (by simp) (z_encR _ _ _ _ 0x00 0x00 0xC0 (BitVec.and_zero) (BitVec.and_zero) (low_masked _ 3#2)) : some (Instr.sshli (fD (encR 0x24 d a (0#2 ++ n))) (fA (encR 0x24 d a (0#2 ++ n))) (BitVec.extractLsb' 0 6 ((encR 0x24 d a (0#2 ++ n)) : BitVec 32)), z (encR 0x24 d a (0#2 ++ n)) 0x000000C0) = some (.sshli d a n, true))) hi
theorem Laws.RoundTrip.sshri (d a : BitVec 8) (n : BitVec 6) : Laws.RoundTrip.Statement (.sshri d a n) := fun hi _ =>
  decodeWords_ok (ps := []) (w := (encR 0x25 d a (0#2 ++ n))) (x := {}) (fits_nil) (isPrefix_encR _ _ _ _ (by decide)) (by rw [opcode_encR]; rfl) (rfl)
    (by rw [opcode_encR]; rfl) (by
      rw [opcode_encR]
      exact (Laws.pairOk (by simp) (z_encR _ _ _ _ 0x00 0x00 0xC0 (BitVec.and_zero) (BitVec.and_zero) (low_masked _ 3#2)) : some (Instr.sshri (fD (encR 0x25 d a (0#2 ++ n))) (fA (encR 0x25 d a (0#2 ++ n))) (BitVec.extractLsb' 0 6 ((encR 0x25 d a (0#2 ++ n)) : BitVec 32)), z (encR 0x25 d a (0#2 ++ n)) 0x000000C0) = some (.sshri d a n, true))) hi
theorem Laws.RoundTrip.ssrai (d a : BitVec 8) (n : BitVec 6) : Laws.RoundTrip.Statement (.ssrai d a n) := fun hi _ =>
  decodeWords_ok (ps := []) (w := (encR 0x26 d a (0#2 ++ n))) (x := {}) (fits_nil) (isPrefix_encR _ _ _ _ (by decide)) (by rw [opcode_encR]; rfl) (rfl)
    (by rw [opcode_encR]; rfl) (by
      rw [opcode_encR]
      exact (Laws.pairOk (by simp) (z_encR _ _ _ _ 0x00 0x00 0xC0 (BitVec.and_zero) (BitVec.and_zero) (low_masked _ 3#2)) : some (Instr.ssrai (fD (encR 0x26 d a (0#2 ++ n))) (fA (encR 0x26 d a (0#2 ++ n))) (BitVec.extractLsb' 0 6 ((encR 0x26 d a (0#2 ++ n)) : BitVec 32)), z (encR 0x26 d a (0#2 ++ n)) 0x000000C0) = some (.ssrai d a n, true))) hi
theorem Laws.RoundTrip.smovi (x : Option (BitVec 24)) (d i : BitVec 8) : Laws.RoundTrip.Statement (.smovi x d i) := fun hi _ =>
  decodeWords_ok (ps := (optW encImm x)) (w := (encR 0x27 d 0#8 i)) (x := { i := x }) (fits_opt _ isPrefix_encImm x) (isPrefix_encR _ _ _ _ (by decide)) (by rw [opcode_encR]; rfl) (arrange_i x)
    (by rw [opcode_encR]; cases x <;> rfl) (by
      rw [opcode_encR]
      exact (Laws.pairOk (by simp) (z_encR _ _ _ _ 0x00 0xFF 0x00 (BitVec.and_zero) (BitVec.zero_and) (BitVec.and_zero)) : some (Instr.smovi x (fD (encR 0x27 d 0#8 i)) (fB (encR 0x27 d 0#8 i)), z (encR 0x27 d 0#8 i) 0x0000FF00) = some (.smovi x d i, true))) hi
theorem Laws.RoundTrip.seq (d a b : BitVec 8) : Laws.RoundTrip.Statement (.seq d a b) := fun hi _ =>
  decodeWords_ok (ps := []) (w := (encR 0x28 d a b)) (x := {}) (fits_nil) (isPrefix_encR _ _ _ _ (by decide)) (by rw [opcode_encR]; rfl) (rfl)
    (by rw [opcode_encR]; rfl) (by
      rw [opcode_encR]
      exact (Laws.pairOk (by simp) (by simp) : some (Instr.seq (fD (encR 0x28 d a b)) (fA (encR 0x28 d a b)) (fB (encR 0x28 d a b)), true) = some (.seq d a b, true))) hi
theorem Laws.RoundTrip.slt (d a b : BitVec 8) : Laws.RoundTrip.Statement (.slt d a b) := fun hi _ =>
  decodeWords_ok (ps := []) (w := (encR 0x29 d a b)) (x := {}) (fits_nil) (isPrefix_encR _ _ _ _ (by decide)) (by rw [opcode_encR]; rfl) (rfl)
    (by rw [opcode_encR]; rfl) (by
      rw [opcode_encR]
      exact (Laws.pairOk (by simp) (by simp) : some (Instr.slt (fD (encR 0x29 d a b)) (fA (encR 0x29 d a b)) (fB (encR 0x29 d a b)), true) = some (.slt d a b, true))) hi
theorem Laws.RoundTrip.sltn (d a b : BitVec 8) : Laws.RoundTrip.Statement (.sltn d a b) := fun hi _ =>
  decodeWords_ok (ps := []) (w := (encR 0x2A d a b)) (x := {}) (fits_nil) (isPrefix_encR _ _ _ _ (by decide)) (by rw [opcode_encR]; rfl) (rfl)
    (by rw [opcode_encR]; rfl) (by
      rw [opcode_encR]
      exact (Laws.pairOk (by simp) (by simp) : some (Instr.sltn (fD (encR 0x2A d a b)) (fA (encR 0x2A d a b)) (fB (encR 0x2A d a b)), true) = some (.sltn d a b, true))) hi
theorem Laws.RoundTrip.sle (d a b : BitVec 8) : Laws.RoundTrip.Statement (.sle d a b) := fun hi _ =>
  decodeWords_ok (ps := []) (w := (encR 0x2B d a b)) (x := {}) (fits_nil) (isPrefix_encR _ _ _ _ (by decide)) (by rw [opcode_encR]; rfl) (rfl)
    (by rw [opcode_encR]; rfl) (by
      rw [opcode_encR]
      exact (Laws.pairOk (by simp) (by simp) : some (Instr.sle (fD (encR 0x2B d a b)) (fA (encR 0x2B d a b)) (fB (encR 0x2B d a b)), true) = some (.sle d a b, true))) hi
theorem Laws.RoundTrip.spopc (d a : BitVec 8) : Laws.RoundTrip.Statement (.spopc d a) := fun hi _ =>
  decodeWords_ok (ps := []) (w := (encR 0x2C d a 0#8)) (x := {}) (fits_nil) (isPrefix_encR _ _ _ _ (by decide)) (by rw [opcode_encR]; rfl) (rfl)
    (by rw [opcode_encR]; rfl) (by
      rw [opcode_encR]
      exact (Laws.pairOk (by simp) (z_encR _ _ _ _ 0x00 0x00 0xFF (BitVec.and_zero) (BitVec.and_zero) (BitVec.zero_and)) : some (Instr.spopc (fD (encR 0x2C d a 0#8)) (fA (encR 0x2C d a 0#8)), z (encR 0x2C d a 0#8) 0x000000FF) = some (.spopc d a, true))) hi
theorem Laws.RoundTrip.sclz (d a : BitVec 8) : Laws.RoundTrip.Statement (.sclz d a) := fun hi _ =>
  decodeWords_ok (ps := []) (w := (encR 0x2D d a 0#8)) (x := {}) (fits_nil) (isPrefix_encR _ _ _ _ (by decide)) (by rw [opcode_encR]; rfl) (rfl)
    (by rw [opcode_encR]; rfl) (by
      rw [opcode_encR]
      exact (Laws.pairOk (by simp) (z_encR _ _ _ _ 0x00 0x00 0xFF (BitVec.and_zero) (BitVec.and_zero) (BitVec.zero_and)) : some (Instr.sclz (fD (encR 0x2D d a 0#8)) (fA (encR 0x2D d a 0#8)), z (encR 0x2D d a 0#8) 0x000000FF) = some (.sclz d a, true))) hi
theorem Laws.RoundTrip.sffs (d a : BitVec 8) : Laws.RoundTrip.Statement (.sffs d a) := fun hi _ =>
  decodeWords_ok (ps := []) (w := (encR 0x2E d a 0#8)) (x := {}) (fits_nil) (isPrefix_encR _ _ _ _ (by decide)) (by rw [opcode_encR]; rfl) (rfl)
    (by rw [opcode_encR]; rfl) (by
      rw [opcode_encR]
      exact (Laws.pairOk (by simp) (z_encR _ _ _ _ 0x00 0x00 0xFF (BitVec.and_zero) (BitVec.and_zero) (BitVec.zero_and)) : some (Instr.sffs (fD (encR 0x2E d a 0#8)) (fA (encR 0x2E d a 0#8)), z (encR 0x2E d a 0#8) 0x000000FF) = some (.sffs d a, true))) hi
theorem Laws.RoundTrip.ssel (d a b : BitVec 8) : Laws.RoundTrip.Statement (.ssel d a b) := fun hi _ =>
  decodeWords_ok (ps := []) (w := (encR 0x2F d a b)) (x := {}) (fits_nil) (isPrefix_encR _ _ _ _ (by decide)) (by rw [opcode_encR]; rfl) (rfl)
    (by rw [opcode_encR]; rfl) (by
      rw [opcode_encR]
      exact (Laws.pairOk (by simp) (by simp) : some (Instr.ssel (fD (encR 0x2F d a b)) (fA (encR 0x2F d a b)) (fB (encR 0x2F d a b)), true) = some (.ssel d a b, true))) hi
theorem Laws.RoundTrip.srd (d i : BitVec 8) : Laws.RoundTrip.Statement (.srd d i) := fun hi _ =>
  decodeWords_ok (ps := []) (w := (encR 0x30 d 0#8 i)) (x := {}) (fits_nil) (isPrefix_encR _ _ _ _ (by decide)) (by rw [opcode_encR]; rfl) (rfl)
    (by rw [opcode_encR]; rfl) (by
      rw [opcode_encR]
      exact (Laws.pairOk (by simp) (z_encR _ _ _ _ 0x00 0xFF 0x00 (BitVec.and_zero) (BitVec.zero_and) (BitVec.and_zero)) : some (Instr.srd (fD (encR 0x30 d 0#8 i)) (fB (encR 0x30 d 0#8 i)), z (encR 0x30 d 0#8 i) 0x0000FF00) = some (.srd d i, true))) hi
theorem Laws.RoundTrip.swr (a i : BitVec 8) : Laws.RoundTrip.Statement (.swr a i) := fun hi _ =>
  decodeWords_ok (ps := []) (w := (encR 0x31 0#8 a i)) (x := {}) (fits_nil) (isPrefix_encR _ _ _ _ (by decide)) (by rw [opcode_encR]; rfl) (rfl)
    (by rw [opcode_encR]; rfl) (by
      rw [opcode_encR]
      exact (Laws.pairOk (by simp) (z_encR _ _ _ _ 0xFF 0x00 0x00 (BitVec.zero_and) (BitVec.and_zero) (BitVec.and_zero)) : some (Instr.swr (fA (encR 0x31 0#8 a i)) (fB (encR 0x31 0#8 a i)), z (encR 0x31 0#8 a i) 0x00FF0000) = some (.swr a i, true))) hi
theorem Laws.RoundTrip.setmode (a : BitVec 8) : Laws.RoundTrip.Statement (.setmode a) := fun hi _ =>
  decodeWords_ok (ps := []) (w := (encR 0x32 0#8 a 0#8)) (x := {}) (fits_nil) (isPrefix_encR _ _ _ _ (by decide)) (by rw [opcode_encR]; rfl) (rfl)
    (by rw [opcode_encR]; rfl) (by
      rw [opcode_encR]
      exact (Laws.pairOk (by simp) (z_encR _ _ _ _ 0xFF 0x00 0xFF (BitVec.zero_and) (BitVec.and_zero) (BitVec.zero_and)) : some (Instr.setmode (fA (encR 0x32 0#8 a 0#8)), z (encR 0x32 0#8 a 0#8) 0x00FF00FF) = some (.setmode a, true))) hi
theorem Laws.RoundTrip.getmode (d : BitVec 8) : Laws.RoundTrip.Statement (.getmode d) := fun hi _ =>
  decodeWords_ok (ps := []) (w := (encR 0x33 d 0#8 0#8)) (x := {}) (fits_nil) (isPrefix_encR _ _ _ _ (by decide)) (by rw [opcode_encR]; rfl) (rfl)
    (by rw [opcode_encR]; rfl) (by
      rw [opcode_encR]
      exact (Laws.pairOk (by simp) (z_encR _ _ _ _ 0x00 0xFF 0xFF (BitVec.and_zero) (BitVec.zero_and) (BitVec.zero_and)) : some (Instr.getmode (fD (encR 0x33 d 0#8 0#8)), z (encR 0x33 d 0#8 0#8) 0x0000FFFF) = some (.getmode d, true))) hi
theorem Laws.RoundTrip.prd (d a : BitVec 8) : Laws.RoundTrip.Statement (.prd d a) := fun hi _ =>
  decodeWords_ok (ps := []) (w := (encR 0x34 d a 0#8)) (x := {}) (fits_nil) (isPrefix_encR _ _ _ _ (by decide)) (by rw [opcode_encR]; rfl) (rfl)
    (by rw [opcode_encR]; rfl) (by
      rw [opcode_encR]
      exact (Laws.pairOk (by simp) (z_encR _ _ _ _ 0x00 0x00 0xFF (BitVec.and_zero) (BitVec.and_zero) (BitVec.zero_and)) : some (Instr.prd (fD (encR 0x34 d a 0#8)) (fA (encR 0x34 d a 0#8)), z (encR 0x34 d a 0#8) 0x000000FF) = some (.prd d a, true))) hi
theorem Laws.RoundTrip.pwr (d a : BitVec 8) : Laws.RoundTrip.Statement (.pwr d a) := fun hi _ =>
  decodeWords_ok (ps := []) (w := (encR 0x35 d a 0#8)) (x := {}) (fits_nil) (isPrefix_encR _ _ _ _ (by decide)) (by rw [opcode_encR]; rfl) (rfl)
    (by rw [opcode_encR]; rfl) (by
      rw [opcode_encR]
      exact (Laws.pairOk (by simp) (z_encR _ _ _ _ 0x00 0x00 0xFF (BitVec.and_zero) (BitVec.and_zero) (BitVec.zero_and)) : some (Instr.pwr (fD (encR 0x35 d a 0#8)) (fA (encR 0x35 d a 0#8)), z (encR 0x35 d a 0#8) 0x000000FF) = some (.pwr d a, true))) hi
theorem Laws.RoundTrip.vgetl (d a b : BitVec 8) : Laws.RoundTrip.Statement (.vgetl d a b) := fun hi _ =>
  decodeWords_ok (ps := []) (w := (encR 0x36 d a b)) (x := {}) (fits_nil) (isPrefix_encR _ _ _ _ (by decide)) (by rw [opcode_encR]; rfl) (rfl)
    (by rw [opcode_encR]; rfl) (by
      rw [opcode_encR]
      exact (Laws.pairOk (by simp) (by simp) : some (Instr.vgetl (fD (encR 0x36 d a b)) (fA (encR 0x36 d a b)) (fB (encR 0x36 d a b)), true) = some (.vgetl d a b, true))) hi
theorem Laws.RoundTrip.vsetl (d a b : BitVec 8) : Laws.RoundTrip.Statement (.vsetl d a b) := fun hi _ =>
  decodeWords_ok (ps := []) (w := (encR 0x37 d a b)) (x := {}) (fits_nil) (isPrefix_encR _ _ _ _ (by decide)) (by rw [opcode_encR]; rfl) (rfl)
    (by rw [opcode_encR]; rfl) (by
      rw [opcode_encR]
      exact (Laws.pairOk (by simp) (by simp) : some (Instr.vsetl (fD (encR 0x37 d a b)) (fA (encR 0x37 d a b)) (fB (encR 0x37 d a b)), true) = some (.vsetl d a b, true))) hi
theorem Laws.RoundTrip.smov (d a : BitVec 8) : Laws.RoundTrip.Statement (.smov d a) := fun hi _ =>
  decodeWords_ok (ps := []) (w := (encR 0x38 d a 0#8)) (x := {}) (fits_nil) (isPrefix_encR _ _ _ _ (by decide)) (by rw [opcode_encR]; rfl) (rfl)
    (by rw [opcode_encR]; rfl) (by
      rw [opcode_encR]
      exact (Laws.pairOk (by simp) (z_encR _ _ _ _ 0x00 0x00 0xFF (BitVec.and_zero) (BitVec.and_zero) (BitVec.zero_and)) : some (Instr.smov (fD (encR 0x38 d a 0#8)) (fA (encR 0x38 d a 0#8)), z (encR 0x38 d a 0#8) 0x000000FF) = some (.smov d a, true))) hi
theorem Laws.RoundTrip.sld (o : Option OPfx) (d a : BitVec 8) (wd : BitVec 3) (c : Bool) : Laws.RoundTrip.Statement (.sld o d a wd c) := fun hi _ =>
  decodeWords_ok (ps := (optW OPfx.enc o)) (w := (encR 0x39 d a (wd ++ 8#4 ++ BitVec.ofBool c))) (x := { o := o }) (fits_opt _ OPfx.isPrefix_enc o) (isPrefix_encR _ _ _ _ (by decide)) (by rw [opcode_encR]; rfl) (arrange_o o)
    (by rw [opcode_encR]; cases o <;> rfl) (by
      rw [opcode_encR]
      exact (Laws.pairOk (by simp) (by simp) : some (Instr.sld o (fD (encR 0x39 d a (wd ++ 8#4 ++ BitVec.ofBool c))) (fA (encR 0x39 d a (wd ++ 8#4 ++ BitVec.ofBool c))) (BitVec.extractLsb' 5 3 ((encR 0x39 d a (wd ++ 8#4 ++ BitVec.ofBool c)) : BitVec 32)) (BitVec.getLsbD ((encR 0x39 d a (wd ++ 8#4 ++ BitVec.ofBool c)) : BitVec 32) 0), BitVec.extractLsb' 1 4 ((encR 0x39 d a (wd ++ 8#4 ++ BitVec.ofBool c)) : BitVec 32) == 8#4) = some (.sld o d a wd c, true))) hi
theorem Laws.RoundTrip.sst (o : Option OPfx) (d a : BitVec 8) (wd : BitVec 3) (c : Bool) : Laws.RoundTrip.Statement (.sst o d a wd c) := fun hi _ =>
  decodeWords_ok (ps := (optW OPfx.enc o)) (w := (encR 0x3A d a (wd ++ 8#4 ++ BitVec.ofBool c))) (x := { o := o }) (fits_opt _ OPfx.isPrefix_enc o) (isPrefix_encR _ _ _ _ (by decide)) (by rw [opcode_encR]; rfl) (arrange_o o)
    (by rw [opcode_encR]; cases o <;> rfl) (by
      rw [opcode_encR]
      exact (Laws.pairOk (by simp) (by simp) : some (Instr.sst o (fD (encR 0x3A d a (wd ++ 8#4 ++ BitVec.ofBool c))) (fA (encR 0x3A d a (wd ++ 8#4 ++ BitVec.ofBool c))) (BitVec.extractLsb' 5 3 ((encR 0x3A d a (wd ++ 8#4 ++ BitVec.ofBool c)) : BitVec 32)) (BitVec.getLsbD ((encR 0x3A d a (wd ++ 8#4 ++ BitVec.ofBool c)) : BitVec 32) 0), BitVec.extractLsb' 1 4 ((encR 0x3A d a (wd ++ 8#4 ++ BitVec.ofBool c)) : BitVec 32) == 8#4) = some (.sst o d a wd c, true))) hi
theorem Laws.RoundTrip.satom (o : Option OPfx) (d a : BitVec 8) : Laws.RoundTrip.Statement (.satom o d a) := fun hi _ =>
  decodeWords_ok (ps := (optW OPfx.enc o)) (w := (encR 0x3B d a 0#8)) (x := { o := o }) (fits_opt _ OPfx.isPrefix_enc o) (isPrefix_encR _ _ _ _ (by decide)) (by rw [opcode_encR]; rfl) (arrange_o o)
    (by rw [opcode_encR]; cases o <;> rfl) (by
      rw [opcode_encR]
      exact (Laws.pairOk (by simp) (z_encR _ _ _ _ 0x00 0x00 0xFF (BitVec.and_zero) (BitVec.and_zero) (BitVec.zero_and)) : some (Instr.satom o (fD (encR 0x3B d a 0#8)) (fA (encR 0x3B d a 0#8)), z (encR 0x3B d a 0#8) 0x000000FF) = some (.satom o d a, true))) hi
theorem Laws.RoundTrip.vdquery (d a b : BitVec 8) : Laws.RoundTrip.Statement (.vdquery d a b) := fun hi _ =>
  decodeWords_ok (ps := []) (w := (encR 0x3C d a b)) (x := {}) (fits_nil) (isPrefix_encR _ _ _ _ (by decide)) (by rw [opcode_encR]; rfl) (rfl)
    (by rw [opcode_encR]; rfl) (by
      rw [opcode_encR]
      exact (Laws.pairOk (by simp) (by simp) : some (Instr.vdquery (fD (encR 0x3C d a b)) (fA (encR 0x3C d a b)) (fB (encR 0x3C d a b)), true) = some (.vdquery d a b, true))) hi
theorem Laws.RoundTrip.capq (d a : BitVec 8) : Laws.RoundTrip.Statement (.capq d a) := fun hi _ =>
  decodeWords_ok (ps := []) (w := (encR 0x3D d a 0#8)) (x := {}) (fits_nil) (isPrefix_encR _ _ _ _ (by decide)) (by rw [opcode_encR]; rfl) (rfl)
    (by rw [opcode_encR]; rfl) (by
      rw [opcode_encR]
      exact (Laws.pairOk (by simp) (z_encR _ _ _ _ 0x00 0x00 0xFF (BitVec.and_zero) (BitVec.and_zero) (BitVec.zero_and)) : some (Instr.capq (fD (encR 0x3D d a 0#8)) (fA (encR 0x3D d a 0#8)), z (encR 0x3D d a 0#8) 0x000000FF) = some (.capq d a, true))) hi
theorem Laws.RoundTrip.launch (d a : BitVec 8) : Laws.RoundTrip.Statement (.launch d a) := fun hi _ =>
  decodeWords_ok (ps := []) (w := (encR 0x3E d a 0#8)) (x := {}) (fits_nil) (isPrefix_encR _ _ _ _ (by decide)) (by rw [opcode_encR]; rfl) (rfl)
    (by rw [opcode_encR]; rfl) (by
      rw [opcode_encR]
      exact (Laws.pairOk (by simp) (z_encR _ _ _ _ 0x00 0x00 0xFF (BitVec.and_zero) (BitVec.and_zero) (BitVec.zero_and)) : some (Instr.launch (fD (encR 0x3E d a 0#8)) (fA (encR 0x3E d a 0#8)), z (encR 0x3E d a 0#8) 0x000000FF) = some (.launch d a, true))) hi
theorem Laws.RoundTrip.kick (a b : BitVec 8) : Laws.RoundTrip.Statement (.kick a b) := fun hi _ =>
  decodeWords_ok (ps := []) (w := (encR 0x3F 0#8 a b)) (x := {}) (fits_nil) (isPrefix_encR _ _ _ _ (by decide)) (by rw [opcode_encR]; rfl) (rfl)
    (by rw [opcode_encR]; rfl) (by
      rw [opcode_encR]
      exact (Laws.pairOk (by simp) (z_encR _ _ _ _ 0xFF 0x00 0x00 (BitVec.zero_and) (BitVec.and_zero) (BitVec.and_zero)) : some (Instr.kick (fA (encR 0x3F 0#8 a b)) (fB (encR 0x3F 0#8 a b)), z (encR 0x3F 0#8 a b) 0x00FF0000) = some (.kick a b, true))) hi
theorem Laws.RoundTrip.vadd (p : Option VPfx) (d a b : BitVec 8) : Laws.RoundTrip.Statement (.vadd p d a b) := fun hi _ =>
  decodeWords_ok (ps := (optW VPfx.enc p)) (w := (encR 0x40 d a b)) (x := { v := p }) (fits_opt _ VPfx.isPrefix_enc p) (isPrefix_encR _ _ _ _ (by decide)) (by rw [opcode_encR]; rfl) (arrange_v p)
    (by rw [opcode_encR]; cases p <;> rfl) (by
      rw [opcode_encR]
      exact (Laws.pairOk (by simp) (by simp) : some (Instr.vadd p (fD (encR 0x40 d a b)) (fA (encR 0x40 d a b)) (fB (encR 0x40 d a b)), true) = some (.vadd p d a b, true))) hi
theorem Laws.RoundTrip.vsub (p : Option VPfx) (d a b : BitVec 8) : Laws.RoundTrip.Statement (.vsub p d a b) := fun hi _ =>
  decodeWords_ok (ps := (optW VPfx.enc p)) (w := (encR 0x41 d a b)) (x := { v := p }) (fits_opt _ VPfx.isPrefix_enc p) (isPrefix_encR _ _ _ _ (by decide)) (by rw [opcode_encR]; rfl) (arrange_v p)
    (by rw [opcode_encR]; cases p <;> rfl) (by
      rw [opcode_encR]
      exact (Laws.pairOk (by simp) (by simp) : some (Instr.vsub p (fD (encR 0x41 d a b)) (fA (encR 0x41 d a b)) (fB (encR 0x41 d a b)), true) = some (.vsub p d a b, true))) hi
theorem Laws.RoundTrip.vmul (p : Option VPfx) (d a b : BitVec 8) : Laws.RoundTrip.Statement (.vmul p d a b) := fun hi _ =>
  decodeWords_ok (ps := (optW VPfx.enc p)) (w := (encR 0x42 d a b)) (x := { v := p }) (fits_opt _ VPfx.isPrefix_enc p) (isPrefix_encR _ _ _ _ (by decide)) (by rw [opcode_encR]; rfl) (arrange_v p)
    (by rw [opcode_encR]; cases p <;> rfl) (by
      rw [opcode_encR]
      exact (Laws.pairOk (by simp) (by simp) : some (Instr.vmul p (fD (encR 0x42 d a b)) (fA (encR 0x42 d a b)) (fB (encR 0x42 d a b)), true) = some (.vmul p d a b, true))) hi
theorem Laws.RoundTrip.vmulh (p : Option VPfx) (d a b : BitVec 8) : Laws.RoundTrip.Statement (.vmulh p d a b) := fun hi _ =>
  decodeWords_ok (ps := (optW VPfx.enc p)) (w := (encR 0x43 d a b)) (x := { v := p }) (fits_opt _ VPfx.isPrefix_enc p) (isPrefix_encR _ _ _ _ (by decide)) (by rw [opcode_encR]; rfl) (arrange_v p)
    (by rw [opcode_encR]; cases p <;> rfl) (by
      rw [opcode_encR]
      exact (Laws.pairOk (by simp) (by simp) : some (Instr.vmulh p (fD (encR 0x43 d a b)) (fA (encR 0x43 d a b)) (fB (encR 0x43 d a b)), true) = some (.vmulh p d a b, true))) hi
theorem Laws.RoundTrip.vmad (p : VPfx) (d a b : BitVec 8) : Laws.RoundTrip.Statement (.vmad p d a b) := fun hi _ =>
  decodeWords_ok (ps := ([p.enc])) (w := (encR 0x44 d a b)) (x := { v := some p }) (fits_opt _ VPfx.isPrefix_enc (some p)) (isPrefix_encR _ _ _ _ (by decide)) (by rw [opcode_encR]; rfl) (arrange_v (some p))
    (by rw [opcode_encR]; rfl) (by
      rw [opcode_encR]
      exact (Laws.pairOk (by simp) (by simp) : some (Instr.vmad p (fD (encR 0x44 d a b)) (fA (encR 0x44 d a b)) (fB (encR 0x44 d a b)), true) = some (.vmad p d a b, true))) hi
theorem Laws.RoundTrip.vand (p : Option VPfx) (d a b : BitVec 8) : Laws.RoundTrip.Statement (.vand p d a b) := fun hi _ =>
  decodeWords_ok (ps := (optW VPfx.enc p)) (w := (encR 0x45 d a b)) (x := { v := p }) (fits_opt _ VPfx.isPrefix_enc p) (isPrefix_encR _ _ _ _ (by decide)) (by rw [opcode_encR]; rfl) (arrange_v p)
    (by rw [opcode_encR]; cases p <;> rfl) (by
      rw [opcode_encR]
      exact (Laws.pairOk (by simp) (by simp) : some (Instr.vand p (fD (encR 0x45 d a b)) (fA (encR 0x45 d a b)) (fB (encR 0x45 d a b)), true) = some (.vand p d a b, true))) hi
theorem Laws.RoundTrip.vor (p : Option VPfx) (d a b : BitVec 8) : Laws.RoundTrip.Statement (.vor p d a b) := fun hi _ =>
  decodeWords_ok (ps := (optW VPfx.enc p)) (w := (encR 0x46 d a b)) (x := { v := p }) (fits_opt _ VPfx.isPrefix_enc p) (isPrefix_encR _ _ _ _ (by decide)) (by rw [opcode_encR]; rfl) (arrange_v p)
    (by rw [opcode_encR]; cases p <;> rfl) (by
      rw [opcode_encR]
      exact (Laws.pairOk (by simp) (by simp) : some (Instr.vor p (fD (encR 0x46 d a b)) (fA (encR 0x46 d a b)) (fB (encR 0x46 d a b)), true) = some (.vor p d a b, true))) hi
theorem Laws.RoundTrip.vxor (p : Option VPfx) (d a b : BitVec 8) : Laws.RoundTrip.Statement (.vxor p d a b) := fun hi _ =>
  decodeWords_ok (ps := (optW VPfx.enc p)) (w := (encR 0x47 d a b)) (x := { v := p }) (fits_opt _ VPfx.isPrefix_enc p) (isPrefix_encR _ _ _ _ (by decide)) (by rw [opcode_encR]; rfl) (arrange_v p)
    (by rw [opcode_encR]; cases p <;> rfl) (by
      rw [opcode_encR]
      exact (Laws.pairOk (by simp) (by simp) : some (Instr.vxor p (fD (encR 0x47 d a b)) (fA (encR 0x47 d a b)) (fB (encR 0x47 d a b)), true) = some (.vxor p d a b, true))) hi
theorem Laws.RoundTrip.vshl (p : Option VPfx) (d a b : BitVec 8) : Laws.RoundTrip.Statement (.vshl p d a b) := fun hi _ =>
  decodeWords_ok (ps := (optW VPfx.enc p)) (w := (encR 0x48 d a b)) (x := { v := p }) (fits_opt _ VPfx.isPrefix_enc p) (isPrefix_encR _ _ _ _ (by decide)) (by rw [opcode_encR]; rfl) (arrange_v p)
    (by rw [opcode_encR]; cases p <;> rfl) (by
      rw [opcode_encR]
      exact (Laws.pairOk (by simp) (by simp) : some (Instr.vshl p (fD (encR 0x48 d a b)) (fA (encR 0x48 d a b)) (fB (encR 0x48 d a b)), true) = some (.vshl p d a b, true))) hi
theorem Laws.RoundTrip.vshr (p : Option VPfx) (d a b : BitVec 8) : Laws.RoundTrip.Statement (.vshr p d a b) := fun hi _ =>
  decodeWords_ok (ps := (optW VPfx.enc p)) (w := (encR 0x49 d a b)) (x := { v := p }) (fits_opt _ VPfx.isPrefix_enc p) (isPrefix_encR _ _ _ _ (by decide)) (by rw [opcode_encR]; rfl) (arrange_v p)
    (by rw [opcode_encR]; cases p <;> rfl) (by
      rw [opcode_encR]
      exact (Laws.pairOk (by simp) (by simp) : some (Instr.vshr p (fD (encR 0x49 d a b)) (fA (encR 0x49 d a b)) (fB (encR 0x49 d a b)), true) = some (.vshr p d a b, true))) hi
theorem Laws.RoundTrip.vmin (p : Option VPfx) (d a b : BitVec 8) : Laws.RoundTrip.Statement (.vmin p d a b) := fun hi _ =>
  decodeWords_ok (ps := (optW VPfx.enc p)) (w := (encR 0x4A d a b)) (x := { v := p }) (fits_opt _ VPfx.isPrefix_enc p) (isPrefix_encR _ _ _ _ (by decide)) (by rw [opcode_encR]; rfl) (arrange_v p)
    (by rw [opcode_encR]; cases p <;> rfl) (by
      rw [opcode_encR]
      exact (Laws.pairOk (by simp) (by simp) : some (Instr.vmin p (fD (encR 0x4A d a b)) (fA (encR 0x4A d a b)) (fB (encR 0x4A d a b)), true) = some (.vmin p d a b, true))) hi
theorem Laws.RoundTrip.vmax (p : Option VPfx) (d a b : BitVec 8) : Laws.RoundTrip.Statement (.vmax p d a b) := fun hi _ =>
  decodeWords_ok (ps := (optW VPfx.enc p)) (w := (encR 0x4B d a b)) (x := { v := p }) (fits_opt _ VPfx.isPrefix_enc p) (isPrefix_encR _ _ _ _ (by decide)) (by rw [opcode_encR]; rfl) (arrange_v p)
    (by rw [opcode_encR]; cases p <;> rfl) (by
      rw [opcode_encR]
      exact (Laws.pairOk (by simp) (by simp) : some (Instr.vmax p (fD (encR 0x4B d a b)) (fA (encR 0x4B d a b)) (fB (encR 0x4B d a b)), true) = some (.vmax p d a b, true))) hi
theorem Laws.RoundTrip.vabs (p : Option VPfx) (d a : BitVec 8) : Laws.RoundTrip.Statement (.vabs p d a) := fun hi _ =>
  decodeWords_ok (ps := (optW VPfx.enc p)) (w := (encR 0x4C d a 0#8)) (x := { v := p }) (fits_opt _ VPfx.isPrefix_enc p) (isPrefix_encR _ _ _ _ (by decide)) (by rw [opcode_encR]; rfl) (arrange_v p)
    (by rw [opcode_encR]; cases p <;> rfl) (by
      rw [opcode_encR]
      exact (Laws.pairOk (by simp) (z_encR _ _ _ _ 0x00 0x00 0xFF (BitVec.and_zero) (BitVec.and_zero) (BitVec.zero_and)) : some (Instr.vabs p (fD (encR 0x4C d a 0#8)) (fA (encR 0x4C d a 0#8)), z (encR 0x4C d a 0#8) 0x000000FF) = some (.vabs p d a, true))) hi
theorem Laws.RoundTrip.vneg (p : Option VPfx) (d a : BitVec 8) : Laws.RoundTrip.Statement (.vneg p d a) := fun hi _ =>
  decodeWords_ok (ps := (optW VPfx.enc p)) (w := (encR 0x4D d a 0#8)) (x := { v := p }) (fits_opt _ VPfx.isPrefix_enc p) (isPrefix_encR _ _ _ _ (by decide)) (by rw [opcode_encR]; rfl) (arrange_v p)
    (by rw [opcode_encR]; cases p <;> rfl) (by
      rw [opcode_encR]
      exact (Laws.pairOk (by simp) (z_encR _ _ _ _ 0x00 0x00 0xFF (BitVec.and_zero) (BitVec.and_zero) (BitVec.zero_and)) : some (Instr.vneg p (fD (encR 0x4D d a 0#8)) (fA (encR 0x4D d a 0#8)), z (encR 0x4D d a 0#8) 0x000000FF) = some (.vneg p d a, true))) hi
theorem Laws.RoundTrip.vclz (p : Option VPfx) (d a : BitVec 8) : Laws.RoundTrip.Statement (.vclz p d a) := fun hi _ =>
  decodeWords_ok (ps := (optW VPfx.enc p)) (w := (encR 0x4E d a 0#8)) (x := { v := p }) (fits_opt _ VPfx.isPrefix_enc p) (isPrefix_encR _ _ _ _ (by decide)) (by rw [opcode_encR]; rfl) (arrange_v p)
    (by rw [opcode_encR]; cases p <;> rfl) (by
      rw [opcode_encR]
      exact (Laws.pairOk (by simp) (z_encR _ _ _ _ 0x00 0x00 0xFF (BitVec.and_zero) (BitVec.and_zero) (BitVec.zero_and)) : some (Instr.vclz p (fD (encR 0x4E d a 0#8)) (fA (encR 0x4E d a 0#8)), z (encR 0x4E d a 0#8) 0x000000FF) = some (.vclz p d a, true))) hi
theorem Laws.RoundTrip.vpopc (p : Option VPfx) (d a : BitVec 8) : Laws.RoundTrip.Statement (.vpopc p d a) := fun hi _ =>
  decodeWords_ok (ps := (optW VPfx.enc p)) (w := (encR 0x4F d a 0#8)) (x := { v := p }) (fits_opt _ VPfx.isPrefix_enc p) (isPrefix_encR _ _ _ _ (by decide)) (by rw [opcode_encR]; rfl) (arrange_v p)
    (by rw [opcode_encR]; cases p <;> rfl) (by
      rw [opcode_encR]
      exact (Laws.pairOk (by simp) (z_encR _ _ _ _ 0x00 0x00 0xFF (BitVec.and_zero) (BitVec.and_zero) (BitVec.zero_and)) : some (Instr.vpopc p (fD (encR 0x4F d a 0#8)) (fA (encR 0x4F d a 0#8)), z (encR 0x4F d a 0#8) 0x000000FF) = some (.vpopc p d a, true))) hi
theorem Laws.RoundTrip.vaddi (x : Option (BitVec 24)) (p : Option VPfx) (d a i : BitVec 8) : Laws.RoundTrip.Statement (.vaddi x p d a i) := fun hi _ =>
  decodeWords_ok (ps := (optW encImm x ++ optW VPfx.enc p)) (w := (encR 0x50 d a i)) (x := { i := x, v := p }) (fits_two _ _ isPrefix_encImm VPfx.isPrefix_enc x p) (isPrefix_encR _ _ _ _ (by decide)) (by rw [opcode_encR]; rfl) (arrange_iv x p)
    (by rw [opcode_encR]; cases x <;> cases p <;> rfl) (by
      rw [opcode_encR]
      exact (Laws.pairOk (by simp) (by simp) : some (Instr.vaddi x p (fD (encR 0x50 d a i)) (fA (encR 0x50 d a i)) (fB (encR 0x50 d a i)), true) = some (.vaddi x p d a i, true))) hi
theorem Laws.RoundTrip.vandi (x : Option (BitVec 24)) (p : Option VPfx) (d a i : BitVec 8) : Laws.RoundTrip.Statement (.vandi x p d a i) := fun hi _ =>
  decodeWords_ok (ps := (optW encImm x ++ optW VPfx.enc p)) (w := (encR 0x51 d a i)) (x := { i := x, v := p }) (fits_two _ _ isPrefix_encImm VPfx.isPrefix_enc x p) (isPrefix_encR _ _ _ _ (by decide)) (by rw [opcode_encR]; rfl) (arrange_iv x p)
    (by rw [opcode_encR]; cases x <;> cases p <;> rfl) (by
      rw [opcode_encR]
      exact (Laws.pairOk (by simp) (by simp) : some (Instr.vandi x p (fD (encR 0x51 d a i)) (fA (encR 0x51 d a i)) (fB (encR 0x51 d a i)), true) = some (.vandi x p d a i, true))) hi
theorem Laws.RoundTrip.vori (x : Option (BitVec 24)) (p : Option VPfx) (d a i : BitVec 8) : Laws.RoundTrip.Statement (.vori x p d a i) := fun hi _ =>
  decodeWords_ok (ps := (optW encImm x ++ optW VPfx.enc p)) (w := (encR 0x52 d a i)) (x := { i := x, v := p }) (fits_two _ _ isPrefix_encImm VPfx.isPrefix_enc x p) (isPrefix_encR _ _ _ _ (by decide)) (by rw [opcode_encR]; rfl) (arrange_iv x p)
    (by rw [opcode_encR]; cases x <;> cases p <;> rfl) (by
      rw [opcode_encR]
      exact (Laws.pairOk (by simp) (by simp) : some (Instr.vori x p (fD (encR 0x52 d a i)) (fA (encR 0x52 d a i)) (fB (encR 0x52 d a i)), true) = some (.vori x p d a i, true))) hi
theorem Laws.RoundTrip.vxori (x : Option (BitVec 24)) (p : Option VPfx) (d a i : BitVec 8) : Laws.RoundTrip.Statement (.vxori x p d a i) := fun hi _ =>
  decodeWords_ok (ps := (optW encImm x ++ optW VPfx.enc p)) (w := (encR 0x53 d a i)) (x := { i := x, v := p }) (fits_two _ _ isPrefix_encImm VPfx.isPrefix_enc x p) (isPrefix_encR _ _ _ _ (by decide)) (by rw [opcode_encR]; rfl) (arrange_iv x p)
    (by rw [opcode_encR]; cases x <;> cases p <;> rfl) (by
      rw [opcode_encR]
      exact (Laws.pairOk (by simp) (by simp) : some (Instr.vxori x p (fD (encR 0x53 d a i)) (fA (encR 0x53 d a i)) (fB (encR 0x53 d a i)), true) = some (.vxori x p d a i, true))) hi
theorem Laws.RoundTrip.vshli (p : Option VPfx) (d a : BitVec 8) (n : BitVec 6) : Laws.RoundTrip.Statement (.vshli p d a n) := fun hi _ =>
  decodeWords_ok (ps := (optW VPfx.enc p)) (w := (encR 0x54 d a (0#2 ++ n))) (x := { v := p }) (fits_opt _ VPfx.isPrefix_enc p) (isPrefix_encR _ _ _ _ (by decide)) (by rw [opcode_encR]; rfl) (arrange_v p)
    (by rw [opcode_encR]; cases p <;> rfl) (by
      rw [opcode_encR]
      exact (Laws.pairOk (by simp) (z_encR _ _ _ _ 0x00 0x00 0xC0 (BitVec.and_zero) (BitVec.and_zero) (low_masked _ 3#2)) : some (Instr.vshli p (fD (encR 0x54 d a (0#2 ++ n))) (fA (encR 0x54 d a (0#2 ++ n))) (BitVec.extractLsb' 0 6 ((encR 0x54 d a (0#2 ++ n)) : BitVec 32)), z (encR 0x54 d a (0#2 ++ n)) 0x000000C0) = some (.vshli p d a n, true))) hi
theorem Laws.RoundTrip.vshri (p : Option VPfx) (d a : BitVec 8) (n : BitVec 6) : Laws.RoundTrip.Statement (.vshri p d a n) := fun hi _ =>
  decodeWords_ok (ps := (optW VPfx.enc p)) (w := (encR 0x55 d a (0#2 ++ n))) (x := { v := p }) (fits_opt _ VPfx.isPrefix_enc p) (isPrefix_encR _ _ _ _ (by decide)) (by rw [opcode_encR]; rfl) (arrange_v p)
    (by rw [opcode_encR]; cases p <;> rfl) (by
      rw [opcode_encR]
      exact (Laws.pairOk (by simp) (z_encR _ _ _ _ 0x00 0x00 0xC0 (BitVec.and_zero) (BitVec.and_zero) (low_masked _ 3#2)) : some (Instr.vshri p (fD (encR 0x55 d a (0#2 ++ n))) (fA (encR 0x55 d a (0#2 ++ n))) (BitVec.extractLsb' 0 6 ((encR 0x55 d a (0#2 ++ n)) : BitVec 32)), z (encR 0x55 d a (0#2 ++ n)) 0x000000C0) = some (.vshri p d a n, true))) hi
theorem Laws.RoundTrip.vmovi (x : Option (BitVec 24)) (p : Option VPfx) (d i : BitVec 8) : Laws.RoundTrip.Statement (.vmovi x p d i) := fun hi _ =>
  decodeWords_ok (ps := (optW encImm x ++ optW VPfx.enc p)) (w := (encR 0x56 d 0#8 i)) (x := { i := x, v := p }) (fits_two _ _ isPrefix_encImm VPfx.isPrefix_enc x p) (isPrefix_encR _ _ _ _ (by decide)) (by rw [opcode_encR]; rfl) (arrange_iv x p)
    (by rw [opcode_encR]; cases x <;> cases p <;> rfl) (by
      rw [opcode_encR]
      exact (Laws.pairOk (by simp) (z_encR _ _ _ _ 0x00 0xFF 0x00 (BitVec.and_zero) (BitVec.zero_and) (BitVec.and_zero)) : some (Instr.vmovi x p (fD (encR 0x56 d 0#8 i)) (fB (encR 0x56 d 0#8 i)), z (encR 0x56 d 0#8 i) 0x0000FF00) = some (.vmovi x p d i, true))) hi
theorem Laws.RoundTrip.vmov (p : Option VPfx) (d a : BitVec 8) : Laws.RoundTrip.Statement (.vmov p d a) := fun hi _ =>
  decodeWords_ok (ps := (optW VPfx.enc p)) (w := (encR 0x57 d a 0#8)) (x := { v := p }) (fits_opt _ VPfx.isPrefix_enc p) (isPrefix_encR _ _ _ _ (by decide)) (by rw [opcode_encR]; rfl) (arrange_v p)
    (by rw [opcode_encR]; cases p <;> rfl) (by
      rw [opcode_encR]
      exact (Laws.pairOk (by simp) (z_encR _ _ _ _ 0x00 0x00 0xFF (BitVec.and_zero) (BitVec.and_zero) (BitVec.zero_and)) : some (Instr.vmov p (fD (encR 0x57 d a 0#8)) (fA (encR 0x57 d a 0#8)), z (encR 0x57 d a 0#8) 0x000000FF) = some (.vmov p d a, true))) hi
theorem Laws.RoundTrip.vsel (p : Option VPfx) (d a b : BitVec 8) : Laws.RoundTrip.Statement (.vsel p d a b) := fun hi _ =>
  decodeWords_ok (ps := (optW VPfx.enc p)) (w := (encR 0x58 d a b)) (x := { v := p }) (fits_opt _ VPfx.isPrefix_enc p) (isPrefix_encR _ _ _ _ (by decide)) (by rw [opcode_encR]; rfl) (arrange_v p)
    (by rw [opcode_encR]; cases p <;> rfl) (by
      rw [opcode_encR]
      exact (Laws.pairOk (by simp) (by simp) : some (Instr.vsel p (fD (encR 0x58 d a b)) (fA (encR 0x58 d a b)) (fB (encR 0x58 d a b)), true) = some (.vsel p d a b, true))) hi
theorem Laws.RoundTrip.vbfe (p : Option VPfx) (d a b : BitVec 8) : Laws.RoundTrip.Statement (.vbfe p d a b) := fun hi _ =>
  decodeWords_ok (ps := (optW VPfx.enc p)) (w := (encR 0x59 d a b)) (x := { v := p }) (fits_opt _ VPfx.isPrefix_enc p) (isPrefix_encR _ _ _ _ (by decide)) (by rw [opcode_encR]; rfl) (arrange_v p)
    (by rw [opcode_encR]; cases p <;> rfl) (by
      rw [opcode_encR]
      exact (Laws.pairOk (by simp) (by simp) : some (Instr.vbfe p (fD (encR 0x59 d a b)) (fA (encR 0x59 d a b)) (fB (encR 0x59 d a b)), true) = some (.vbfe p d a b, true))) hi
theorem Laws.RoundTrip.vbfi (p : VPfx) (d a b : BitVec 8) : Laws.RoundTrip.Statement (.vbfi p d a b) := fun hi _ =>
  decodeWords_ok (ps := ([p.enc])) (w := (encR 0x5A d a b)) (x := { v := some p }) (fits_opt _ VPfx.isPrefix_enc (some p)) (isPrefix_encR _ _ _ _ (by decide)) (by rw [opcode_encR]; rfl) (arrange_v (some p))
    (by rw [opcode_encR]; rfl) (by
      rw [opcode_encR]
      exact (Laws.pairOk (by simp) (by simp) : some (Instr.vbfi p (fD (encR 0x5A d a b)) (fA (encR 0x5A d a b)) (fB (encR 0x5A d a b)), true) = some (.vbfi p d a b, true))) hi
theorem Laws.RoundTrip.vbrev (p : Option VPfx) (d a : BitVec 8) : Laws.RoundTrip.Statement (.vbrev p d a) := fun hi _ =>
  decodeWords_ok (ps := (optW VPfx.enc p)) (w := (encR 0x5B d a 0#8)) (x := { v := p }) (fits_opt _ VPfx.isPrefix_enc p) (isPrefix_encR _ _ _ _ (by decide)) (by rw [opcode_encR]; rfl) (arrange_v p)
    (by rw [opcode_encR]; cases p <;> rfl) (by
      rw [opcode_encR]
      exact (Laws.pairOk (by simp) (z_encR _ _ _ _ 0x00 0x00 0xFF (BitVec.and_zero) (BitVec.and_zero) (BitVec.zero_and)) : some (Instr.vbrev p (fD (encR 0x5B d a 0#8)) (fA (encR 0x5B d a 0#8)), z (encR 0x5B d a 0#8) 0x000000FF) = some (.vbrev p d a, true))) hi
theorem Laws.RoundTrip.vlaneid (p : Option VPfx) (d : BitVec 8) : Laws.RoundTrip.Statement (.vlaneid p d) := fun hi _ =>
  decodeWords_ok (ps := (optW VPfx.enc p)) (w := (encR 0x5C d 0#8 0#8)) (x := { v := p }) (fits_opt _ VPfx.isPrefix_enc p) (isPrefix_encR _ _ _ _ (by decide)) (by rw [opcode_encR]; rfl) (arrange_v p)
    (by rw [opcode_encR]; cases p <;> rfl) (by
      rw [opcode_encR]
      exact (Laws.pairOk (by simp) (z_encR _ _ _ _ 0x00 0xFF 0xFF (BitVec.and_zero) (BitVec.zero_and) (BitVec.zero_and)) : some (Instr.vlaneid p (fD (encR 0x5C d 0#8 0#8)), z (encR 0x5C d 0#8 0#8) 0x0000FFFF) = some (.vlaneid p d, true))) hi
theorem Laws.RoundTrip.viota (p : Option VPfx) (d : BitVec 8) : Laws.RoundTrip.Statement (.viota p d) := fun hi _ =>
  decodeWords_ok (ps := (optW VPfx.enc p)) (w := (encR 0x5D d 0#8 0#8)) (x := { v := p }) (fits_opt _ VPfx.isPrefix_enc p) (isPrefix_encR _ _ _ _ (by decide)) (by rw [opcode_encR]; rfl) (arrange_v p)
    (by rw [opcode_encR]; cases p <;> rfl) (by
      rw [opcode_encR]
      exact (Laws.pairOk (by simp) (z_encR _ _ _ _ 0x00 0xFF 0xFF (BitVec.and_zero) (BitVec.zero_and) (BitVec.zero_and)) : some (Instr.viota p (fD (encR 0x5D d 0#8 0#8)), z (encR 0x5D d 0#8 0#8) 0x0000FFFF) = some (.viota p d, true))) hi
theorem Laws.RoundTrip.vfadd (p : Option VPfx) (d a b : BitVec 8) : Laws.RoundTrip.Statement (.vfadd p d a b) := fun hi _ =>
  decodeWords_ok (ps := (optW VPfx.enc p)) (w := (encR 0x60 d a b)) (x := { v := p }) (fits_opt _ VPfx.isPrefix_enc p) (isPrefix_encR _ _ _ _ (by decide)) (by rw [opcode_encR]; rfl) (arrange_v p)
    (by rw [opcode_encR]; cases p <;> rfl) (by
      rw [opcode_encR]
      exact (Laws.pairOk (by simp) (by simp) : some (Instr.vfadd p (fD (encR 0x60 d a b)) (fA (encR 0x60 d a b)) (fB (encR 0x60 d a b)), true) = some (.vfadd p d a b, true))) hi
theorem Laws.RoundTrip.vfsub (p : Option VPfx) (d a b : BitVec 8) : Laws.RoundTrip.Statement (.vfsub p d a b) := fun hi _ =>
  decodeWords_ok (ps := (optW VPfx.enc p)) (w := (encR 0x61 d a b)) (x := { v := p }) (fits_opt _ VPfx.isPrefix_enc p) (isPrefix_encR _ _ _ _ (by decide)) (by rw [opcode_encR]; rfl) (arrange_v p)
    (by rw [opcode_encR]; cases p <;> rfl) (by
      rw [opcode_encR]
      exact (Laws.pairOk (by simp) (by simp) : some (Instr.vfsub p (fD (encR 0x61 d a b)) (fA (encR 0x61 d a b)) (fB (encR 0x61 d a b)), true) = some (.vfsub p d a b, true))) hi
theorem Laws.RoundTrip.vfmul (p : Option VPfx) (d a b : BitVec 8) : Laws.RoundTrip.Statement (.vfmul p d a b) := fun hi _ =>
  decodeWords_ok (ps := (optW VPfx.enc p)) (w := (encR 0x62 d a b)) (x := { v := p }) (fits_opt _ VPfx.isPrefix_enc p) (isPrefix_encR _ _ _ _ (by decide)) (by rw [opcode_encR]; rfl) (arrange_v p)
    (by rw [opcode_encR]; cases p <;> rfl) (by
      rw [opcode_encR]
      exact (Laws.pairOk (by simp) (by simp) : some (Instr.vfmul p (fD (encR 0x62 d a b)) (fA (encR 0x62 d a b)) (fB (encR 0x62 d a b)), true) = some (.vfmul p d a b, true))) hi
theorem Laws.RoundTrip.vfma (p : VPfx) (d a b : BitVec 8) : Laws.RoundTrip.Statement (.vfma p d a b) := fun hi _ =>
  decodeWords_ok (ps := ([p.enc])) (w := (encR 0x63 d a b)) (x := { v := some p }) (fits_opt _ VPfx.isPrefix_enc (some p)) (isPrefix_encR _ _ _ _ (by decide)) (by rw [opcode_encR]; rfl) (arrange_v (some p))
    (by rw [opcode_encR]; rfl) (by
      rw [opcode_encR]
      exact (Laws.pairOk (by simp) (by simp) : some (Instr.vfma p (fD (encR 0x63 d a b)) (fA (encR 0x63 d a b)) (fB (encR 0x63 d a b)), true) = some (.vfma p d a b, true))) hi
theorem Laws.RoundTrip.vfmin (p : Option VPfx) (d a b : BitVec 8) : Laws.RoundTrip.Statement (.vfmin p d a b) := fun hi _ =>
  decodeWords_ok (ps := (optW VPfx.enc p)) (w := (encR 0x64 d a b)) (x := { v := p }) (fits_opt _ VPfx.isPrefix_enc p) (isPrefix_encR _ _ _ _ (by decide)) (by rw [opcode_encR]; rfl) (arrange_v p)
    (by rw [opcode_encR]; cases p <;> rfl) (by
      rw [opcode_encR]
      exact (Laws.pairOk (by simp) (by simp) : some (Instr.vfmin p (fD (encR 0x64 d a b)) (fA (encR 0x64 d a b)) (fB (encR 0x64 d a b)), true) = some (.vfmin p d a b, true))) hi
theorem Laws.RoundTrip.vfmax (p : Option VPfx) (d a b : BitVec 8) : Laws.RoundTrip.Statement (.vfmax p d a b) := fun hi _ =>
  decodeWords_ok (ps := (optW VPfx.enc p)) (w := (encR 0x65 d a b)) (x := { v := p }) (fits_opt _ VPfx.isPrefix_enc p) (isPrefix_encR _ _ _ _ (by decide)) (by rw [opcode_encR]; rfl) (arrange_v p)
    (by rw [opcode_encR]; cases p <;> rfl) (by
      rw [opcode_encR]
      exact (Laws.pairOk (by simp) (by simp) : some (Instr.vfmax p (fD (encR 0x65 d a b)) (fA (encR 0x65 d a b)) (fB (encR 0x65 d a b)), true) = some (.vfmax p d a b, true))) hi
theorem Laws.RoundTrip.vfabs (p : Option VPfx) (d a : BitVec 8) : Laws.RoundTrip.Statement (.vfabs p d a) := fun hi _ =>
  decodeWords_ok (ps := (optW VPfx.enc p)) (w := (encR 0x66 d a 0#8)) (x := { v := p }) (fits_opt _ VPfx.isPrefix_enc p) (isPrefix_encR _ _ _ _ (by decide)) (by rw [opcode_encR]; rfl) (arrange_v p)
    (by rw [opcode_encR]; cases p <;> rfl) (by
      rw [opcode_encR]
      exact (Laws.pairOk (by simp) (z_encR _ _ _ _ 0x00 0x00 0xFF (BitVec.and_zero) (BitVec.and_zero) (BitVec.zero_and)) : some (Instr.vfabs p (fD (encR 0x66 d a 0#8)) (fA (encR 0x66 d a 0#8)), z (encR 0x66 d a 0#8) 0x000000FF) = some (.vfabs p d a, true))) hi
theorem Laws.RoundTrip.vfneg (p : Option VPfx) (d a : BitVec 8) : Laws.RoundTrip.Statement (.vfneg p d a) := fun hi _ =>
  decodeWords_ok (ps := (optW VPfx.enc p)) (w := (encR 0x67 d a 0#8)) (x := { v := p }) (fits_opt _ VPfx.isPrefix_enc p) (isPrefix_encR _ _ _ _ (by decide)) (by rw [opcode_encR]; rfl) (arrange_v p)
    (by rw [opcode_encR]; cases p <;> rfl) (by
      rw [opcode_encR]
      exact (Laws.pairOk (by simp) (z_encR _ _ _ _ 0x00 0x00 0xFF (BitVec.and_zero) (BitVec.and_zero) (BitVec.zero_and)) : some (Instr.vfneg p (fD (encR 0x67 d a 0#8)) (fA (encR 0x67 d a 0#8)), z (encR 0x67 d a 0#8) 0x000000FF) = some (.vfneg p d a, true))) hi
theorem Laws.RoundTrip.vfdiv (p : Option VPfx) (d a b : BitVec 8) : Laws.RoundTrip.Statement (.vfdiv p d a b) := fun hi _ =>
  decodeWords_ok (ps := (optW VPfx.enc p)) (w := (encR 0x68 d a b)) (x := { v := p }) (fits_opt _ VPfx.isPrefix_enc p) (isPrefix_encR _ _ _ _ (by decide)) (by rw [opcode_encR]; rfl) (arrange_v p)
    (by rw [opcode_encR]; cases p <;> rfl) (by
      rw [opcode_encR]
      exact (Laws.pairOk (by simp) (by simp) : some (Instr.vfdiv p (fD (encR 0x68 d a b)) (fA (encR 0x68 d a b)) (fB (encR 0x68 d a b)), true) = some (.vfdiv p d a b, true))) hi
theorem Laws.RoundTrip.vfsqrt (p : Option VPfx) (d a : BitVec 8) : Laws.RoundTrip.Statement (.vfsqrt p d a) := fun hi _ =>
  decodeWords_ok (ps := (optW VPfx.enc p)) (w := (encR 0x69 d a 0#8)) (x := { v := p }) (fits_opt _ VPfx.isPrefix_enc p) (isPrefix_encR _ _ _ _ (by decide)) (by rw [opcode_encR]; rfl) (arrange_v p)
    (by rw [opcode_encR]; cases p <;> rfl) (by
      rw [opcode_encR]
      exact (Laws.pairOk (by simp) (z_encR _ _ _ _ 0x00 0x00 0xFF (BitVec.and_zero) (BitVec.and_zero) (BitVec.zero_and)) : some (Instr.vfsqrt p (fD (encR 0x69 d a 0#8)) (fA (encR 0x69 d a 0#8)), z (encR 0x69 d a 0#8) 0x000000FF) = some (.vfsqrt p d a, true))) hi
theorem Laws.RoundTrip.vrcp (p : Option VPfx) (d a : BitVec 8) : Laws.RoundTrip.Statement (.vrcp p d a) := fun hi _ =>
  decodeWords_ok (ps := (optW VPfx.enc p)) (w := (encR 0x6A d a 0#8)) (x := { v := p }) (fits_opt _ VPfx.isPrefix_enc p) (isPrefix_encR _ _ _ _ (by decide)) (by rw [opcode_encR]; rfl) (arrange_v p)
    (by rw [opcode_encR]; cases p <;> rfl) (by
      rw [opcode_encR]
      exact (Laws.pairOk (by simp) (z_encR _ _ _ _ 0x00 0x00 0xFF (BitVec.and_zero) (BitVec.and_zero) (BitVec.zero_and)) : some (Instr.vrcp p (fD (encR 0x6A d a 0#8)) (fA (encR 0x6A d a 0#8)), z (encR 0x6A d a 0#8) 0x000000FF) = some (.vrcp p d a, true))) hi
theorem Laws.RoundTrip.vrsq (p : Option VPfx) (d a : BitVec 8) : Laws.RoundTrip.Statement (.vrsq p d a) := fun hi _ =>
  decodeWords_ok (ps := (optW VPfx.enc p)) (w := (encR 0x6B d a 0#8)) (x := { v := p }) (fits_opt _ VPfx.isPrefix_enc p) (isPrefix_encR _ _ _ _ (by decide)) (by rw [opcode_encR]; rfl) (arrange_v p)
    (by rw [opcode_encR]; cases p <;> rfl) (by
      rw [opcode_encR]
      exact (Laws.pairOk (by simp) (z_encR _ _ _ _ 0x00 0x00 0xFF (BitVec.and_zero) (BitVec.and_zero) (BitVec.zero_and)) : some (Instr.vrsq p (fD (encR 0x6B d a 0#8)) (fA (encR 0x6B d a 0#8)), z (encR 0x6B d a 0#8) 0x000000FF) = some (.vrsq p d a, true))) hi
theorem Laws.RoundTrip.vexp2 (p : Option VPfx) (d a : BitVec 8) : Laws.RoundTrip.Statement (.vexp2 p d a) := fun hi _ =>
  decodeWords_ok (ps := (optW VPfx.enc p)) (w := (encR 0x6C d a 0#8)) (x := { v := p }) (fits_opt _ VPfx.isPrefix_enc p) (isPrefix_encR _ _ _ _ (by decide)) (by rw [opcode_encR]; rfl) (arrange_v p)
    (by rw [opcode_encR]; cases p <;> rfl) (by
      rw [opcode_encR]
      exact (Laws.pairOk (by simp) (z_encR _ _ _ _ 0x00 0x00 0xFF (BitVec.and_zero) (BitVec.and_zero) (BitVec.zero_and)) : some (Instr.vexp2 p (fD (encR 0x6C d a 0#8)) (fA (encR 0x6C d a 0#8)), z (encR 0x6C d a 0#8) 0x000000FF) = some (.vexp2 p d a, true))) hi
theorem Laws.RoundTrip.vlog2 (p : Option VPfx) (d a : BitVec 8) : Laws.RoundTrip.Statement (.vlog2 p d a) := fun hi _ =>
  decodeWords_ok (ps := (optW VPfx.enc p)) (w := (encR 0x6D d a 0#8)) (x := { v := p }) (fits_opt _ VPfx.isPrefix_enc p) (isPrefix_encR _ _ _ _ (by decide)) (by rw [opcode_encR]; rfl) (arrange_v p)
    (by rw [opcode_encR]; cases p <;> rfl) (by
      rw [opcode_encR]
      exact (Laws.pairOk (by simp) (z_encR _ _ _ _ 0x00 0x00 0xFF (BitVec.and_zero) (BitVec.and_zero) (BitVec.zero_and)) : some (Instr.vlog2 p (fD (encR 0x6D d a 0#8)) (fA (encR 0x6D d a 0#8)), z (encR 0x6D d a 0#8) 0x000000FF) = some (.vlog2 p d a, true))) hi
theorem Laws.RoundTrip.vsin (p : Option VPfx) (d a : BitVec 8) : Laws.RoundTrip.Statement (.vsin p d a) := fun hi _ =>
  decodeWords_ok (ps := (optW VPfx.enc p)) (w := (encR 0x6E d a 0#8)) (x := { v := p }) (fits_opt _ VPfx.isPrefix_enc p) (isPrefix_encR _ _ _ _ (by decide)) (by rw [opcode_encR]; rfl) (arrange_v p)
    (by rw [opcode_encR]; cases p <;> rfl) (by
      rw [opcode_encR]
      exact (Laws.pairOk (by simp) (z_encR _ _ _ _ 0x00 0x00 0xFF (BitVec.and_zero) (BitVec.and_zero) (BitVec.zero_and)) : some (Instr.vsin p (fD (encR 0x6E d a 0#8)) (fA (encR 0x6E d a 0#8)), z (encR 0x6E d a 0#8) 0x000000FF) = some (.vsin p d a, true))) hi
theorem Laws.RoundTrip.vcos (p : Option VPfx) (d a : BitVec 8) : Laws.RoundTrip.Statement (.vcos p d a) := fun hi _ =>
  decodeWords_ok (ps := (optW VPfx.enc p)) (w := (encR 0x6F d a 0#8)) (x := { v := p }) (fits_opt _ VPfx.isPrefix_enc p) (isPrefix_encR _ _ _ _ (by decide)) (by rw [opcode_encR]; rfl) (arrange_v p)
    (by rw [opcode_encR]; cases p <;> rfl) (by
      rw [opcode_encR]
      exact (Laws.pairOk (by simp) (z_encR _ _ _ _ 0x00 0x00 0xFF (BitVec.and_zero) (BitVec.and_zero) (BitVec.zero_and)) : some (Instr.vcos p (fD (encR 0x6F d a 0#8)) (fA (encR 0x6F d a 0#8)), z (encR 0x6F d a 0#8) 0x000000FF) = some (.vcos p d a, true))) hi
theorem Laws.RoundTrip.vtanh (p : Option VPfx) (d a : BitVec 8) : Laws.RoundTrip.Statement (.vtanh p d a) := fun hi _ =>
  decodeWords_ok (ps := (optW VPfx.enc p)) (w := (encR 0x70 d a 0#8)) (x := { v := p }) (fits_opt _ VPfx.isPrefix_enc p) (isPrefix_encR _ _ _ _ (by decide)) (by rw [opcode_encR]; rfl) (arrange_v p)
    (by rw [opcode_encR]; cases p <;> rfl) (by
      rw [opcode_encR]
      exact (Laws.pairOk (by simp) (z_encR _ _ _ _ 0x00 0x00 0xFF (BitVec.and_zero) (BitVec.and_zero) (BitVec.zero_and)) : some (Instr.vtanh p (fD (encR 0x70 d a 0#8)) (fA (encR 0x70 d a 0#8)), z (encR 0x70 d a 0#8) 0x000000FF) = some (.vtanh p d a, true))) hi
theorem Laws.RoundTrip.vsigm (p : Option VPfx) (d a : BitVec 8) : Laws.RoundTrip.Statement (.vsigm p d a) := fun hi _ =>
  decodeWords_ok (ps := (optW VPfx.enc p)) (w := (encR 0x71 d a 0#8)) (x := { v := p }) (fits_opt _ VPfx.isPrefix_enc p) (isPrefix_encR _ _ _ _ (by decide)) (by rw [opcode_encR]; rfl) (arrange_v p)
    (by rw [opcode_encR]; cases p <;> rfl) (by
      rw [opcode_encR]
      exact (Laws.pairOk (by simp) (z_encR _ _ _ _ 0x00 0x00 0xFF (BitVec.and_zero) (BitVec.and_zero) (BitVec.zero_and)) : some (Instr.vsigm p (fD (encR 0x71 d a 0#8)) (fA (encR 0x71 d a 0#8)), z (encR 0x71 d a 0#8) 0x000000FF) = some (.vsigm p d a, true))) hi
theorem Laws.RoundTrip.vround (p : Option VPfx) (d a : BitVec 8) : Laws.RoundTrip.Statement (.vround p d a) := fun hi _ =>
  decodeWords_ok (ps := (optW VPfx.enc p)) (w := (encR 0x72 d a 0#8)) (x := { v := p }) (fits_opt _ VPfx.isPrefix_enc p) (isPrefix_encR _ _ _ _ (by decide)) (by rw [opcode_encR]; rfl) (arrange_v p)
    (by rw [opcode_encR]; cases p <;> rfl) (by
      rw [opcode_encR]
      exact (Laws.pairOk (by simp) (z_encR _ _ _ _ 0x00 0x00 0xFF (BitVec.and_zero) (BitVec.and_zero) (BitVec.zero_and)) : some (Instr.vround p (fD (encR 0x72 d a 0#8)) (fA (encR 0x72 d a 0#8)), z (encR 0x72 d a 0#8) 0x000000FF) = some (.vround p d a, true))) hi
theorem Laws.RoundTrip.vfrac (p : Option VPfx) (d a : BitVec 8) : Laws.RoundTrip.Statement (.vfrac p d a) := fun hi _ =>
  decodeWords_ok (ps := (optW VPfx.enc p)) (w := (encR 0x73 d a 0#8)) (x := { v := p }) (fits_opt _ VPfx.isPrefix_enc p) (isPrefix_encR _ _ _ _ (by decide)) (by rw [opcode_encR]; rfl) (arrange_v p)
    (by rw [opcode_encR]; cases p <;> rfl) (by
      rw [opcode_encR]
      exact (Laws.pairOk (by simp) (z_encR _ _ _ _ 0x00 0x00 0xFF (BitVec.and_zero) (BitVec.and_zero) (BitVec.zero_and)) : some (Instr.vfrac p (fD (encR 0x73 d a 0#8)) (fA (encR 0x73 d a 0#8)), z (encR 0x73 d a 0#8) 0x000000FF) = some (.vfrac p d a, true))) hi
theorem Laws.RoundTrip.vcvt (p : Option VPfx) (d a : BitVec 8) (dst src : BitVec 4) : Laws.RoundTrip.Statement (.vcvt p d a dst src) := fun hi _ =>
  decodeWords_ok (ps := (optW VPfx.enc p)) (w := (encR 0x74 d a (dst ++ src))) (x := { v := p }) (fits_opt _ VPfx.isPrefix_enc p) (isPrefix_encR _ _ _ _ (by decide)) (by rw [opcode_encR]; rfl) (arrange_v p)
    (by rw [opcode_encR]; cases p <;> rfl) (by
      rw [opcode_encR]
      exact (Laws.pairOk (by simp) (by simp) : some (Instr.vcvt p (fD (encR 0x74 d a (dst ++ src))) (fA (encR 0x74 d a (dst ++ src))) (BitVec.extractLsb' 4 4 ((encR 0x74 d a (dst ++ src)) : BitVec 32)) (BitVec.extractLsb' 0 4 ((encR 0x74 d a (dst ++ src)) : BitVec 32)), true) = some (.vcvt p d a dst src, true))) hi
theorem Laws.RoundTrip.vclass (p : Option VPfx) (d a : BitVec 8) : Laws.RoundTrip.Statement (.vclass p d a) := fun hi _ =>
  decodeWords_ok (ps := (optW VPfx.enc p)) (w := (encR 0x75 d a 0#8)) (x := { v := p }) (fits_opt _ VPfx.isPrefix_enc p) (isPrefix_encR _ _ _ _ (by decide)) (by rw [opcode_encR]; rfl) (arrange_v p)
    (by rw [opcode_encR]; cases p <;> rfl) (by
      rw [opcode_encR]
      exact (Laws.pairOk (by simp) (z_encR _ _ _ _ 0x00 0x00 0xFF (BitVec.and_zero) (BitVec.and_zero) (BitVec.zero_and)) : some (Instr.vclass p (fD (encR 0x75 d a 0#8)) (fA (encR 0x75 d a 0#8)), z (encR 0x75 d a 0#8) 0x000000FF) = some (.vclass p d a, true))) hi
theorem Laws.RoundTrip.vcmpeq (p : Option VPfx) (d a b : BitVec 8) : Laws.RoundTrip.Statement (.vcmpeq p d a b) := fun hi _ =>
  decodeWords_ok (ps := (optW VPfx.enc p)) (w := (encR 0x76 d a b)) (x := { v := p }) (fits_opt _ VPfx.isPrefix_enc p) (isPrefix_encR _ _ _ _ (by decide)) (by rw [opcode_encR]; rfl) (arrange_v p)
    (by rw [opcode_encR]; cases p <;> rfl) (by
      rw [opcode_encR]
      exact (Laws.pairOk (by simp) (by simp) : some (Instr.vcmpeq p (fD (encR 0x76 d a b)) (fA (encR 0x76 d a b)) (fB (encR 0x76 d a b)), true) = some (.vcmpeq p d a b, true))) hi
theorem Laws.RoundTrip.vcmpne (p : Option VPfx) (d a b : BitVec 8) : Laws.RoundTrip.Statement (.vcmpne p d a b) := fun hi _ =>
  decodeWords_ok (ps := (optW VPfx.enc p)) (w := (encR 0x77 d a b)) (x := { v := p }) (fits_opt _ VPfx.isPrefix_enc p) (isPrefix_encR _ _ _ _ (by decide)) (by rw [opcode_encR]; rfl) (arrange_v p)
    (by rw [opcode_encR]; cases p <;> rfl) (by
      rw [opcode_encR]
      exact (Laws.pairOk (by simp) (by simp) : some (Instr.vcmpne p (fD (encR 0x77 d a b)) (fA (encR 0x77 d a b)) (fB (encR 0x77 d a b)), true) = some (.vcmpne p d a b, true))) hi
theorem Laws.RoundTrip.vcmplt (p : Option VPfx) (d a b : BitVec 8) : Laws.RoundTrip.Statement (.vcmplt p d a b) := fun hi _ =>
  decodeWords_ok (ps := (optW VPfx.enc p)) (w := (encR 0x78 d a b)) (x := { v := p }) (fits_opt _ VPfx.isPrefix_enc p) (isPrefix_encR _ _ _ _ (by decide)) (by rw [opcode_encR]; rfl) (arrange_v p)
    (by rw [opcode_encR]; cases p <;> rfl) (by
      rw [opcode_encR]
      exact (Laws.pairOk (by simp) (by simp) : some (Instr.vcmplt p (fD (encR 0x78 d a b)) (fA (encR 0x78 d a b)) (fB (encR 0x78 d a b)), true) = some (.vcmplt p d a b, true))) hi
theorem Laws.RoundTrip.vcmple (p : Option VPfx) (d a b : BitVec 8) : Laws.RoundTrip.Statement (.vcmple p d a b) := fun hi _ =>
  decodeWords_ok (ps := (optW VPfx.enc p)) (w := (encR 0x79 d a b)) (x := { v := p }) (fits_opt _ VPfx.isPrefix_enc p) (isPrefix_encR _ _ _ _ (by decide)) (by rw [opcode_encR]; rfl) (arrange_v p)
    (by rw [opcode_encR]; cases p <;> rfl) (by
      rw [opcode_encR]
      exact (Laws.pairOk (by simp) (by simp) : some (Instr.vcmple p (fD (encR 0x79 d a b)) (fA (encR 0x79 d a b)) (fB (encR 0x79 d a b)), true) = some (.vcmple p d a b, true))) hi
theorem Laws.RoundTrip.vcmpun (p : Option VPfx) (d a b : BitVec 8) : Laws.RoundTrip.Statement (.vcmpun p d a b) := fun hi _ =>
  decodeWords_ok (ps := (optW VPfx.enc p)) (w := (encR 0x7A d a b)) (x := { v := p }) (fits_opt _ VPfx.isPrefix_enc p) (isPrefix_encR _ _ _ _ (by decide)) (by rw [opcode_encR]; rfl) (arrange_v p)
    (by rw [opcode_encR]; cases p <;> rfl) (by
      rw [opcode_encR]
      exact (Laws.pairOk (by simp) (by simp) : some (Instr.vcmpun p (fD (encR 0x7A d a b)) (fA (encR 0x7A d a b)) (fB (encR 0x7A d a b)), true) = some (.vcmpun p d a b, true))) hi
theorem Laws.RoundTrip.vscale (p : Option VPfx) (d a b : BitVec 8) : Laws.RoundTrip.Statement (.vscale p d a b) := fun hi _ =>
  decodeWords_ok (ps := (optW VPfx.enc p)) (w := (encR 0x7B d a b)) (x := { v := p }) (fits_opt _ VPfx.isPrefix_enc p) (isPrefix_encR _ _ _ _ (by decide)) (by rw [opcode_encR]; rfl) (arrange_v p)
    (by rw [opcode_encR]; cases p <;> rfl) (by
      rw [opcode_encR]
      exact (Laws.pairOk (by simp) (by simp) : some (Instr.vscale p (fD (encR 0x7B d a b)) (fA (encR 0x7B d a b)) (fB (encR 0x7B d a b)), true) = some (.vscale p d a b, true))) hi
theorem Laws.RoundTrip.vpack (p : Option VPfx) (d a b : BitVec 8) : Laws.RoundTrip.Statement (.vpack p d a b) := fun hi _ =>
  decodeWords_ok (ps := (optW VPfx.enc p)) (w := (encR 0x7C d a b)) (x := { v := p }) (fits_opt _ VPfx.isPrefix_enc p) (isPrefix_encR _ _ _ _ (by decide)) (by rw [opcode_encR]; rfl) (arrange_v p)
    (by rw [opcode_encR]; cases p <;> rfl) (by
      rw [opcode_encR]
      exact (Laws.pairOk (by simp) (by simp) : some (Instr.vpack p (fD (encR 0x7C d a b)) (fA (encR 0x7C d a b)) (fB (encR 0x7C d a b)), true) = some (.vpack p d a b, true))) hi
theorem Laws.RoundTrip.vunpk (p : Option VPfx) (d a : BitVec 8) : Laws.RoundTrip.Statement (.vunpk p d a) := fun hi _ =>
  decodeWords_ok (ps := (optW VPfx.enc p)) (w := (encR 0x7D d a 0#8)) (x := { v := p }) (fits_opt _ VPfx.isPrefix_enc p) (isPrefix_encR _ _ _ _ (by decide)) (by rw [opcode_encR]; rfl) (arrange_v p)
    (by rw [opcode_encR]; cases p <;> rfl) (by
      rw [opcode_encR]
      exact (Laws.pairOk (by simp) (z_encR _ _ _ _ 0x00 0x00 0xFF (BitVec.and_zero) (BitVec.and_zero) (BitVec.zero_and)) : some (Instr.vunpk p (fD (encR 0x7D d a 0#8)) (fA (encR 0x7D d a 0#8)), z (encR 0x7D d a 0#8) 0x000000FF) = some (.vunpk p d a, true))) hi
theorem Laws.RoundTrip.vdot4 (p : VPfx) (d a b : BitVec 8) : Laws.RoundTrip.Statement (.vdot4 p d a b) := fun hi _ =>
  decodeWords_ok (ps := ([p.enc])) (w := (encR 0x7E d a b)) (x := { v := some p }) (fits_opt _ VPfx.isPrefix_enc (some p)) (isPrefix_encR _ _ _ _ (by decide)) (by rw [opcode_encR]; rfl) (arrange_v (some p))
    (by rw [opcode_encR]; rfl) (by
      rw [opcode_encR]
      exact (Laws.pairOk (by simp) (by simp) : some (Instr.vdot4 p (fD (encR 0x7E d a b)) (fA (encR 0x7E d a b)) (fB (encR 0x7E d a b)), true) = some (.vdot4 p d a b, true))) hi
theorem Laws.RoundTrip.vdot2 (p : VPfx) (d a b : BitVec 8) : Laws.RoundTrip.Statement (.vdot2 p d a b) := fun hi _ =>
  decodeWords_ok (ps := ([p.enc])) (w := (encR 0x7F d a b)) (x := { v := some p }) (fits_opt _ VPfx.isPrefix_enc (some p)) (isPrefix_encR _ _ _ _ (by decide)) (by rw [opcode_encR]; rfl) (arrange_v (some p))
    (by rw [opcode_encR]; rfl) (by
      rw [opcode_encR]
      exact (Laws.pairOk (by simp) (by simp) : some (Instr.vdot2 p (fD (encR 0x7F d a b)) (fA (encR 0x7F d a b)) (fB (encR 0x7F d a b)), true) = some (.vdot2 p d a b, true))) hi
theorem Laws.RoundTrip.pand (p : Option VPfx) (d a b : BitVec 8) : Laws.RoundTrip.Statement (.pand p d a b) := fun hi _ =>
  decodeWords_ok (ps := (optW VPfx.enc p)) (w := (encR 0x80 d a b)) (x := { v := p }) (fits_opt _ VPfx.isPrefix_enc p) (isPrefix_encR _ _ _ _ (by decide)) (by rw [opcode_encR]; rfl) (arrange_v p)
    (by rw [opcode_encR]; cases p <;> rfl) (by
      rw [opcode_encR]
      exact (Laws.pairOk (by simp) (by simp) : some (Instr.pand p (fD (encR 0x80 d a b)) (fA (encR 0x80 d a b)) (fB (encR 0x80 d a b)), true) = some (.pand p d a b, true))) hi
theorem Laws.RoundTrip.por (p : Option VPfx) (d a b : BitVec 8) : Laws.RoundTrip.Statement (.por p d a b) := fun hi _ =>
  decodeWords_ok (ps := (optW VPfx.enc p)) (w := (encR 0x81 d a b)) (x := { v := p }) (fits_opt _ VPfx.isPrefix_enc p) (isPrefix_encR _ _ _ _ (by decide)) (by rw [opcode_encR]; rfl) (arrange_v p)
    (by rw [opcode_encR]; cases p <;> rfl) (by
      rw [opcode_encR]
      exact (Laws.pairOk (by simp) (by simp) : some (Instr.por p (fD (encR 0x81 d a b)) (fA (encR 0x81 d a b)) (fB (encR 0x81 d a b)), true) = some (.por p d a b, true))) hi
theorem Laws.RoundTrip.pxor (p : Option VPfx) (d a b : BitVec 8) : Laws.RoundTrip.Statement (.pxor p d a b) := fun hi _ =>
  decodeWords_ok (ps := (optW VPfx.enc p)) (w := (encR 0x82 d a b)) (x := { v := p }) (fits_opt _ VPfx.isPrefix_enc p) (isPrefix_encR _ _ _ _ (by decide)) (by rw [opcode_encR]; rfl) (arrange_v p)
    (by rw [opcode_encR]; cases p <;> rfl) (by
      rw [opcode_encR]
      exact (Laws.pairOk (by simp) (by simp) : some (Instr.pxor p (fD (encR 0x82 d a b)) (fA (encR 0x82 d a b)) (fB (encR 0x82 d a b)), true) = some (.pxor p d a b, true))) hi
theorem Laws.RoundTrip.pnot (p : Option VPfx) (d a : BitVec 8) : Laws.RoundTrip.Statement (.pnot p d a) := fun hi _ =>
  decodeWords_ok (ps := (optW VPfx.enc p)) (w := (encR 0x83 d a 0#8)) (x := { v := p }) (fits_opt _ VPfx.isPrefix_enc p) (isPrefix_encR _ _ _ _ (by decide)) (by rw [opcode_encR]; rfl) (arrange_v p)
    (by rw [opcode_encR]; cases p <;> rfl) (by
      rw [opcode_encR]
      exact (Laws.pairOk (by simp) (z_encR _ _ _ _ 0x00 0x00 0xFF (BitVec.and_zero) (BitVec.and_zero) (BitVec.zero_and)) : some (Instr.pnot p (fD (encR 0x83 d a 0#8)) (fA (encR 0x83 d a 0#8)), z (encR 0x83 d a 0#8) 0x000000FF) = some (.pnot p d a, true))) hi
theorem Laws.RoundTrip.pmov (p : Option VPfx) (d a : BitVec 8) : Laws.RoundTrip.Statement (.pmov p d a) := fun hi _ =>
  decodeWords_ok (ps := (optW VPfx.enc p)) (w := (encR 0x84 d a 0#8)) (x := { v := p }) (fits_opt _ VPfx.isPrefix_enc p) (isPrefix_encR _ _ _ _ (by decide)) (by rw [opcode_encR]; rfl) (arrange_v p)
    (by rw [opcode_encR]; cases p <;> rfl) (by
      rw [opcode_encR]
      exact (Laws.pairOk (by simp) (z_encR _ _ _ _ 0x00 0x00 0xFF (BitVec.and_zero) (BitVec.and_zero) (BitVec.zero_and)) : some (Instr.pmov p (fD (encR 0x84 d a 0#8)) (fA (encR 0x84 d a 0#8)), z (encR 0x84 d a 0#8) 0x000000FF) = some (.pmov p d a, true))) hi
theorem Laws.RoundTrip.pseti (p : Option VPfx) (d : BitVec 8) (i : Bool) : Laws.RoundTrip.Statement (.pseti p d i) := fun hi _ =>
  decodeWords_ok (ps := (optW VPfx.enc p)) (w := (encR 0x85 d 0#8 (0#7 ++ BitVec.ofBool i))) (x := { v := p }) (fits_opt _ VPfx.isPrefix_enc p) (isPrefix_encR _ _ _ _ (by decide)) (by rw [opcode_encR]; rfl) (arrange_v p)
    (by rw [opcode_encR]; cases p <;> rfl) (by
      rw [opcode_encR]
      exact (Laws.pairOk (by simp) (z_encR _ _ _ _ 0x00 0xFF 0xFE (BitVec.and_zero) (BitVec.zero_and) (low_masked _ 127#7)) : some (Instr.pseti p (fD (encR 0x85 d 0#8 (0#7 ++ BitVec.ofBool i))) (BitVec.getLsbD ((encR 0x85 d 0#8 (0#7 ++ BitVec.ofBool i)) : BitVec 32) 0), z (encR 0x85 d 0#8 (0#7 ++ BitVec.ofBool i)) 0x0000FFFE) = some (.pseti p d i, true))) hi
theorem Laws.RoundTrip.vshfl (p : Option VPfx) (d a b : BitVec 8) : Laws.RoundTrip.Statement (.vshfl p d a b) := fun hi _ =>
  decodeWords_ok (ps := (optW VPfx.enc p)) (w := (encR 0x88 d a b)) (x := { v := p }) (fits_opt _ VPfx.isPrefix_enc p) (isPrefix_encR _ _ _ _ (by decide)) (by rw [opcode_encR]; rfl) (arrange_v p)
    (by rw [opcode_encR]; cases p <;> rfl) (by
      rw [opcode_encR]
      exact (Laws.pairOk (by simp) (by simp) : some (Instr.vshfl p (fD (encR 0x88 d a b)) (fA (encR 0x88 d a b)) (fB (encR 0x88 d a b)), true) = some (.vshfl p d a b, true))) hi
theorem Laws.RoundTrip.vshflx (p : Option VPfx) (d a b : BitVec 8) : Laws.RoundTrip.Statement (.vshflx p d a b) := fun hi _ =>
  decodeWords_ok (ps := (optW VPfx.enc p)) (w := (encR 0x89 d a b)) (x := { v := p }) (fits_opt _ VPfx.isPrefix_enc p) (isPrefix_encR _ _ _ _ (by decide)) (by rw [opcode_encR]; rfl) (arrange_v p)
    (by rw [opcode_encR]; cases p <;> rfl) (by
      rw [opcode_encR]
      exact (Laws.pairOk (by simp) (by simp) : some (Instr.vshflx p (fD (encR 0x89 d a b)) (fA (encR 0x89 d a b)) (fB (encR 0x89 d a b)), true) = some (.vshflx p d a b, true))) hi
theorem Laws.RoundTrip.vshflu (p : Option VPfx) (d a b : BitVec 8) : Laws.RoundTrip.Statement (.vshflu p d a b) := fun hi _ =>
  decodeWords_ok (ps := (optW VPfx.enc p)) (w := (encR 0x8A d a b)) (x := { v := p }) (fits_opt _ VPfx.isPrefix_enc p) (isPrefix_encR _ _ _ _ (by decide)) (by rw [opcode_encR]; rfl) (arrange_v p)
    (by rw [opcode_encR]; cases p <;> rfl) (by
      rw [opcode_encR]
      exact (Laws.pairOk (by simp) (by simp) : some (Instr.vshflu p (fD (encR 0x8A d a b)) (fA (encR 0x8A d a b)) (fB (encR 0x8A d a b)), true) = some (.vshflu p d a b, true))) hi
theorem Laws.RoundTrip.vshfld (p : Option VPfx) (d a b : BitVec 8) : Laws.RoundTrip.Statement (.vshfld p d a b) := fun hi _ =>
  decodeWords_ok (ps := (optW VPfx.enc p)) (w := (encR 0x8B d a b)) (x := { v := p }) (fits_opt _ VPfx.isPrefix_enc p) (isPrefix_encR _ _ _ _ (by decide)) (by rw [opcode_encR]; rfl) (arrange_v p)
    (by rw [opcode_encR]; cases p <;> rfl) (by
      rw [opcode_encR]
      exact (Laws.pairOk (by simp) (by simp) : some (Instr.vshfld p (fD (encR 0x8B d a b)) (fA (encR 0x8B d a b)) (fB (encR 0x8B d a b)), true) = some (.vshfld p d a b, true))) hi
theorem Laws.RoundTrip.vbcast (p : Option VPfx) (d a b : BitVec 8) : Laws.RoundTrip.Statement (.vbcast p d a b) := fun hi _ =>
  decodeWords_ok (ps := (optW VPfx.enc p)) (w := (encR 0x8C d a b)) (x := { v := p }) (fits_opt _ VPfx.isPrefix_enc p) (isPrefix_encR _ _ _ _ (by decide)) (by rw [opcode_encR]; rfl) (arrange_v p)
    (by rw [opcode_encR]; cases p <;> rfl) (by
      rw [opcode_encR]
      exact (Laws.pairOk (by simp) (by simp) : some (Instr.vbcast p (fD (encR 0x8C d a b)) (fA (encR 0x8C d a b)) (fB (encR 0x8C d a b)), true) = some (.vbcast p d a b, true))) hi
theorem Laws.RoundTrip.vred (p : Option VPfx) (d a b : BitVec 8) : Laws.RoundTrip.Statement (.vred p d a b) := fun hi _ =>
  decodeWords_ok (ps := (optW VPfx.enc p)) (w := (encR 0x8D d a b)) (x := { v := p }) (fits_opt _ VPfx.isPrefix_enc p) (isPrefix_encR _ _ _ _ (by decide)) (by rw [opcode_encR]; rfl) (arrange_v p)
    (by rw [opcode_encR]; cases p <;> rfl) (by
      rw [opcode_encR]
      exact (Laws.pairOk (by simp) (by simp) : some (Instr.vred p (fD (encR 0x8D d a b)) (fA (encR 0x8D d a b)) (fB (encR 0x8D d a b)), true) = some (.vred p d a b, true))) hi
theorem Laws.RoundTrip.vscan (p : Option VPfx) (d a b : BitVec 8) : Laws.RoundTrip.Statement (.vscan p d a b) := fun hi _ =>
  decodeWords_ok (ps := (optW VPfx.enc p)) (w := (encR 0x8E d a b)) (x := { v := p }) (fits_opt _ VPfx.isPrefix_enc p) (isPrefix_encR _ _ _ _ (by decide)) (by rw [opcode_encR]; rfl) (arrange_v p)
    (by rw [opcode_encR]; cases p <;> rfl) (by
      rw [opcode_encR]
      exact (Laws.pairOk (by simp) (by simp) : some (Instr.vscan p (fD (encR 0x8E d a b)) (fA (encR 0x8E d a b)) (fB (encR 0x8E d a b)), true) = some (.vscan p d a b, true))) hi
theorem Laws.RoundTrip.vmatch (p : Option VPfx) (d a : BitVec 8) : Laws.RoundTrip.Statement (.vmatch p d a) := fun hi _ =>
  decodeWords_ok (ps := (optW VPfx.enc p)) (w := (encR 0x8F d a 0#8)) (x := { v := p }) (fits_opt _ VPfx.isPrefix_enc p) (isPrefix_encR _ _ _ _ (by decide)) (by rw [opcode_encR]; rfl) (arrange_v p)
    (by rw [opcode_encR]; cases p <;> rfl) (by
      rw [opcode_encR]
      exact (Laws.pairOk (by simp) (z_encR _ _ _ _ 0x00 0x00 0xFF (BitVec.and_zero) (BitVec.and_zero) (BitVec.zero_and)) : some (Instr.vmatch p (fD (encR 0x8F d a 0#8)) (fA (encR 0x8F d a 0#8)), z (encR 0x8F d a 0#8) 0x000000FF) = some (.vmatch p d a, true))) hi
theorem Laws.RoundTrip.vexec (p : Option VPfx) (a : BitVec 8) : Laws.RoundTrip.Statement (.vexec p a) := fun hi _ =>
  decodeWords_ok (ps := (optW VPfx.enc p)) (w := (encR 0x90 0#8 a 0#8)) (x := { v := p }) (fits_opt _ VPfx.isPrefix_enc p) (isPrefix_encR _ _ _ _ (by decide)) (by rw [opcode_encR]; rfl) (arrange_v p)
    (by rw [opcode_encR]; cases p <;> rfl) (by
      rw [opcode_encR]
      exact (Laws.pairOk (by simp) (z_encR _ _ _ _ 0xFF 0x00 0xFF (BitVec.zero_and) (BitVec.and_zero) (BitVec.zero_and)) : some (Instr.vexec p (fA (encR 0x90 0#8 a 0#8)), z (encR 0x90 0#8 a 0#8) 0x00FF00FF) = some (.vexec p a, true))) hi
theorem Laws.RoundTrip.vexecq (p : Option VPfx) (d a : BitVec 8) : Laws.RoundTrip.Statement (.vexecq p d a) := fun hi _ =>
  decodeWords_ok (ps := (optW VPfx.enc p)) (w := (encR 0x91 d a 0#8)) (x := { v := p }) (fits_opt _ VPfx.isPrefix_enc p) (isPrefix_encR _ _ _ _ (by decide)) (by rw [opcode_encR]; rfl) (arrange_v p)
    (by rw [opcode_encR]; cases p <;> rfl) (by
      rw [opcode_encR]
      exact (Laws.pairOk (by simp) (z_encR _ _ _ _ 0x00 0x00 0xFF (BitVec.and_zero) (BitVec.and_zero) (BitVec.zero_and)) : some (Instr.vexecq p (fD (encR 0x91 d a 0#8)) (fA (encR 0x91 d a 0#8)), z (encR 0x91 d a 0#8) 0x000000FF) = some (.vexecq p d a, true))) hi
theorem Laws.RoundTrip.ldg (o : Option OPfx) (p : Option VPfx) (d a : BitVec 8) (m : MFld) : Laws.RoundTrip.Statement (.ldg o p d a m) := fun hi _ =>
  decodeWords_ok (ps := (optW OPfx.enc o ++ optW VPfx.enc p)) (w := (encR 0xA0 d a m.enc)) (x := { o := o, v := p }) (fits_two _ _ OPfx.isPrefix_enc VPfx.isPrefix_enc o p) (isPrefix_encR _ _ _ _ (by decide)) (by rw [opcode_encR]; rfl) (arrange_ov o p)
    (by rw [opcode_encR]; cases o <;> cases p <;> rfl) (by
      rw [opcode_encR]
      exact (Laws.pairOk (by simp) (by simp) : some (Instr.ldg o p (fD (encR 0xA0 d a m.enc)) (fA (encR 0xA0 d a m.enc)) (MFld.dec (encR 0xA0 d a m.enc)), true) = some (.ldg o p d a m, true))) hi
theorem Laws.RoundTrip.stg (o : Option OPfx) (p : Option VPfx) (d a : BitVec 8) (m : MFld) : Laws.RoundTrip.Statement (.stg o p d a m) := fun hi _ =>
  decodeWords_ok (ps := (optW OPfx.enc o ++ optW VPfx.enc p)) (w := (encR 0xA1 d a m.enc)) (x := { o := o, v := p }) (fits_two _ _ OPfx.isPrefix_enc VPfx.isPrefix_enc o p) (isPrefix_encR _ _ _ _ (by decide)) (by rw [opcode_encR]; rfl) (arrange_ov o p)
    (by rw [opcode_encR]; cases o <;> cases p <;> rfl) (by
      rw [opcode_encR]
      exact (Laws.pairOk (by simp) (by simp) : some (Instr.stg o p (fD (encR 0xA1 d a m.enc)) (fA (encR 0xA1 d a m.enc)) (MFld.dec (encR 0xA1 d a m.enc)), true) = some (.stg o p d a m, true))) hi
theorem Laws.RoundTrip.ldgnf (o : Option OPfx) (p : VPfx) (d a : BitVec 8) (m : MFld) : Laws.RoundTrip.Statement (.ldgnf o p d a m) := fun hi _ =>
  decodeWords_ok (ps := (optW OPfx.enc o ++ [p.enc])) (w := (encR 0xA2 d a m.enc)) (x := { o := o, v := some p }) (fits_two _ _ OPfx.isPrefix_enc VPfx.isPrefix_enc o (some p)) (isPrefix_encR _ _ _ _ (by decide)) (by rw [opcode_encR]; rfl) (arrange_ov o (some p))
    (by rw [opcode_encR]; cases o <;> rfl) (by
      rw [opcode_encR]
      exact (Laws.pairOk (by simp) (by simp) : some (Instr.ldgnf o p (fD (encR 0xA2 d a m.enc)) (fA (encR 0xA2 d a m.enc)) (MFld.dec (encR 0xA2 d a m.enc)), true) = some (.ldgnf o p d a m, true))) hi
theorem Laws.RoundTrip.lds (o : Option OPfx) (p : Option VPfx) (d a : BitVec 8) (m : MFld) : Laws.RoundTrip.Statement (.lds o p d a m) := fun hi _ =>
  decodeWords_ok (ps := (optW OPfx.enc o ++ optW VPfx.enc p)) (w := (encR 0xA3 d a m.enc)) (x := { o := o, v := p }) (fits_two _ _ OPfx.isPrefix_enc VPfx.isPrefix_enc o p) (isPrefix_encR _ _ _ _ (by decide)) (by rw [opcode_encR]; rfl) (arrange_ov o p)
    (by rw [opcode_encR]; cases o <;> cases p <;> rfl) (by
      rw [opcode_encR]
      exact (Laws.pairOk (by simp) (by simp) : some (Instr.lds o p (fD (encR 0xA3 d a m.enc)) (fA (encR 0xA3 d a m.enc)) (MFld.dec (encR 0xA3 d a m.enc)), true) = some (.lds o p d a m, true))) hi
theorem Laws.RoundTrip.sts (o : Option OPfx) (p : Option VPfx) (d a : BitVec 8) (m : MFld) : Laws.RoundTrip.Statement (.sts o p d a m) := fun hi _ =>
  decodeWords_ok (ps := (optW OPfx.enc o ++ optW VPfx.enc p)) (w := (encR 0xA4 d a m.enc)) (x := { o := o, v := p }) (fits_two _ _ OPfx.isPrefix_enc VPfx.isPrefix_enc o p) (isPrefix_encR _ _ _ _ (by decide)) (by rw [opcode_encR]; rfl) (arrange_ov o p)
    (by rw [opcode_encR]; cases o <;> cases p <;> rfl) (by
      rw [opcode_encR]
      exact (Laws.pairOk (by simp) (by simp) : some (Instr.sts o p (fD (encR 0xA4 d a m.enc)) (fA (encR 0xA4 d a m.enc)) (MFld.dec (encR 0xA4 d a m.enc)), true) = some (.sts o p d a m, true))) hi
theorem Laws.RoundTrip.ldw (p : Option VPfx) (d a : BitVec 8) (m : MFld) : Laws.RoundTrip.Statement (.ldw p d a m) := fun hi _ =>
  decodeWords_ok (ps := (optW VPfx.enc p)) (w := (encR 0xA5 d a m.enc)) (x := { v := p }) (fits_opt _ VPfx.isPrefix_enc p) (isPrefix_encR _ _ _ _ (by decide)) (by rw [opcode_encR]; rfl) (arrange_v p)
    (by rw [opcode_encR]; cases p <;> rfl) (by
      rw [opcode_encR]
      exact (Laws.pairOk (by simp) (by simp) : some (Instr.ldw p (fD (encR 0xA5 d a m.enc)) (fA (encR 0xA5 d a m.enc)) (MFld.dec (encR 0xA5 d a m.enc)), true) = some (.ldw p d a m, true))) hi
theorem Laws.RoundTrip.pref (p : Option VPfx) (a : BitVec 8) (m : MFld) : Laws.RoundTrip.Statement (.pref p a m) := fun hi _ =>
  decodeWords_ok (ps := (optW VPfx.enc p)) (w := (encR 0xA6 0#8 a m.enc)) (x := { v := p }) (fits_opt _ VPfx.isPrefix_enc p) (isPrefix_encR _ _ _ _ (by decide)) (by rw [opcode_encR]; rfl) (arrange_v p)
    (by rw [opcode_encR]; cases p <;> rfl) (by
      rw [opcode_encR]
      exact (Laws.pairOk (by simp) (z_encR _ _ _ _ 0xFF 0x00 0x00 (BitVec.zero_and) (BitVec.and_zero) (BitVec.and_zero)) : some (Instr.pref p (fA (encR 0xA6 0#8 a m.enc)) (MFld.dec (encR 0xA6 0#8 a m.enc)), z (encR 0xA6 0#8 a m.enc) 0x00FF0000) = some (.pref p a m, true))) hi
theorem Laws.RoundTrip.cflush (p : Option VPfx) (a : BitVec 8) (m : MFld) : Laws.RoundTrip.Statement (.cflush p a m) := fun hi _ =>
  decodeWords_ok (ps := (optW VPfx.enc p)) (w := (encR 0xA7 0#8 a m.enc)) (x := { v := p }) (fits_opt _ VPfx.isPrefix_enc p) (isPrefix_encR _ _ _ _ (by decide)) (by rw [opcode_encR]; rfl) (arrange_v p)
    (by rw [opcode_encR]; cases p <;> rfl) (by
      rw [opcode_encR]
      exact (Laws.pairOk (by simp) (z_encR _ _ _ _ 0xFF 0x00 0x00 (BitVec.zero_and) (BitVec.and_zero) (BitVec.and_zero)) : some (Instr.cflush p (fA (encR 0xA7 0#8 a m.enc)) (MFld.dec (encR 0xA7 0#8 a m.enc)), z (encR 0xA7 0#8 a m.enc) 0x00FF0000) = some (.cflush p a m, true))) hi
theorem Laws.RoundTrip.cpa (p : Option VPfx) (d a : BitVec 8) (size tag : BitVec 3) (bpc : BitVec 2) : Laws.RoundTrip.Statement (.cpa p d a size tag bpc) := fun hi _ =>
  decodeWords_ok (ps := (optW VPfx.enc p)) (w := (encR 0xA8 d a (size ++ tag ++ bpc))) (x := { v := p }) (fits_opt _ VPfx.isPrefix_enc p) (isPrefix_encR _ _ _ _ (by decide)) (by rw [opcode_encR]; rfl) (arrange_v p)
    (by rw [opcode_encR]; cases p <;> rfl) (by
      rw [opcode_encR]
      exact (Laws.pairOk (by simp) (by simp) : some (Instr.cpa p (fD (encR 0xA8 d a (size ++ tag ++ bpc))) (fA (encR 0xA8 d a (size ++ tag ++ bpc))) (BitVec.extractLsb' 5 3 ((encR 0xA8 d a (size ++ tag ++ bpc)) : BitVec 32)) (BitVec.extractLsb' 2 3 ((encR 0xA8 d a (size ++ tag ++ bpc)) : BitVec 32)) (BitVec.extractLsb' 0 2 ((encR 0xA8 d a (size ++ tag ++ bpc)) : BitVec 32)), true) = some (.cpa p d a size tag bpc, true))) hi
theorem Laws.RoundTrip.tcopy (d a : BitVec 8) : Laws.RoundTrip.Statement (.tcopy d a) := fun hi _ =>
  decodeWords_ok (ps := []) (w := (encR 0xA9 d a 0#8)) (x := {}) (fits_nil) (isPrefix_encR _ _ _ _ (by decide)) (by rw [opcode_encR]; rfl) (rfl)
    (by rw [opcode_encR]; rfl) (by
      rw [opcode_encR]
      exact (Laws.pairOk (by simp) (z_encR _ _ _ _ 0x00 0x00 0xFF (BitVec.and_zero) (BitVec.and_zero) (BitVec.zero_and)) : some (Instr.tcopy (fD (encR 0xA9 d a 0#8)) (fA (encR 0xA9 d a 0#8)), z (encR 0xA9 d a 0#8) 0x000000FF) = some (.tcopy d a, true))) hi
theorem Laws.RoundTrip.pgreq (p : Option VPfx) (a : BitVec 8) (m : MFld) : Laws.RoundTrip.Statement (.pgreq p a m) := fun hi _ =>
  decodeWords_ok (ps := (optW VPfx.enc p)) (w := (encR 0xAA 0#8 a m.enc)) (x := { v := p }) (fits_opt _ VPfx.isPrefix_enc p) (isPrefix_encR _ _ _ _ (by decide)) (by rw [opcode_encR]; rfl) (arrange_v p)
    (by rw [opcode_encR]; cases p <;> rfl) (by
      rw [opcode_encR]
      exact (Laws.pairOk (by simp) (z_encR _ _ _ _ 0xFF 0x00 0x00 (BitVec.zero_and) (BitVec.and_zero) (BitVec.and_zero)) : some (Instr.pgreq p (fA (encR 0xAA 0#8 a m.enc)) (MFld.dec (encR 0xAA 0#8 a m.enc)), z (encR 0xAA 0#8 a m.enc) 0x00FF0000) = some (.pgreq p a m, true))) hi
theorem Laws.RoundTrip.atomgAdd (o : Option OPfx) (p : Option VPfx) (d a : BitVec 8) (m : MFld) : Laws.RoundTrip.Statement (.atomgAdd o p d a m) := fun hi _ =>
  decodeWords_ok (ps := (optW OPfx.enc o ++ optW VPfx.enc p)) (w := (encR 0xB0 d a m.enc)) (x := { o := o, v := p }) (fits_two _ _ OPfx.isPrefix_enc VPfx.isPrefix_enc o p) (isPrefix_encR _ _ _ _ (by decide)) (by rw [opcode_encR]; rfl) (arrange_ov o p)
    (by rw [opcode_encR]; cases o <;> cases p <;> rfl) (by
      rw [opcode_encR]
      exact (Laws.pairOk (by simp) (by simp) : some (Instr.atomgAdd o p (fD (encR 0xB0 d a m.enc)) (fA (encR 0xB0 d a m.enc)) (MFld.dec (encR 0xB0 d a m.enc)), true) = some (.atomgAdd o p d a m, true))) hi
theorem Laws.RoundTrip.atomgMin (o : Option OPfx) (p : Option VPfx) (d a : BitVec 8) (m : MFld) : Laws.RoundTrip.Statement (.atomgMin o p d a m) := fun hi _ =>
  decodeWords_ok (ps := (optW OPfx.enc o ++ optW VPfx.enc p)) (w := (encR 0xB1 d a m.enc)) (x := { o := o, v := p }) (fits_two _ _ OPfx.isPrefix_enc VPfx.isPrefix_enc o p) (isPrefix_encR _ _ _ _ (by decide)) (by rw [opcode_encR]; rfl) (arrange_ov o p)
    (by rw [opcode_encR]; cases o <;> cases p <;> rfl) (by
      rw [opcode_encR]
      exact (Laws.pairOk (by simp) (by simp) : some (Instr.atomgMin o p (fD (encR 0xB1 d a m.enc)) (fA (encR 0xB1 d a m.enc)) (MFld.dec (encR 0xB1 d a m.enc)), true) = some (.atomgMin o p d a m, true))) hi
theorem Laws.RoundTrip.atomgMax (o : Option OPfx) (p : Option VPfx) (d a : BitVec 8) (m : MFld) : Laws.RoundTrip.Statement (.atomgMax o p d a m) := fun hi _ =>
  decodeWords_ok (ps := (optW OPfx.enc o ++ optW VPfx.enc p)) (w := (encR 0xB2 d a m.enc)) (x := { o := o, v := p }) (fits_two _ _ OPfx.isPrefix_enc VPfx.isPrefix_enc o p) (isPrefix_encR _ _ _ _ (by decide)) (by rw [opcode_encR]; rfl) (arrange_ov o p)
    (by rw [opcode_encR]; cases o <;> cases p <;> rfl) (by
      rw [opcode_encR]
      exact (Laws.pairOk (by simp) (by simp) : some (Instr.atomgMax o p (fD (encR 0xB2 d a m.enc)) (fA (encR 0xB2 d a m.enc)) (MFld.dec (encR 0xB2 d a m.enc)), true) = some (.atomgMax o p d a m, true))) hi
theorem Laws.RoundTrip.atomgAnd (o : Option OPfx) (p : Option VPfx) (d a : BitVec 8) (m : MFld) : Laws.RoundTrip.Statement (.atomgAnd o p d a m) := fun hi _ =>
  decodeWords_ok (ps := (optW OPfx.enc o ++ optW VPfx.enc p)) (w := (encR 0xB3 d a m.enc)) (x := { o := o, v := p }) (fits_two _ _ OPfx.isPrefix_enc VPfx.isPrefix_enc o p) (isPrefix_encR _ _ _ _ (by decide)) (by rw [opcode_encR]; rfl) (arrange_ov o p)
    (by rw [opcode_encR]; cases o <;> cases p <;> rfl) (by
      rw [opcode_encR]
      exact (Laws.pairOk (by simp) (by simp) : some (Instr.atomgAnd o p (fD (encR 0xB3 d a m.enc)) (fA (encR 0xB3 d a m.enc)) (MFld.dec (encR 0xB3 d a m.enc)), true) = some (.atomgAnd o p d a m, true))) hi
theorem Laws.RoundTrip.atomgOr (o : Option OPfx) (p : Option VPfx) (d a : BitVec 8) (m : MFld) : Laws.RoundTrip.Statement (.atomgOr o p d a m) := fun hi _ =>
  decodeWords_ok (ps := (optW OPfx.enc o ++ optW VPfx.enc p)) (w := (encR 0xB4 d a m.enc)) (x := { o := o, v := p }) (fits_two _ _ OPfx.isPrefix_enc VPfx.isPrefix_enc o p) (isPrefix_encR _ _ _ _ (by decide)) (by rw [opcode_encR]; rfl) (arrange_ov o p)
    (by rw [opcode_encR]; cases o <;> cases p <;> rfl) (by
      rw [opcode_encR]
      exact (Laws.pairOk (by simp) (by simp) : some (Instr.atomgOr o p (fD (encR 0xB4 d a m.enc)) (fA (encR 0xB4 d a m.enc)) (MFld.dec (encR 0xB4 d a m.enc)), true) = some (.atomgOr o p d a m, true))) hi
theorem Laws.RoundTrip.atomgXor (o : Option OPfx) (p : Option VPfx) (d a : BitVec 8) (m : MFld) : Laws.RoundTrip.Statement (.atomgXor o p d a m) := fun hi _ =>
  decodeWords_ok (ps := (optW OPfx.enc o ++ optW VPfx.enc p)) (w := (encR 0xB5 d a m.enc)) (x := { o := o, v := p }) (fits_two _ _ OPfx.isPrefix_enc VPfx.isPrefix_enc o p) (isPrefix_encR _ _ _ _ (by decide)) (by rw [opcode_encR]; rfl) (arrange_ov o p)
    (by rw [opcode_encR]; cases o <;> cases p <;> rfl) (by
      rw [opcode_encR]
      exact (Laws.pairOk (by simp) (by simp) : some (Instr.atomgXor o p (fD (encR 0xB5 d a m.enc)) (fA (encR 0xB5 d a m.enc)) (MFld.dec (encR 0xB5 d a m.enc)), true) = some (.atomgXor o p d a m, true))) hi
theorem Laws.RoundTrip.atomgExch (o : Option OPfx) (p : Option VPfx) (d a : BitVec 8) (m : MFld) : Laws.RoundTrip.Statement (.atomgExch o p d a m) := fun hi _ =>
  decodeWords_ok (ps := (optW OPfx.enc o ++ optW VPfx.enc p)) (w := (encR 0xB6 d a m.enc)) (x := { o := o, v := p }) (fits_two _ _ OPfx.isPrefix_enc VPfx.isPrefix_enc o p) (isPrefix_encR _ _ _ _ (by decide)) (by rw [opcode_encR]; rfl) (arrange_ov o p)
    (by rw [opcode_encR]; cases o <;> cases p <;> rfl) (by
      rw [opcode_encR]
      exact (Laws.pairOk (by simp) (by simp) : some (Instr.atomgExch o p (fD (encR 0xB6 d a m.enc)) (fA (encR 0xB6 d a m.enc)) (MFld.dec (encR 0xB6 d a m.enc)), true) = some (.atomgExch o p d a m, true))) hi
theorem Laws.RoundTrip.atomgIncw (o : Option OPfx) (p : Option VPfx) (d a : BitVec 8) (m : MFld) : Laws.RoundTrip.Statement (.atomgIncw o p d a m) := fun hi _ =>
  decodeWords_ok (ps := (optW OPfx.enc o ++ optW VPfx.enc p)) (w := (encR 0xB7 d a m.enc)) (x := { o := o, v := p }) (fits_two _ _ OPfx.isPrefix_enc VPfx.isPrefix_enc o p) (isPrefix_encR _ _ _ _ (by decide)) (by rw [opcode_encR]; rfl) (arrange_ov o p)
    (by rw [opcode_encR]; cases o <;> cases p <;> rfl) (by
      rw [opcode_encR]
      exact (Laws.pairOk (by simp) (by simp) : some (Instr.atomgIncw o p (fD (encR 0xB7 d a m.enc)) (fA (encR 0xB7 d a m.enc)) (MFld.dec (encR 0xB7 d a m.enc)), true) = some (.atomgIncw o p d a m, true))) hi
theorem Laws.RoundTrip.atomgFadd (o : Option OPfx) (p : Option VPfx) (d a : BitVec 8) (m : MFld) : Laws.RoundTrip.Statement (.atomgFadd o p d a m) := fun hi _ =>
  decodeWords_ok (ps := (optW OPfx.enc o ++ optW VPfx.enc p)) (w := (encR 0xB8 d a m.enc)) (x := { o := o, v := p }) (fits_two _ _ OPfx.isPrefix_enc VPfx.isPrefix_enc o p) (isPrefix_encR _ _ _ _ (by decide)) (by rw [opcode_encR]; rfl) (arrange_ov o p)
    (by rw [opcode_encR]; cases o <;> cases p <;> rfl) (by
      rw [opcode_encR]
      exact (Laws.pairOk (by simp) (by simp) : some (Instr.atomgFadd o p (fD (encR 0xB8 d a m.enc)) (fA (encR 0xB8 d a m.enc)) (MFld.dec (encR 0xB8 d a m.enc)), true) = some (.atomgFadd o p d a m, true))) hi
theorem Laws.RoundTrip.atomgCas (o : OPfx) (p : Option VPfx) (d a : BitVec 8) (m : MFld) : Laws.RoundTrip.Statement (.atomgCas o p d a m) := fun hi _ =>
  decodeWords_ok (ps := ([o.enc] ++ optW VPfx.enc p)) (w := (encR 0xB9 d a m.enc)) (x := { o := some o, v := p }) (fits_two _ _ OPfx.isPrefix_enc VPfx.isPrefix_enc (some o) p) (isPrefix_encR _ _ _ _ (by decide)) (by rw [opcode_encR]; rfl) (arrange_ov (some o) p)
    (by rw [opcode_encR]; cases p <;> rfl) (by
      rw [opcode_encR]
      exact (Laws.pairOk (by simp) (by simp) : some (Instr.atomgCas o p (fD (encR 0xB9 d a m.enc)) (fA (encR 0xB9 d a m.enc)) (MFld.dec (encR 0xB9 d a m.enc)), true) = some (.atomgCas o p d a m, true))) hi
theorem Laws.RoundTrip.fence (o : OPfx) : Laws.RoundTrip.Statement (.fence o) := fun hi _ =>
  decodeWords_ok (ps := ([o.enc])) (w := (encR 0xBA 0#8 0#8 0#8)) (x := { o := some o }) (fits_opt _ OPfx.isPrefix_enc (some o)) (isPrefix_encR _ _ _ _ (by decide)) (by rw [opcode_encR]; rfl) (arrange_o (some o))
    (by rw [opcode_encR]; rfl) (by
      rw [opcode_encR]
      exact (Laws.pairOk (by simp) (z_encR _ _ _ _ 0xFF 0xFF 0xFF (BitVec.zero_and) (BitVec.zero_and) (BitVec.zero_and)) : some (Instr.fence o, z (encR 0xBA 0#8 0#8 0#8) 0x00FFFFFF) = some (.fence o, true))) hi
theorem Laws.RoundTrip.bar (a : BitVec 8) (k : BitVec 4) : Laws.RoundTrip.Statement (.bar a k) := fun hi _ =>
  decodeWords_ok (ps := []) (w := (encR 0xBB 0#8 a (0#4 ++ k))) (x := {}) (fits_nil) (isPrefix_encR _ _ _ _ (by decide)) (by rw [opcode_encR]; rfl) (rfl)
    (by rw [opcode_encR]; rfl) (by
      rw [opcode_encR]
      exact (Laws.pairOk (by simp) (z_encR _ _ _ _ 0xFF 0x00 0xF0 (BitVec.zero_and) (BitVec.and_zero) (low_masked _ 15#4)) : some (Instr.bar (fA (encR 0xBB 0#8 a (0#4 ++ k))) (BitVec.extractLsb' 0 4 ((encR 0xBB 0#8 a (0#4 ++ k)) : BitVec 32)), z (encR 0xBB 0#8 a (0#4 ++ k)) 0x00FF00F0) = some (.bar a k, true))) hi
theorem Laws.RoundTrip.bararv (a : BitVec 8) (k : BitVec 4) : Laws.RoundTrip.Statement (.bararv a k) := fun hi _ =>
  decodeWords_ok (ps := []) (w := (encR 0xBC 0#8 a (0#4 ++ k))) (x := {}) (fits_nil) (isPrefix_encR _ _ _ _ (by decide)) (by rw [opcode_encR]; rfl) (rfl)
    (by rw [opcode_encR]; rfl) (by
      rw [opcode_encR]
      exact (Laws.pairOk (by simp) (z_encR _ _ _ _ 0xFF 0x00 0xF0 (BitVec.zero_and) (BitVec.and_zero) (low_masked _ 15#4)) : some (Instr.bararv (fA (encR 0xBC 0#8 a (0#4 ++ k))) (BitVec.extractLsb' 0 4 ((encR 0xBC 0#8 a (0#4 ++ k)) : BitVec 32)), z (encR 0xBC 0#8 a (0#4 ++ k)) 0x00FF00F0) = some (.bararv a k, true))) hi
theorem Laws.RoundTrip.barwait (a : BitVec 8) (k : BitVec 4) : Laws.RoundTrip.Statement (.barwait a k) := fun hi _ =>
  decodeWords_ok (ps := []) (w := (encR 0xBD 0#8 a (0#4 ++ k))) (x := {}) (fits_nil) (isPrefix_encR _ _ _ _ (by decide)) (by rw [opcode_encR]; rfl) (rfl)
    (by rw [opcode_encR]; rfl) (by
      rw [opcode_encR]
      exact (Laws.pairOk (by simp) (z_encR _ _ _ _ 0xFF 0x00 0xF0 (BitVec.zero_and) (BitVec.and_zero) (low_masked _ 15#4)) : some (Instr.barwait (fA (encR 0xBD 0#8 a (0#4 ++ k))) (BitVec.extractLsb' 0 4 ((encR 0xBD 0#8 a (0#4 ++ k)) : BitVec 32)), z (encR 0xBD 0#8 a (0#4 ++ k)) 0x00FF00F0) = some (.barwait a k, true))) hi
theorem Laws.RoundTrip.gbar : Laws.RoundTrip.Statement (.gbar) := fun hi _ =>
  decodeWords_ok (ps := []) (w := (encR 0xBE 0#8 0#8 0#8)) (x := {}) (fits_nil) (isPrefix_encR _ _ _ _ (by decide)) (by rw [opcode_encR]; rfl) (rfl)
    (by rw [opcode_encR]; rfl) (by
      rw [opcode_encR]
      exact (Laws.pairOk (by simp) (z_encR _ _ _ _ 0xFF 0xFF 0xFF (BitVec.zero_and) (BitVec.zero_and) (BitVec.zero_and)) : some (Instr.gbar, z (encR 0xBE 0#8 0#8 0#8) 0x00FFFFFF) = some (.gbar, true))) hi
theorem Laws.RoundTrip.waitsig (a b : BitVec 8) : Laws.RoundTrip.Statement (.waitsig a b) := fun hi _ =>
  decodeWords_ok (ps := []) (w := (encR 0xBF 0#8 a b)) (x := {}) (fits_nil) (isPrefix_encR _ _ _ _ (by decide)) (by rw [opcode_encR]; rfl) (rfl)
    (by rw [opcode_encR]; rfl) (by
      rw [opcode_encR]
      exact (Laws.pairOk (by simp) (z_encR _ _ _ _ 0xFF 0x00 0x00 (BitVec.zero_and) (BitVec.and_zero) (BitVec.and_zero)) : some (Instr.waitsig (fA (encR 0xBF 0#8 a b)) (fB (encR 0xBF 0#8 a b)), z (encR 0xBF 0#8 a b) 0x00FF0000) = some (.waitsig a b, true))) hi
theorem Laws.RoundTrip.atomsAdd (o : Option OPfx) (p : Option VPfx) (d a : BitVec 8) (m : MFld) : Laws.RoundTrip.Statement (.atomsAdd o p d a m) := fun hi _ =>
  decodeWords_ok (ps := (optW OPfx.enc o ++ optW VPfx.enc p)) (w := (encR 0xC0 d a m.enc)) (x := { o := o, v := p }) (fits_two _ _ OPfx.isPrefix_enc VPfx.isPrefix_enc o p) (isPrefix_encR _ _ _ _ (by decide)) (by rw [opcode_encR]; rfl) (arrange_ov o p)
    (by rw [opcode_encR]; cases o <;> cases p <;> rfl) (by
      rw [opcode_encR]
      exact (Laws.pairOk (by simp) (by simp) : some (Instr.atomsAdd o p (fD (encR 0xC0 d a m.enc)) (fA (encR 0xC0 d a m.enc)) (MFld.dec (encR 0xC0 d a m.enc)), true) = some (.atomsAdd o p d a m, true))) hi
theorem Laws.RoundTrip.atomsMin (o : Option OPfx) (p : Option VPfx) (d a : BitVec 8) (m : MFld) : Laws.RoundTrip.Statement (.atomsMin o p d a m) := fun hi _ =>
  decodeWords_ok (ps := (optW OPfx.enc o ++ optW VPfx.enc p)) (w := (encR 0xC1 d a m.enc)) (x := { o := o, v := p }) (fits_two _ _ OPfx.isPrefix_enc VPfx.isPrefix_enc o p) (isPrefix_encR _ _ _ _ (by decide)) (by rw [opcode_encR]; rfl) (arrange_ov o p)
    (by rw [opcode_encR]; cases o <;> cases p <;> rfl) (by
      rw [opcode_encR]
      exact (Laws.pairOk (by simp) (by simp) : some (Instr.atomsMin o p (fD (encR 0xC1 d a m.enc)) (fA (encR 0xC1 d a m.enc)) (MFld.dec (encR 0xC1 d a m.enc)), true) = some (.atomsMin o p d a m, true))) hi
theorem Laws.RoundTrip.atomsMax (o : Option OPfx) (p : Option VPfx) (d a : BitVec 8) (m : MFld) : Laws.RoundTrip.Statement (.atomsMax o p d a m) := fun hi _ =>
  decodeWords_ok (ps := (optW OPfx.enc o ++ optW VPfx.enc p)) (w := (encR 0xC2 d a m.enc)) (x := { o := o, v := p }) (fits_two _ _ OPfx.isPrefix_enc VPfx.isPrefix_enc o p) (isPrefix_encR _ _ _ _ (by decide)) (by rw [opcode_encR]; rfl) (arrange_ov o p)
    (by rw [opcode_encR]; cases o <;> cases p <;> rfl) (by
      rw [opcode_encR]
      exact (Laws.pairOk (by simp) (by simp) : some (Instr.atomsMax o p (fD (encR 0xC2 d a m.enc)) (fA (encR 0xC2 d a m.enc)) (MFld.dec (encR 0xC2 d a m.enc)), true) = some (.atomsMax o p d a m, true))) hi
theorem Laws.RoundTrip.atomsAnd (o : Option OPfx) (p : Option VPfx) (d a : BitVec 8) (m : MFld) : Laws.RoundTrip.Statement (.atomsAnd o p d a m) := fun hi _ =>
  decodeWords_ok (ps := (optW OPfx.enc o ++ optW VPfx.enc p)) (w := (encR 0xC3 d a m.enc)) (x := { o := o, v := p }) (fits_two _ _ OPfx.isPrefix_enc VPfx.isPrefix_enc o p) (isPrefix_encR _ _ _ _ (by decide)) (by rw [opcode_encR]; rfl) (arrange_ov o p)
    (by rw [opcode_encR]; cases o <;> cases p <;> rfl) (by
      rw [opcode_encR]
      exact (Laws.pairOk (by simp) (by simp) : some (Instr.atomsAnd o p (fD (encR 0xC3 d a m.enc)) (fA (encR 0xC3 d a m.enc)) (MFld.dec (encR 0xC3 d a m.enc)), true) = some (.atomsAnd o p d a m, true))) hi
theorem Laws.RoundTrip.atomsOr (o : Option OPfx) (p : Option VPfx) (d a : BitVec 8) (m : MFld) : Laws.RoundTrip.Statement (.atomsOr o p d a m) := fun hi _ =>
  decodeWords_ok (ps := (optW OPfx.enc o ++ optW VPfx.enc p)) (w := (encR 0xC4 d a m.enc)) (x := { o := o, v := p }) (fits_two _ _ OPfx.isPrefix_enc VPfx.isPrefix_enc o p) (isPrefix_encR _ _ _ _ (by decide)) (by rw [opcode_encR]; rfl) (arrange_ov o p)
    (by rw [opcode_encR]; cases o <;> cases p <;> rfl) (by
      rw [opcode_encR]
      exact (Laws.pairOk (by simp) (by simp) : some (Instr.atomsOr o p (fD (encR 0xC4 d a m.enc)) (fA (encR 0xC4 d a m.enc)) (MFld.dec (encR 0xC4 d a m.enc)), true) = some (.atomsOr o p d a m, true))) hi
theorem Laws.RoundTrip.atomsXor (o : Option OPfx) (p : Option VPfx) (d a : BitVec 8) (m : MFld) : Laws.RoundTrip.Statement (.atomsXor o p d a m) := fun hi _ =>
  decodeWords_ok (ps := (optW OPfx.enc o ++ optW VPfx.enc p)) (w := (encR 0xC5 d a m.enc)) (x := { o := o, v := p }) (fits_two _ _ OPfx.isPrefix_enc VPfx.isPrefix_enc o p) (isPrefix_encR _ _ _ _ (by decide)) (by rw [opcode_encR]; rfl) (arrange_ov o p)
    (by rw [opcode_encR]; cases o <;> cases p <;> rfl) (by
      rw [opcode_encR]
      exact (Laws.pairOk (by simp) (by simp) : some (Instr.atomsXor o p (fD (encR 0xC5 d a m.enc)) (fA (encR 0xC5 d a m.enc)) (MFld.dec (encR 0xC5 d a m.enc)), true) = some (.atomsXor o p d a m, true))) hi
theorem Laws.RoundTrip.atomsExch (o : Option OPfx) (p : Option VPfx) (d a : BitVec 8) (m : MFld) : Laws.RoundTrip.Statement (.atomsExch o p d a m) := fun hi _ =>
  decodeWords_ok (ps := (optW OPfx.enc o ++ optW VPfx.enc p)) (w := (encR 0xC6 d a m.enc)) (x := { o := o, v := p }) (fits_two _ _ OPfx.isPrefix_enc VPfx.isPrefix_enc o p) (isPrefix_encR _ _ _ _ (by decide)) (by rw [opcode_encR]; rfl) (arrange_ov o p)
    (by rw [opcode_encR]; cases o <;> cases p <;> rfl) (by
      rw [opcode_encR]
      exact (Laws.pairOk (by simp) (by simp) : some (Instr.atomsExch o p (fD (encR 0xC6 d a m.enc)) (fA (encR 0xC6 d a m.enc)) (MFld.dec (encR 0xC6 d a m.enc)), true) = some (.atomsExch o p d a m, true))) hi
theorem Laws.RoundTrip.atomsCas (o : OPfx) (p : Option VPfx) (d a : BitVec 8) (m : MFld) : Laws.RoundTrip.Statement (.atomsCas o p d a m) := fun hi _ =>
  decodeWords_ok (ps := ([o.enc] ++ optW VPfx.enc p)) (w := (encR 0xC7 d a m.enc)) (x := { o := some o, v := p }) (fits_two _ _ OPfx.isPrefix_enc VPfx.isPrefix_enc (some o) p) (isPrefix_encR _ _ _ _ (by decide)) (by rw [opcode_encR]; rfl) (arrange_ov (some o) p)
    (by rw [opcode_encR]; cases p <;> rfl) (by
      rw [opcode_encR]
      exact (Laws.pairOk (by simp) (by simp) : some (Instr.atomsCas o p (fD (encR 0xC7 d a m.enc)) (fA (encR 0xC7 d a m.enc)) (MFld.dec (encR 0xC7 d a m.enc)), true) = some (.atomsCas o p d a m, true))) hi
theorem Laws.RoundTrip.rld (o : Option OPfx) (p : Option VPfx) (d a b : BitVec 8) : Laws.RoundTrip.Statement (.rld o p d a b) := fun hi _ =>
  decodeWords_ok (ps := (optW OPfx.enc o ++ optW VPfx.enc p)) (w := (encR 0xC8 d a b)) (x := { o := o, v := p }) (fits_two _ _ OPfx.isPrefix_enc VPfx.isPrefix_enc o p) (isPrefix_encR _ _ _ _ (by decide)) (by rw [opcode_encR]; rfl) (arrange_ov o p)
    (by rw [opcode_encR]; cases o <;> cases p <;> rfl) (by
      rw [opcode_encR]
      exact (Laws.pairOk (by simp) (by simp) : some (Instr.rld o p (fD (encR 0xC8 d a b)) (fA (encR 0xC8 d a b)) (fB (encR 0xC8 d a b)), true) = some (.rld o p d a b, true))) hi
theorem Laws.RoundTrip.rst (o : Option OPfx) (p : Option VPfx) (d a b : BitVec 8) : Laws.RoundTrip.Statement (.rst o p d a b) := fun hi _ =>
  decodeWords_ok (ps := (optW OPfx.enc o ++ optW VPfx.enc p)) (w := (encR 0xC9 d a b)) (x := { o := o, v := p }) (fits_two _ _ OPfx.isPrefix_enc VPfx.isPrefix_enc o p) (isPrefix_encR _ _ _ _ (by decide)) (by rw [opcode_encR]; rfl) (arrange_ov o p)
    (by rw [opcode_encR]; cases o <;> cases p <;> rfl) (by
      rw [opcode_encR]
      exact (Laws.pairOk (by simp) (by simp) : some (Instr.rst o p (fD (encR 0xC9 d a b)) (fA (encR 0xC9 d a b)) (fB (encR 0xC9 d a b)), true) = some (.rst o p d a b, true))) hi
theorem Laws.RoundTrip.ratom (o : Option OPfx) (p : Option VPfx) (d a b : BitVec 8) : Laws.RoundTrip.Statement (.ratom o p d a b) := fun hi _ =>
  decodeWords_ok (ps := (optW OPfx.enc o ++ optW VPfx.enc p)) (w := (encR 0xCA d a b)) (x := { o := o, v := p }) (fits_two _ _ OPfx.isPrefix_enc VPfx.isPrefix_enc o p) (isPrefix_encR _ _ _ _ (by decide)) (by rw [opcode_encR]; rfl) (arrange_ov o p)
    (by rw [opcode_encR]; cases o <;> cases p <;> rfl) (by
      rw [opcode_encR]
      exact (Laws.pairOk (by simp) (by simp) : some (Instr.ratom o p (fD (encR 0xCA d a b)) (fA (encR 0xCA d a b)) (fB (encR 0xCA d a b)), true) = some (.ratom o p d a b, true))) hi
theorem Laws.RoundTrip.rvadd (o : Option OPfx) (p : Option VPfx) (d a b : BitVec 8) : Laws.RoundTrip.Statement (.rvadd o p d a b) := fun hi _ =>
  decodeWords_ok (ps := (optW OPfx.enc o ++ optW VPfx.enc p)) (w := (encR 0xCB d a b)) (x := { o := o, v := p }) (fits_two _ _ OPfx.isPrefix_enc VPfx.isPrefix_enc o p) (isPrefix_encR _ _ _ _ (by decide)) (by rw [opcode_encR]; rfl) (arrange_ov o p)
    (by rw [opcode_encR]; cases o <;> cases p <;> rfl) (by
      rw [opcode_encR]
      exact (Laws.pairOk (by simp) (by simp) : some (Instr.rvadd o p (fD (encR 0xCB d a b)) (fA (encR 0xCB d a b)) (fB (encR 0xCB d a b)), true) = some (.rvadd o p d a b, true))) hi
theorem Laws.RoundTrip.rwsig (o : Option OPfx) (p : Option VPfx) (d a b : BitVec 8) : Laws.RoundTrip.Statement (.rwsig o p d a b) := fun hi _ =>
  decodeWords_ok (ps := (optW OPfx.enc o ++ optW VPfx.enc p)) (w := (encR 0xCC d a b)) (x := { o := o, v := p }) (fits_two _ _ OPfx.isPrefix_enc VPfx.isPrefix_enc o p) (isPrefix_encR _ _ _ _ (by decide)) (by rw [opcode_encR]; rfl) (arrange_ov o p)
    (by rw [opcode_encR]; cases o <;> cases p <;> rfl) (by
      rw [opcode_encR]
      exact (Laws.pairOk (by simp) (by simp) : some (Instr.rwsig o p (fD (encR 0xCC d a b)) (fA (encR 0xCC d a b)) (fB (encR 0xCC d a b)), true) = some (.rwsig o p d a b, true))) hi
theorem Laws.RoundTrip.rred (o : Option OPfx) (p : Option VPfx) (d a b : BitVec 8) : Laws.RoundTrip.Statement (.rred o p d a b) := fun hi _ =>
  decodeWords_ok (ps := (optW OPfx.enc o ++ optW VPfx.enc p)) (w := (encR 0xCD d a b)) (x := { o := o, v := p }) (fits_two _ _ OPfx.isPrefix_enc VPfx.isPrefix_enc o p) (isPrefix_encR _ _ _ _ (by decide)) (by rw [opcode_encR]; rfl) (arrange_ov o p)
    (by rw [opcode_encR]; cases o <;> cases p <;> rfl) (by
      rw [opcode_encR]
      exact (Laws.pairOk (by simp) (by simp) : some (Instr.rred o p (fD (encR 0xCD d a b)) (fA (encR 0xCD d a b)) (fB (encR 0xCD d a b)), true) = some (.rred o p d a b, true))) hi
theorem Laws.RoundTrip.rfence (a : BitVec 8) : Laws.RoundTrip.Statement (.rfence a) := fun hi _ =>
  decodeWords_ok (ps := []) (w := (encR 0xCE 0#8 a 0#8)) (x := {}) (fits_nil) (isPrefix_encR _ _ _ _ (by decide)) (by rw [opcode_encR]; rfl) (rfl)
    (by rw [opcode_encR]; rfl) (by
      rw [opcode_encR]
      exact (Laws.pairOk (by simp) (z_encR _ _ _ _ 0xFF 0x00 0xFF (BitVec.zero_and) (BitVec.and_zero) (BitVec.zero_and)) : some (Instr.rfence (fA (encR 0xCE 0#8 a 0#8)), z (encR 0xCE 0#8 a 0#8) 0x00FF00FF) = some (.rfence a, true))) hi
theorem Laws.RoundTrip.waitc (ld st cp tl : BitVec 6) : Laws.RoundTrip.Statement (.waitc ld st cp tl) := fun hi _ =>
  decodeWords_ok (ps := []) (w := (0xD0#8 ++ ld ++ st ++ cp ++ tl)) (x := {}) (fits_nil) (isPrefix_waits _ _ _ _ _ (by decide)) (by rw [opcode_waits]; rfl) (rfl)
    (by rw [opcode_waits]; rfl) (by
      rw [opcode_waits]
      exact (Laws.pairOk (by simp) (by simp) : some (Instr.waitc (BitVec.extractLsb' 18 6 ((0xD0#8 ++ ld ++ st ++ cp ++ tl) : BitVec 32)) (BitVec.extractLsb' 12 6 ((0xD0#8 ++ ld ++ st ++ cp ++ tl) : BitVec 32)) (BitVec.extractLsb' 6 6 ((0xD0#8 ++ ld ++ st ++ cp ++ tl) : BitVec 32)) (BitVec.extractLsb' 0 6 ((0xD0#8 ++ ld ++ st ++ cp ++ tl) : BitVec 32)), true) = some (.waitc ld st cp tl, true))) hi
theorem Laws.RoundTrip.waitt (i : BitVec 8) : Laws.RoundTrip.Statement (.waitt i) := fun hi _ =>
  decodeWords_ok (ps := []) (w := (encR 0xD1 0#8 0#8 i)) (x := {}) (fits_nil) (isPrefix_encR _ _ _ _ (by decide)) (by rw [opcode_encR]; rfl) (rfl)
    (by rw [opcode_encR]; rfl) (by
      rw [opcode_encR]
      exact (Laws.pairOk (by simp) (z_encR _ _ _ _ 0xFF 0xFF 0x00 (BitVec.zero_and) (BitVec.zero_and) (BitVec.and_zero)) : some (Instr.waitt (fB (encR 0xD1 0#8 0#8 i)), z (encR 0xD1 0#8 0#8 i) 0x00FFFF00) = some (.waitt i, true))) hi
theorem Laws.RoundTrip.tagq (d : BitVec 8) : Laws.RoundTrip.Statement (.tagq d) := fun hi _ =>
  decodeWords_ok (ps := []) (w := (encR 0xD2 d 0#8 0#8)) (x := {}) (fits_nil) (isPrefix_encR _ _ _ _ (by decide)) (by rw [opcode_encR]; rfl) (rfl)
    (by rw [opcode_encR]; rfl) (by
      rw [opcode_encR]
      exact (Laws.pairOk (by simp) (z_encR _ _ _ _ 0x00 0xFF 0xFF (BitVec.and_zero) (BitVec.zero_and) (BitVec.zero_and)) : some (Instr.tagq (fD (encR 0xD2 d 0#8 0#8)), z (encR 0xD2 d 0#8 0#8) 0x0000FFFF) = some (.tagq d, true))) hi
theorem Laws.RoundTrip.tshape (d a : BitVec 8) (t : BitVec 4) : Laws.RoundTrip.Statement (.tshape d a t) := fun hi _ =>
  decodeWords_ok (ps := []) (w := (encR 0xD3 d a (0#4 ++ t))) (x := {}) (fits_nil) (isPrefix_encR _ _ _ _ (by decide)) (by rw [opcode_encR]; rfl) (rfl)
    (by rw [opcode_encR]; rfl) (by
      rw [opcode_encR]
      exact (Laws.pairOk (by simp) (z_encR _ _ _ _ 0x00 0x00 0xF0 (BitVec.and_zero) (BitVec.and_zero) (low_masked _ 15#4)) : some (Instr.tshape (fD (encR 0xD3 d a (0#4 ++ t))) (fA (encR 0xD3 d a (0#4 ++ t))) (BitVec.extractLsb' 0 4 ((encR 0xD3 d a (0#4 ++ t)) : BitVec 32)), z (encR 0xD3 d a (0#4 ++ t)) 0x000000F0) = some (.tshape d a t, true))) hi
theorem Laws.RoundTrip.sclaim (d a : BitVec 8) (i : Bool) : Laws.RoundTrip.Statement (.sclaim d a i) := fun hi _ =>
  decodeWords_ok (ps := []) (w := (encR 0xD4 d a (0#7 ++ BitVec.ofBool i))) (x := {}) (fits_nil) (isPrefix_encR _ _ _ _ (by decide)) (by rw [opcode_encR]; rfl) (rfl)
    (by rw [opcode_encR]; rfl) (by
      rw [opcode_encR]
      exact (Laws.pairOk (by simp) (z_encR _ _ _ _ 0x00 0x00 0xFE (BitVec.and_zero) (BitVec.and_zero) (low_masked _ 127#7)) : some (Instr.sclaim (fD (encR 0xD4 d a (0#7 ++ BitVec.ofBool i))) (fA (encR 0xD4 d a (0#7 ++ BitVec.ofBool i))) (BitVec.getLsbD ((encR 0xD4 d a (0#7 ++ BitVec.ofBool i)) : BitVec 32) 0), z (encR 0xD4 d a (0#7 ++ BitVec.ofBool i)) 0x000000FE) = some (.sclaim d a i, true))) hi
theorem Laws.RoundTrip.srel (a b : BitVec 8) : Laws.RoundTrip.Statement (.srel a b) := fun hi _ =>
  decodeWords_ok (ps := []) (w := (encR 0xD5 0#8 a b)) (x := {}) (fits_nil) (isPrefix_encR _ _ _ _ (by decide)) (by rw [opcode_encR]; rfl) (rfl)
    (by rw [opcode_encR]; rfl) (by
      rw [opcode_encR]
      exact (Laws.pairOk (by simp) (z_encR _ _ _ _ 0xFF 0x00 0x00 (BitVec.zero_and) (BitVec.and_zero) (BitVec.and_zero)) : some (Instr.srel (fA (encR 0xD5 0#8 a b)) (fB (encR 0xD5 0#8 a b)), z (encR 0xD5 0#8 a b) 0x00FF0000) = some (.srel a b, true))) hi
theorem Laws.RoundTrip.mzero (d : BitVec 8) : Laws.RoundTrip.Statement (.mzero d) := fun hi _ =>
  decodeWords_ok (ps := []) (w := (encR 0xD6 d 0#8 0#8)) (x := {}) (fits_nil) (isPrefix_encR _ _ _ _ (by decide)) (by rw [opcode_encR]; rfl) (rfl)
    (by rw [opcode_encR]; rfl) (by
      rw [opcode_encR]
      exact (Laws.pairOk (by simp) (z_encR _ _ _ _ 0x00 0xFF 0xFF (BitVec.and_zero) (BitVec.zero_and) (BitVec.zero_and)) : some (Instr.mzero (fD (encR 0xD6 d 0#8 0#8)), z (encR 0xD6 d 0#8 0#8) 0x0000FFFF) = some (.mzero d, true))) hi
theorem Laws.RoundTrip.mma (d a b : BitVec 8) : Laws.RoundTrip.Statement (.mma d a b) := fun hi _ =>
  decodeWords_ok (ps := []) (w := (encR 0xD7 d a b)) (x := {}) (fits_nil) (isPrefix_encR _ _ _ _ (by decide)) (by rw [opcode_encR]; rfl) (rfl)
    (by rw [opcode_encR]; rfl) (by
      rw [opcode_encR]
      exact (Laws.pairOk (by simp) (by simp) : some (Instr.mma (fD (encR 0xD7 d a b)) (fA (encR 0xD7 d a b)) (fB (encR 0xD7 d a b)), true) = some (.mma d a b, true))) hi
theorem Laws.RoundTrip.mmaz (d a b : BitVec 8) : Laws.RoundTrip.Statement (.mmaz d a b) := fun hi _ =>
  decodeWords_ok (ps := []) (w := (encR 0xD8 d a b)) (x := {}) (fits_nil) (isPrefix_encR _ _ _ _ (by decide)) (by rw [opcode_encR]; rfl) (rfl)
    (by rw [opcode_encR]; rfl) (by
      rw [opcode_encR]
      exact (Laws.pairOk (by simp) (by simp) : some (Instr.mmaz (fD (encR 0xD8 d a b)) (fA (encR 0xD8 d a b)) (fB (encR 0xD8 d a b)), true) = some (.mmaz d a b, true))) hi
theorem Laws.RoundTrip.mscacc (d a b : BitVec 8) : Laws.RoundTrip.Statement (.mscacc d a b) := fun hi _ =>
  decodeWords_ok (ps := []) (w := (encR 0xD9 d a b)) (x := {}) (fits_nil) (isPrefix_encR _ _ _ _ (by decide)) (by rw [opcode_encR]; rfl) (rfl)
    (by rw [opcode_encR]; rfl) (by
      rw [opcode_encR]
      exact (Laws.pairOk (by simp) (by simp) : some (Instr.mscacc (fD (encR 0xD9 d a b)) (fA (encR 0xD9 d a b)) (fB (encR 0xD9 d a b)), true) = some (.mscacc d a b, true))) hi
theorem Laws.RoundTrip.mloop (n : BitVec 2) (a b : BitVec 8) : Laws.RoundTrip.Statement (.mloop n a b) := fun hi _ =>
  decodeWords_ok (ps := []) (w := (encR 0xDA (0#6 ++ n) a b)) (x := {}) (fits_nil) (isPrefix_encR _ _ _ _ (by decide)) (by rw [opcode_encR]; rfl) (rfl)
    (by rw [opcode_encR]; rfl) (by
      rw [opcode_encR]
      exact (Laws.pairOk (by simp) (z_encR _ _ _ _ 0xFC 0x00 0x00 (low_masked _ 63#6) (BitVec.and_zero) (BitVec.and_zero)) : some (Instr.mloop (BitVec.extractLsb' 16 2 ((encR 0xDA (0#6 ++ n) a b) : BitVec 32)) (fA (encR 0xDA (0#6 ++ n) a b)) (fB (encR 0xDA (0#6 ++ n) a b)), z (encR 0xDA (0#6 ++ n) a b) 0x00FC0000) = some (.mloop n a b, true))) hi
theorem Laws.RoundTrip.mstore (d a b : BitVec 8) : Laws.RoundTrip.Statement (.mstore d a b) := fun hi _ =>
  decodeWords_ok (ps := []) (w := (encR 0xDB d a b)) (x := {}) (fits_nil) (isPrefix_encR _ _ _ _ (by decide)) (by rw [opcode_encR]; rfl) (rfl)
    (by rw [opcode_encR]; rfl) (by
      rw [opcode_encR]
      exact (Laws.pairOk (by simp) (by simp) : some (Instr.mstore (fD (encR 0xDB d a b)) (fA (encR 0xDB d a b)) (fB (encR 0xDB d a b)), true) = some (.mstore d a b, true))) hi
theorem Laws.RoundTrip.eret : Laws.RoundTrip.Statement (.eret) := fun hi _ =>
  decodeWords_ok (ps := []) (w := (encR 0xE0 0#8 0#8 0#8)) (x := {}) (fits_nil) (isPrefix_encR _ _ _ _ (by decide)) (by rw [opcode_encR]; rfl) (rfl)
    (by rw [opcode_encR]; rfl) (by
      rw [opcode_encR]
      exact (Laws.pairOk (by simp) (z_encR _ _ _ _ 0xFF 0xFF 0xFF (BitVec.zero_and) (BitVec.zero_and) (BitVec.zero_and)) : some (Instr.eret, z (encR 0xE0 0#8 0#8 0#8) 0x00FFFFFF) = some (.eret, true))) hi
theorem Laws.RoundTrip.mark (x : Option (BitVec 24)) (a i : BitVec 8) : Laws.RoundTrip.Statement (.mark x a i) := fun hi _ =>
  decodeWords_ok (ps := (optW encImm x)) (w := (encR 0xE1 0#8 a i)) (x := { i := x }) (fits_opt _ isPrefix_encImm x) (isPrefix_encR _ _ _ _ (by decide)) (by rw [opcode_encR]; rfl) (arrange_i x)
    (by rw [opcode_encR]; cases x <;> rfl) (by
      rw [opcode_encR]
      exact (Laws.pairOk (by simp) (z_encR _ _ _ _ 0xFF 0x00 0x00 (BitVec.zero_and) (BitVec.and_zero) (BitVec.and_zero)) : some (Instr.mark x (fA (encR 0xE1 0#8 a i)) (fB (encR 0xE1 0#8 a i)), z (encR 0xE1 0#8 a i) 0x00FF0000) = some (.mark x a i, true))) hi
theorem Laws.RoundTrip.illegalOpcode (word : BitVec 32) : Laws.RoundTrip.Statement (.illegalOpcode word) := fun _ h => nomatch h
theorem Laws.RoundTrip.flitInjection : Laws.RoundTrip.Statement .flitInjection := fun _ h => nomatch h
theorem Laws.RoundTrip.flitArrival : Laws.RoundTrip.Statement .flitArrival := fun _ h => nomatch h
theorem Laws.RoundTrip.flitEjection : Laws.RoundTrip.Statement .flitEjection := fun _ h => nomatch h
theorem Laws.RoundTrip.powerModeClockSettle : Laws.RoundTrip.Statement .powerModeClockSettle := fun _ h => nomatch h
theorem Laws.RoundTrip.powerWindowEnd : Laws.RoundTrip.Statement .powerWindowEnd := fun _ h => nomatch h
theorem Laws.RoundTrip.temperatureReport : Laws.RoundTrip.Statement .temperatureReport := fun _ h => nomatch h
theorem Laws.RoundTrip.fatalDieError : Laws.RoundTrip.Statement .fatalDieError := fun _ h => nomatch h
theorem Laws.RoundTrip.deviceReset : Laws.RoundTrip.Statement .deviceReset := fun _ h => nomatch h
theorem Laws.RoundTrip.refreshPhaseEnd : Laws.RoundTrip.Statement .refreshPhaseEnd := fun _ h => nomatch h
theorem Laws.RoundTrip.transientRequest : Laws.RoundTrip.Statement .transientRequest := fun _ h => nomatch h
theorem Laws.RoundTrip.forwardedRequest : Laws.RoundTrip.Statement .forwardedRequest := fun _ h => nomatch h
theorem Laws.RoundTrip.tokenArrival : Laws.RoundTrip.Statement .tokenArrival := fun _ h => nomatch h
theorem Laws.RoundTrip.holderEviction : Laws.RoundTrip.Statement .holderEviction := fun _ h => nomatch h
theorem Laws.RoundTrip.llcEviction : Laws.RoundTrip.Statement .llcEviction := fun _ h => nomatch h
theorem Laws.RoundTrip.requestReissue : Laws.RoundTrip.Statement .requestReissue := fun _ h => nomatch h
theorem Laws.RoundTrip.persistentRequest : Laws.RoundTrip.Statement .persistentRequest := fun _ h => nomatch h
theorem Laws.RoundTrip.persistentActivation : Laws.RoundTrip.Statement .persistentActivation := fun _ h => nomatch h
theorem Laws.RoundTrip.persistentDeactivation : Laws.RoundTrip.Statement .persistentDeactivation := fun _ h => nomatch h
theorem Laws.RoundTrip.deactivationAcksDone : Laws.RoundTrip.Statement .deactivationAcksDone := fun _ h => nomatch h
theorem Laws.RoundTrip.engineWriteLanded : Laws.RoundTrip.Statement .engineWriteLanded := fun _ h => nomatch h
theorem Laws.RoundTrip.backInvalidationResponse : Laws.RoundTrip.Statement .backInvalidationResponse := fun _ h => nomatch h
theorem Laws.RoundTrip.tokenRegeneration : Laws.RoundTrip.Statement .tokenRegeneration := fun _ h => nomatch h
theorem Laws.RoundTrip.atomicStationArrival : Laws.RoundTrip.Statement .atomicStationArrival := fun _ h => nomatch h
theorem Laws.RoundTrip.groupApply : Laws.RoundTrip.Statement .groupApply := fun _ h => nomatch h
theorem Laws.RoundTrip.groupReply : Laws.RoundTrip.Statement .groupReply := fun _ h => nomatch h
theorem Laws.RoundTrip.combineTimerExpiry : Laws.RoundTrip.Statement .combineTimerExpiry := fun _ h => nomatch h
theorem Laws.RoundTrip.outcomeQuery : Laws.RoundTrip.Statement .outcomeQuery := fun _ h => nomatch h
theorem Laws.RoundTrip.outcomeQueryAnswer : Laws.RoundTrip.Statement .outcomeQueryAnswer := fun _ h => nomatch h
theorem Laws.RoundTrip.hbm4eReadComplete : Laws.RoundTrip.Statement .hbm4eReadComplete := fun _ h => nomatch h
theorem Laws.RoundTrip.hbm4eReadRetryComplete : Laws.RoundTrip.Statement .hbm4eReadRetryComplete := fun _ h => nomatch h
theorem Laws.RoundTrip.hbm4eWrite : Laws.RoundTrip.Statement .hbm4eWrite := fun _ h => nomatch h
theorem Laws.RoundTrip.quotaRefill : Laws.RoundTrip.Statement .quotaRefill := fun _ h => nomatch h
theorem Laws.RoundTrip.pseudoChannelSlot : Laws.RoundTrip.Statement .pseudoChannelSlot := fun _ h => nomatch h
theorem Laws.RoundTrip.sramUncorrectableError : Laws.RoundTrip.Statement .sramUncorrectableError := fun _ h => nomatch h
theorem Laws.RoundTrip.rldRequest : Laws.RoundTrip.Statement .rldRequest := fun _ h => nomatch h
theorem Laws.RoundTrip.rstRequest : Laws.RoundTrip.Statement .rstRequest := fun _ h => nomatch h
theorem Laws.RoundTrip.ratomRequest : Laws.RoundTrip.Statement .ratomRequest := fun _ h => nomatch h
theorem Laws.RoundTrip.rvaddRequest : Laws.RoundTrip.Statement .rvaddRequest := fun _ h => nomatch h
theorem Laws.RoundTrip.rwsigRequest : Laws.RoundTrip.Statement .rwsigRequest := fun _ h => nomatch h
theorem Laws.RoundTrip.rredResult : Laws.RoundTrip.Statement .rredResult := fun _ h => nomatch h
theorem Laws.RoundTrip.fabricReply : Laws.RoundTrip.Statement .fabricReply := fun _ h => nomatch h
theorem Laws.RoundTrip.fabricTimeout : Laws.RoundTrip.Statement .fabricTimeout := fun _ h => nomatch h
theorem Laws.RoundTrip.portRetryExhausted : Laws.RoundTrip.Statement .portRetryExhausted := fun _ h => nomatch h
theorem Laws.RoundTrip.portDrainEnd : Laws.RoundTrip.Statement .portDrainEnd := fun _ h => nomatch h
theorem Laws.RoundTrip.planeRemapNotice : Laws.RoundTrip.Statement .planeRemapNotice := fun _ h => nomatch h
theorem Laws.RoundTrip.linkRetrained : Laws.RoundTrip.Statement .linkRetrained := fun _ h => nomatch h
theorem Laws.RoundTrip.fportctlRestore : Laws.RoundTrip.Statement .fportctlRestore := fun _ h => nomatch h
theorem Laws.RoundTrip.planeRestoreComplete : Laws.RoundTrip.Statement .planeRestoreComplete := fun _ h => nomatch h
theorem Laws.RoundTrip.hostCxlRequest : Laws.RoundTrip.Statement .hostCxlRequest := fun _ h => nomatch h
theorem Laws.RoundTrip.hostSnoop : Laws.RoundTrip.Statement .hostSnoop := fun _ h => nomatch h
theorem Laws.RoundTrip.cxlTransactionComplete : Laws.RoundTrip.Statement .cxlTransactionComplete := fun _ h => nomatch h
theorem Laws.RoundTrip.cxlCompletionTimeout : Laws.RoundTrip.Statement .cxlCompletionTimeout := fun _ h => nomatch h
theorem Laws.RoundTrip.cxlLinkDown : Laws.RoundTrip.Statement .cxlLinkDown := fun _ h => nomatch h
theorem Laws.RoundTrip.expanderRetrain : Laws.RoundTrip.Statement .expanderRetrain := fun _ h => nomatch h
theorem Laws.RoundTrip.kickPageWrite : Laws.RoundTrip.Statement .kickPageWrite := fun _ h => nomatch h
theorem Laws.RoundTrip.queueEnable : Laws.RoundTrip.Statement .queueEnable := fun _ h => nomatch h
theorem Laws.RoundTrip.queueDisable : Laws.RoundTrip.Statement .queueDisable := fun _ h => nomatch h
theorem Laws.RoundTrip.queueRestart : Laws.RoundTrip.Statement .queueRestart := fun _ h => nomatch h
theorem Laws.RoundTrip.registerWrite : Laws.RoundTrip.Statement .registerWrite := fun _ h => nomatch h
theorem Laws.RoundTrip.createVd : Laws.RoundTrip.Statement .createVd := fun _ h => nomatch h
theorem Laws.RoundTrip.startVd : Laws.RoundTrip.Statement .startVd := fun _ h => nomatch h
theorem Laws.RoundTrip.suspendVd : Laws.RoundTrip.Statement .suspendVd := fun _ h => nomatch h
theorem Laws.RoundTrip.resumeVd : Laws.RoundTrip.Statement .resumeVd := fun _ h => nomatch h
theorem Laws.RoundTrip.resetVd : Laws.RoundTrip.Statement .resetVd := fun _ h => nomatch h
theorem Laws.RoundTrip.destroyVd : Laws.RoundTrip.Statement .destroyVd := fun _ h => nomatch h
theorem Laws.RoundTrip.setWeight : Laws.RoundTrip.Statement .setWeight := fun _ h => nomatch h
theorem Laws.RoundTrip.setPowerMode : Laws.RoundTrip.Statement .setPowerMode := fun _ h => nomatch h
theorem Laws.RoundTrip.queryVd : Laws.RoundTrip.Statement .queryVd := fun _ h => nomatch h
theorem Laws.RoundTrip.loadImage : Laws.RoundTrip.Statement .loadImage := fun _ h => nomatch h
theorem Laws.RoundTrip.vfFunctionLevelReset : Laws.RoundTrip.Statement .vfFunctionLevelReset := fun _ h => nomatch h
theorem Laws.RoundTrip.engineKill : Laws.RoundTrip.Statement .engineKill := fun _ h => nomatch h
theorem Laws.RoundTrip.killAcksComplete : Laws.RoundTrip.Statement .killAcksComplete := fun _ h => nomatch h
theorem Laws.RoundTrip.killAckTimeout : Laws.RoundTrip.Statement .killAckTimeout := fun _ h => nomatch h
theorem Laws.RoundTrip.slotPoll : Laws.RoundTrip.Statement .slotPoll := fun _ h => nomatch h
theorem Laws.RoundTrip.nopPacket : Laws.RoundTrip.Statement .nopPacket := fun _ h => nomatch h
theorem Laws.RoundTrip.launchPacket : Laws.RoundTrip.Statement .launchPacket := fun _ h => nomatch h
theorem Laws.RoundTrip.copyPacket : Laws.RoundTrip.Statement .copyPacket := fun _ h => nomatch h
theorem Laws.RoundTrip.waitSignalPacket : Laws.RoundTrip.Statement .waitSignalPacket := fun _ h => nomatch h
theorem Laws.RoundTrip.waitSignalRetest : Laws.RoundTrip.Statement .waitSignalRetest := fun _ h => nomatch h
theorem Laws.RoundTrip.writeSignalPacket : Laws.RoundTrip.Statement .writeSignalPacket := fun _ h => nomatch h
theorem Laws.RoundTrip.timestampPacket : Laws.RoundTrip.Statement .timestampPacket := fun _ h => nomatch h
theorem Laws.RoundTrip.packetCompletion : Laws.RoundTrip.Statement .packetCompletion := fun _ h => nomatch h
theorem Laws.RoundTrip.msixVectorUnmask : Laws.RoundTrip.Statement .msixVectorUnmask := fun _ h => nomatch h
theorem Laws.RoundTrip.deviceLaunchQueueRestart : Laws.RoundTrip.Statement .deviceLaunchQueueRestart := fun _ h => nomatch h
theorem Laws.RoundTrip.virtualDieTableWrite : Laws.RoundTrip.Statement .virtualDieTableWrite := fun _ h => nomatch h
theorem Laws.RoundTrip.regionTableWrite : Laws.RoundTrip.Statement .regionTableWrite := fun _ h => nomatch h
theorem Laws.RoundTrip.keyTagWrite : Laws.RoundTrip.Statement .keyTagWrite := fun _ h => nomatch h
theorem Laws.RoundTrip.stage2EntryWrite : Laws.RoundTrip.Statement .stage2EntryWrite := fun _ h => nomatch h
theorem Laws.RoundTrip.interruptRemapWrite : Laws.RoundTrip.Statement .interruptRemapWrite := fun _ h => nomatch h
theorem Laws.RoundTrip.keySlotLoad : Laws.RoundTrip.Statement .keySlotLoad := fun _ h => nomatch h
theorem Laws.RoundTrip.vdControlBlockWrite : Laws.RoundTrip.Statement .vdControlBlockWrite := fun _ h => nomatch h
theorem Laws.RoundTrip.schcfgWrite : Laws.RoundTrip.Statement .schcfgWrite := fun _ h => nomatch h
theorem Laws.RoundTrip.schpoolWrite : Laws.RoundTrip.Statement .schpoolWrite := fun _ h => nomatch h
theorem Laws.RoundTrip.spdmGetVersion : Laws.RoundTrip.Statement .spdmGetVersion := fun _ h => nomatch h
theorem Laws.RoundTrip.spdmGetCapabilities : Laws.RoundTrip.Statement .spdmGetCapabilities := fun _ h => nomatch h
theorem Laws.RoundTrip.spdmNegotiateAlgorithms : Laws.RoundTrip.Statement .spdmNegotiateAlgorithms := fun _ h => nomatch h
theorem Laws.RoundTrip.spdmGetDigests : Laws.RoundTrip.Statement .spdmGetDigests := fun _ h => nomatch h
theorem Laws.RoundTrip.spdmGetCertificate : Laws.RoundTrip.Statement .spdmGetCertificate := fun _ h => nomatch h
theorem Laws.RoundTrip.spdmChallenge : Laws.RoundTrip.Statement .spdmChallenge := fun _ h => nomatch h
theorem Laws.RoundTrip.spdmGetMeasurements : Laws.RoundTrip.Statement .spdmGetMeasurements := fun _ h => nomatch h
theorem Laws.RoundTrip.spdmKeyExchange : Laws.RoundTrip.Statement .spdmKeyExchange := fun _ h => nomatch h
theorem Laws.RoundTrip.spdmFinish : Laws.RoundTrip.Statement .spdmFinish := fun _ h => nomatch h
theorem Laws.RoundTrip.spdmEndSession : Laws.RoundTrip.Statement .spdmEndSession := fun _ h => nomatch h
theorem Laws.RoundTrip.spdmUnsupportedRequest : Laws.RoundTrip.Statement .spdmUnsupportedRequest := fun _ h => nomatch h
theorem Laws.RoundTrip.tlbInvalidateRange : Laws.RoundTrip.Statement .tlbInvalidateRange := fun _ h => nomatch h
theorem Laws.RoundTrip.tlbInvalidateAsid : Laws.RoundTrip.Statement .tlbInvalidateAsid := fun _ h => nomatch h
theorem Laws.RoundTrip.tlbInvalidateVd : Laws.RoundTrip.Statement .tlbInvalidateVd := fun _ h => nomatch h
theorem Laws.RoundTrip.stage2Invalidate : Laws.RoundTrip.Statement .stage2Invalidate := fun _ h => nomatch h
theorem Laws.RoundTrip.invalidationComplete : Laws.RoundTrip.Statement .invalidationComplete := fun _ h => nomatch h
theorem Laws.RoundTrip.replaytWrite : Laws.RoundTrip.Statement .replaytWrite := fun _ h => nomatch h
theorem Laws.RoundTrip.replayPage : Laws.RoundTrip.Statement .replayPage := fun _ h => nomatch h
theorem Laws.RoundTrip.replayAll : Laws.RoundTrip.Statement .replayAll := fun _ h => nomatch h
theorem Laws.RoundTrip.fqheadWrite : Laws.RoundTrip.Statement .fqheadWrite := fun _ h => nomatch h
theorem Laws.RoundTrip.faultRecordDelivery : Laws.RoundTrip.Statement .faultRecordDelivery := fun _ h => nomatch h
theorem Laws.RoundTrip.waiterWake : Laws.RoundTrip.Statement .waiterWake := fun _ h => nomatch h
theorem Laws.RoundTrip.waitTableEntryFree : Laws.RoundTrip.Statement .waitTableEntryFree := fun _ h => nomatch h
theorem Laws.RoundTrip.rhbaseWrite : Laws.RoundTrip.Statement .rhbaseWrite := fun _ h => nomatch h
theorem Laws.RoundTrip.stage2FaultResolution : Laws.RoundTrip.Statement .stage2FaultResolution := fun _ h => nomatch h
theorem Laws.RoundTrip.migrationStart : Laws.RoundTrip.Statement .migrationStart := fun _ h => nomatch h
theorem Laws.RoundTrip.migrationLineCopy : Laws.RoundTrip.Statement .migrationLineCopy := fun _ h => nomatch h
theorem Laws.RoundTrip.migrationSwitch : Laws.RoundTrip.Statement .migrationSwitch := fun _ h => nomatch h
theorem Laws.RoundTrip.quantumBoundary : Laws.RoundTrip.Statement .quantumBoundary := fun _ h => nomatch h
theorem Laws.RoundTrip.clusterOffer : Laws.RoundTrip.Statement .clusterOffer := fun _ h => nomatch h
theorem Laws.RoundTrip.blockSave : Laws.RoundTrip.Statement .blockSave := fun _ h => nomatch h
theorem Laws.RoundTrip.drainOverrun : Laws.RoundTrip.Statement .drainOverrun := fun _ h => nomatch h
theorem Laws.RoundTrip.blockRestore : Laws.RoundTrip.Statement .blockRestore := fun _ h => nomatch h
theorem Laws.RoundTrip.blockExit : Laws.RoundTrip.Statement .blockExit := fun _ h => nomatch h
theorem Laws.RoundTrip.kernelCompletion : Laws.RoundTrip.Statement .kernelCompletion := fun _ h => nomatch h
theorem Laws.RoundTrip.kernelAbort : Laws.RoundTrip.Statement .kernelAbort := fun _ h => nomatch h
theorem Laws.RoundTrip.sleepDeadline : Laws.RoundTrip.Statement .sleepDeadline := fun _ h => nomatch h
theorem Laws.RoundTrip.loadReturn : Laws.RoundTrip.Statement .loadReturn := fun _ h => nomatch h
theorem Laws.RoundTrip.storeAck : Laws.RoundTrip.Statement .storeAck := fun _ h => nomatch h
theorem Laws.RoundTrip.wcbDrain : Laws.RoundTrip.Statement .wcbDrain := fun _ h => nomatch h
theorem Laws.RoundTrip.engineCommandStart : Laws.RoundTrip.Statement .engineCommandStart := fun _ h => nomatch h
theorem Laws.RoundTrip.ownershipWindow : Laws.RoundTrip.Statement .ownershipWindow := fun _ h => nomatch h
theorem Laws.RoundTrip.engineCommandComplete : Laws.RoundTrip.Statement .engineCommandComplete := fun _ h => nomatch h
theorem Laws.RoundTrip.matrixStepStart : Laws.RoundTrip.Statement .matrixStepStart := fun _ h => nomatch h
theorem Laws.RoundTrip.matrixBudgetRefill : Laws.RoundTrip.Statement .matrixBudgetRefill := fun _ h => nomatch h
theorem Laws.RoundTrip.mloopStepIssue : Laws.RoundTrip.Statement .mloopStepIssue := fun _ h => nomatch h
theorem Laws.RoundTrip.smpcfgWrite : Laws.RoundTrip.Statement .smpcfgWrite := fun _ h => nomatch h
theorem Laws.RoundTrip.smpheadWrite : Laws.RoundTrip.Statement .smpheadWrite := fun _ h => nomatch h
theorem Laws.RoundTrip.smpdropClear : Laws.RoundTrip.Statement .smpdropClear := fun _ h => nomatch h
theorem Laws.RoundTrip.samplerTick : Laws.RoundTrip.Statement .samplerTick := fun _ h => nomatch h
theorem Laws.RoundTrip.memreqRecord : Laws.RoundTrip.Statement .memreqRecord := fun _ h => nomatch h
theorem Laws.RoundTrip.debugContinue : Laws.RoundTrip.Statement .debugContinue := fun _ h => nomatch h
theorem Laws.RoundTrip.debugStep : Laws.RoundTrip.Statement .debugStep := fun _ h => nomatch h
theorem Laws.RoundTrip.debugRollback : Laws.RoundTrip.Statement .debugRollback := fun _ h => nomatch h
theorem Laws.RoundTrip.rollbackCountReached : Laws.RoundTrip.Statement .rollbackCountReached := fun _ h => nomatch h
theorem Laws.RoundTrip.waitsigRetest : Laws.RoundTrip.Statement .waitsigRetest := fun _ h => nomatch h
theorem Laws.RoundTrip.unknownCommand : Laws.RoundTrip.Statement .unknownCommand := fun _ h => nomatch h
theorem Laws.RoundTrip.cxlLinkRetrain : Laws.RoundTrip.Statement .cxlLinkRetrain := fun _ h => nomatch h
theorem Laws.RoundTrip.instructionCacheFill : Laws.RoundTrip.Statement .instructionCacheFill := fun _ h => nomatch h
theorem Laws.RoundTrip.pageEviction : Laws.RoundTrip.Statement .pageEviction := fun _ h => nomatch h

end Sys2Proof
end

