-- ==== Sys2Proof/Tests/Slice0.lean ====
section
/-!
SUPPORT. Tests: words of every instruction written out from the encodings of spec/, ill-formed terms, and for every statement states
and operands that meet its hypotheses.
-/
namespace Sys2Proof.Tests
open Sys2Proof Sys2Proof.Machine

set_option synthInstance.maxSize 4000
set_option synthInstance.maxHeartbeats 400000
set_option maxRecDepth 20000
set_option Elab.async false

/-- Words of the control rows of R284, written out from the fields of R272–R280, and what they stand for. -/
theorem test_decode_control : ∀ p ∈ ([
    ([0x00000000#32], .nop),
    ([0x01000000#32], .exit),
    ([0x02800005#32], .bra 8388613#24),
    ([0x03800005#32], .call 8388613#24),
    ([0x04000000#32], .ret),
    ([0x05001200#32], .jmpr 18#8),
    ([0x06A90003#32], .brs 42#6 65539#17),
    ([0x07A90003#32], .brsz 42#6 65539#17),
    ([0x08AB0003#32], .brv none 42#6 true 65539#17),
    ([0x09AB0003#32], .brany 42#6 true 65539#17),
    ([0x0AAB0003#32], .brall 42#6 true 65539#17),
    ([0x0B000000#32], .syncw),
    ([0x0C800005#32], .trap 8388613#24),
    ([0x0D800005#32], .brk 8388613#24),
    ([0x0E000000#32], .yield),
    ([0x0F001200#32], .sleep 18#8)] : List (List (BitVec 32) × Instr)),
    decodeWords p.1 = .ok p.2 p.1.length := by decide +kernel

/-- Words of the scalar rows of R284, written out from the fields of R272–R280, and what they stand for. -/
theorem test_decode_scalar0 : ∀ p ∈ ([
    ([0x100C121E#32], .sadd 12#8 18#8 30#8),
    ([0x110C121E#32], .ssub 12#8 18#8 30#8),
    ([0x120C121E#32], .smul 12#8 18#8 30#8),
    ([0x130C121E#32], .smulh 12#8 18#8 30#8),
    ([0x140C121E#32], .smulhn 12#8 18#8 30#8),
    ([0x150C121E#32], .sand 12#8 18#8 30#8),
    ([0x160C121E#32], .sor 12#8 18#8 30#8),
    ([0x170C121E#32], .sxor 12#8 18#8 30#8),
    ([0x180C121E#32], .sshl 12#8 18#8 30#8),
    ([0x190C121E#32], .sshr 12#8 18#8 30#8),
    ([0x1A0C121E#32], .ssra 12#8 18#8 30#8),
    ([0x1B0C121E#32], .smin 12#8 18#8 30#8),
    ([0x1C0C121E#32], .smax 12#8 18#8 30#8),
    ([0x1D0C121E#32], .sminn 12#8 18#8 30#8),
    ([0x1E0C121E#32], .smaxn 12#8 18#8 30#8),
    ([0x1F0C121E#32], .sadd64 12#8 18#8 30#8),
    ([0x200C129D#32], .saddi none 12#8 18#8 157#8),
    ([0x210C129D#32], .sandi none 12#8 18#8 157#8),
    ([0x220C129D#32], .sori none 12#8 18#8 157#8),
    ([0x230C129D#32], .sxori none 12#8 18#8 157#8),
    ([0x240C1225#32], .sshli 12#8 18#8 37#6),
    ([0x250C1225#32], .sshri 12#8 18#8 37#6),
    ([0x260C1225#32], .ssrai 12#8 18#8 37#6),
    ([0x270C009D#32], .smovi none 12#8 157#8),
    ([0x280C121E#32], .seq 12#8 18#8 30#8),
    ([0x290C121E#32], .slt 12#8 18#8 30#8),
    ([0x2A0C121E#32], .sltn 12#8 18#8 30#8),
    ([0x2B0C121E#32], .sle 12#8 18#8 30#8),
    ([0x2C0C1200#32], .spopc 12#8 18#8),
    ([0x2D0C1200#32], .sclz 12#8 18#8),
    ([0x2E0C1200#32], .sffs 12#8 18#8),
    ([0x2F0C121E#32], .ssel 12#8 18#8 30#8),
    ([0x300C009D#32], .srd 12#8 157#8),
    ([0x3100129D#32], .swr 18#8 157#8),
    ([0x32001200#32], .setmode 18#8),
    ([0x330C0000#32], .getmode 12#8)] : List (List (BitVec 32) × Instr)),
    decodeWords p.1 = .ok p.2 p.1.length := by decide +kernel

/-- Words of the scalar rows of R284, written out from the fields of R272–R280, and what they stand for. -/
theorem test_decode_scalar1 : ∀ p ∈ ([
    ([0x340C1200#32], .prd 12#8 18#8),
    ([0x350C1200#32], .pwr 12#8 18#8),
    ([0x360C121E#32], .vgetl 12#8 18#8 30#8),
    ([0x370C121E#32], .vsetl 12#8 18#8 30#8),
    ([0x380C1200#32], .smov 12#8 18#8),
    ([0x390C1271#32], .sld none 12#8 18#8 3#3 true),
    ([0x3A0C1271#32], .sst none 12#8 18#8 3#3 true),
    ([0x3B0C1200#32], .satom none 12#8 18#8),
    ([0x3C0C121E#32], .vdquery 12#8 18#8 30#8),
    ([0x3D0C1200#32], .capq 12#8 18#8),
    ([0x3E0C1200#32], .launch 12#8 18#8),
    ([0x3F00121E#32], .kick 18#8 30#8)] : List (List (BitVec 32) × Instr)),
    decodeWords p.1 = .ok p.2 p.1.length := by decide +kernel

/-- Words of the vector rows of R284, written out from the fields of R272–R280, and what they stand for. -/
theorem test_decode_vector0 : ∀ p ∈ ([
    ([0x400C121E#32], .vadd none 12#8 18#8 30#8),
    ([0x410C121E#32], .vsub none 12#8 18#8 30#8),
    ([0x420C121E#32], .vmul none 12#8 18#8 30#8),
    ([0x430C121E#32], .vmulh none 12#8 18#8 30#8),
    ([0xF09DC184#32, 0x440C121E#32], .vmad { gp := 9#6, gn := true, gv := true, rnd := 3#3, mz := 2#2, c := 12#8, type := 2#4, acb := false } 12#8 18#8 30#8),
    ([0x450C121E#32], .vand none 12#8 18#8 30#8),
    ([0x460C121E#32], .vor none 12#8 18#8 30#8),
    ([0x470C121E#32], .vxor none 12#8 18#8 30#8),
    ([0x480C121E#32], .vshl none 12#8 18#8 30#8),
    ([0x490C121E#32], .vshr none 12#8 18#8 30#8),
    ([0x4A0C121E#32], .vmin none 12#8 18#8 30#8),
    ([0x4B0C121E#32], .vmax none 12#8 18#8 30#8),
    ([0x4C0C1200#32], .vabs none 12#8 18#8),
    ([0x4D0C1200#32], .vneg none 12#8 18#8),
    ([0x4E0C1200#32], .vclz none 12#8 18#8),
    ([0x4F0C1200#32], .vpopc none 12#8 18#8),
    ([0x500C129D#32], .vaddi none none 12#8 18#8 157#8),
    ([0x510C129D#32], .vandi none none 12#8 18#8 157#8),
    ([0x520C129D#32], .vori none none 12#8 18#8 157#8),
    ([0x530C129D#32], .vxori none none 12#8 18#8 157#8),
    ([0x540C1225#32], .vshli none 12#8 18#8 37#6),
    ([0x550C1225#32], .vshri none 12#8 18#8 37#6),
    ([0x560C009D#32], .vmovi none none 12#8 157#8),
    ([0x570C1200#32], .vmov none 12#8 18#8),
    ([0x580C121E#32], .vsel none 12#8 18#8 30#8),
    ([0x590C121E#32], .vbfe none 12#8 18#8 30#8),
    ([0xF09DC184#32, 0x5A0C121E#32], .vbfi { gp := 9#6, gn := true, gv := true, rnd := 3#3, mz := 2#2, c := 12#8, type := 2#4, acb := false } 12#8 18#8 30#8),
    ([0x5B0C1200#32], .vbrev none 12#8 18#8),
    ([0x5C0C0000#32], .vlaneid none 12#8),
    ([0x5D0C0000#32], .viota none 12#8),
    ([0x600C121E#32], .vfadd none 12#8 18#8 30#8),
    ([0x610C121E#32], .vfsub none 12#8 18#8 30#8),
    ([0x620C121E#32], .vfmul none 12#8 18#8 30#8),
    ([0xF09DC184#32, 0x630C121E#32], .vfma { gp := 9#6, gn := true, gv := true, rnd := 3#3, mz := 2#2, c := 12#8, type := 2#4, acb := false } 12#8 18#8 30#8),
    ([0x640C121E#32], .vfmin none 12#8 18#8 30#8),
    ([0x650C121E#32], .vfmax none 12#8 18#8 30#8)] : List (List (BitVec 32) × Instr)),
    decodeWords p.1 = .ok p.2 p.1.length := by decide +kernel

/-- Words of the vector rows of R284, written out from the fields of R272–R280, and what they stand for. -/
theorem test_decode_vector1 : ∀ p ∈ ([
    ([0x660C1200#32], .vfabs none 12#8 18#8),
    ([0x670C1200#32], .vfneg none 12#8 18#8),
    ([0x680C121E#32], .vfdiv none 12#8 18#8 30#8),
    ([0x690C1200#32], .vfsqrt none 12#8 18#8),
    ([0x6A0C1200#32], .vrcp none 12#8 18#8),
    ([0x6B0C1200#32], .vrsq none 12#8 18#8),
    ([0x6C0C1200#32], .vexp2 none 12#8 18#8),
    ([0x6D0C1200#32], .vlog2 none 12#8 18#8),
    ([0x6E0C1200#32], .vsin none 12#8 18#8),
    ([0x6F0C1200#32], .vcos none 12#8 18#8),
    ([0x700C1200#32], .vtanh none 12#8 18#8),
    ([0x710C1200#32], .vsigm none 12#8 18#8),
    ([0x720C1200#32], .vround none 12#8 18#8),
    ([0x730C1200#32], .vfrac none 12#8 18#8),
    ([0x740C12DD#32], .vcvt none 12#8 18#8 13#4 13#4),
    ([0x750C1200#32], .vclass none 12#8 18#8),
    ([0x760C121E#32], .vcmpeq none 12#8 18#8 30#8),
    ([0x770C121E#32], .vcmpne none 12#8 18#8 30#8),
    ([0x780C121E#32], .vcmplt none 12#8 18#8 30#8),
    ([0x790C121E#32], .vcmple none 12#8 18#8 30#8),
    ([0x7A0C121E#32], .vcmpun none 12#8 18#8 30#8),
    ([0x7B0C121E#32], .vscale none 12#8 18#8 30#8),
    ([0x7C0C121E#32], .vpack none 12#8 18#8 30#8),
    ([0x7D0C1200#32], .vunpk none 12#8 18#8),
    ([0xF09DC184#32, 0x7E0C121E#32], .vdot4 { gp := 9#6, gn := true, gv := true, rnd := 3#3, mz := 2#2, c := 12#8, type := 2#4, acb := false } 12#8 18#8 30#8),
    ([0xF09DC184#32, 0x7F0C121E#32], .vdot2 { gp := 9#6, gn := true, gv := true, rnd := 3#3, mz := 2#2, c := 12#8, type := 2#4, acb := false } 12#8 18#8 30#8)] : List (List (BitVec 32) × Instr)),
    decodeWords p.1 = .ok p.2 p.1.length := by decide +kernel

/-- Words of the predicates and lanes rows of R284, written out from the fields of R272–R280, and what they stand for. -/
theorem test_decode_predicates_and_lanes : ∀ p ∈ ([
    ([0x800C121E#32], .pand none 12#8 18#8 30#8),
    ([0x810C121E#32], .por none 12#8 18#8 30#8),
    ([0x820C121E#32], .pxor none 12#8 18#8 30#8),
    ([0x830C1200#32], .pnot none 12#8 18#8),
    ([0x840C1200#32], .pmov none 12#8 18#8),
    ([0x850C0001#32], .pseti none 12#8 true),
    ([0x880C121E#32], .vshfl none 12#8 18#8 30#8),
    ([0x890C121E#32], .vshflx none 12#8 18#8 30#8),
    ([0x8A0C121E#32], .vshflu none 12#8 18#8 30#8),
    ([0x8B0C121E#32], .vshfld none 12#8 18#8 30#8),
    ([0x8C0C121E#32], .vbcast none 12#8 18#8 30#8),
    ([0x8D0C1204#32], .vred none 12#8 18#8 4#8),
    ([0x8E0C1204#32], .vscan none 12#8 18#8 4#8),
    ([0x8F0C1200#32], .vmatch none 12#8 18#8),
    ([0x90001200#32], .vexec none 18#8),
    ([0x910C1200#32], .vexecq none 12#8 18#8)] : List (List (BitVec 32) × Instr)),
    decodeWords p.1 = .ok p.2 p.1.length := by decide +kernel

/-- Words of the memory rows of R284, written out from the fields of R272–R280, and what they stand for. -/
theorem test_decode_memory : ∀ p ∈ ([
    ([0xA00C126B#32], .ldg none none 12#8 18#8 { w := 3#3, x := false, bp := 5#3, c := true }),
    ([0xA10C126B#32], .stg none none 12#8 18#8 { w := 3#3, x := false, bp := 5#3, c := true }),
    ([0xF09DC184#32, 0xA20C126B#32], .ldgnf none { gp := 9#6, gn := true, gv := true, rnd := 3#3, mz := 2#2, c := 12#8, type := 2#4, acb := false } 12#8 18#8 { w := 3#3, x := false, bp := 5#3, c := true }),
    ([0xA30C126B#32], .lds none none 12#8 18#8 { w := 3#3, x := false, bp := 5#3, c := true }),
    ([0xA40C126B#32], .sts none none 12#8 18#8 { w := 3#3, x := false, bp := 5#3, c := true }),
    ([0xA50C126B#32], .ldw none 12#8 18#8 { w := 3#3, x := false, bp := 5#3, c := true }),
    ([0xA600126B#32], .pref none 18#8 { w := 3#3, x := false, bp := 5#3, c := true }),
    ([0xA700126B#32], .cflush none 18#8 { w := 3#3, x := false, bp := 5#3, c := true }),
    ([0xA80C124E#32], .cpa none 12#8 18#8 2#3 3#3 2#2),
    ([0xA9061200#32], .tcopy 6#8 18#8),
    ([0xAA00126B#32], .pgreq none 18#8 { w := 3#3, x := false, bp := 5#3, c := true }),
    ([0xB00C126B#32], .atomgAdd none none 12#8 18#8 { w := 3#3, x := false, bp := 5#3, c := true }),
    ([0xB10C126B#32], .atomgMin none none 12#8 18#8 { w := 3#3, x := false, bp := 5#3, c := true }),
    ([0xB20C126B#32], .atomgMax none none 12#8 18#8 { w := 3#3, x := false, bp := 5#3, c := true }),
    ([0xB30C126B#32], .atomgAnd none none 12#8 18#8 { w := 3#3, x := false, bp := 5#3, c := true }),
    ([0xB40C126B#32], .atomgOr none none 12#8 18#8 { w := 3#3, x := false, bp := 5#3, c := true }),
    ([0xB50C126B#32], .atomgXor none none 12#8 18#8 { w := 3#3, x := false, bp := 5#3, c := true }),
    ([0xB60C126B#32], .atomgExch none none 12#8 18#8 { w := 3#3, x := false, bp := 5#3, c := true }),
    ([0xB70C126B#32], .atomgIncw none none 12#8 18#8 { w := 3#3, x := false, bp := 5#3, c := true }),
    ([0xB80C126B#32], .atomgFadd none none 12#8 18#8 { w := 3#3, x := false, bp := 5#3, c := true }),
    ([0xFD387000#32, 0xB90C126B#32], .atomgCas { scope := 2#3, ord := 1#2, far := true, nr := true, c := 14#8 } none 12#8 18#8 { w := 3#3, x := false, bp := 5#3, c := true })] : List (List (BitVec 32) × Instr)),
    decodeWords p.1 = .ok p.2 p.1.length := by decide +kernel

/-- Words of the sync rows of R284, written out from the fields of R272–R280, and what they stand for. -/
theorem test_decode_sync : ∀ p ∈ ([
    ([0xFE600000#32, 0xBA000000#32], .fence { scope := 4#3, ord := 3#2, far := false, nr := false, c := 0#8 }),
    ([0xBB00120D#32], .bar 18#8 13#4),
    ([0xBC00120D#32], .bararv 18#8 13#4),
    ([0xBD00120D#32], .barwait 18#8 13#4),
    ([0xBE000000#32], .gbar),
    ([0xBF00121E#32], .waitsig 18#8 30#8)] : List (List (BitVec 32) × Instr)),
    decodeWords p.1 = .ok p.2 p.1.length := by decide +kernel

/-- Words of the scratchpad and remote rows of R284, written out from the fields of R272–R280, and what they stand for. -/
theorem test_decode_scratchpad_and_remote : ∀ p ∈ ([
    ([0xC00C126B#32], .atomsAdd none none 12#8 18#8 { w := 3#3, x := false, bp := 5#3, c := true }),
    ([0xC10C126B#32], .atomsMin none none 12#8 18#8 { w := 3#3, x := false, bp := 5#3, c := true }),
    ([0xC20C126B#32], .atomsMax none none 12#8 18#8 { w := 3#3, x := false, bp := 5#3, c := true }),
    ([0xC30C126B#32], .atomsAnd none none 12#8 18#8 { w := 3#3, x := false, bp := 5#3, c := true }),
    ([0xC40C126B#32], .atomsOr none none 12#8 18#8 { w := 3#3, x := false, bp := 5#3, c := true }),
    ([0xC50C126B#32], .atomsXor none none 12#8 18#8 { w := 3#3, x := false, bp := 5#3, c := true }),
    ([0xC60C126B#32], .atomsExch none none 12#8 18#8 { w := 3#3, x := false, bp := 5#3, c := true }),
    ([0xFCC87000#32, 0xC70C126B#32], .atomsCas { scope := 1#3, ord := 2#2, far := false, nr := true, c := 14#8 } none 12#8 18#8 { w := 3#3, x := false, bp := 5#3, c := true }),
    ([0xC80C121E#32], .rld none none 12#8 18#8 30#8),
    ([0xC90C121E#32], .rst none none 12#8 18#8 30#8),
    ([0xCA0C121E#32], .ratom none none 12#8 18#8 30#8),
    ([0xCB0C121E#32], .rvadd none none 12#8 18#8 30#8),
    ([0xCC0C121E#32], .rwsig none none 12#8 18#8 30#8),
    ([0xCD0C121E#32], .rred none none 12#8 18#8 30#8),
    ([0xCE001200#32], .rfence 18#8)] : List (List (BitVec 32) × Instr)),
    decodeWords p.1 = .ok p.2 p.1.length := by decide +kernel

/-- Words of the engines rows of R284, written out from the fields of R272–R280, and what they stand for. -/
theorem test_decode_engines : ∀ p ∈ ([
    ([0xD0965965#32], .waitc 37#6 37#6 37#6 37#6),
    ([0xD100009D#32], .waitt 157#8),
    ([0xD20C0000#32], .tagq 12#8),
    ([0xD30C120D#32], .tshape 12#8 18#8 13#4),
    ([0xD40C1201#32], .sclaim 12#8 18#8 true),
    ([0xD500121E#32], .srel 18#8 30#8),
    ([0xD60C0000#32], .mzero 12#8),
    ([0xD70C121E#32], .mma 12#8 18#8 30#8),
    ([0xD80C121E#32], .mmaz 12#8 18#8 30#8),
    ([0xD90C121E#32], .mscacc 12#8 18#8 30#8),
    ([0xDA02121E#32], .mloop 2#2 18#8 30#8),
    ([0xDB0C121E#32], .mstore 12#8 18#8 30#8),
    ([0xE0000000#32], .eret),
    ([0xE100129D#32], .mark none 18#8 157#8)] : List (List (BitVec 32) × Instr)),
    decodeWords p.1 = .ok p.2 p.1.length := by decide +kernel
/-- Words with two prefixes, one with a rejoin address, and one with an immediate prefix (R276–R281). -/
theorem test_decode_prefixes :
    decodeWords [0xFD300000#32, 0xF09DC5A4#32, 0xB005CC50#32] = .ok (.atomgAdd
      (some { scope := 2#3, ord := 1#2, far := true, nr := false, c := 0#8 })
      (some { gp := 9#6, gn := true, gv := true, rnd := 3#3, mz := 2#2, c := 45#8, type := 2#4, acb := false })
      0x05#8 0xCC#8 { w := 2#3, x := true, bp := 0#3, c := false }) 3 ∧
    decodeWords [0xF8FFFFFE#32, 0x08060010#32] = .ok (.brv (some 0xFFFFFE#24) 1#6 true 16#17) 2 ∧
    decodeWords [0xF4123456#32, 0xF0038004#32, 0x50050607#32] =
      .ok (.vaddi (some 0x123456#24) (some { gp := 0#6, gn := false, gv := false, rnd := 7#3, mz := 0#2, c := 0#8, type := 2#4, acb := false })
        5#8 6#8 7#8) 3 := by decide +kernel

/-- What the decoder refuses, by name: reserved opcodes, fields that the opcode map marks 0, prefixes that do not fit, a mandatory prefix
that is missing, three prefixes, and words that end before the base word (R278–R281, R285, R286). -/
theorem test_decode_refuses :
    decodeWords [0x5E000000#32] = .illegalOpcode 0x5E000000#32 1 ∧ decodeWords [0x0B000001#32] = .illegalOpcode 0x0B000001#32 1 ∧
    decodeWords [0x2503C368#32] = .illegalOpcode 0x2503C368#32 1 ∧ decodeWords [] = .more ∧ decodeWords [0xF0000000#32] = .more ∧
    (∀ ws ∈ [[0x44010203#32], [0xF4000000#32, 0x10C5C6C7#32], [0xF5000000#32, 0x27C90078#32], [0xF0006000#32, 0x40010203#32],
        [0xF8000001#32, 0x09000000#32], [0xFF000000#32, 0xA0000040#32], [0xFC000001#32, 0xA0000040#32],
        [0xF0000000#32, 0xFC000000#32, 0xA0000040#32]],
      (match decodeWords ws with | .illegalPrefix _ n => n == ws.length | _ => false) = true) := by decide +kernel

/-- A plain vector prefix and a plain order prefix. -/
def vp : VPfx := { gp := 0#6, gn := false, gv := false, rnd := 7#3, mz := 0#2, c := 0#8, type := 15#4, acb := false }
def op : OPfx := { scope := 2#3, ord := 0#2, far := false, nr := false, c := 0#8 }
def mf : MFld := { w := 2#3, x := false, bp := 0#3, c := false }

/-- An ill-formed term for each check of `Instr.wf`, which the check refuses, and terms at its limits, which it accepts. -/
theorem test_wf_prefixes :
    (∀ i ∈ [Instr.vadd (some { vp with mz := 3#2 }) 1#8 2#8 3#8, .vadd (some { vp with acb := true, c := 0x11#8 }) 1#8 2#8 3#8,
        .vmad { vp with acb := true } 1#8 2#8 3#8, .vbfe (some { vp with acb := true }) 1#8 2#8 3#8, .vmov (some { vp with mz := 3#2 }) 1#8 2#8,
        .vmatch (some { vp with c := 0x40#8 }) 1#8 2#8, .ldgnf none { vp with c := 0x80#8 } 1#8 2#8 mf,
        .ldg (some { op with ord := 2#2 }) none 1#8 2#8 mf, .ldg (some { op with scope := 5#3 }) none 1#8 2#8 mf,
        .ldg (some { op with nr := true }) none 1#8 2#8 mf, .sld (some { op with scope := 6#3 }) 1#8 2#8 2#3 false,
        .stg (some { op with ord := 1#2 }) none 1#8 2#8 mf, .sst (some { op with scope := 5#3 }) 1#8 2#8 2#3 false,
        .lds (some { op with scope := 2#3 }) none 1#8 2#8 mf, .sts (some { op with scope := 1#3, ord := 1#2 }) none 1#8 2#8 mf,
        .atomgAdd (some { op with c := 1#8 }) none 1#8 2#8 mf, .atomgAdd (some { op with scope := 5#3, ord := 2#2 }) none 1#8 2#8 mf,
        .atomgCas { op with scope := 7#3 } none 1#8 2#8 mf, .atomsAdd (some { op with scope := 0#3, far := true }) none 1#8 2#8 mf,
        .atomsCas { op with scope := 2#3 } none 1#8 2#8 mf, .satom (some { op with far := true }) 1#8 2#8,
        .rld (some { op with scope := 5#3 }) none 1#8 2#8 3#8, .rst (some { op with ord := 3#2 }) none 1#8 2#8 3#8,
        .ratom (some { op with far := true }) none 1#8 2#8 3#8, .rvadd (some { op with nr := true }) none 1#8 2#8 3#8,
        .fence op, .fence { op with ord := 3#2, scope := 5#3 }], i.pfxOk = false) ∧
    ∀ i ∈ [Instr.vadd (some { vp with acb := true, c := 0x10#8 }) 1#8 2#8 3#8, .ldg (some { op with scope := 5#3, ord := 1#2 }) none 1#8 2#8 mf,
      .atomgCas { op with c := 1#8, far := true, nr := true, scope := 5#3, ord := 3#2 } none 1#8 2#8 mf,
      .atomsCas { op with scope := 1#3, nr := true, c := 3#8 } none 1#8 2#8 mf, .fence { op with ord := 1#2, scope := 4#3 }], i.wf = true := by
  decide +kernel

theorem test_wf_fields :
    (∀ i ∈ [Instr.sld none 1#8 2#8 4#3 false, .sst none 1#8 2#8 4#3 false, .vred none 1#8 2#8 6#8, .vscan none 1#8 2#8 6#8,
        .ldg none none 1#8 2#8 { mf with w := 5#3 }, .pref none 2#8 { mf with x := true, bp := 1#3 }, .lds none none 1#8 2#8 { mf with x := true },
        .ldw none 1#8 2#8 { mf with w := 5#3 }, .cpa none 1#8 2#8 4#3 0#3 0#2, .tcopy 8#8 2#8, .atomgAdd none none 1#8 2#8 { mf with w := 1#3 },
        .atomgCas op none 1#8 2#8 { mf with x := true, bp := 1#3 }, .atomsAdd none none 1#8 2#8 { mf with w := 4#3 },
        .atomsCas { op with scope := 0#3 } none 1#8 2#8 { mf with x := true }], i.fieldsOk = false ∧ i.wf = false) ∧
    ∀ i ∈ [Instr.sld none 1#8 2#8 3#3 true, .vred none 1#8 2#8 5#8, .ldg none none 1#8 2#8 { mf with w := 4#3, x := true }, .tcopy 7#8 2#8,
      .cpa none 1#8 2#8 3#3 7#3 3#2, .atomgAdd none none 1#8 2#8 { mf with w := 3#3 }], i.wf = true := by decide +kernel

theorem test_wf_focus :
    (∀ f ∈ [Focus.endpoint (.cluster 512), .router (.compute 0 8 0), .held (.die 32) 0, .sram (some (.die 32)) 0 false, .die 32, .temp 49 0,
        .region 0 512 0, .bank 8 0, .group 257 0 true, .weightRetry 32 0 true, .weightRetry 0 4194304 false, .channel 32 0, .port 16, .queue 0 65 0, .vd 512, .engine 0 (.fabricPort 16),
        .write 513 0 4 0, .migrate 256 0 0 0 0, .migrate 0 512 0 0 0, .slotLine 0 32, .cluster 512, .quad 0 4], f.wf = false) ∧
    ∀ f ∈ [Focus.endpoint (.l2 31 15), .router (.memory 15 3 4), .held .proxy 0, .die 31, .temp 48 1150, .queue 511 64 0, .quad 511 3, .group 256 0 true], f.wf = true := by
  decide +kernel

/-- Reset machine and the machine that is about to take its first instruction (log 2). -/
theorem test_reset_is_canonical : State.reset.mem.wf = true ∧ State.reset.queuesSteps = true ∧ State.reset.rooted = true := by decide +kernel
-- ## States about to execute an instruction

def tW : WarpRef := { blk := 0, wi := 0 }
/-- The only warp of cluster 0, with 16 vector registers, is about to execute an instruction of one word at 4096 (log 2). -/
def tI : State := (((State.reset.withFetchWord 32 0).choose tW 0).fetched [0#32]).setWarp tW fun x => { x with vregs := x.vregs.take 16 }
/-- With the warp changed, with its block changed, with its kernel changed. -/
def tX (f : Warp → Warp) : State := tI.setWarp tW f
def tB (f : Block → Block) : State := tI.setBlk 0 f
def tK (f : Kernel → Kernel) : State := tI.setKern 0 f
/-- The scalars named hold these values. -/
def sregs (l : List (Nat × Word)) (x : Warp) : Warp := l.foldl (fun x p => x.setS p.1 p.2) x
def tS (l : List (Nat × Word)) : State := tX (sregs l)

/-- The context of the issuing fragment meets `p`. -/
def inCtx (s : State) (p : Ctx → Bool) : Bool := s.ctx.any p
/-- The instruction answers a next state of which `p` holds. -/
def nextIs (i : Instr) (s : State) (p : State → Bool) : Bool := match exec i s with | .next t => p t | _ => false
/-- Its own fragment stands at `pc` behind it. -/
def stands (i : Instr) (s : State) (c : Ctx) (pc : DWord) : Bool :=
  nextIs i s fun t => ((t.warp c.w).bind fun y => y.frag c.f.id).map Frag.spot = some (pc, c.f.mask)
def runs (i : Instr) (s : State) : Bool := nextIs i s fun _ => true
/-- The instruction answers a next state; `_t` says which one the statement gives. -/
def nexts (i : Instr) (s _t : State) : Bool := match exec i s with | .next _ => true | _ => false
/-- It ends with its fragment at `pc`. -/
def ends (i : Instr) (s _u : State) (c : Ctx) (_x : Warp) (pc : DWord) : Bool :=
  match exec i s with
  | .next t => decide (((t.warp c.w).bind fun y => y.frag c.f.id).map Frag.spot = some (pc, c.f.mask))
  | _ => false
def faults (i : Instr) (s : State) (c : Ctx) (f : FaultInfo) : Bool := nexts i s (takeFault c f)
def completes (i : Instr) (s _u : State) (c : Ctx) : Bool := stands i s c c.nextPc

-- ## Encoding (DecodeOfEncode, DecoderAnswers)

theorem witness_DecodeOfEncode :
    (∀ i ∈ [Instr.sadd 0xC5#8 0xC6#8 0xFF#8, .ldgnf (some { op with ord := 1#2 }) { vp with c := 47#8 } 1#8 2#8 { mf with w := 4#3, c := true }],
      i.wf = true ∧ i.baseWord.isSome = true ∧ decodeWords (encode i) = .ok i (encode i).length) := by decide +kernel
theorem witness_DecoderAnswers :
    decodeWords [0x10C5C6C7#32] = .ok (.sadd 0xC5#8 0xC6#8 0xC7#8) 1 ∧ isPrefix 0xE2000001#32 = false ∧ reservedOp (opcode 0xE2000001#32) = true ∧
    isPrefix 0x5E000000#32 = false ∧ reservedOp (opcode 0x5E000000#32) = true := by decide +kernel

-- ## Scalar instructions

/-- Every form of R305 and R307 with both guards, on operands that wrap, change sign and shift out. -/
theorem witness_ScalarForms :
    inCtx (tS [(6, 0x80000001#32), (7, 0xFFFFFFFF#32)]) (fun c => c.Clear [sDst 0xC5#8, sOp 0xC6#8 1, sOp 0xC7#8 2] ∧ c.guard = true ∧
      ∀ p ∈ scalarRegs 0xC5#8 0xC6#8 0xC7#8, ends p.1 c.s c.s c (c.x.setSf 0xC5 (p.2 0x80000001#32 0xFFFFFFFF#32)) 4100#64) = true ∧
    inCtx (tX fun x => { x with mode := 0x2000#32 }) (fun c => c.Clear [sDst 0xC5#8, sOp 0xC6#8 1, sOp 0xC7#8 2] ∧ c.guard = false ∧
      ∀ p ∈ scalarRegs 0xC5#8 0xC6#8 0xC7#8, ends p.1 c.s c.s c c.x 4100#64) = true ∧
    inCtx (tS [(6, 0x80000001#32)]) (fun c => c.Clear [sDst 0xC5#8, sOp 0xC6#8 1] ∧ c.guard = true ∧
      ∀ p ∈ scalarUnary (some 0xFFFFFF#24) 63#6 0xC5#8 0xC6#8 0xFF#8, ends p.1 c.s c.s c (c.x.setSf 0xC5 (p.2 0x80000001#32)) 4100#64) = true ∧
    inCtx tI (fun c => c.Clear [sDst 0xC0#8] ∧ c.guard = true ∧ ends (.smovi none 0xC0#8 0x80#8) c.s c.s c c.x 4100#64 ∧
      ends (.smovi none 0xC1#8 0x80#8) c.s c.s c (c.x.setS 1 0xFFFFFF80#32) 4100#64) = true := by decide +kernel

theorem witness_ScalarMoves :
    inCtx (tX fun x => sregs [(6, 0x25#32), (7, 33#32), (8, 0x3FFFF#32), (9, 0x48#32), (10, 0x1800#32)] (x.setP 47 0xF0F0F0F0#32)) (fun c =>
      c.guard = true ∧ c.Clear [{ sDst 0xC5#8 with reads := true }, sOp 0xC6#8 1, sOp 0xC7#8 2] ∧ c.Clear [spDst 0xC4#8, spOp 0xC6#8 1, spOp 0xC8#8 2] ∧
      c.Clear [sDst 0xC5#8, pOp 47#8 1] ∧ c.Clear [pDst 47#8, sOp 0xC6#8 1] ∧ c.Clear [sDst 0xC5#8, vOp 1 3#8 1, sOp 0xC7#8 2] ∧
      c.Clear [vDst 1 3#8, sOp 0xC6#8 1, sOp 0xC7#8 2] ∧ c.Clear [sDst 0xC5#8] ∧ c.Clear [sOp 0xC9#8 1] ∧
      ends (.ssel 0xC5#8 0xC6#8 0xC7#8) c.s c.s c (c.x.setS 5 33#32) 4100#64 ∧
      ends (.sadd64 0xC4#8 0xC6#8 0xC8#8) c.s c.s c ((c.x.setS 4 0x40024#32).setS 5 0x69#32) 4100#64 ∧
      ends (.prd 0xC5#8 47#8) c.s c.s c (c.x.setS 5 0xF0F0F0F0#32) 4100#64 ∧
      ends (.pwr 47#8 0xC6#8) c.s c.s c (c.x.setP 47 0x25#32) 4100#64 ∧
      ends (.vsetl 3#8 0xC6#8 0xC7#8) c.s c.s c (c.x.setV 3 ((c.x.vreg 3).set! 1 0x25#32)) 4100#64 ∧
      ends (.vgetl 0xC5#8 3#8 0xC7#8) c.s c.s c (c.x.setS 5 0#32) 4100#64 ∧ ends (.getmode 0xC5#8) c.s c.s c (c.x.setS 5 0#32) 4100#64 ∧
      mRnd (c.x.sf 0xC9) = 4 ∧ mGp (c.x.sf 0xC9) = 0 ∧ ends (.setmode 0xC9#8) c.s c.s c { c.x with mode := 0x48#32 } 4100#64 ∧
      5 ≤ mRnd (c.x.sf 0xC8) ∧ faults (.setmode 0xC8#8) c.s c { code := 0x04, einfo := 0x7F#32 } ∧
      mRnd (c.x.sf 0xCA) < 5 ∧ 48 ≤ mGp (c.x.sf 0xCA) ∧ faults (.setmode 0xCA#8) c.s c { code := 0x03, einfo := 1072#32 }) = true := by
  decide +kernel

/-- Registers at the ends of their ranges, and a written group at the end of the vector file. -/
theorem witness_RegisterFiles :
    (∀ n ∈ [1, 63], 0 < n ∧ n < 64) ∧ (∀ n ∈ [1, 47], 0 < n ∧ n < 48) ∧ inCtx tI (fun c => 15 < c.x.vregs.length ∧ 14 + 2 ≤ c.x.vregs.length ∧
      risingFrom 0 c.x.flags = true ∧ (c.x.setS 63 7#32).sreg 63 = 7#32 ∧ (c.x.setP 47 7#32).pred 47 = 7#32 ∧
      vget ((c.x.writeGroup 14 2 0#32 0x80000000#32 true fun _ => 2 ^ 32 + 5).vreg 15) 31 0#32 = 1#32) = true := by decide +kernel
-- ## Vector instructions

/-- The hypotheses of the three clauses of `VecResult`: it writes its result, it traps, it refuses the type. -/
def vecOk (i : Instr) (s : State) (c : Ctx) (p : Option VPfx) (types : List Nat) (os : List Opnd) (d regs : Nat) (lane : Nat → Nat × Bool) : Bool :=
  decide (VPfx.acc p = none) && decide (typeBad p (c.eff p) types = none) && decide (c.VClear p os) &&
    decide (mFpx c.x.mode = false ∨ c.raised p lane = 0#32) &&
    ends i s s c (c.x.writeGroup d regs 0#32 (c.eff p).mask (c.eff p).zero fun l => (lane l).1) c.nextPc
def vecTraps (i : Instr) (s : State) (c : Ctx) (p : Option VPfx) (types : List Nat) (os : List Opnd) (lane : Nat → Nat × Bool) : Bool :=
  decide (typeBad p (c.eff p) types = none) && decide (c.VClear p os) && decide (mFpx c.x.mode = true) && decide (c.raised p lane ≠ 0#32) &&
    faults i s c { code := 0x16, einfo := c.raised p lane, lanes := some (c.eff p).mask }
def vecRefuses (i : Instr) (s : State) (c : Ctx) (p : Option VPfx) (types : List Nat) : Bool :=
  decide ((c.eff p).type ∉ types) &&
    faults i s c { code := 0x04, einfo := BitVec.ofNat 32 ((c.eff p).type % 16 + 16 * (c.eff p).rnd), lanes := some (c.eff p).mask }

/-- Vector registers 2 to 7 hold numbers at the ends of the formats, and `p2` the low half of the lanes. -/
def tV (mode : Word) : State := tX fun x =>
  { (((x.setV 2 (Vector.replicate 32 0x7F800001#32)).setV 3 (Vector.replicate 32 0x3F80FFFF#32)).setV 4 ((Vector.replicate 32 0x80000000#32).set! 31 7#32)
      |>.setV 5 (Vector.replicate 32 0xFFFFFFFF#32) |>.setV 6 (Vector.replicate 32 0x40000021#32) |>.setP 2 0x0000FFFF#32) with mode }
/-- The guard `p2` with the zero policy and element type `t`. -/
def vt (t : Nat) : VPfx := { vp with gp := 2#6, gv := true, mz := 2#2, type := BitVec.ofNat 4 t }

/-- In every element type that all accept (32 and 64 bits), and in one that none does. -/
theorem witness_VectorInteger :
    ([0, 10].all fun t => inCtx (tV 0x8000#32) fun c =>
      (vectorPairs (some (vt t)) 8#8 4#8 6#8).all (fun q => vecOk q.1 c.s c (some (vt t)) q.2.1
        [vDst (typeRegs t) 8#8, vOp (typeRegs t) 4#8 1, vOp (typeRegs t) 6#8 2] 8 (typeRegs t) (lanes2 c.x (c.eff (some (vt t))) 4#8 6#8 q.2.2)) &&
      (vectorUnary (some (vt t)) (some 0xFFFFFF#24) 63#6 8#8 4#8 0xFE#8).all (fun q =>
        q.2.1 = signedTypes && t = 10 || vecOk q.1 c.s c (some (vt t)) q.2.1
        [vDst (typeRegs t) 8#8, vOp (typeRegs t) 4#8 1] 8 (typeRegs t) (lanes1 c.x (c.eff (some (vt t))) 4#8 q.2.2))) = true ∧
    inCtx (tV 13#32) (fun c =>
      (vectorPairs none 8#8 4#8 6#8).all (fun q => vecRefuses q.1 c.s c none q.2.1) &&
      (vectorUnary none none 1#6 8#8 4#8 1#8).all (fun q => vecRefuses q.1 c.s c none q.2.1)) = true := by decide +kernel

/-- In `f32` and `f64`, where every operand is a number, in `f32` with the traps on, and in a type that is no format. -/
theorem witness_VectorFloat :
    ([2, 3].all fun t => inCtx (tV 0x4000#32) fun c =>
      (floatPairs (some (vt t)) 8#8 4#8 6#8).all (fun q => vecOk q.1 c.s c (some (vt t)) floatTypes
        [vDst (typeRegs t) 8#8, vOp (typeRegs t) 4#8 1, vOp (typeRegs t) 6#8 2] 8 (typeRegs t) (lanes2 c.x (c.eff (some (vt t))) 4#8 6#8 q.2)) &&
      (floatUnary (some (vt t)) 8#8 6#8).all (fun q => vecOk q.1 c.s c (some (vt t)) q.2.1
        [vDst (typeRegs t) 8#8, vOp (typeRegs t) 6#8 1] 8 (typeRegs t) (lanes1 c.x (c.eff (some (vt t))) 6#8 q.2.2))) = true ∧
    inCtx (tV 0x20002#32) (fun c =>
      vecTraps (.vfdiv none 8#8 6#8 4#8) c.s c none floatTypes [vDst 1 8#8, vOp 1 6#8 1, vOp 1 4#8 2] (lanes2 c.x (c.eff none) 6#8 4#8 fdiv) &&
      vecTraps (.vfsqrt none 8#8 0xC6#8) (tV 0x20002#32) c none floatTypes [vDst 1 8#8, vOp 1 0xC6#8 1] (lanes1 c.x (c.eff none) 0xC6#8 fsqrt) = false &&
      vecOk (.vfadd none 8#8 3#8 3#8) c.s c none floatTypes [vDst 1 8#8, vOp 1 3#8 1, vOp 1 3#8 2] 8 1 (lanes2 c.x (c.eff none) 3#8 3#8 fadd)) = true ∧
    inCtx (tV 0#32) (fun c => (floatPairs none 8#8 4#8 6#8).all (fun q => vecRefuses q.1 c.s c none floatTypes) &&
      (floatUnary none 8#8 6#8).all (fun q => vecRefuses q.1 c.s c none q.2.1)) = true := by decide +kernel

/-- The operands of a dot product of `v4` and `v`b, and its lanes. -/
def dotOs (b : BitVec 8) : List Opnd := [vDst 1 8#8, vOp 1 4#8 1, vOp 1 b 2, vOp 1 2#8 3]
def dotLane (c : Ctx) (b : Nat) (f : Nat → Nat → Nat → Nat × Bool) (l : Nat) : Nat × Bool :=
  f (c.x.lane 4 l).toNat (c.x.lane b l).toNat (c.x.lane 2 l).toNat

theorem witness_VectorTernary :
    inCtx (tV 0#32) (fun c =>
      let q := fun (t : Nat) => { vt t with c := 2#8 }
      let os := [vDst 1 8#8, vOp 1 4#8 1, vOp 1 6#8 2, vOp 1 2#8 3]
      vecOk (.vmad (q 0) 8#8 4#8 6#8) c.s c (some (q 0)) intTypes os 8 1
        (lanes3 c.x (c.eff (some (q 0))) 4#8 6#8 2#8 fun v x y z => exact v (val v x * val v y + val v z)) &&
      vecOk (.vbfi (q 1) 8#8 4#8 6#8) c.s c (some (q 1)) fieldTypes os 8 1
        (lanes3 c.x (c.eff (some (q 1))) 4#8 6#8 2#8 fun v x y z => (bfi (elemBits v.t) x z (y % 256) (y / 256 % 256), false)) &&
      vecOk (.vfma (q 2) 8#8 3#8 6#8) c.s c (some (q 2)) floatTypes [vDst 1 8#8, vOp 1 3#8 1, vOp 1 6#8 2, vOp 1 2#8 3] 8 1
        (lanes3 c.x (c.eff (some (q 2))) 3#8 6#8 2#8 ffma) &&
      ([7, 8].all fun t => vecOk (.vdot4 (q t) 8#8 4#8 5#8) c.s c (some (q t)) [7, 8] (dotOs 5#8) 8 1 (dotLane c 5 (dotInt (envOf c.x (c.eff (some (q t)))) 4))) &&
      ([5, 6].all fun t => vecOk (.vdot2 (q t) 8#8 4#8 5#8) c.s c (some (q t)) [3, 4, 5, 6] (dotOs 5#8) 8 1
        (dotLane c 5 (dotInt (envOf c.x (c.eff (some (q t)))) 2))) &&
      ([3, 4].all fun t => isIeee t && vecOk (.vdot2 (q t) 8#8 4#8 6#8) c.s c (some (q t)) [3, 4, 5, 6] (dotOs 6#8) 8 1
        (dotLane c 6 (dotFloat (envOf c.x (c.eff (some (q t))))))) &&
      vecRefuses (.vmad (q 2) 8#8 4#8 6#8) c.s c (some (q 2)) intTypes && vecRefuses (.vbfi (q 2) 8#8 4#8 6#8) c.s c (some (q 2)) fieldTypes &&
      vecRefuses (.vfma (q 0) 8#8 4#8 6#8) c.s c (some (q 0)) floatTypes && vecRefuses (.vdot4 (q 0) 8#8 4#8 6#8) c.s c (some (q 0)) [7, 8] &&
      vecRefuses (.vdot2 (q 7) 8#8 4#8 6#8) c.s c (some (q 7)) [3, 4, 5, 6]) = true := by decide +kernel

theorem witness_VectorPredicates :
    inCtx (tV 0#32) (fun c =>
      (comparisons (some (vt 2)) 47#8 2#8 6#8).all (fun q => typeBad (some (vt 2)) (c.eff (some (vt 2))) q.2.1 = none &&
        decide (c.VClear (some (vt 2)) [pDst 47#8, vOp 1 2#8 1, vOp 1 6#8 2]) &&
        ends q.1 c.s c.s c (c.x.setP 47 (writeMask 0#32 0#32 0xFFFF#32 true (maskOf ((lanesOf 0xFFFF#32).filter fun l =>
          q.2.2 (elemNum 2 false (c.x.laneN 1 2 l)) (elemNum 2 false (c.x.laneN 1 6 l)))))) c.nextPc) &&
      (comparisons (some (vt 3)) 47#8 2#8 6#8).all (fun q => vecRefuses q.1 c.s c (some (vt 3)) q.2.1) &&
      (predicates (some (vt 9)) 47#8 2#8 0#8 true).all (fun q => decide (c.VClear (some (vt 9)) q.2.1) &&
        ends q.1 c.s c.s c (c.x.setP 47 (writeMask 0#32 0#32 0xFFFF#32 true (maskOf ((lanesOf 0xFFFF#32).filter fun l =>
          q.2.2 ((c.x.pred 2).getLsbD l) ((c.x.pred 0).getLsbD l))))) c.nextPc)) = true := by decide +kernel

theorem witness_VectorMovesAndLanes :
    inCtx (tV 0#32) (fun c =>
      let e := c.eff none
      vecOk (.vmovi none none 8#8 0x80#8) c.s c none bitTypes [vDst 1 8#8] 8 1 (fun _ => mapElems 0 fun _ => (immElem 0 true (immOf none true 0x80#8), false)) &&
      vecOk (.vlaneid none 8#8) c.s c none [0] [vDst 1 8#8] 8 1 (fun l => (l, false)) &&
      vecOk (.viota (some (vt 0)) 8#8) c.s c (some (vt 0)) [0] [vDst 1 8#8] 8 1 (fun l => ((List.range l).countP fun k => (0xFFFF#32).getLsbD k, false)) &&
      typeBad none e bitTypes = none && decide (c.VClear none [vDst 1 8#8, vOp 1 4#8 1, vOp 1 5#8 2]) &&
      ends (.vsel (some (vt 0)) 8#8 4#8 5#8) c.s c.s c (c.x.writeGroup 8 1 0#32 0xFFFFFFFF#32 false fun l =>
        if (0xFFFF#32).getLsbD l then c.x.laneN 1 4 l else c.x.laneN 1 5 l) c.nextPc &&
      vecOk (.vcvt none 8#8 6#8 3#4 2#4) c.s c none [0] [vDst 1 8#8, cvtSrc 2 6#8] 8 1 (fun l =>
        let rs := (List.range 2).map fun k => convElem 2 3 false false 0 (elemAt 2 (c.x.laneGroup 6 l 2) k)
        (packElems 3 (rs.map Prod.fst), rs.any Prod.snd)) && cvtElems 3 2 = 2 &&
      vecOk (.vpack (some (vt 7)) 8#8 4#8 5#8) c.s c (some (vt 7)) packTypes [vDst 1 8#8, vOp 1 4#8 1, vOp 1 5#8 2] 8 1 (fun l =>
        let rs := (List.range 4).map fun k => convElem (packSrc 7) 7 false false 0
          (elemAt (packSrc 7) ((c.x.lane 4 l).toNat + 2 ^ 32 * c.x.laneN 1 5 l) k)
        (packElems 7 (rs.map Prod.fst), rs.any Prod.snd)) &&
      vecOk (.vunpk (some (vt 4)) 8#8 6#8) c.s c (some (vt 4)) packTypes [vDst 2 8#8, vOp 1 6#8 1] 8 2 (fun l =>
        (packElems (packSrc 4) ((List.range 2).map fun k => (convElem 4 (packSrc 4) false false 0 (elemAt 4 (c.x.lane 6 l).toNat k)).1), false)) &&
      ([(Instr.vshfl (some (vt 9)) 8#8 4#8 6#8, fun (_ k : Nat) => k), (.vshflx (some (vt 9)) 8#8 4#8 6#8, fun l k => l ^^^ k),
        (.vshflu (some (vt 9)) 8#8 4#8 6#8, fun l k => if k ≤ l then l - k else l),
        (.vshfld (some (vt 9)) 8#8 4#8 6#8, fun l k => if l + k ≤ 31 then l + k else l)].all fun q =>
        vecOk q.1 c.s c (some (vt 9)) bitTypes [vDst 2 8#8, vOp 2 4#8 1, vOp 2 6#8 2] 8 2 (fun l =>
          (c.x.laneN 2 4 (q.2 l ((c.x.lane 6 l).toNat % 32)), false))) &&
      vecOk (.vbcast (some (vt 9)) 8#8 4#8 0xC0#8) c.s c (some (vt 9)) bitTypes [vDst 2 8#8, vOp 2 4#8 1, sOp 0xC0#8 2] 8 2 (fun _ =>
        (c.x.laneN 2 4 0, false)) &&
      e.mask != 0#32 &&
      [(0#8, vt 3), (5#8, vt 5)].all (fun o => let p := some o.2; let e := c.eff p
        vecOk (.vred p 8#8 6#8 o.1) c.s c p (redTypes o.1.toNat) [vDst 1 8#8, vOp 1 6#8 1] 8 1 (fun _ => mapElems e.type fun k =>
          (redTree (envOf c.x e) o.1.toNat 5 ((List.range 32).map fun i =>
            if e.mask.getLsbD i then some (redLeaf (envOf c.x e) o.1.toNat (elemAt e.type (c.x.laneN 1 6 i) k), false) else none)).getD (0, false)) &&
        vecOk (.vscan p 8#8 6#8 o.1) c.s c p (redTypes o.1.toNat) [vDst 1 8#8, vOp 1 6#8 1] 8 1 (fun l => mapElems e.type fun k =>
          (scanFrom (envOf c.x e) o.1.toNat ((List.range 32).map fun i =>
            if e.mask.getLsbD i then some (redLeaf (envOf c.x e) o.1.toNat (elemAt e.type (c.x.laneN 1 6 i) k), false) else none) 6 0 (l + 1) none).getD (0, false))) &&
      typeBad none e [0, 1, 2] = none && decide (c.VClear none ([vDst 1 8#8, vOp 1 4#8 1] ++ predCOp none)) &&
      ends (.vmatch none 8#8 4#8) c.s c.s c (
        let same := fun (l : Nat) => maskOf ((lanesOf e.mask).filter fun i => matchKey e.type (c.x.lane 4 i).toNat = matchKey e.type (c.x.lane 4 l).toNat)
        let y := c.x.writeGroup 8 1 0#32 e.mask e.zero fun l => (same l).toNat
        y.setP (predC none) (writeMask (y.pred (predC none)) 0#32 e.mask e.zero
          (maskOf ((lanesOf e.mask).filter fun l => lowLane (same l) = l)))) c.nextPc) = true ∧
    inCtx (tX fun x => { x with mode := 0x2000#32 }) (fun c => (c.eff none).mask = 0#32 ∧ ∀ i ∈ [Instr.vred none 8#8 4#8 0#8, .vscan none 8#8 4#8 0#8],
      typeBad none (c.eff none) (redTypes 0) = none ∧ c.VClear none [vDst 1 8#8, vOp 1 4#8 1] ∧ ends i c.s c.s c c.x c.nextPc) = true := by decide +kernel

/-- Results at the ends of 8-bit and 64-bit ranges; NaNs of every format against a number. -/
theorem witness_ElementResults :
    1 ≤ 8 ∧ intVal true 8 (intRes true true 8 200) = 127 ∧ intVal true 8 (intRes false true 8 200) = -56 ∧
    intMin true 64 ≤ -(2 : Int) ^ 63 ∧ -(2 : Int) ^ 63 ≤ intMax true 64 ∧
    (∀ t ∈ floatTypes, let m := fmtOf t
      (m.dec (m.nanBits + 1)).isNan = true ∧ (m.dec 0).isNan = false ∧ fadd { t, rnd := 0, sat := false, ftz := false } (m.nanBits + 1) 0 = (m.nanBits, false) ∧
      fminmax true { t, rnd := 0, sat := false, ftz := false } (m.nanBits + 1) 1 = (1, false)) := by decide +kernel

-- ## Control flow, exceptions and queries

/-- Both ways of every branch, a call at the largest offset, a misaligned return; `BRV` taken, passed, split, and with the split
table and spill ring full. -/
theorem witness_BranchInstructions :
    inCtx (tX fun x => sregs [(3, 0#32), (4, 5#32), (62, 0x2000#32), (6, 0x2002#32)] (x.setP 5 0x0000FFFF#32)) (fun c =>
      c.Clear [{ k := .sx, val := 3, code := 0 }] ∧ c.Clear [{ k := .p, val := 5, code := 0 }] ∧
      c.Clear [{ k := .sp, val := 254, code := 0, reads := false, writes := true }] ∧ c.Clear [{ k := .sp, val := 254, code := 0 }] ∧
      c.Clear [spOp 0xC6#8 1] ∧ c.x.spair 254 &&& 3#64 = 0#64 ∧ c.x.spair 0xC6 &&& 3#64 ≠ 0#64 ∧
      ends .nop c.s c.s c c.x 4100#64 ∧ ends (.bra 0xFFFFFF#24) c.s c.s c c.x 4092#64 ∧ ends (.brs 3#6 2#17) c.s c.s c c.x 4100#64 ∧
      ends (.brsz 3#6 2#17) c.s c.s c c.x 4104#64 ∧ ends (.brs 4#6 2#17) c.s c.s c c.x 4104#64 ∧ ends (.brsz 4#6 2#17) c.s c.s c c.x 4100#64 ∧
      ends (.brany 5#6 false 2#17) c.s c.s c c.x 4104#64 ∧ ends (.brall 5#6 false 2#17) c.s c.s c c.x 4100#64 ∧
      ends (.brany 0#6 true 2#17) c.s c.s c c.x 4100#64 ∧ faults (.brv none 48#6 false 2#17) c.s c { code := 0x03, einfo := 48#32 } ∧
      ends (.call 0x7FFFFF#24) c.s c.s c (c.x.setPair 254 4100#64) 0x2000FFC#64 ∧ ends .ret c.s c.s c c.x 0x2000#64 ∧
      faults (.jmpr 0xC6#8) c.s c { code := 0x05, einfo := 0#32 } ∧ ends (.jmpr 0xFE#8) c.s c.s c c.x 0x2000#64 ∧
      ends (.brv none 5#6 false 2#17) c.s c.s c c.x 4104#64 = false ∧ ends (.brv none 0#6 false 2#17) c.s c.s c c.x 4104#64 ∧
      ends (.brv none 0#6 true 2#17) c.s c.s c c.x 4100#64 ∧
      c.NoJoin c.nextPc ∧ c.NoJoin (branchTarget c 2#17) ∧ (∀ g ∈ c.x.frags, g.id < c.x.nextFrag ∧ g.parent ≠ some c.x.nextFrag) ∧
      c.x.frags.length < 76 ∧ c.x.freeEntry.isSome = true ∧ branchTarget c 8#24 ≠ branchTarget c 2#17 ∧ branchTarget c 8#24 ≠ c.nextPc ∧
      nextIs (.brv (some 8#24) 5#6 false 2#17) c.s (fun t => (t.warp c.w).map (fun y => ((y.frag c.f.id).map Frag.spot,
            (y.frag c.x.nextFrag).map fun f => (f.spot, f.rejoin, f.parent))) =
          some (some (4100#64, 0xFFFF0000#32), some ((4104#64, 0x0000FFFF#32), some 4128#64, some c.f.id))
       )) = true ∧
    inCtx (tX fun x => { x.setP 5 0xFFFF#32 with frags := x.frags ++ (List.range 75).map fun k => { id := k + 1, entry := none, pc := 0#64, mask := 0#32 } })
      (fun c => 76 ≤ c.x.frags.length ∧ faults (.brv none 5#6 false 2#17) c.s c { code := 0x0E, einfo := 0#32 }) = true := by decide +kernel

/-- Two fragments of one warp with a sibling that is still running. -/
def tTwo (f : Warp → Warp) : State := tX fun x => f { x with nextFrag := 2, frags := (x.frags.map fun g => { g with mask := 0xFF#32 }) ++
  [{ id := 1, entry := some 1, pc := 8192#64, mask := 0xFFFFFF00#32 }] }

theorem witness_FragmentInstructions :
    inCtx (tS [(6, 7#32)]) (fun c => c.x.frags = [c.f] ∧ c.f.mask ≠ 0#32 ∧ c.NoJoin (c.pc + 4#64) ∧ c.NoJoin c.nextPc ∧ c.Clear [sOp 0xC6#8 1] ∧
      c.x.sf 0xC6 ≠ 0#32 ∧ c.x.sf 0xC0 = 0#32 ∧ ends .syncw c.s c.s c c.x 4100#64 ∧ ends .yield c.s c.s c c.x 4100#64 ∧
      stands (.sleep 0xC6#8) c.s c 4100#64 ∧ ends (.sleep 0xC0#8) c.s c.s c c.x 4100#64) = true ∧
    inCtx (tTwo id) (fun c => (∃ g ∈ c.x.frags, g.id ≠ c.f.id ∧ g.parent = c.f.parent ∧ g.rejoin = c.f.rejoin ∧ g.mask ≠ 0#32 ∧ g.wait ≠ .sync) ∧
      nextIs .syncw c.s (fun t => (t.warp c.w).map (fun y => y.rwc) = some c.x.rwc) ∧
      stands .syncw c.s c 4096#64 ∧ ¬ (c.x.exited ||| c.f.mask = 0xFFFFFFFF#32) ∧ (∀ b ∈ List.range 16, (look c.b.img.bars b {}).expect = none) ∧
      c.k.garrived = [] ∧ c.x.arriving = [] ∧ runs .exit c.s) = true ∧
    inCtx (tX fun x => { x with tags := x.tags.set! 3 { count := 1 } }) (fun c => (c.x.counter (4 + 3)).count ≠ 0 ∧
      c.x.exited ||| c.f.mask = 0xFFFFFFFF#32 ∧ stands .exit c.s c 4096#64) = true ∧
    inCtx (tX fun x => x.addClass 2 1) (fun c => (∀ k ∈ List.range 8, (c.x.counter (4 + k)).count = 0) ∧ (c.x.counter 2).count ≠ 0 ∧
      stands .exit c.s c 4096#64) = true ∧
    inCtx tI (fun c => (∀ k ∈ List.range 12, (c.x.counter k).count = 0 ∧ (c.x.counter k).err = none) ∧ c.x.frags = [c.f] ∧ c.f.parent = none ∧
      nextIs .exit c.s (fun t => (t.warp c.w).map (fun y => (y.frags, y.exited)) = some ([], 0xFFFFFFFF#32))) = true := by
  decide +kernel

theorem witness_Traps :
    inCtx tI (fun c => c.x.passStop = false ∧ (c.s.vd c.vd).attach = false ∧
      ∀ i ∈ [Instr.trap 0xFFFFFF#24, .illegalOpcode 0x02000000#32, .brk 5#24], runs i c.s) = true ∧
    inCtx (tX fun x => { x with passStop := true }) (fun c => c.x.passStop = true ∧ ends (.brk 5#24) c.s c.s c c.x 4100#64) = true ∧
    inCtx ((tI.setVd 0 fun v => { v with attach := true }).setBlk 0 fun b => { b with halting := true }) (fun c => c.x.passStop = false ∧
      c.b.halting = true ∧ nextIs (.brk 0#24) c.s (fun t => (t.warp c.w).map Warp.stopCause = some 0x13)) = true ∧
    inCtx (tI.setVd 0 fun v => { v with attach := true, halts := [(0, 9)] }) (fun c => c.x.passStop = false ∧ (c.s.vd c.vd).attach = true ∧
      c.b.halting = false ∧ find (c.s.vd c.vd).halts 1 = none ∧ (∀ m ∈ List.range 1, find (c.s.vd c.vd).halts m ≠ none) ∧
      nextIs (.brk 0#24) c.s (fun t => find (t.vd c.vd).halts 1 = some 0)) = true := by decide +kernel

/-- With a handler at 8192, free or taken by this or another fragment. -/
def tH (handler inHandler : Bool) (epc : DWord) : State :=
  (tK fun k => { k with handler := some 8192#64 }).setWarp tW fun x =>
    { x with handler, epc, emode := 0x2007#32, frags := x.frags.map fun f => { f with inHandler } }

theorem witness_HandlerEntryAndReturn :
    inCtx (tH false false 0#64) (fun c => c.k.handler = some 8192#64 ∧ c.x.handler = false ∧ c.f.inHandler = false ∧ faults .eret c.s c { code := 1, einfo := c.s.base } ∧
      ((takeFault c { code := 9, einfo := 5#32 }).warp c.w).map (fun y => (y.epc, y.mode, y.ecause, (y.frag c.f.id).map Frag.spot)) =
        some (4096#64, 0#32, 9#32, some (8192#64, c.f.mask))) = true ∧
    inCtx (tH true false 0#64) (fun c => c.x.handler = true ∧ c.f.inHandler = false ∧
      ((takeFault c { code := 9, einfo := 5#32 }).warp c.w).map (fun y => (y.frag c.f.id).map Frag.wait) = some (some .handler)) = true ∧
    (inCtx tI (fun c => c.k.handler = none ∧ c.k.abort = none ∧ c.k.complete = false ∧
      ((takeFault c { code := 9, einfo := 5#32 }).kern c.b.kernel).map Kernel.abort = some (some 9)) &&
    inCtx (tH true true 0x3000#64) (fun c => c.x.handler = true ∧ c.f.inHandler = true ∧ c.k.abort = none ∧ c.x.epc &&& 3#64 = 0#64 ∧ c.NoJoin c.x.epc ∧
      stands .eret c.s c 0x3000#64) &&
    inCtx (tH true true 0x3002#64) (fun c => c.f.inHandler = true ∧ c.x.epc &&& 3#64 ≠ 0#64 ∧ faults .eret c.s c { code := 5, einfo := 0#32 })) = true := by
  decide +kernel

theorem witness_SpecialRegistersAndQueries :
    inCtx (tS [(6, 0x10003#32), (7, 5#32), (8, 0x30000#32), (9, 1#32), (10, 4096#32)]) (fun c => c.guard = true ∧ c.Clear [sDst 0xC5#8] ∧ c.Clear [sOp 0xC6#8 1] ∧
      c.Clear [sDst 0xC5#8, sOp 0xC6#8 1, sOp 0xC7#8 2] ∧ c.Clear [sDst 0xC5#8, sOp 0xC0#8 1] ∧ c.b.proof = none ∧ c.b.replay = none ∧ c.f.inHandler = false ∧
      ((specials c).all fun p => ends (.srd 0xC5#8 p.1) c.s c.s c (c.x.setS 5 p.2) 4100#64) ∧
      ([0x0C#8, 0x0E#8, 0x10#8, 0x18#8].all fun n => ends (.srd 0xC5#8 n) c.s c.s c c.x 4100#64) ∧
      faults (.srd 0xC5#8 0x1D#8) c.s c { code := 1, einfo := 0#32 } ∧ faults (.swr 0xC6#8 0x1D#8) c.s c { code := 1, einfo := 0#32 } ∧
      ends (.swr 0xC6#8 0x1C#8) c.s c.s c c.x 4100#64 ∧
      (c.s.vd c.vd).nvdie ≤ (c.x.sf 0xC6).toNat ∧ 0 < (c.s.vd c.vd).nvdie ∧ (c.s.vd c.vd).pdie 0 = some 0 ∧
      ends (.vdquery 0xC5#8 0xC6#8 0xC0#8) c.s c.s c (c.x.setS 5 0xFFFFFFFF#32) 4100#64 ∧ ends (.vdquery 0xC5#8 0xC0#8 0xC0#8) c.s c.s c (c.x.setS 5 0#32) 4100#64 ∧
      ends (.capq 0xC5#8 0xCA#8) c.s c.s c (c.x.setS 5 0#32) 4100#64) = true ∧
    inCtx ((tH true true 7#64).setWarp tW (sregs [(6, 0x2003#32), (7, 0x50#32)])) (fun c => c.f.inHandler = true ∧ c.guard = true ∧
      mRnd (c.x.sf 0xC6) < 5 ∧ mGp (c.x.sf 0xC6) < 48 ∧ 5 ≤ mRnd (c.x.sf 0xC7) ∧ ([0x18#8, 0x19#8, 0x1C#8].all fun n => stands (.swr 0xC6#8 n) c.s c 4100#64) ∧
      faults (.swr 0xC7#8 0x1C#8) c.s c { code := 4, einfo := 0x50#32 }) = true := by decide +kernel

/-- Queue `q` of the device, enabled with 16 slots, head and tail at 4. -/
def tQ (s : State) (q : Nat) : State := s.setQueue 0 q fun k => { k with enabled := true, log2 := 4, head := 4#32, tail := 4#32 }

theorem witness_QueueInstructionsAndOffers :
    inCtx (tQ (tS [(6, 63#32), (7, 5#32), (8, 64#32)]) 63) (fun c => c.guard = true ∧ c.b.replay = none ∧ c.Clear [sOp 0xC6#8 1, sOp 0xC7#8 2] ∧
      c.Clear [sDst 0xC5#8, { k := .sg, val := 0xD0, code := 1 }] ∧ c.Clear [sOp 0xC6#8 1] ∧ (c.s.queue c.vd 64).enabled = false ∧ (c.s.vd c.vd).dlq = 0#64 ∧
      (c.x.sf 0xC6).toNat < 64 ∧ ends (.kick 0xC6#8 0xC7#8) c.s ((c.noted c.s).offer c.vd 63 5#32) c (notedWarp c c.x) 4100#64 ∧ ends (.kick 0xC8#8 0xC7#8) c.s c.s c (notedWarp c c.x) 4100#64 ∧
      faults (.launch 0xC5#8 0xD0#8) c.s c { code := 7, einfo := 5#32 } ∧ bit (c.s.vd c.vd).smpcfg.toNat 0 = false ∧
      ends (.mark none 0xC6#8 1#8) c.s c.s c c.x 4100#64) = true ∧
    inCtx (((tQ tI 64).setQueue 0 64 fun k => { k with ring := 4096#64 }).setVd 0 fun v => { v with dlq := 1#64, smpcfg := 1#32 }) (fun c => let k := c.s.queue c.vd 64
      (c.s.vd c.vd).dlq ≠ 0#64 ∧ k.stopped = false ∧ k.enabled = true ∧ (k.tail - k.head).toNat < 2 ^ k.log2 ∧ c.b.proof = none ∧
      c.s.released c.g c.vd c.w c.x 2 = true ∧ bit (c.s.vd c.vd).smpcfg.toNat 0 = true ∧ runs (.mark none 0xC6#8 1#8) c.s ∧
      (match c.s.translate c.place c.vd 0 (k.ring.toNat + 64 * (k.tail.toNat % 2 ^ k.log2)) 1 with | (_, .ok _) => runs (.launch 0xC5#8 0xD0#8) c.s | _ => false) = true) = true ∧
    (let s := tQ tI 3
     (s.vd 0).state ∈ [.configured, .active, .suspended] ∧ (s.queue 0 3).enabled = true ∧ (s.queue 0 5).enabled = false ∧
     ([(3#32, 4#32, 1#32), (20#32, 20#32, 0#32), (21#32, 4#32, 0#32)].all fun t =>
       ((s.offer 0 3 t.1).queue 0 3).tail = t.2.1 && ((s.offer 0 3 t.1).queue 0 3).stale = t.2.2) = true ∧
     ((s.offer 0 3 21#32).queue 0 3).overkick = true ∧ ((s.offer 0 5 1#32).queue 0 5).diskick = true) := by decide +kernel
-- ## Memory instructions

/-- Lanes 0 and 31 access 4 × their number above `S[48:49]`, which is in the mapped page, and above `S[48]` in a 4-KiB scratchpad. -/
def tM (f : Warp → Warp) : State := (tK fun k => { k with scratch := 16 }).setWarp tW fun x =>
  f { ((sregs [(6, 0x1108#32), (8, 0x1101#32), (10, 7#32), (48, 0x1100#32)] x).setV 4 (Vector.ofFn fun l : Fin 32 => BitVec.ofNat 32 (4 * l.val))).setV 5
      ((Vector.replicate 32 0x90ABCDEF#32).set! 31 3#32) with frags := x.frags.map fun g => { g with mask := 0x80000001#32 } }
/-- As `tM`, with `S[48]` = `v`. -/
def tL (v : Word) : State := tM (sregs [(48, v)])
/-- The hypothesis `Maps` of the lanes `lanes`, whose addresses and state `k` gets. -/
def mapsTo (c : Ctx) (atype log2w : Nat) (lanes : List (Nat × Nat)) (k : State → List Nat → Bool) : Bool :=
  decide c.Calm && c.sample.isNone && (c.watched atype (2 ^ log2w) lanes).isNone &&
    match transLanes c.place c.vd c.k.asid atype c.s lanes with
    | (u, ts) => (ts.all fun t => match t.2.2 with | .ok _ => true | _ => false) &&
        k u (ts.map fun t => match t.2.2 with | .ok pa => pa | _ => 0)
def w2 : MFld := { mf with w := 2#3 }
/-- The inactive lanes are off. -/
def off (f : Warp → Warp) : State := tM fun x => f { x with mode := 0x2000#32 }

theorem witness_Completion :
    inCtx (tS [(1, 5#32)]) (fun c => (match (c.s.setWarp c.w fun x => x.setS 2 9#32).warp c.w with
      | some x => decide (x.frags.map (fun f => (f.id, f.pc, f.mask, f.parent, f.rejoin)) = c.x.frags.map (fun f => (f.id, f.pc, f.mask, f.parent, f.rejoin))) &&
        decide (((retireTo c (c.s.setWarp c.w fun _ => x) 8192#64 id).warp c.w).map (fun y => (y.sreg 2, y.rwc, (y.frag c.f.id).map Frag.spot)) =
          some (9#32, c.x.rwc + 1#64, some (8192#64, c.f.mask)))
      | none => false) = true) = true := by decide +kernel

theorem witness_Loads :
    inCtx (tM id) (fun c =>
      let e := c.eff none
      let q := vt 0
      let lanes := globalLanes c.x 4#8 w2 e.mask
      decide (typeBad none e bitTypes = none) && decide (c.VClear none (vDst 1 8#8 :: addrOps 4#8 w2)) && decide (misaligned 4 lanes = none) &&
      mapsTo c 0 2 lanes (fun u pas => let as := loadAccesses none 8#8 w2 e.type (physical lanes pas)
        let v := u.setWarp c.w fun x => x.zeroLanes 8 1 e
        decide (c.Room v 0 as) && completes (.ldg none none 8#8 4#8 w2) c.s (c.issued v 0 true as) c) &&
      decide (typeBad (some q) (c.eff (some q)) bitTypes = none) && decide (c.VClear (some q) (vDst 1 8#8 :: addrOps 4#8 w2 ++ predCOp (some q))) &&
      decide (c.guard = true) && decide (c.Clear [{ scalarData 0xCC#8 3#3 with reads := false, writes := true }, spOp 0xC6#8 1]) &&
      mapsTo c 0 3 [(0, 0x1108)] (fun u pas => let as := [scalarLoad none 0xCC#8 3#3 true 0 0x1108]
        decide (pas = [0x1108]) && decide (c.Room u 0 as) && completes (.sld none 0xCC#8 0xC6#8 3#3 true) c.s (c.issued u 0 true as) c)) = true ∧
    inCtx ((tL 0x1FC0#32).setWarp tW fun x => x.setP 2 0xFFFFFFFF#32) (fun c => let q := vt 0; let e := c.eff (some q); let lanes := globalLanes c.x 4#8 w2 e.mask
      decide (c.VClear (some q) (vDst 1 8#8 :: addrOps 4#8 w2 ++ predCOp (some q))) && decide (misaligned 4 lanes = none) && decide c.Calm &&
      c.sample.isNone && (c.watched 0 4 lanes).isNone &&
      match transLanes c.place c.vd c.k.asid 0 c.s lanes with
      | (u, ts) => let here := ts.filterMap fun t => match t.2.2 with | .ok pa => some (t.1, pa) | _ => none
        let as := loadAccesses none 8#8 w2 e.type here
        ts.all (fun t => match t.2.2 with | .ok _ => true | .replay _ _ absent => absent | _ => false) && ts.length = 2 && as.length = 1 &&
          decide (c.Room u 0 as) && completes (.ldgnf none q 8#8 4#8 w2) c.s c.s c) = true ∧
    inCtx (tV 0#32) (fun c => let q : VPfx := { vt 0 with c := 3#8 }; let e := c.eff (some q)
      decide (e.mask ≠ 0#32) && decide (c.VClear (some q) (vDst 1 8#8 :: addrOps 4#8 w2 ++ predCOp (some q)))) = true ∧
    inCtx (off id) (fun c => let lanes := globalLanes c.x 4#8 w2 (c.eff none).mask
      decide (lanes = []) && decide (c.VClear none (vDst 1 8#8 :: addrOps 4#8 w2)) && mapsTo c 0 2 lanes (fun u pas => decide (pas = []) &&
        completes (.ldg none none 8#8 4#8 w2) c.s (u.setWarp c.w fun x => x.zeroLanes 8 1 (c.eff none)) c)) = true ∧
    inCtx ((tL 0xFFF80#32).setDie 0 fun d => { d with regions := [(0, { base := 3, size := 1, valid := true })] }) (fun c =>
      let r := c.s.region c.die c.vd
      let lanes := (lanesOf (c.eff none).mask).map fun l => (l, localAddr c.x 4#8 w2 l)
      let as := (loadAccesses none 8#8 w2 (c.eff none).type (lanes.map fun l => (l.1, r.base * 2 ^ 20 + l.2))).map fun a => { a with weight := true }
      decide c.Calm && decide (lanes ≠ []) && r.valid && decide (∀ l ∈ lanes, l.2 < r.size * 2 ^ 20) && decide (misaligned 4 lanes = none) &&
      decide (c.VClear none (vDst 1 8#8 :: localOps 4#8 w2)) &&
      match (c.s.seal c.die c.vd).read c.b.kernel with
      | .ok sl => let v := (c.s.setDie c.die fun x => { x with seals := put x.seals c.vd sl }).setWarp c.w fun x => x.zeroLanes 8 1 (c.eff none)
        decide (c.Room v 0 as) && completes (.ldw none 8#8 4#8 w2) c.s (c.issued v 0 true as) c
      | .error _ => false) = true := by decide +kernel

theorem witness_Stores :
    inCtx (tM id) (fun c =>
      let e := c.eff none
      let lanes := globalLanes c.x 4#8 w2 e.mask
      decide (typeBad none e bitTypes = none) && decide (c.VClear none ({ vOp 1 5#8 0 with code := 0 } :: addrOps 4#8 w2)) && decide (misaligned 4 lanes = none) &&
      decide (c.Released none 2) && mapsTo c 1 2 lanes (fun u pas => let as := (byLine (physical lanes pas)).map (storeAccess c none 5#8 w2)
        u.wcbRoom c.g c.vd (as.filterMap fun a => a.line) && !c.x.strongOut (as.filterMap fun a => a.line) && decide (c.Room u 1 as) &&
          completes (.stg none none 5#8 4#8 w2) c.s
          ((numbered c u.nextId [as]).foldl (fun t a => t.setCl c.g fun k => k.store c.w a (a.line.getD 0)) (c.issued u 1 false as)) c) &&
      decide (c.guard = true) && !c.x.strongOut [0x1101 / 128] && decide (c.Clear [scalarData 0xCC#8 0#3, spOp 0xC8#8 1]) && decide (c.Released (some { op with ord := 2#2 }) 2) &&
      mapsTo c 1 0 [(0, 0x1101)] (fun u _ => let a' := scalarStore c (some { op with ord := 2#2 }) 0xCC#8 0#3 false 0 0x1101 (u.nextId + 1)
        u.wcbRoom c.g c.vd [0x1101 / 128] && decide (c.Room u 1 [a']) && completes (.sst (some { op with ord := 2#2 }) 0xCC#8 0xC8#8 0#3 false) c.s
          ((c.issued u 1 false [a']).setCl c.g fun k => k.store c.w a' (0x1101 / 128)) c)) = true ∧
    inCtx (off id) (fun c => let lanes := globalLanes c.x 4#8 w2 (c.eff none).mask
      decide (lanes = []) && mapsTo c 1 2 lanes (fun u _ => completes (.stg none none 5#8 4#8 w2) c.s u c)) = true := by decide +kernel

/-- The last bytes of the scratchpad. -/
theorem witness_Scratchpad :
    inCtx (tL 0xF80#32) (fun c => let e := c.eff none
      decide c.Calm && (scratchBad c.x (256 * c.k.scratch) 4#8 w2 e.mask).isNone && decide (typeBad none e bitTypes = none) &&
      decide (c.VClear none (vDst 1 8#8 :: localOps 4#8 w2)) && stands (.lds none none 8#8 4#8 w2) c.s c c.nextPc &&
      decide (c.VClear none ({ vOp 1 5#8 0 with code := 0 } :: localOps 4#8 w2)) && decide (c.Released none 1) &&
      completes (.sts none none 5#8 4#8 w2) c.s ((c.s.setImg c.w.blk fun i => { i with
          scratch := (lanesOf e.mask).foldl (fun mem l => mem.storeNat (localAddr c.x 4#8 w2 l) 4 (c.x.groupN 5 1 l)) i.scratch }).setFrag
          c.w c.f.id fun f => f.stores (e.mask != 0#32)) c &&
      ([(0, Instr.atomsAdd none none 5#8 4#8 w2), (1, .atomsMin none none 5#8 4#8 w2), (2, .atomsMax none none 5#8 4#8 w2), (3, .atomsAnd none none 5#8 4#8 w2),
        (4, .atomsOr none none 5#8 4#8 w2), (5, .atomsXor none none 5#8 4#8 w2), (6, .atomsExch none none 5#8 4#8 w2)].all fun q =>
        decide (typeBad none e (atomTypesAt q.1 w2.w) = none) &&
        decide (c.VClear none ({ vDst 1 5#8 with reads := true, writes := true } :: localOps 4#8 w2 ++ cmpOps q.1 1 none)) &&
        (let r := atomsRun q.1 e.type 4 c.b.img.scratch ((lanesOf e.mask).map fun l => (l, localAddr c.x 4#8 w2 l, c.x.groupN 5 1 l, cmpVal c.x q.1 1 none l))
         completes q.2 c.s ((c.s.setImg c.w.blk fun i => { i with scratch := r.1 }).setWarp c.w fun x =>
          (x.writeGroup 5 1 0#32 e.mask e.zero fun l => ((r.2.find? fun v => v.1 = l).getD (0, 0)).2).setFrag
            c.f.id fun f => f.stores (e.mask != 0#32)) c)) &&
      (let o := { op with c := 4#8, nr := true }
       decide (typeBad none e (atomTypesAt 9 w2.w) = none) && decide (c.Released (some o) 1) &&
        decide (c.VClear none ({ vDst 1 5#8 with reads := true, writes := false } :: localOps 4#8 w2 ++ cmpOps 9 1 (some o))) &&
        stands (.atomsCas o none 5#8 4#8 w2) c.s c c.nextPc)) = true := by decide +kernel

theorem witness_GlobalAtomics :
    (atomNew 7 0 5 5 0 = 0 ∧ atomNew 7 0 4 5 0 = 5 ∧ atomNew 0 1 0xFFFFFFFF 2 0 = 1 ∧ atomNew 1 0 0xFFFFFFFF 2 0 = 0xFFFFFFFF ∧ atomNew 2 9 1 (2 ^ 63) 0 = 1 ∧ atomNew 2 10 1 (2 ^ 63) 0 = 2 ^ 63 ∧
      ∀ t ∈ floatTypes, 0 < elemCount t ∧ ((fmtOf t).dec (elemAt t ((fmtOf t).nanBits) 0)).isNan = true ∧
        elemAt t (atomNew 8 t 0 (fmtOf t).nanBits 0) 0 = (fmtOf t).nanBits % 2 ^ elemBits t) ∧
    inCtx (tM id) (fun c =>
      let e := c.eff none
      let lanes := globalLanes c.x 4#8 w2 e.mask
      let f := some { op with far := true, nr := true }
      decide (misaligned 4 lanes = none) && decide (c.Released none 2) && decide (c.guard = true) && mapsTo c 2 2 lanes (fun u pas =>
        ([(0, Instr.atomgAdd none none 5#8 4#8 w2), (1, .atomgMin none none 5#8 4#8 w2), (2, .atomgMax none none 5#8 4#8 w2), (3, .atomgAnd none none 5#8 4#8 w2),
          (4, .atomgOr none none 5#8 4#8 w2), (5, .atomgXor none none 5#8 4#8 w2), (6, .atomgExch none none 5#8 4#8 w2),
          (7, .atomgIncw none none 5#8 4#8 w2)].all fun q =>
          decide (typeBad none e (atomTypesAt q.1 w2.w) = none) &&
          decide (c.VClear none ({ vDst 1 5#8 with reads := true, writes := true } :: addrOps 4#8 w2 ++ cmpOps q.1 1 none)) &&
          (let v := u.setWarp c.w fun x => x.zeroLanes 5 1 e
           let as := (byLine (physical lanes pas)).map (atomAccess c q.1 e.type none 5#8 w2 lanes)
           decide (c.Room v 0 as) && completes q.2 c.s (c.issued v 0 false as) c)) &&
        (let as := (byLine (physical lanes pas)).map (atomAccess c 0 e.type f 5#8 w2 lanes)
         decide (c.x.follows (as.map fun a => a.line) = false) && as.all (fun a => a.line.all fun l => !u.l1Written c.g l) &&
         (match sendAllFar c 0 e.type 4 true u as with
          | (v', as') => decide (c.Room v' 1 as') && completes (.atomgAdd f none 5#8 4#8 w2) c.s (c.issued v' 1 false as') c))) &&
      decide (c.Clear [{ sOp 0xCC#8 0 with writes := true }, spOp 0xC6#8 1]) &&
      mapsTo c 2 2 [(0, 0x1108)] (fun u _ => decide (c.x.follows [some (0x1108 / 128)] = false) && !u.l1Written c.g (0x1108 / 128) &&
        (match sendAllFar c 0 0 4 false u [scalarAtomic c none 0xCC#8 0 0x1108 0x1108] with
          | (v', as') => decide (c.Room v' 0 as') && completes (.satom none 0xCC#8 0xC6#8) c.s (c.issued v' 0 false as') c))) = true := by decide +kernel

theorem witness_AlignmentFaults :
    inCtx (tL 0x1102#32) (fun c => decide c.Calm && decide (typeBad none (c.eff none) bitTypes = none) &&
      decide (c.VClear none (vDst 1 8#8 :: addrOps 4#8 w2)) && decide (c.VClear none ({ vOp 1 5#8 0 with code := 0 } :: addrOps 4#8 w2)) &&
      ([Instr.ldg none none 8#8 4#8 w2, .stg none none 5#8 4#8 w2, .lds none none 8#8 4#8 w2].all fun i =>
        faults i c.s c { code := 0x05, einfo := 0x80000001#32, lanes := some (c.eff none).mask })) = true ∧
    inCtx (tL 0xF84#32) (fun c => decide (c.VClear none (vDst 1 8#8 :: localOps 4#8 w2)) && decide (c.VClear none ({ vOp 1 5#8 0 with code := 0 } :: localOps 4#8 w2)) &&
      ([Instr.lds none none 8#8 4#8 w2, .sts none none 5#8 4#8 w2].all fun i =>
        faults i c.s c { code := 0x09, einfo := 0x80000000#32, lanes := some (c.eff none).mask })) = true := by decide +kernel

theorem witness_LineInstructions :
    inCtx (tM id) (fun c => let lanes := globalLanes c.x 4#8 w2 (c.eff none).mask
      decide c.Calm && decide (c.VClear none (addrOps 4#8 w2)) &&
      (match transLanes c.place c.vd c.k.asid 0 c.s lanes with
      | (u, ts) => let flush := (byLine (ts.filterMap fun t => match t.2.2 with | .ok pa => some (t.1, pa) | _ => none)).map fun g =>
          { id := 0, kind := .flush false, line := some g.1, lanes := [], width := 0, pc := 0#64, frag := 0, instr := 0 : Access }
        ts.all (fun t => t.2.2 != .busy) && !flush.isEmpty && stands (.pref none 4#8 w2) c.s c c.nextPc && decide (c.Room u 1 flush) &&
        completes (.cflush none 4#8 w2) c.s u c) &&
      stands (.pgreq none 4#8 w2) c.s c c.nextPc) = true ∧
    inCtx (off id) (fun c => decide ((transLanes c.place c.vd c.k.asid 0 c.s (globalLanes c.x 4#8 w2 (c.eff none).mask)).2 = []) &&
      stands (.cflush none 4#8 w2) c.s c c.nextPc) = true ∧
    inCtx (tL 0x7100#32) (fun c => (transLanes c.place c.vd c.k.asid 0 c.s (globalLanes c.x 4#8 w2 (c.eff none).mask)).2.all (fun t =>
        match t.2.2 with | .replay _ _ absent => absent | _ => false) &&
      nextIs (.pgreq none 4#8 w2) c.s (fun t => decide (((t.warp c.w).map fun x => x.accesses.length) = some 0) && (t.vd 0).fqTail != (c.s.vd 0).fqTail ||
        !(t.vd 0).undelivered.isEmpty || t.out.length != c.s.out.length)) = true := by decide +kernel

theorem witness_MemoryLaws :
    let m := Memory.store (Memory.store [] 5 [7#8, 0#8, 9#8]) 6 [3#8, 0#8]
    m.wf = true ∧ m = [(5, 7#8), (6, 3#8)] ∧ (m.storeNat 5 2 0xFF00).readNat 5 2 = 0xFF00 ∧ (0xFF00 < 2 ^ (8 * 2)) := by decide +kernel

theorem witness_RegisterFrame :
    (nextIs (.sadd 0xC5#8 0xC6#8 0xC7#8) tI fun t => decide (t.mem.read 4096 = tI.mem.read 4096)) = true ∧
    (nextIs (.vfadd (some (vt 0)) 8#8 4#8 5#8) tI fun t => decide (t.mem.read 0 = tI.mem.read 0)) = true := by decide +kernel
-- ## Synchronisation, remote operations, engines

theorem witness_BarriersAndWaits :
    inCtx tI (fun c => c.guard = true ∧ c.Clear [] ∧ c.Calm ∧ c.Released (some { op with ord := 2#2 }) 2 ∧ (c.x.counter 1).err = none ∧
      c.s.canAcquire c.g c.vd 4 = true ∧ completes (.fence { op with ord := 2#2, scope := 4#3 }) c.s c.s c ∧
      (∀ a ∈ c.x.accesses, a.dst = none) ∧ completes (.fence { op with ord := 3#2, scope := 4#3 }) c.s (c.s.acquire c.g c.die c.vd 4) c ∧
      (List.range 4).all (fun k => (c.x.counter k).count ≤ [0, 0, 0, 0].getD k 0) ∧ [1, 2, 3].all (fun k => (c.x.counter k).err.isNone) ∧
      completes (.waitc 0#6 0#6 0#6 0#6) c.s (c.s.setFrag c.w c.f.id fun f => { f with waited := none }) c ∧
      (List.range 8).all (fun k => (c.x.counter (4 + k)).count == 0 && (c.x.counter (4 + k)).err.isNone) ∧ ends (.waitt 0xFF#8) c.s c.s c c.x 4100#64) = true ∧
    inCtx (tX fun x => { x.addClass 3 64 with tags := x.tags.set! 7 { count := 1, err := some { code := 7, einfo := 6#32, pc := 0#64, cmd := 0 } } })
      (fun c => [63, 63, 63, 63].getD 3 0 < (c.x.counter 3).count ∧ (c.x.counter (4 + 7)).count ≠ 0 ∧ c.Clear [sDst 0xC5#8] ∧
      ends (.tagq 0xC5#8) c.s c.s c (c.x.setS 5 0x8080#32) 4100#64 ∧ stands (.waitt 0x80#8) c.s c 4096#64 ∧
      ends (.waitt 0x7F#8) c.s c.s c c.x 4100#64 ∧ stands (.waitc 63#6 63#6 63#6 63#6) c.s c 4096#64) = true ∧
    inCtx ((tS [(6, 2#32), (7, 1#32)]).setImg 0 fun i => { i with bars := [(14, { expect := some (1, false) }), (15, { expect := some (2, false) })] }) (fun c =>
      c.Clear [sOp 0xC6#8 1] ∧ c.Quiet ∧ c.NoJoin c.nextPc ∧ c.s.released c.g c.vd c.w c.x 1 = true ∧ (c.x.counter 1).err = none ∧
      c.x.frags = [c.f] ∧ c.x.arriving = [] ∧ [14, 15].all (fun b => !(look c.b.img.bars b {}).arrived.contains c.w.wi) ∧
      stands (.bar 0xC6#8 15#4) c.s c 4100#64 ∧ stands (.barwait 0xC6#8 15#4) c.s c 4100#64 ∧ c.b.stepping = false ∧ c.b.proof = none ∧
      [(Instr.bar 0xC6#8 15#4, 15, 0), (.bararv 0xC6#8 15#4, 15, 0), (.bar 0xC7#8 14#4, 14, 1), (.bararv 0xC7#8 14#4, 14, 1)].all (fun i =>
        nextIs i.1 c.s fun t => (t.blk c.w.blk).map (fun x => (look x.img.bars i.2.1 {}).phase) = some i.2.2) ∧
      nextIs (.bar 0xC7#8 14#4) c.s (fun t => (t.warp c.w).map (fun y => (y.rwc, (y.frag c.f.id).map Frag.wait)) = some (c.x.rwc + 1#64, some .ready)) ∧
      nextIs (.bar 0xC6#8 15#4) c.s (fun t => (t.warp c.w).map (fun y => (y.rwc, (y.frag c.f.id).map Frag.owes)) = some (c.x.rwc, some true))) = true ∧
    inCtx ((tX fun x => { x with arrived := [(3, 0)] }).setImg 0 fun i => { i with bars := [(3, { phase := 1 })] }) (fun c =>
      look c.x.arrived 3 1 < (look c.b.img.bars 3 {}).phase ∧ completes (.barwait 0xC7#8 3#4) c.s (c.noted c.s) c) = true := by decide +kernel

theorem witness_GridBarrierAndSignalWait :
    inCtx tI (fun c => c.guard = true ∧ c.Clear [] ∧ c.k.coop = false ∧ faults .gbar c.s c { code := 0x0F, einfo := 1#32 }) = true ∧
    inCtx (tK fun k => { k with coop := true }) (fun c => c.k.coop = true ∧ c.s.released c.g c.vd c.w c.x 2 = true ∧ (c.x.counter 1).err = none ∧
      c.Quiet ∧ c.x.frags = [c.f] ∧ c.x.arriving = [] ∧ c.k.garrived.contains c.w = false ∧ c.NoJoin c.nextPc ∧ c.b.stepping = false ∧
      c.b.proof = none ∧ c.b.place ≠ .exited ∧ c.s.gbarFull c.b.kernel (c.k.garrived ++ [c.w]) = true ∧ c.s.blocks.length = 1 ∧
      nextIs .gbar c.s (fun t => (t.kern c.b.kernel).map Kernel.gphase = some 1 ∧ (t.warp c.w).map (fun y => (y.rwc, y.acquire)) =
        some (c.x.rwc + 1#64, true))) = true ∧
    inCtx (let s := tK fun k => { k with coop := true }; { s with blocks := s.blocks ++ [(1, { kernel := 0, lin := 1, x := 1, y := 0, z := 0, vdie := 0, die := 0 })] }) (fun c =>
      nextIs .gbar c.s (fun t => (t.kern c.b.kernel).map Kernel.gphase = some 0) ∧ stands .gbar c.s c 4100#64) = true ∧
    inCtx (let s := tM (sregs [(12, 1#32), (14, 0x1109#32)]); { s with coh := { s.coh with held := [(0, [(34, { tokens := 1, valid := true })])], home := [(34, {})] } }) (fun c =>
      decide (c.Clear [spOp 0xC6#8 1, spOp 0xCC#8 2]) &&
      decide (c.Clear [spOp 0xCE#8 1, spOp 0xCC#8 2]) && faults (.waitsig 0xCE#8 0xCC#8) c.s c { code := 0x05, einfo := 0#32 } &&
      mapsTo c 0 3 [(lowLane c.f.mask, 0x1108)] (fun u pas => decide (pas = [0x1108]) && u.isLost (0x1108 / 128) == false && !(u.held' (.die c.die) 34).lost &&
        !c.x.follows [some 34] && !u.l1Written c.g 34 && u.l2May c.die 34 false &&
        decide (u.dieNat c.die 0x1108 8 < (c.x.spair 0xCC).toNat) && stands (.waitsig 0xC6#8 0xCC#8) c.s c 4096#64 &&
        decide ((c.x.spair 0xC0).toNat ≤ u.dieNat c.die 0x1108 8) &&
        completes (.waitsig 0xC6#8 0xC0#8) c.s (u.setWarp c.w fun x => { x with acquire := true }) c)) = true := by decide +kernel

/-- Capability 4095: peer 5 on plane 0 with every permission, a window of 4 KiB and its signal at 256. Capability 7: no plane. -/
def tCap (s : State) : State := s.setVd 0 fun v => { v with
  caps := [(7, 0x80000000#256), (4095, BitVec.ofNat 256 (0xFFC00005 + 2 ^ 32 + 2 ^ 128 * 4096 + 2 ^ 192 * 256))] }
/-- Lane 0 names the peer and offset 0, the other lanes are off. -/
def tR : State := tCap (tX fun x => { sregs [(6, 4095#32), (7, 4096#32)] (((x.setV 3 (Vector.replicate 32 4095#32)).setV 4 (Vector.replicate 32 0#32)).setP 2 1#32) with
  frags := x.frags.map fun g => { g with mask := 1#32 } })

/-- As `tR`, with lane 31 at another capability. -/
def tR2 : State := ((tR.setVd 0 fun v => { v with caps := (4094, look v.caps 4095 0#256) :: v.caps }).setWarp tW fun x =>
  { ((x.setV 3 ((Vector.replicate 32 4095#32).set! 31 4094#32)).setP 2 0x80000001#32) with frags := x.frags.map fun g => { g with mask := 0x80000001#32 } })

theorem witness_RemoteAccess :
    inCtx tR (fun c => decide c.Calm && decide (c.Released none 2) &&
      ([(0, 0, Instr.rld none (some (vt 0)) 8#8 4#8 3#8, vDst 1 8#8), (1, 0, .rst none (some (vt 0)) 8#8 4#8 3#8, { vOp 1 8#8 0 with code := 0 }),
        (2, 0, .ratom none (some (vt 0)) 8#8 4#8 3#8, { vDst 1 8#8 with reads := true, writes := true }),
        (3, 2, .rvadd none (some (vt 2)) 8#8 4#8 3#8, { vOp 1 8#8 0 with code := 0 }), (4, 0, .rwsig none (some (vt 0)) 8#8 4#8 3#8, { vOp 1 8#8 0 with code := 0 }),
        (5, 2, .rred none (some (vt 2)) 8#8 4#8 3#8, { vOp 1 8#8 0 with code := 0 })].all fun q =>
        let p := some (vt q.2.1)
        decide (typeBad p (c.eff p) (remoteTypes q.1) = none) && decide (c.VClear p [q.2.2.2, vOp 1 4#8 1, vOp 1 3#8 2]) &&
        decide (peerGroups c.x 4#8 3#8 (c.eff p).mask = [(4095, [(0, 0)])]) &&
        decide (c.capBad q.1 4095 (if q.1 ≤ 2 then 4 else 128) [0] = none) && stands q.2.2.1 c.s c 4100#64) &&
      decide ((vget c.x.classes 1 {}).count + 1 ≤ 511) && decide (c.s.ottUsed c.g + 1 ≤ 256)) = true ∧
    inCtx (tR2) (fun c => let gs := peerGroups c.x 4#8 3#8 (c.eff (some (vt 0))).mask
      decide (gs = [(4094, [(31, 0)]), (4095, [(0, 0)])]) && gs.all (fun g => (c.capBad 1 g.1 4 (g.2.map Prod.snd)).isNone) &&
      nextIs (.rst none (some (vt 0)) 8#8 4#8 3#8) c.s (fun t => (t.warp c.w).any fun y =>
        (vget y.classes 1 {}).count == 2 && y.accesses.length == 2)) = true ∧
    inCtx (tR.setWarp tW fun x => x.setP 2 0#32) (fun c => decide (peerGroups c.x 4#8 3#8 (c.eff (some (vt 0))).mask = []) &&
      completes (.rst none (some (vt 0)) 8#8 4#8 3#8) c.s c.s.sendAll c) = true ∧
    inCtx tR (fun c => c.guard = true ∧ c.Clear [sOp 0xC6#8 1] ∧ (c.x.sf 0xC6).toNat < 4096 ∧ bit (c.s.cap c.vd 4095) 31 = true ∧ c.x.accesses = [] ∧
      (c.x.counter 1).err = none ∧ ends (.rfence 0xC6#8) c.s c.s c c.x 4100#64 ∧ 4096 ≤ (c.x.sf 0xC7).toNat ∧
      faults (.rfence 0xC7#8) c.s c { code := 0x0B, einfo := 4096#32 } ∧
      [0, 1, 2, 3, 4, 5].all (fun k => c.capBad k 4095 128 [3968] = none ∧ c.capBad k 4095 128 [0, 4000] = some { code := 7, einfo := 0xFFF007#32 } ∧
        c.capBad k 7 128 [0] = some { code := 0x0C, einfo := 7#32 } ∧ c.capBad k 8 128 [0] = some { code := 0x0B, einfo := 8#32 })) = true := by decide +kernel

/-- A descriptor at 0 of a 16-byte copy from 4096 to scratchpad address 4080. -/
def tD : State := (tL 0#32).setImg 0 fun i => { i with
  scratch := ((((i.scratch.storeNat 0 8 4096).storeNat 8 4 4080).storeNat 16 4 16).storeNat 20 4 0x10001).storeNat 49 4 0xFF000002 }

theorem witness_CopyInstructions :
    inCtx (tD.setWarp tW (sregs [(56, 0x1000#32)])) (fun c =>
      let n := 4
      let ls := lanesOf (c.eff none).mask
      decide c.Calm && decide (c.VClear none ([{ vOp 1 4#8 0 with code := 0 }, vOp 1 4#8 1, { k := .sp, val := 0xF8, code := 1 }] ++ cpaCOp none)) && decide (ls ≠ []) &&
      (let gadr := fun (l : Nat) => (c.x.spair 0xF8 + (c.x.lane 4 l).signExtend 64).toNat
       let cmd := { c.command (.cpa (ls.map fun l => (l, (c.x.lane 4 l).toNat, gadr l, cpaCount none c.x n l)) n []) with
         tag := some 7, write := some (.scratch 0 128) }
       decide (∀ l ∈ ls, (c.x.lane 4 l).toNat % n = 0 ∧ gadr l % n = 0 ∧ (c.x.lane 4 l).toNat + n ≤ 256 * c.k.scratch) && decide (Queues c (c.noted c.s) cmd 2) &&
       completes (.cpa none 4#8 4#8 0#3 7#3 0#2) c.s (queuedIn c (c.noted c.s) cmd 2) c) &&
      decide (c.guard = true) && decide (c.Clear [sOp 0xC0#8 1]) &&
      (let bs := c.b.img.scratch.bytes 0 64
       (match c.copyBad bs (copyDesc bs) with | .ok none => true | _ => false) && decide (Queues c (c.noted c.s) (c.copyCommand 7 (copyDesc bs)) 2) &&
       completes (.tcopy 7#8 0xC0#8) c.s (queuedIn c (c.noted c.s) (c.copyCommand 7 (copyDesc bs)) 2) c) &&
      faults (.tcopy 8#8 0xC0#8) c.s c { code := 0x01, einfo := c.s.base } && faults (.tcopy 7#8 0xC6#8) c.s c { code := 0x05, einfo := 0#32 } &&
      faults (.tcopy 7#8 0xF8#8) c.s c { code := 0x09, einfo := 0#32 }) = true ∧
    inCtx (tD.setImg 0 fun i => { i with scratch := i.scratch.storeNat 48 1 5 }) (fun c => let bs := c.b.img.scratch.bytes 0 64
      match c.copyBad bs (copyDesc bs) with | .error i => faults (.tcopy 7#8 0xC0#8) c.s c i | _ => false) = true ∧
    inCtx ((tD.setImg 0 fun i => { i with scratch := (i.scratch.storeNat 49 1 1).storeNat 8 8 0 }).setDie 0 fun d =>
        { d with regions := [(0, { base := 3, size := 1, valid := true })] }) (fun c => let bs := c.b.img.scratch.bytes 0 64
      match c.copyBad bs (copyDesc bs) with | .ok (some _) => completes (.tcopy 7#8 0xC0#8) c.s c.s c | _ => false) = true ∧
    inCtx (off id) (fun c => decide (lanesOf (c.eff none).mask = []) && ends (.cpa none 4#8 4#8 0#3 7#3 0#2) c.s c.s c c.x 4100#64) = true := by decide +kernel

/-- A block with a grant and four slots; the words behind its instruction are `MZERO` and `MMA`. -/
def tG : State :=
  let code := ((encode (.mzero 0xC6#8)).headD 0#32).toNat * 2 ^ 32 + ((encode (.mma 0xC6#8 0xC7#8 0xC8#8)).headD 0#32).toNat * 2 ^ 64
  let s := ((State.reset.withFetchWord 96 code).choose tW 0).fetched [0#32]
  let s := s.setImg 0 fun i => { i with claimed := [0, 1, 0x100, 0x101], grant := some { m := 32, n := 64, type := 3 } }
  let s := s.setKern 0 fun k => { k with oslots := 4, aslots := 3, scratch := 128 }
  s.setWarp tW fun x => sregs [(6, 0x100#32), (7, 0#32), (8, 1#32), (9, 3#32), (10, 2#32), (11, 0x100000#32), (12, 0x1000#32), (14, 128#32), (16, 0x102#32),
    (17, 0x2040#32), (18, 0x01800101#32)] { x with vregs := x.vregs.take 16 }

/-- The hypotheses under which a step completes. -/
def stepRuns (c : Ctx) (op : Nat) (i : Instr) (os : List Opnd) (a b : BitVec 8) : Bool :=
  let m := stepOf op (c.x.sf 0xC6) (c.x.sf a.toNat) (c.x.sf b.toNat)
  let cmd := { c.command (.step m) with reads := m.reads, write := some m.write }
  decide (c.Clear os) && (match c.b.img.grant with | some g => stepAccepts op g.type | none => false) && decide (m.badSlot c.b.img.claimed = none) &&
    decide (c.b.img.steps = []) && decide (c.s.stepQueue c.w.blk < 8) && decide (Queues c c.s cmd 3) && completes i c.s (queuedIn c c.s cmd 3) c

theorem witness_MatrixInstructions :
    inCtx tG (fun c => decide (c.guard = true) && stepRuns c 0xD6 (.mzero 0xC6#8) [sOp 0xC6#8 0] 0xC0#8 0xC0#8 &&
      stepRuns c 0xD7 (.mma 0xC6#8 0xC7#8 0xC8#8) [sOp 0xC6#8 0, sOp 0xC7#8 1, sOp 0xC8#8 2] 0xC7#8 0xC8#8 &&
      faults (.mscacc 0xC6#8 0xC7#8 0xC8#8) c.s c { code := 0x04, einfo := 3#32 } &&
      decide ((stepOf 0xD7 0x100#32 3#32 1#32).badSlot c.b.img.claimed = some 3) && faults (.mma 0xC6#8 0xC9#8 0xC8#8) c.s c { code := 0x0A, einfo := 3#32 } &&
      decide (c.Clear [sOp 0xCA#8 1, sOp 0xC0#8 2]) && (match c.fetchN 2 c.s c.nextPc with
      | (u, .ok ws) => (match loopBody c ws with
        | .ok (body, os) => let q : Sequencer := { body, count := 2, warp := c.w, pc := c.pc, inc := (0, 0, 0) }
          decide (c.Clear os) && decide (u.warp c.w = some c.x) && (q.rest.findSome? fun m => m.badSlot c.b.img.claimed).isNone &&
          ends (.mloop 1#2 0xCA#8 0xC0#8) c.s (u.setImg c.w.blk fun i => { i with seq := some q }) c (c.x.addClass 3 1) 4108#64 &&
          ends (.mloop 1#2 0xC0#8 0xC0#8) c.s u c c.x 4108#64
        | .error _ => false)
      | _ => false) &&
      decide (c.Clear [sOp 0xD2#8 0, spOp 0xCC#8 1, sOp 0xCE#8 2]) && decide (c.b.replay = none) && slotOk c.b.img.claimed true 0x101) = true ∧
    inCtx ((tG.setImg 0 fun i => { i with grant := some { m := 32, n := 64, type := 12 } }).setWarp tW fun x => x.setS 6 0x01010100#32) (fun c =>
      stepRuns c 0xD8 (.mmaz 0xC6#8 0xC7#8 0xC8#8) [sOp 0xC6#8 0, sOp 0xC7#8 1, sOp 0xC8#8 2] 0xC7#8 0xC8#8 &&
      stepRuns c 0xD9 (.mscacc 0xC6#8 0xC7#8 0xC8#8) [sOp 0xC6#8 0, sOp 0xC7#8 1, sOp 0xC8#8 2] 0xC7#8 0xC8#8) = true ∧
    inCtx (tG.setWarp tW fun x => x.setS 18 0x00870101#32) (fun c => decide (bits (c.x.sf 0xD2).toNat 23 22 = 2 ∧ bits (c.x.sf 0xD2).toNat 25 24 = 0) &&
      decide (0x1000 + 31 * 128 + 64 * 4 ≤ 256 * c.k.scratch) &&
      (let cmd := { c.command (.mstore 0x101 2 0 0x1000 128) with
        tag := some 7, reads := [.acc 0x101 0x102], write := some (.scratch 0x1000 (0x1000 + 31 * 128 + 64 * 4)) }
       decide (Queues c c.s cmd 3) && completes (.mstore 0xD2#8 0xCC#8 0xCE#8) c.s (queuedIn c c.s cmd 3) c)) = true ∧
    inCtx (tG.setImg 0 fun i => { i with grant := none }) (fun c => [Instr.mzero 0xC6#8, .mma 0xC6#8 0xC7#8 0xC8#8, .mmaz 0xC6#8 0xC7#8 0xC8#8,
      .mscacc 0xC6#8 0xC7#8 0xC8#8, .mstore 0xD2#8 0xCC#8 0xCE#8].all fun i => faults i c.s c { code := 0x04, einfo := 0#32 }) = true ∧
    inCtx (tG.setWarp tW fun x => (x.setS 18 0x00800105#32).setS 12 0x100000#32) (fun c =>
      faults (.mstore 0xD2#8 0xCC#8 0xCE#8) c.s c { code := 0x0A, einfo := 0x105#32 } && slotOk c.b.img.claimed true 0x105 == false) = true ∧
    inCtx (tG.setWarp tW fun x => (x.setS 18 0x00800101#32).setS 12 0x100000#32) (fun c =>
      faults (.mstore 0xD2#8 0xCC#8 0xC8#8) c.s c { code := 0x05, einfo := 0#32 } &&
      faults (.mstore 0xD2#8 0xCC#8 0xCE#8) c.s c { code := 0x09, einfo := 0#32 }) = true ∧
    inCtx ((tG.setImg 0 fun i => { i with grant := some { m := 32, n := 64, type := 7 } }).setWarp tW fun x => x.setS 18 0x01800101#32) (fun c =>
      faults (.mstore 0xD2#8 0xCC#8 0xCE#8) c.s c { code := 0x04, einfo := 7#32 }) = true ∧
    inCtx (tG.setWarp tW fun x => x.setS 18 0x00400101#32) (fun c => faults (.mstore 0xD2#8 0xCC#8 0xCE#8) c.s c { code := 0x01, einfo := c.s.base }) = true := by
  decide +kernel

theorem witness_SlotsAndGrants :
    inCtx tG (fun c => c.guard = true ∧ c.Clear [sDst 0xC5#8, sOp 0xC6#8 1] ∧ faults (.tshape 0xC5#8 0xC6#8 5#4) c.s c { code := 4, einfo := 5#32 } ∧
      c.s.matrixBusy c.w.blk c.b.img = false ∧ stands (.tshape 0xC5#8 0xC6#8 14#4) c.s c 4100#64 ∧
      freeRun c.b.img.claimed 0 c.k.oslots 3 = none ∧ freeRun c.b.img.claimed 0 c.k.oslots 2 = some 2 ∧ freeRun c.b.img.claimed 0x100 c.k.aslots 1 = some 0x102 ∧
      ends (.sclaim 0xC5#8 0xC9#8 false) c.s c.s c (c.x.setS 5 0xFFFFFFFF#32) 4100#64 ∧
      ends (.sclaim 0xC5#8 0xCA#8 false) c.s (c.s.setImg c.w.blk fun g => { g with claimed := g.claimed ++ [2, 3] }) c (c.x.setS 5 2#32) 4100#64 ∧
      ends (.sclaim 0xC5#8 0xC8#8 true) c.s (c.s.setImg c.w.blk fun g => { g with claimed := g.claimed ++ [0x102] }) c (c.x.setS 5 0x102#32) 4100#64 ∧
      c.Clear [sOp 0xC6#8 1, sOp 0xCA#8 2] ∧ c.s.cmdsOf c.w.blk = [] ∧ c.b.img.seq = none ∧
      faults (.srel 0xC6#8 0xC9#8) c.s c { code := 0x0A, einfo := 0x102#32 } ∧
      ends (.srel 0xC6#8 0xCA#8) c.s (c.s.setImg c.w.blk fun g => { g with claimed := [0, 1] }) c c.x 4100#64) = true ∧
    grantShape 0 0 255 = (32, 128) ∧ grantShape 2 100 100 = (128, 64) ∧ grantShape 2 96 96 = (96, 64) ∧ grantShape 1 97 33 = (128, 64) := by decide +kernel

/-- The first and the last accumulator fragment of a slot that is the block's, one past it, and a slot that is not. -/
theorem witness_AccumulatorFragments :
    inCtx (tG.setWarp tW fun x => sregs [(19, 63#32), (20, 64#32)] x) (fun c =>
      let p : VPfx := { vp with acb := true, c := 0x10#8, type := 2#4 }
      let n : VPfx := { p with c := 0x20#8 }
      ([0xD3#8, 0xC0#8].all fun b => decide (c.VClear (some p) [vDst 1 8#8, vOp 1 4#8 1, { k := .s, val := b.toNat, code := 2 }]) &&
        ends (.vfadd (some p) 8#8 4#8 b) c.s c.s c (c.x.writeGroup 8 1 0#32 0xFFFFFFFF#32 false fun l =>
          (fadd (envOf c.x (c.eff (some p))) (c.x.lane 4 l).toNat (c.b.img.acc 0x101 (32 * (c.x.sf b.toNat).toNat + l)).toNat).1) 4100#64 &&
        stands (.vfmul (some p) 0xC0#8 4#8 b) c.s c 4100#64) &&
      slotBusy c.s c.w.blk c.b.img 0x101 == false && slotRead c.s c.w.blk c.b.img 0x101 == false &&
      faults (.vfadd (some p) 8#8 4#8 0xD4#8) c.s c { code := 0x03, einfo := 576#32, lanes := some 0xFFFFFFFF#32 } &&
      faults (.vadd (some { n with type := 0#4 }) 8#8 4#8 0xD3#8) c.s c { code := 0x0A, einfo := 0x102#32, lanes := some 0xFFFFFFFF#32 } &&
      faults (.vadd (some { p with type := 9#4 }) 8#8 4#8 0xD3#8) c.s c { code := 0x04, einfo := 0#32 } &&
      (fragmentForms { p with type := 1#4 } c 8#8 4#8 0xD3#8 (fun _ => 0)).all (fun q => 0 < q.2.1.length &&
        (!q.2.1.contains 1 || stands q.1 c.s c 4100#64)) &&
      stands (.vadd (some { p with type := 1#4 }) 0xC0#8 4#8 0xD3#8) c.s c 4100#64) = true ∧
    inCtx (tG.setWarp tW fun x => { sregs [(19, 0#32)] (x.setV 4 (Vector.replicate 32 0x7F800000#32)) with mode := x.mode ||| 0x20000#32 }) (fun c =>
      let p : VPfx := { vp with acb := true, c := 0x10#8, type := 2#4 }
      mFpx c.x.mode && (fmul (envOf c.x (c.eff (some p))) 0x7F800000 (c.b.img.acc 0x101 0).toNat).2 &&
      runs (.vfmul (some p) 8#8 4#8 0xD3#8) c.s) = true := by decide +kernel

/-- Two lanes with two words, and one with a word that is not permitted. -/
def tE (b : Word) : State := tM fun x => x.setV 9 ((Vector.replicate 32 b).set! 31 ((encode (.vadd none 10#8 4#8 5#8)).headD 0#32))

theorem witness_ExecuteFromVector :
    inCtx (tE ((encode (.vsub none 11#8 4#8 5#8)).headD 0#32)) (fun c =>
      let e := c.eff none
      let word := { vDst 1 9#8 with code := 1, reads := true, writes := false }
      let bad := maskOf ((lanesOf e.mask).filter fun l => !wordOk c.x none e (c.x.lane 9 l))
      let ws := wordGroups c.x 9 (e.mask &&& ~~~ bad)
      decide c.Quiet && c.f.vx.isNone && decide (bad = 0#32) && decide (ws.length = 2) && decide (c.VClear none [word]) &&
      nextIs (.vexec none 9#8) c.s (fun t => t.held == some .reg && (((t.warp c.w).bind fun y => y.frag c.f.id).bind Frag.vx).any fun r => r.left == ws)) = true ∧
    (let run := fun (left : List (Word × Mask)) (ready : Nat) (k : Ctx → VexecRun → Bool) =>
       let r : VexecRun := { instr := .vexec none 9#8, word := 0#32, nwords := 1, base := 0#32, act := 0x80000001#32, left, ready }
       inCtx ((tE 0#32).setFrag tW 0 fun f => { f with vx := some r }) fun c => c.f.vx == some r && k c r
     let w := (encode (.vadd none 10#8 4#8 5#8)).headD 0#32
     let bad := (encode (.sts none none 5#8 4#8 w2)).headD 0#32
     run [(w, 1#32)] 9 (fun c _ => nextIs (.vexec none 9#8) c.s fun t => t.held == some .reg) &&
     run [] 0 (fun c _ => stands (.vexec none 9#8) c.s c 4100#64) &&
     run [(w, 1#32)] 0 (fun c _ => ((wordAct none w).toList.flatMap (wordOpnds (c.eff none))).flatMap Opnd.regs != [] && c.x.pending.isEmpty &&
       stands (.vexec none 9#8) c.s c 4100#64) &&
     run [(w, 1#32), (w, 0x80000000#32)] 0 (fun c _ => stands (.vexecq none 4#8 9#8) c.s c 4096#64) &&
     run [(bad, 1#32)] 0 (fun c r => c.k.handler.isNone && runs (.vexec none 9#8) c.s &&
       match wordRun none (c.k.scratch * 256) r.act 1#32 bad { x := c.x, scratch := c.b.img.scratch } with | .error _ => true | _ => false)) = true ∧
    inCtx (tE 0#32) (fun c =>
      let e := c.eff none
      let word := { vDst 1 9#8 with code := 1, reads := true, writes := false }
      decide (c.VClear none [pDst 4#8, word]) && decide (maskOf ((lanesOf e.mask).filter fun l => !wordOk c.x none e (c.x.lane 9 l)) = 1#32) && decide (c.k.handler = none) &&
      runs (.vexec none 9#8) c.s && nextIs (.vexecq none 4#8 9#8) c.s fun t => t.held == some .reg) = true := by decide +kernel
-- ## Device steps: states are `State.reset` with what the step needs

def z : State := State.reset
def foc (s : State) (f : Focus) : State := { s with focus := f }
/-- A message stands in its receiver's queue. -/
def tMsg (s : State) (m : Msg) : State := { s with focus := .msg 7, nextId := 9, net := { s.net with msgs := [(7, m)], inbox := [7] } }
def tHome (t : Tag) : State := { z with coh := { z.coh with home := [(5, t)] } }
def tHeld (h : Nat) (t : Tag) : State := { z with coh := { z.coh with held := [(h, [(5, t)])] } }

theorem witness_NetworkSteps :
    (let m : Msg := { src := .arbiter 0, dst := .arbiter 1, kind := .done 3 }
     let s := { tMsg z m with focus := .endpoint (.arbiter 0), now := 7, net := { msgs := [(7, m)], waiting := [{ msg := 7, half := 0, age := 0 }] } }
     (find s.net.msgs 7).any (fun m => m.src = .arbiter 0) = true ∧ runs .flitInjection s = true) ∧
    (let m : Msg := { src := .arbiter 0, dst := .arbiter 1, kind := .done 3 }
     let f := fun (h : Nat) => ({ msg := 7, half := h, age := 1 } : Flit)
     let s := fun (h : Nat) (l : List Flit) => { z with focus := .endpoint (.arbiter 1), now := 90, net := { msgs := [(7, m)], flying := [(f h, Router.sector 1)], reasm := l } }
     (s 0 []).flitsAt (.sector 1) = [f 0] ∧ (s 0 []).goal (f 0) = .arbiter 1 ∧
     nextIs .flitEjection (s 2 []) (fun t => t.net.reasm = [f 2]) = true ∧ (s 2 [f 1]).flitsAt (.sector 1) = [f 2]) ∧
    (let m : Msg := { src := .arbiter 0, dst := .arbiter 1, kind := .done 3 }
     let s := { z with focus := .router (.sector 0), now := 90, net := { msgs := [(7, m)], flying := [({ msg := 7, half := 0, age := 1 }, Router.sector 0)] } }
     s.flitsAt (.sector 0) = [{ msg := 7, half := 0, age := 1 }] ∧ (s.outputs (.sector 0)).any (fun o => o.1 = .hop (.sector 1) && 0 < o.2) = true ∧
     (s.flitsAt (.sector 0)).length ≤ s.outputRoom (.sector 0) ∧
     productive (.sector 0) (.sector 1) (.hop (.sector 1)) = true ∧ nextIs .flitArrival s (fun t => t.net.flying.map (fun p => (p.1.ready, p.1.came)) =
       [(20, some (.sector 0))]) = true) := by decide +kernel

theorem witness_PowerSteps :
    nextIs .powerModeClockSettle { z with power := { z.power with settle := some (1, 5) }, now := 5 } (fun t => t.power.settle = none) = true ∧
    (let cap := capMilliwatts 0
     let s := fun (k low mw : Nat) => ({ z with power := { z.power with k, low }, focus := .power mw } : State)
     nextIs .powerWindowEnd (s 1 3 (cap + 1)) (fun t => t.power.k = 1 ∧ t.power.low = 0) = true ∧
     95 * cap < 100 * cap ∧ nextIs .powerWindowEnd (s 9 3 cap) (fun t => t.power.k = 9 ∧ t.power.low = 0) = true ∧
     100 * (95 * cap / 100) ≤ 95 * cap ∧ nextIs .powerWindowEnd (s 9 8 (95 * cap / 100)) (fun t => t.power.k = 9 ∧ t.power.low = 9) = true ∧
     nextIs .powerWindowEnd (s 15 9 0) (fun t => t.power.k = 16) = true) ∧
    z.dieEnabled 31 = true ∧ nextIs .temperatureReport (foc z (.temp 31 1050)) (fun t => (t.die 31).hot) = true ∧
    nextIs .temperatureReport (foc z (.temp 31 1049)) (fun t => !(t.die 31).hot) = true ∧
    nextIs .temperatureReport (foc z (.temp 48 1150)) (fun t => t.agenda = [(.deviceReset, .none)]) = true ∧
    (let s := { z with now := 36 * 512, focus := .die 3 }
     (s.die 3).phaseEnd ≤ s.now ∧ nextIs .refreshPhaseEnd s (fun t => (t.die 3).phase = 1) = true) := by decide +kernel

theorem witness_TokenProtocol :
    (let req := fun (w : Bool) => ({ src := .l2 0 0, dst := homeOf 5, kind := .request w true (.die 0), line := 5, inc := z.lineInc 5 } : Msg)
     let s := fun (w : Bool) (t : Tag) => tMsg (tHome t) (req w)
     z.inForce (mirrorOf 5 none) 5 = none ∧ z.ready 5 = true ∧ ((s true {}).takeMsg 7).isSome = true ∧ (s true {}).homeKeeps 5 = false ∧
     find z.net.msgs z.nextId = none ∧ risingFrom 0 (look (tHeld 3 { tokens := 2 }).coh.held 3 []) = true ∧
     ([5, 6].all fun l => tokenSum (tHeld 3 { tokens := 2 }) l = if l = 5 then 66 else 64) ∧
     ([(true, 64, true), (true, 3, false), (true, 0, false), (false, 64, true), (false, 2, true), (false, 1, true), (false, 2, false)].all fun c =>
       nextIs .transientRequest (s c.1 { tokens := c.2.1, owner := c.2.2 }) fun t =>
         (t.homeTag 5).tokens = if c.1 then 0 else if c.2.1 = 2 ∧ c.2.2 then 1 else if c.2.2 then 0 else c.2.1) = true) ∧
    (let fw := fun (w : Bool) => ({ src := homeOf 5, dst := .l2 3 0, kind := .forward w (some (.die 0)), line := 5 } : Msg)
     let s := fun (w : Bool) (t : Tag) => tMsg (tHeld 3 t) (fw w)
     holderAt 5 (.l2 3 0) = some (.die 3) ∧ (s true {}).keeps (.die 3) 5 = false ∧ (s true {}).inForce 3 5 = none ∧
     ([(true, 4, true, 0), (false, 2, true, 1), (false, 1, true, 0), (false, 4, false, 4)].all fun c =>
       nextIs .forwardedRequest (s c.1 { tokens := c.2.1, owner := c.2.2.1 }) fun t => (t.held' (.die 3) 5).tokens = c.2.2.2) = true) ∧
    (let tk := fun (dst : Endpoint) (n inc : Nat) => ({ src := homeOf 5, dst, kind := .tokens true, line := 5, tokens := n, owner := true, inc } : Msg)
     nextIs .tokenArrival (tMsg (tHeld 3 { tokens := 2 }) (tk (.l2 3 0) 62 (z.lineInc 5))) (fun t => (t.held' (.die 3) 5).tokens = 64) = true ∧
     nextIs .tokenArrival (tMsg (tHeld 3 { tokens := 2 }) (tk (.l2 3 0) 62 (z.lineInc 5 + 1))) (fun t => (t.held' (.die 3) 5).tokens = 2) = true ∧
     (tHome { tokens := 3 }).inForce (mirrorOf 5 none) 5 = none ∧ holderAt 5 (homeOf 5) = none ∧
     nextIs .tokenArrival (tMsg (tHome { tokens := 3 }) (tk (homeOf 5) 61 (z.lineInc 5))) (fun t => (t.homeTag 5).tokens = 64) = true) ∧
    nextIs .holderEviction (foc (tHeld 3 { tokens := 2 }) (.held (.die 3) 5)) (fun t => (t.held' (.die 3) 5).tokens = 0) = true ∧
    nextIs .holderEviction (foc { tHeld 32 { tokens := 2 } with cxl := { z.cxl with hostLines := [(5, true)] } } (.held .proxy 5)) (fun t =>
      (t.held' .proxy 5).tokens = 2) = true ∧
    nextIs .llcEviction (foc { z with coh := { z.coh with llc := [(5, {})] } } (.line 5)) (fun t => t.coh.llc = [] && t.hbm.reqs.isEmpty) = true ∧
    nextIs .llcEviction (foc { z with coh := { z.coh with llc := [(5, { dirty := true })] } } (.line 5)) (fun t => t.hbm.reqs.length = 1) = true ∧
    (let r := fun (n : Nat) => ({ h := some (.die 3), line := 5, write := true, vd := 0, inc := 0, time := 0, issues := n } : TokReq)
     let s := fun (n : Nat) => { foc z (.held (.die 3) 5) with now := 36000 * n, coh := { z.coh with reqs := [r n] } }
     (s 2).satisfied (some (.die 3)) 5 true = false ∧ nextIs .requestReissue (s 2) (fun t => t.coh.reqs.map TokReq.issues = [3]) = true ∧
     nextIs .requestReissue (s 3) (fun t => t.coh.reqs.map TokReq.persistent = [true]) = true) := by decide +kernel

theorem witness_PersistentRequests :
    (let p : Msg := { src := .l2 0 0, dst := .arbiter 0, kind := .persist true (.die 0), line := 13 }
     let q : PReq := { line := 5, req := .die 1, write := false }
     let k := fun (b : Bank) (m : Msg) => tMsg { z with coh := { z.coh with banks := [(5, b)] } } m
     nextIs .persistentRequest (k { active := some q, fifo := List.replicate 63 q } p) (fun t => (t.bank 0 5).fifo.length = 64) = true ∧
     nextIs .persistentRequest (k {} p) (fun t => (t.bank 0 5).active.isSome) = true ∧
     nextIs .persistentDeactivation (k { active := some q } { p with src := hEnd 5 (.die 1), line := 5, kind := .done 5 }) (fun t => (t.bank 0 5).deactivating) = true ∧
     nextIs .persistentDeactivation (k { active := some q } { p with kind := .done 5 }) (fun t => !(t.bank 0 5).deactivating) = true ∧
     nextIs .persistentDeactivation (k { active := some q, deactivating := true, acks := 1 } { p with src := hEnd 5 (.die 1), line := 5, kind := .done 5 })
       (fun t => (t.bank 0 5).acks = 1) = true ∧
     ({} : Bank).last ≠ some p.line ∧ q.line ≠ p.line ∧
     nextIs .deactivationAcksDone (k { active := some q, acks := 2 } { p with kind := .ack 0 5 }) (fun t => (t.bank 0 5).acks = 1) = true ∧
     nextIs .deactivationAcksDone (k { active := some q, acks := 1 } { p with kind := .ack 0 5 }) (fun t => (t.bank 0 5).active = some q) = true ∧
     nextIs .deactivationAcksDone (k { active := some q, acks := 1, deactivating := true } { p with kind := .ack 0 5 }) (fun t =>
       (t.bank 0 5).active = none && (t.bank 0 5).last = some 13) = true ∧
     nextIs .deactivationAcksDone (k { active := some q, acks := 1, deactivating := true, fifo := [q] } { p with kind := .ack 0 5 }) (fun t =>
       (t.bank 0 5).active = some q && (t.bank 0 5).fifo.isEmpty) = true) ∧
    (let a : Msg := { src := .arbiter 2, dst := .mirror 3, kind := .activate 2 5 true (.die 0), line := 13 }
     (tMsg z a).takeMsg 7 ≠ none ∧ runs .persistentActivation (tMsg z a) = true ∧
     runs .persistentDeactivation (tMsg z { a with kind := .deactivate 2 5 }) = true) := by decide +kernel

/-- A far addition to address 640, alone at its station, behind another of its class, and behind one of another width. -/
def tStn (gs : List Group) : State := z.setStation (locSlice 5) fun _ => { groups := gs }
def mem (op arg : Nat) : Member := { op, arg, module := z.fabric.module, src := .l2 0 0 }
def grp (op width : Nat) : Group := { line := 5, addr := 640, width, inc := z.lineInc 5, cls := classOf op 1, op, type := 1, bound := 0, members := [mem 3 9], vd := 0, time := 0 }

/-- The running warp waits for its far addition, member 3. -/
def tFar (dst : Option (Nat × Bool)) (now : Nat) (f : Focus) : State :=
  let a : Access := { id := 4, kind := .far 0 1, line := some 5, lanes := [(0, 640)], width := 4, dst, pc := 0#64, frag := 0, instr := 4, ops := [(0, 3)] }
  { foc (tX fun x => { x with accesses := [a] }.addClass 0 1) f with now }

theorem witness_StationSteps :
    (let m : Msg := { src := .l2 0 0, dst := homeOf 5, kind := .atomic 0 1 640 4 0 [mem 4 2], line := 5, inc := z.lineInc 5 }
     nextIs .atomicStationArrival (tMsg (tStn []) m) (fun t => (t.station (locSlice 5)).groups.length = 1) = true ∧
     nextIs .atomicStationArrival (tMsg (tStn [grp 0 4]) m) (fun t => (t.station (locSlice 5)).groups.map (fun g => g.members.length) = [2]) = true ∧
     nextIs .atomicStationArrival (tMsg (tStn [grp 0 4]) { m with inc := m.inc + 1 }) (fun t =>
       (t.station (locSlice 5)).groups.map (fun g => g.members.length) = [1]) = true ∧
     runs .outcomeQuery (tMsg (tStn [grp 0 4]) { m with kind := .query z.fabric.module 3 }) = true ∧ (tStn [grp 0 4]).byOp 3 = none ∧
     runs .outcomeQueryAnswer (tMsg z { m with dst := .l2 0 0, kind := .answer z.fabric.module 3 1 9 }) = true ∧
     (let q := fun (what : Nat) => tMsg (tFar (some (3, false)) 0 .none) { m with dst := .l2 0 0, kind := .answer z.fabric.module 3 what 9 }
      (q 0).byOp 3 ≠ none ∧ nextIs .outcomeQueryAnswer (q 0) (fun t => (t.access tW 4).isSome) = true ∧
      nextIs .outcomeQueryAnswer (q 1) (fun t => (t.warp tW).map (fun x => x.lane 3 0) = some 9#32) = true ∧
      nextIs .outcomeQueryAnswer (q 2) (fun t => (t.access tW 4).isNone && (t.warp tW).any fun x => !x.flags.isEmpty) = true)) ∧
    (let s := foc (tStn [grp 0 4]) (.group (locSlice 5) 0 true)
     s.mayLeave (s.station (locSlice 5)) 0 (grp 0 4) = true ∧ s.satisfied none 5 true = true ∧ s.ready 5 = true ∧ s.isLost 5 = false ∧
     nextIs .groupApply s (fun t => t.mem.readNat 640 4 = 9) = true ∧
     runs .groupReply (foc (tStn [{ grp 0 4 with applied := true, results := [0] }]) (.group (locSlice 5) 0 true)) = true ∧
     nextIs .groupReply (foc (tStn [{ grp 0 4 with applied := true, record := true }]) (.group (locSlice 5) 0 false)) (fun t => t.net.msgs.isEmpty) = true) ∧
    (applyMembers 0 0 0xFFFFFFFF [mem 1 2, mem 2 3]).2 = 4 ∧ (applyMembers 0 0 0xFFFFFFFF [mem 1 2, mem 2 3]).1 = [0xFFFFFFFF, 1] ∧
    ({ groups := [grp 0 4] } : Station).lookup z.fabric.module 3 = (0, 0) ∧ ({ log := [(3, 0, 8), (3, 0, 9)] } : Station).lookup 0 3 = (1, 9) ∧
    ({} : Station).lookup 0 3 = (2, 0) ∧
    (let s := tFar none 720000 (.access tW 4)
     (s.access tW 4).isSome = true ∧ combinable 0 1 = true ∧ hostLine 5 = false ∧
     nextIs .combineTimerExpiry s (fun t => (t.access tW 4).map Access.timer = some 720000 && t.net.msgs.length = 1) = true) := by decide +kernel
/-- The platen's holder has all tokens of these lines. -/
def platen (lines : List Nat) (s : State) : State :=
  { s with coh := { s.coh with
    home := lines.map fun l => (l, {}), held := [(32, lines.map fun l => (l, { tokens := 64, owner := true, valid := true }))] } }
/-- As `tP`, and those of lines 32 and 33. -/
def own (s : State) : State := platen [32, 33, 64, 96] s
/-- The active device of log 2 with page tables that map its page 1 to frame 1 for every access, whose lines the platen holds, with
capabilities. -/
def tP : State := platen [64, 96] <|
  let s := tCap tI
  let m := ((((Memory.storeNat [] 0x2000 8 0x2003).storeNat 0x2008 8 0x1035).storeNat 0x3000 8 0x3003).storeNat 0x3008 8 (0x101D + 2 ^ 54)).storeNat
    0x3010 8 (0x201D + 2 ^ 54)
  ({ s with mem := m, walkCache := [(0, 0x2000, 0x2003), (0, 0x3000, 0x3003)], hbm := { s.hbm with tags := [(1, { key := 1, bound := true }), (2, { key := 1, bound := true })] } }).setVd 0
    fun v => { v with roots := [(0, 0x2001#64, 0#64)], s2root := 0x3000#64 }
/-- A request for its line 32, with a signal in line 33. -/
def tIn (k : Nat) : InReq := { plane := 0, srcModule := 1, srcVd := 0, op := 3, vd := 0, fa := 0x1000, mask := 3#128, data := 0x0201#1024, kind := k
                               members := [(3, 5, false, 1)], sig := 0x1080 }
/-- The hypothesis `Arrives`; `k` gets the state after the translations. -/
def arrives (s : State) (kind : Nat) (q : InReq) (pas : List Nat) (k : State → Bool) : Bool :=
  (s.vd q.vd).open && s.fabric.held.all (fun o => o.q != q && !HeldReq.sameLine { q, kind } o) &&
    match s.fabricTrans q.vd (HeldReq.uses { q, kind }) with
    | (t, ts) => decide (ts = ((HeldReq.uses { q, kind }).zip pas).map fun e => (e.1.1, Tr.ok e.2)) && decide (ts.length = pas.length) && k t

theorem witness_HbmSteps :
    (let r : HbmReq := { id := 4, line := 5, vd := 0, write := false, time := 0 }
     let n := 192 * stackOf 640 + pchOf 640
     let s := fun (b : Bucket) => (({ z with hbm := { z.hbm with reqs := [r], tags := [(0, { key := 1, bound := true })] } }).setBucket (mdieOf 640) 0 fun _ => b)
     let at0 := fun (b : Bucket) => foc (s b) (.channel (stackOf 640) (pchOf 640))
     (at0 {}).metered r = false ∧ (at0 {}).slotClass r = 0 ∧ runs .pseudoChannelSlot (at0 {}) = true ∧ (z.slotChoice n [r]).isSome = true ∧
     (at0 { en := true, level := 1 }).metered r = true ∧ (at0 { en := true, level := 1 }).slotClass r = 0 ∧
     runs .pseudoChannelSlot (at0 { en := true, level := 1 }) = true ∧
     (at0 { en := true }).slotClass r = 1 ∧ nextIs .pseudoChannelSlot (at0 { en := true }) (fun t => t.hbm.reqs.map HbmReq.stage = [1]) = true ∧
     nextIs .quotaRefill (s { rate := 5, depth := 3 }) (fun t => (t.bucket (mdieOf 640) 0).level = 3) = true) ∧
    (let s := fun (stage : Nat) (w ok : Bool) => foc { z with hbm := { z.hbm with reqs := [{ id := 4, line := 5, vd := 0, write := w, time := 0, stage }], written := [5] } } (.lineOk 5 ok)
     (s 1 false true).macOk 5 = true ∧ (s 1 false true).ready 5 = false ∧ z.ready 5 = true ∧ nextIs .hbm4eReadComplete (s 1 false true) (fun t => t.hbm.reqs.isEmpty && (find t.coh.llc 5).isSome && t.agenda = [(.persistentActivation, .line 5)]) = true ∧
     nextIs .hbm4eReadComplete (s 1 false false) (fun t => t.hbm.reqs.map HbmReq.stage = [2]) = true ∧
     nextIs .hbm4eReadRetryComplete (s 2 false true) (fun t => t.hbm.transientErrors = [5]) = true ∧
     nextIs .hbm4eReadRetryComplete (s 2 false false) (fun t => t.isLost 5) = true ∧
     nextIs .hbm4eReadRetryComplete (foc z (.weightRetry 2 5 false)) (fun t => (t.die 2).wlost = [5]) = true ∧
     nextIs .hbm4eReadRetryComplete (foc z (.weightRetry 2 5 true)) (fun t => (t.die 2).wlost = [] && (t.die 2).wtransient = [5]) = true ∧
     (let u := fun (m : Nat) => foc { s 1 true true with hbm := { (s 1 true true).hbm with groups := [(groupKey 5, { major := m, minors := [(memberOf 640, 127)] })] } } (.line 5)
      z.frozen 5 = false ∧ (u 0).exhaustedAt 5 = none ∧ (u 0).frozen 5 = false ∧ runs .hbm4eWrite (u 0) = true)) ∧
    (({ minors := [(3, 126)] } : Counters).bump 3 127).minors = [(3, 127)] ∧ (({ minors := [(3, 127)] } : Counters).bump 3 127).major = 1 ∧
    nextIs .sramUncorrectableError (foc (tHeld 3 { tokens := 2, owner := true, dirty := true }) (.sram (some (.die 3)) 5 false)) (fun t =>
      (t.held' (.die 3) 5).tokens = 0) = true ∧
    nextIs .sramUncorrectableError (foc (tHeld 3 { tokens := 2 }) (.sram (some (.die 3)) 5 true)) (fun t => t.agenda = [(.fatalDieError, .die 3)]) = true ∧
    nextIs .sramUncorrectableError (foc z (.sram none 5 true)) (fun t => t.agenda = [(.deviceReset, .none)]) = true ∧
    nextIs .sramUncorrectableError (foc { z with coh := { z.coh with llc := [(5, { dirty := true })] } } (.sram none 5 false)) (fun t => t.isLost 5) = true ∧
    (let s := foc { z.setVd 0 (fun v => { v with kill := some { fromState := .active, erased := true, frames := [3] } }) with now := 60, mem := [(0x3001, 7#8)] } (.frame 3 1026)
     (let r := { s with hbm := { s.hbm with retired := [3] } }
      bit 1026 10 = true ∧ nextIs .tokenRegeneration r (fun t => t.mem = r.mem) = true) ∧
     s.watermark < (s.now - 0) / 15 ∧ s.mixes [3] 3 2 = false ∧ nextIs .tokenRegeneration s (fun t => t.mem.isEmpty && (t.tag 0x3000).bound) = true) := by
  decide +kernel

theorem witness_FabricRequests :
    ([Instr.rldRequest, .rstRequest, .rvaddRequest, .rwsigRequest].all fun i => nextIs i (foc z (.remote (tIn 0))) fun t =>
      t.out = [.fabricReply 1 3 true []]) = true ∧ (z.vd 0).open = false ∧
    nextIs .ratomRequest (foc z (.remote (tIn 0))) (fun t => t.out = [.fabricReply 1 3 true []]) = true ∧
    (let s := fun (k : Nat) => foc tP (.remote (tIn k))
     arrives (own (s 0)) 0 (tIn 0) [0x1000] (fun t => t.isLost 32 == false && decide (May t 32 false) && !(t.held' .proxy 32).lost) = true ∧
     nextIs .rldRequest (own (s 0)) (fun t => t.out.length = 1) = true ∧
     arrives (own (s 1)) 1 (tIn 1) [0x1000] (fun t => decide (May t 32 true)) = true ∧
     nextIs .rstRequest (own (s 1)) (fun t => t.mem.read 0x1000 = 1#8 && t.out.length = 1) = true ∧
     arrives (s 1) 2 (tIn 1) [0x1000] (fun _ => nextIs .ratomRequest (s 1) fun t => t.net.msgs.length = 1 && t.fabric.held.map HeldReq.half = [1]) = true ∧
     hostLine 32 = false ∧
     arrives (s 2) 3 (tIn 2) [0x1000] (fun t => t.isLost 32 == false && t.satisfied none 32 true && t.ready 32) = true ∧
     nextIs .rvaddRequest (s 2) (fun t => t.fabric.held.map HeldReq.half = [1]) = true ∧
     nextIs .rvaddRequest { s 2 with fabric := { tP.fabric with held := [{ q := tIn 2, kind := 3, half := 1 }] } } (fun t => t.fabric.held.isEmpty) = true ∧
     arrives (own (s 4)) 4 (tIn 4) [0x1000, 0x1080] (fun t => May t 32 true) = true ∧
     nextIs .rwsigRequest (own (s 4)) (fun t => t.net.msgs.length = 1 && t.mem.read 0x1000 = 1#8 && t.fabric.held.map HeldReq.half = [1]) = true ∧
     (let m : Msg := { src := homeOf 33, dst := z.portFor 0, kind := .reply 1 3 none false, line := 33 }
      let r := tMsg { own (s 4) with fabric := { tP.fabric with held := [{ q := tIn 4, kind := 4, half := 1 }] } } m
      (match m.dst with | .port _ => true | _ => false) = true ∧ (r.signalOf 1 3).isSome = true ∧
      nextIs .groupReply r (fun t => t.fabric.held.isEmpty && t.out = [.fabricReply 1 3 false []]) = true) ∧
     nextIs .rvaddRequest { s 2 with hbm := { tP.hbm with lost := [32] } } (fun t => t.out = [.fabricReply 1 3 true []]) = true ∧
     nextIs .rldRequest { own (s 0) with hbm := { tP.hbm with lost := [32] } } (fun t => t.out = [.fabricReply 1 3 true []]) = true) ∧
    (addHalf 2 0xF0 (List.replicate 64 0#8) (List.replicate 64 0x40#8)).take 5 = [0#8, 0#8, 0#8, 0#8, 0x40#8] := by decide +kernel

/-- A request of kind `k` with op id 3 on plane 0. -/
def tOut (k : Nat) : OutReq := { kind := k, plane := 0, port := 0, srcModule := 0, srcVd := 0, op := 3, module := 5, vd := 0, group := 0, fa := 0x1000
                                 sig := 0, type := 0, data := 0#1024, mask := 0#128, members := [], nr := false }
/-- An access of kind `k` of the running warp has been sent on plane 0. -/
def tSent (k : Nat) (f : Focus) (now : Nat) : State :=
  foc { tP.setWarp tW (fun x => { x with accesses := [{ id := 4, kind := .remote k 2, line := none, lanes := [(0, 0x1000)], width := 4, pc := 0#64, frag := 0, instr := 4
                                                        ops := [(0, 3)], sent := 1, cap := 4095, fa := 0x1000, req := some (tOut k) }] }.addClass 0 1) with now } f
def tPort (p st : Nat) (f : Focus) : State := foc (z.setPort p fun k => { k with state := st }) f

theorem witness_FabricReplySteps :
    (let s := fun (b : Bool) => tSent 1 (.reply 3 b 0#1024) 9
     (s true).byPacket 3 ≠ none ∧ ((s true).blk 0).bind Block.cluster = some 0 ∧ runs .fabricReply (s false) = true ∧
     nextIs .fabricReply (s true) (fun t => (t.warp tW).map (fun x => x.accesses.length) = some 0) = true) ∧
    (let o : Access := { id := 4, kind := .remote 1 2, line := none, lanes := [], width := 4, pc := 0#64, frag := 0, instr := 4, req := some (tOut 1) }
     let s := foc { z with fabric := { z.fabric with orphans := [(0, o)] } } (.reply 3 false 0#1024)
     s.byPacket 3 = none ∧ (s.orphan 3).isSome = true ∧ nextIs .fabricReply s (fun t => t.fabric.orphans.isEmpty) = true) ∧
    (let s := tSent 1 (.access tW 4) (36 * 500000)
     s.planeHandled 0 = false ∧ nextIs .fabricTimeout s (fun t => (t.warp tW).map (fun x => x.accesses.length) = some 0) = true) ∧
    (let s := own ((tSent 5 (.reduced 3 [0#1024, 0#1024]) 9).setVd 0 fun v => { v with
       caps := [(4095, BitVec.ofNat 256 (0xFFC00005 + 2 ^ 32 + 2 ^ 64 * 0x1000 + 2 ^ 128 * 4096 + 2 ^ 192 * 128))] })
     let q : InReq := { plane := 0, srcModule := s.fabric.module, srcVd := 0, op := 3, vd := 0, fa := 0x1000, mask := BitVec.allOnes 128
                        data := reduceLines 2 [0#1024, 0#1024], kind := 2, members := [], sig := 0x1080 }
     (match s.byOp 3 with | some (_, a) => a.payload.1 == 0#1024 | none => false) = true ∧
     arrives s 5 q [0x1000, 0x1080] (fun t => May t 32 true) = true ∧ nextIs .rredResult s (fun t => t.net.msgs.length = 1) = true) ∧
    nextIs .portRetryExhausted (foc (z.setPort 5 fun k => { k with state := 5, restoring := true }) (.plane 5 1)) (fun t => (look t.fabric.ports 5 {}).state = 3) = true ∧
    nextIs .planeRemapNotice (foc ((z.setPort 5 fun k => { k with state := 2 }).movePlane 5 6) (.plane 5 5)) (fun t => (look t.fabric.ports 5 {}).restoring) = true ∧
    nextIs .portRetryExhausted (tPort 5 2 (.plane 5 1)) (fun t => (look t.fabric.ports 5 {}).state = 3 && (look t.fabric.ports 5 {}).retries = 1) = true ∧
    nextIs .portDrainEnd (tPort 5 3 (.plane 5 16)) (fun t => (look t.fabric.ports 5 {}).state = 4) = true ∧
    nextIs .portDrainEnd (tPort 5 3 (.plane 5 15)) (fun t => (look t.fabric.ports 15 {}).planes.getLsbD 5) = true ∧
    nextIs .planeRemapNotice (foc z (.plane 5 15)) (fun t => t.carrierOf 5 = some 15) = true ∧
    nextIs .planeRemapNotice (foc z (.plane 5 16)) (fun t => t.carrierOf 5 = none) = true ∧
    nextIs .linkRetrained (tPort 5 2 (.plane 5 3)) (fun t => (look t.fabric.ports 5 {}).retries = 3) = true ∧
    nextIs .linkRetrained (tPort 5 4 (.port 5)) (fun t => (look t.fabric.ports 5 {}).state = 5) = true ∧
    nextIs .fportctlRestore (tPort 5 5 (.port 5)) (fun t => (look t.fabric.ports 5 {}).restoring) = true ∧
    nextIs .planeRestoreComplete (foc (z.setPort 5 fun k => { k with state := 5, restoring := true }) (.port 5)) (fun t =>
      (look t.fabric.ports 5 {}).state = 2) = true := by decide +kernel

theorem witness_CxlSteps :
    (let s := fun (t : CxlTxn) => foc { z with now := 3600000, cxl := { z.cxl with table := [t] } } (.txn 4)
     let t : CxlTxn := { id := 4, vd := 0, line := hostBase / 128, kind := 0, port := 2, time := 0 }
     z.linkWorks 2 = true ∧ nextIs .cxlTransactionComplete (s t) (fun u => u.cxl.table.isEmpty) = true ∧
     nextIs .cxlTransactionComplete (s { t with orphan := true }) (fun u => u.cxl.table.isEmpty && u.coh.llc.isEmpty) = true ∧
     nextIs .cxlTransactionComplete (s { t with kind := 1, data := 7#1024 }) (fun u => u.cxl.table.isEmpty && u.cxl.apart = [(hostBase / 128, 7#1024)]) = true ∧
     nextIs .cxlCompletionTimeout (s t) (fun u => u.cxl.table.map CxlTxn.retried = [true]) = true ∧
     nextIs .cxlCompletionTimeout (s { t with retried := true }) (fun u => u.cxl.table.isEmpty) = true) ∧
    (let own := fun (s : State) => { s with coh := { s.coh with held := [(32, [(5, { tokens := 64, owner := true, valid := true })])], home := [(5, {})] } }
     let s := fun (w : Option LineData) => foc (own z) (.hostReq 5 w)
     z.recalling 5 = false ∧ (s none).satisfied (some .proxy) 5 true = true ∧
     nextIs .hostCxlRequest (s none) (fun t => t.cxl.hostLines = [(5, false)]) = true ∧
     nextIs .hostCxlRequest (s (some 7#1024)) (fun t => t.cxl.hostLines = [(5, true)] && t.mem.read 640 = 7#8) = true ∧
     (let pcie := fun (w : Option LineData) => { s w with cxl := { z.cxl with cxlMode := false } }
      (pcie none).agentMay 5 true = true ∧ nextIs .hostCxlRequest (pcie none) (fun t => t.out = [.cxl 4 5]) = true ∧
      nextIs .hostCxlRequest (pcie (some 7#1024)) (fun t => t.mem.read 640 = 7#8) = true)) ∧
    (let l := hostBase / 128
     nextIs .hostSnoop (foc z (.hostReq l none)) (fun t => t.out = [.cxl 3 l]) = true ∧ z.satisfied none l true = true ∧ hostBase ≤ 128 * l ∧ 128 * l < 2 * hostBase ∧
     nextIs .hostSnoop (foc z (.hostReq l (some 7#1024))) (fun t => t.mem.read hostBase = 7#8) = true ∧
     nextIs .hostSnoop (foc { z with cxl := { z.cxl with cxlMode := false } } (.hostReq l (some 7#1024))) (fun t => t.cxl.apart = [(l, 7#1024)]) = true) ∧
    (let s := fun (d : Option LineData) => foc { z with cxl := { z.cxl with table := [{ id := 4, vd := 0, line := 5, kind := 2, port := 2, time := 0 }], hostLines := [(5, true)] } } (.backInv 5 d)
     nextIs .backInvalidationResponse (s none) (fun t => t.cxl.table.isEmpty && t.cxl.hostLines.isEmpty) = true ∧
     runs .backInvalidationResponse (s (some 7#1024)) = true) ∧
    nextIs .cxlLinkDown (foc z (.port 2)) (fun t => !t.linkWorks 2) = true ∧
    nextIs .cxlLinkRetrain (foc { z with cxl := { z.cxl with linkUp := z.cxl.linkUp.setIfInBounds 2 false } } (.port 2)) (fun t => t.linkWorks 2) = true ∧
    (let t : CxlTxn := { id := 4, vd := 0, line := hostBase / 128, kind := 0, port := 2, time := 0, retried := true }
     let s := { z with cxl := { z.cxl with linkUp := z.cxl.linkUp.setIfInBounds 2 false, table := [t] } }
     nextIs .cxlLinkRetrain (foc s (.port 2)) (fun u => u.out = [.cxl 0 (hostBase / 128)]) = true ∧
     nextIs .cxlLinkRetrain (foc s (.capacity 2 0)) (fun u => !u.cxl.cxlMode) = true) ∧
    nextIs .expanderRetrain (foc z (.capacity 1 5)) (fun t => vget t.cxl.capacity 1 0 = 5) = true := by decide +kernel

/-- Mailbox arguments, in recovery or not, with VD 0 in state `st` after `START_VD`s of its die map. -/
def tMb (st : VdState) (args : List Nat) (code : Nat) : State :=
  foc ({ z with pf := { z.pf with mbarg := Vector.ofFn fun k : Fin 8 => BitVec.ofNat 64 (args.getD k.val 0) } }.setVd 0 fun v =>
    { v with state := st, vdie := 0x8000#16 :: v.vdie.drop 1 }) (.mailbox 9 code)
def status (t : State) : Nat := t.pf.mbstat.toNat / 256 % 256

theorem witness_Mailbox :
    (let t := z.mbEnd 0xFFFF 0xFF [1, 2, 3, 2 ^ 64 - 1]
     t.pf.mbstat.toNat = 0xFFFFFF00 ∧ (vget t.pf.mbres 3 0#64).toNat = 2 ^ 64 - 1 ∧ (look t.pf.msix 0 {}).pending = true) ∧
    z.boot.recovery = false ∧ 511 < z.boot.record.maxVds ∧ z.freeKey = some 1 ∧ ((tMb .configured [] 0).vd 0).nvdie = 1 ∧
    ([(Instr.createVd, VdState.free, [0, 255, 512], 0), (.startVd, .configured, [0], 0), (.suspendVd, .active, [0], 0), (.resumeVd, .suspended, [0], 0),
      (.resetVd, .active, [0], 0), (.destroyVd, .faulted, [0], 0), (.setWeight, .active, [0, 1], 0), (.queryVd, .free, [0, 1], 0), (.startVd, .active, [0], 3),
      (.suspendVd, .faulted, [0], 3), (.resumeVd, .active, [0], 3), (.setPowerMode, .free, [2], 0), (.setPowerMode, .free, [3], 2), (.createVd, .free, [512, 1, 1], 5),
      (.loadImage, .free, [], 3), (.unknownCommand, .free, [], 1)].all fun c => nextIs c.1 (tMb c.2.1 c.2.2.1 11) fun t => status t = c.2.2.2) = true ∧
    nextIs .queryVd ((tMb .active [0, 2] 0).setVd 0 fun v => { v with weight := 255 }) (fun t => (vget t.pf.mbres 1 0#64).toNat = 4112) = true ∧
    (let s := { tMb .free [] 0 with boot := { z.boot with recovery := true } }
     parseRecord (s.mem.bytes hostBase 0) = none ∧ nextIs .loadImage s (fun t => status t = 2) = true ∧ nextIs .createVd s (fun t => status t = 3) = true) := by
  decide +kernel
-- ## The virtual device controller, queues, packets

theorem witness_TableWrites :
    (let s := fun (st : VdState) (i val : Nat) => foc (z.setVd 4 fun v => { v with state := st }) (.entry 4 i val)
     z.vdieOk (modAt (z.vd 4).vdie 0 fun _ => 0x801F#16) 0 = true ∧ z.vdieOk (modAt (z.vd 4).vdie 1 fun _ => 0x801F#16) 1 = false ∧
     nextIs .virtualDieTableWrite (s .configured 0 0xFFFF) (fun t => (t.vd 4).nvdie = 1) = true ∧
     ([(VdState.configured, 32, 0), (.active, 0, 0x801F), (.killing, 1, 0x801F)].all fun c =>
       nextIs .virtualDieTableWrite (s c.1 c.2.1 c.2.2) fun t => t.out = [.tableError 1]) = true ∧
     nextIs .interruptRemapWrite (s .active 63 0x80000140) (fun t => (t.vd 4).remap = [(63, 0x80000140#32)]) = true ∧
     nextIs .interruptRemapWrite (s .active 64 0x80000140) (fun t => t.out = [.tableError 7]) = true ∧
     nextIs .interruptRemapWrite (s .active 0 0x80000180) (fun t => t.out = [.tableError 7]) = true ∧
     nextIs .vdControlBlockWrite (s .configured 0 (1 + 256 * 255 + 65536 * 512)) (fun t => (t.vd 4).weight = 255 && (t.vd 4).maxClusters = 512) = true ∧
     VdState.configured.code = 1 ∧ lifecycle ((s .killing 0 1).vd 4) 1 = false ∧
     nextIs .interruptRemapWrite (s .active 0 0x80000007) (fun t => (t.vd 4).remap = [(0, 0x80000007#32)]) = true ∧
     nextIs .interruptRemapWrite (s .active 0 0x80000008) (fun t => t.out = [.tableError 7]) = true ∧
     VdState.free.code = 0 ∧ nextIs .vdControlBlockWrite (s .free 0 (0 + 256 * 7)) (fun t => (t.vd 4).weight = 7) = true ∧
     nextIs .vdControlBlockWrite (s .free 0 1) (fun t => t.out = [.tableError 0]) = true ∧
     nextIs .vdControlBlockWrite (s .killing 0 1) (fun t => t.out = [.tableError 0]) = true ∧
     nextIs .vdControlBlockWrite (s .active 1 0x3000) (fun t => (t.vd 4).s2root = 0x3000#64) = true ∧
     nextIs .vdControlBlockWrite (s .active 1 0x18000000000) (fun t => t.out = [.tableError 4]) = true ∧
     nextIs .vdControlBlockWrite (s .suspended 5 9) (fun t => t.agenda = [(.deviceLaunchQueueRestart, .vdValue 4 9)]) = true) ∧
    (let s := fun (val : Nat) => foc (z.setDie 3 fun d => { d with regions := [(7, { base := 8, size := 8, valid := true })] }) (.region 3 4 val)
     nextIs .regionTableWrite (s (2 ^ 31 + 511 + 512)) (fun t => (find (t.die 3).regions 4).isSome) = true ∧
     nextIs .regionTableWrite (s (2 ^ 31 + 511 + 512 * 2)) (fun t => t.out = [.tableError 2]) = true ∧
     nextIs .regionTableWrite (s (2 ^ 31 + 10)) (fun t => t.out.isEmpty) = true ∧
     nextIs .regionTableWrite (s (2 ^ 31 + 15 + 512)) (fun t => t.out = [.tableError 2]) = true ∧
     nextIs .regionTableWrite (s (2 ^ 31 + 16 + 512)) (fun t => t.out.isEmpty) = true) ∧
    (let s := fun (tag : KeyTag) (val : Nat) => foc { z with keySlots := [(5, 9), (6, 8)], mem := [(0x3000, 7#8)], hbm := { z.hbm with tags := [(2, { key := 6, bound := true }), (3, tag)] } } (.frame 3 val)
     (s {} 0).mixes [] 3 5 = true ∧ (s {} 0).mixes [] 3 6 = false ∧ nextIs .keyTagWrite (s {} (5 + 2 ^ 18)) (fun t => t.out = [.tableError 3]) = true ∧
     nextIs .keyTagWrite (s {} (6 + 2 ^ 18)) (fun t => (t.tag 0x3000).bound && t.mem.isEmpty) = true ∧
     nextIs .keyTagWrite (s { key := 6, bound := true } (6 + 2 ^ 18)) (fun t => !t.mem.isEmpty) = true ∧
     ((frameLines 3).all fun l => (s {} 0).satisfied none l true) = true ∧ (s {} 0).rekeys 3 6 = false ∧ (s {} 0).retired 3 = false ∧
     (let r := { s { key := 7, bound := true } (6 + 2 ^ 18) with keySlots := [(6, 8), (7, 8)] }
      r.rekeys 3 6 = true ∧ r.mixes [] 3 6 = false ∧ nextIs .keyTagWrite r (fun t => (t.tag 0x3000).key = 6 && t.mem = [(0x3000, 7#8)]) = true) ∧
     (let r := { s {} (6 + 2 ^ 18) with hbm := { (s {} 0).hbm with retired := [3] } }
      nextIs .keyTagWrite r (fun t => !(t.tag 0x3000).bound) = true) ∧
     nextIs .keyTagWrite (s { key := 6, bound := true } 6) (fun t => !(t.tag 0x3000).bound) = true) ∧
    (let s := fun (e : Nat) => foc (platen [96] z) (.leaf 4 1 0x3008 e)
     z.leafBad 4 1 0x3008 (1 + 128) = true ∧ nextIs .stage2EntryWrite (s (1 + 128)) (fun t => t.out = [.tableError 4]) = true ∧
     z.leafBad 4 1 0x3008 0x200001 = false ∧ (s 0).hartBad 0x3008 = false ∧ (s 0).agentMay 96 true = true ∧
     nextIs .stage2EntryWrite (s 0x200001) (fun t => t.mem.length = 2) = true ∧
     z.hartBad 0x18000000000 = true ∧ nextIs .stage2EntryWrite (foc z (.leaf 4 1 0x18000000000 1)) (fun t => t.out = [.hartFault 0x18000000000]) = true) ∧
    (let s := fun (k : Nat) => foc { z with keySlots := [(5, 9)], hbm := { z.hbm with tags := [(2, { key := 5, bound := true })] } } (.vdValue 4 k)
     nextIs .keySlotLoad (s 1023) (fun t => find t.keySlots 1023 = some 4) = true ∧
     ([0, 5, 1024].all fun k => nextIs .keySlotLoad (s k) fun t => t.out = [.tableError 8]) = true) ∧
    ([(19, true), (20, false), (10000, false), (10001, true)].all fun c => nextIs .schcfgWrite (foc z (.value c.1)) fun t =>
      (t.out = [.tableError 9]) == c.2 && (t.quantumNew == c.1) == !c.2) = true ∧
    (let s := foc { z with boot := { z.boot with disabled := 1#32 } } (.dieValue 0 1)
     s.dieEnabled 0 = false ∧ nextIs .schpoolWrite s (fun t => t.out = [.tableError 10]) = true ∧
     nextIs .schpoolWrite (foc z (.dieValue 31 0xFFFF)) (fun t => look t.poolNew 31 0 = 0xFFFF) = true) := by decide +kernel

theorem witness_ResetSteps :
    (let s := fun (k : KillRun) (f : Focus) => foc { z.setVd 4 (fun v => { v with state := .killing, kill := some k }) with now := 360000 } f
     let k : KillRun := { fromState := .active, left := [.hostProxy] }
     nextIs .vfFunctionLevelReset (foc (z.setVd 4 fun v => { v with state := .faulted }) (.vd 4)) (fun t => (t.vd 4).state = .killing) = true ∧
     (let m : Msg := { src := .control, dst := engineAt .hostProxy, kind := .kill .hostProxy, line := 0, vd := 4 }
      nextIs .engineKill { tMsg z m with vds := (s k .none).vds } (fun t => t.net.msgs.length = 1 && t.net.inbox.isEmpty) = true ∧
      nextIs .killAcksComplete { tMsg z { m with dst := .control, kind := .killAck .hostProxy } with vds := (s k .none).vds } (fun t =>
        t.agenda = [(.killAcksComplete, .vd 4)]) = true) ∧
     nextIs .killAckTimeout (s k (.engine 4 .hostProxy)) (fun t => t.agenda = [(.deviceReset, .none)]) = true ∧
     nextIs .killAckTimeout (s { k with left := [.copyEngine 511] } (.engine 4 (.copyEngine 511))) (fun t => t.agenda = [(.fatalDieError, .die 31)]) = true ∧
     nextIs .killAcksComplete (s { k with left := [] } (.vd 4)) (fun t => t.agenda = [(.killAcksComplete, .vd 4)]) = true ∧
     nextIs .killAcksComplete (s { k with left := [], erased := true } (.vd 4)) (fun t => (t.vd 4).kill.isNone) = true ∧
     ({ k with release := true } : KillRun).next true 0 = .free ∧ k.next false 1 = .faulted ∧ k.next true 0 = .faulted ∧ k.next true 1 = .active ∧
     ({ k with fromState := .faulted } : KillRun).next true 1 = .active ∧ ({ k with fromState := .configured } : KillRun).next true 0 = .configured ∧ ({ k with fromState := .suspended } : KillRun).next true 1 = .suspended) ∧
    (z.dieEnabled 31 = true ∧ nextIs .fatalDieError (foc z (.die 31)) (fun t => !t.dieEnabled 31 && t.dieEnabled 30) = true) ∧
    z.boot.recovery = false ∧ nextIs .deviceReset tP (fun t => t.blocks.isEmpty && t.boot.number = 1) = true := by decide +kernel

theorem witness_RegisterWriteSteps :
    (let s := fun (fn off size value : Nat) => foc (z.setVd 0 fun v => { v with state := .active }) (.write fn off size value)
     z.pf.mbstat.getLsbD 0 = false ∧ ([(1, Instr.createVd), (2, .startVd), (3, .suspendVd), (4, .resumeVd), (5, .resetVd), (6, .destroyVd), (7, .setWeight),
       (8, .setPowerMode), (9, .queryVd), (10, .loadImage), (0, .unknownCommand), (11, .unknownCommand), (65535, .unknownCommand)].all fun c =>
       nextIs .registerWrite (s 0 0 4 (c.1 + 65536 * 9)) fun t => t.pf.mbstat = 1#32 && t.agenda = [(c.2, .mailbox 9 c.1)]) = true ∧
     nextIs .registerWrite { s 0 0 4 1 with pf := { z.pf with mbstat := 1#32 } } (fun t => t.agenda.isEmpty) = true ∧
     nextIs .registerWrite { s 0 0x48 4 1 with boot := { z.boot with recovery := true } } (fun t => t.pf.mbstat = 0#32) = true ∧
     ((s 1 0 4 1).vd 0).state = .active ∧ nextIs .registerWrite (s 1 0x1F8 4 7) (fun t => t.agenda = [(.kickPageWrite, .write 1 0x1F8 4 7)]) = true ∧
     runs .registerWrite (s 1 0x2000 8 3) = true ∧ ((s 1 0 4 1).controlWrite 0 (8 * 63) 8 3).agenda = [(.queueRestart, .queue 0 63 0), (.queueEnable, .queue 0 63 0)] ∧
     nextIs .kickPageWrite (s 1 0x1F8 4 7) (fun t => (t.queue 0 63).diskick) = true ∧
     nextIs .msixVectorUnmask (foc (z.setVector 1 5 fun _ => { masked := false, pending := true, data := 9#32 }) (.write 1 5 4 0)) (fun t =>
       t.out = [.msix 1 5 9#32]) = true ∧
     (let k := (z.setVd 0 fun v => { v with state := .killing }).setVector 1 5 fun _ => { masked := false, pending := true, data := 9#32 }
      k.silent 1 = true ∧ nextIs .msixVectorUnmask (foc k (.write 1 5 4 0)) (fun t => t.out.isEmpty) = true)) := by decide +kernel

/-- Queue 3 with its descriptor or its packets `bs` at 4096 of memory. -/
def tQp (k : Queue) (bs : List Byte) (idx : Nat) : State :=
  foc (({ tP with mem := tP.mem.store 0x1000 bs }).setVd 0 fun v => { v with qtbase := 0x0FA0#64, queues := [(3, k)], dlq := 0#64 }) (.queue 0 3 idx)
/-- A descriptor of 16 slots at 4096. -/
def desc : List Byte := leBytes 8 0x1000 ++ [4#8] ++ List.replicate 23 0#8

def okAt (r : QAccess) (k : State → Nat → Bool) : Bool := match r with | .ok t pa => k t pa | _ => false

/-- As `s`, where its guest page 0 with the address-space table is mapped too. -/
def tab2 (s : State) : State := platen [0, 1, 2, 3, 4, 5, 6, 7, 32, 64, 128, 160, 192] <|
  { s with
    mem := ((s.mem.storeNat 0x4000 8 0x5003).storeNat 0x5000 8 0x6003).storeNat 0x6000 8 (0x1D + 2 ^ 54)
    walkCache := [(0, 0x2000, 0x2003), (0, 0x4000, 0x5003), (0, 0x5000, 0x6003)]
    hbm := { s.hbm with tags := (0, { key := 1, bound := true }) :: s.hbm.tags } }.setVd 0 fun v => { v with s2root := 0x4000#64 }
/-- The hypothesis `Gets`; `k` gets the state and the address. -/
def gets (s : State) (v q asid va n : Nat) (write : Bool) (k : State → Nat → Bool) : Bool :=
  okAt (s.queueAccess v q asid va write) fun t pa => decide (∀ l ∈ linesOf pa n, May t l write) && k t pa

theorem witness_QueueSteps :
    (let s := tab2 (tQp {} desc 0)
     let u := s.setQueue 0 3 fun k => { k with enabling := true }
     (s.vd 0).open = true ∧ (s.queue 0 3).enabled = false ∧ (s.queue 0 3).waiting.isNone = true ∧ descBad desc = false ∧ descBad (List.replicate 32 0#8) = true ∧
     (match u.s2 0 0 0 with
      | .ok _ _ pt => decide (∀ l ∈ linesOf pt 1024, May u l false) && !u.anyLost (linesOf pt 1024) &&
          gets (u.keepRoots 0 (u.tableAt pt) [0, queueAsid (u.tableAt pt) 3]) 0 3 0 0x1000 32 false fun t pa =>
            pa == 0x1000 && !t.anyLost (linesOf pa 32) && t.mem.bytes pa 32 == desc
      | _ => false) = true ∧
     nextIs .queueEnable s (fun t => (t.queue 0 3).enabled && (t.queue 0 3).log2 = 4) = true ∧
     nextIs .queueEnable (tab2 (tQp {} [] 0)) (fun t => (t.queue 0 3).stopped && (t.queue 0 3).reason = 5) = true ∧
     nextIs .queueEnable { s with hbm := { s.hbm with lost := [32] } } (fun t => (t.queue 0 3).stopped && (t.queue 0 3).reason = 7) = true ∧
     nextIs .queueDisable (tQp { enabled := true } [] 0) (fun t => !(t.queue 0 3).enabled) = true ∧
     nextIs .queueDisable (tQp { enabled := true, started := [{ idx := 1, bytes := [] }] } [] 0) (fun t => (t.queue 0 3).disabling) = true ∧
     nextIs .queueRestart (tQp { stopped := true, overkick := true } [] 0) (fun t => !(t.queue 0 3).stopped && !(t.queue 0 3).overkick) = true ∧
     nextIs .deviceLaunchQueueRestart (foc s (.vdValue 0 0x1000)) (fun t => t.agenda = [(.queueEnable, .queue 0 64 0)]) = true ∧
     nextIs .deviceLaunchQueueRestart (foc (s.setQueue 0 64 fun k => { k with enabled := true, started := [{ idx := 1, bytes := [] }] }) (.vdValue 0 0x1000))
       (fun t => (t.queue 0 64).restartAt = some 0x1000#64) = true) ∧
    (let k : Queue := { enabled := true, log2 := 1, ring := 0x1000#64, head := 2#32, tail := 3#32 }
     let nop := fun (lap : Nat) => ([0#8, 0#8] ++ leBytes 2 lap : List Byte)
     let s := fun (k : Queue) (bs : List Byte) => own (tQp k bs 0)
     ((s k []).vd 0).state = .active ∧ gets (s k (nop 1)) 0 3 0 0x1000 64 false (fun t pa => pa = 0x1000 && !t.anyLost [pa / 128]) = true ∧
     nextIs .slotPoll (s k (nop 0)) (fun t => (t.queue 0 3).head = 2#32) = true ∧
     nextIs .slotPoll (s k (nop 1)) (fun t => (t.queue 0 3).head = 3#32 && t.agenda = [(.nopPacket, .queue 0 3 2)]) = true ∧
     (let w := { k with headWb := 0x1080#64 }
      nextIs .slotPoll (s w (nop 1)) (fun t => (t.queue 0 3).wbWaits && t.agenda = [(.slotPoll, .queue 0 3 0), (.nopPacket, .queue 0 3 2)]) = true ∧
      gets (s { w with wbWaits := true } (nop 1)) 0 3 0 0x1080 4 true (fun _ _ => true) = true ∧
      nextIs .slotPoll (s { w with wbWaits := true } (nop 1)) (fun t => !(t.queue 0 3).wbWaits && t.mem.read 0x1080 = 2#8) = true) ∧
     nextIs .slotPoll (s k (6#8 :: (nop 1).drop 1)) (fun t => (t.queue 0 3).stopped && (t.queue 0 3).reason = 1) = true ∧
     nextIs .slotPoll (s { k with started := [{ idx := 1, bytes := [] }] } ([0#8, 0x80#8] ++ leBytes 2 1)) (fun t => (t.queue 0 3).head = 2#32) = true) := by
  decide +kernel

/-- Packet 2 of queue 3 with its first bytes given, and the words at 4096. -/
def tPk (p : Packet) (bs : List Byte) : State := own (tQp { enabled := true, log2 := 4, started := [p] } bs p.idx)
def pk (type flags : Nat) (ns : List Nat) : Packet := { idx := 2, bytes := [BitVec.ofNat 8 type, BitVec.ofNat 8 flags] ++ List.replicate 6 0#8 ++ ns.flatMap (leBytes 8) }

theorem witness_PacketsAndKernels :
    (let s := fun (p : Packet) => tPk p (leBytes 8 9)
     let cp := pk 2 0 [0x1000, 0x1010, 16]
     let got := [9, 0, 0, 0, 0, 0, 0, 0, 0, 0, 0, 0, 0, 0, 0, 0]
     (s (pk 0 0 [])).packet 0 3 2 = some (pk 0 0 []) ∧ ((s (pk 0 0 [])).vd 0).open = true ∧ (pk 3 8 []).performed = false ∧
     nextIs .nopPacket (s (pk 0 0 [])) (fun t => (t.packet 0 3 2).map Packet.performed = some true) = true ∧
     nextIs .launchPacket (s (pk 1 0 [])) (fun t => t.kernels.length = 2) = true ∧
     gets (s cp) 0 3 0 0x1000 16 false (fun t pa => pa = 0x1000 && !t.anyLost [32]) = true ∧
     nextIs .copyPacket (s cp) (fun t => (t.packet 0 3 2).map Packet.staged = some (some (got, false))) = true ∧
     okAt ((s { cp with staged := some (got, false) }).queueAccess 0 3 0 0x1010 true) (fun t pa => pa == 0x1010 && decide (May t 32 true)) = true ∧
     nextIs .copyPacket (s { cp with staged := some (got, false) }) (fun t =>
       t.mem.read 0x1010 = 9#8 && (t.packet 0 3 2).map Packet.performed = some true) = true ∧
     gets (s (pk 3 0 [0x1000, 9])) 0 3 0 0x1000 16 false (fun t pa => pa = 0x1000 && !t.anyLost [32]) = true ∧
     ([(0, 9, true), (0, 10, false), (1, 8, false), (2, 9, false), (3, 10, true)].all fun c =>
       [Instr.waitSignalPacket, .waitSignalRetest].all fun i => nextIs i (s (pk 3 c.1 [0x1000, c.2.1])) fun t =>
         (t.packet 0 3 2).map Packet.performed = some c.2.2) = true ∧
     nextIs .writeSignalPacket (s (pk 4 0 [0x1000, 7])) (fun t => t.mem.read 0x1000 = 16#8) = true ∧
     nextIs .timestampPacket (s { pk 5 0 [0x1000] with progress := 0x31 }) (fun t => t.mem.read 0x1000 = 0x31#8) = true ∧
     (match (s (pk 0 0 [])).domainRelease 0 0 none with | .ok t => decide (t = s (pk 0 0 [])) | _ => false) = true) ∧
    (let s := fun (sig : Option SigRun) (code : Nat) (addr : Nat) => tPk { pk 0 0 [0, 0, 0, 0, addr] with performed := true, code, sig } (leBytes 8 9)
     let r : SigRun := { pa := 0x1000, phase := 2 }
     nextIs .packetCompletion (s none 0 0) (fun t => (t.queue 0 3).done = 1#64 && (t.queue 0 3).started.isEmpty) = true ∧
     nextIs .packetCompletion (s none 5 0x1000) (fun t => t.net.msgs.length = 1 && t.sigRuns.any fun r => r.2.phase = 1 && r.2.op.isSome) = true ∧
     nextIs .packetCompletion (s (some { r with op := some 7 }) 5 0x1000) (fun t => t.net.msgs.isEmpty) = true ∧
     nextIs .packetCompletion (s (some r) 5 0x1000) (fun t => t.net.msgs.length = 1) = true ∧
     nextIs .packetCompletion (s (some { r with phase := 3 }) 5 0x1000) (fun t => (t.queue 0 3).done = 1#64) = true ∧
     (let t := tMsg (s (some { r with op := some 7 }) 5 0x1000) { src := homeOf 32, dst := .control, line := 32, kind := .reply 0 7 none false }
      nextIs .groupReply t (fun t => t.sigRuns.any fun r => r.2.op.isNone && r.2.phase = 3) = true)) ∧
    (let s := fun (f : Kernel → Kernel) => foc (((tPk (pk 0 0 []) []).setKern 0 f)) (.kernel 0 0x1FF)
     (match (s fun k => { k with left := 0 }).domainRelease 0 0 (some 0) with | .ok t => decide (t = s fun k => { k with left := 0 }) | _ => false) = true ∧
     nextIs .kernelCompletion (s fun k => { k with left := 0 }) (fun t => t.kernels.isEmpty) = true ∧
     nextIs .kernelCompletion (s fun k => { k with left := 0, signal := 0x1000#64 }) (fun t => t.net.msgs.length = 1) = true ∧
     nextIs .kernelAbort (s id) (fun t => (t.kern 0).map Kernel.abort = some (some 0xFF)) = true ∧
     (let u := fun (phase : Nat) => foc ((tPk { pk 1 0 [] with kernel := some 0, sig := some { pa := 0x1000, phase } } []).setKern 0 fun k =>
        { k with left := 0, signal := 0x1000#64, queue := 3, idx := 2 }) (.kernel 0 0)
      nextIs .kernelCompletion (u 2) (fun t => t.net.msgs.length = 1 && t.kernels.length = 1) = true ∧
      nextIs .kernelCompletion (u 3) (fun t => t.kernels.isEmpty) = true)) ∧
    (applyMembers 9 1 0 [mem 1 5]).2 = 5 ∧ (applyMembers 9 1 6 [mem 1 5]).2 = 6 ∧ (applyMembers 0 9 (2 ^ 64 - 1) [mem 1 1]).2 = 0 := by decide +kernel

theorem witness_SpdmSteps :
    (let s := fun (x : Spdm) => foc (z.setSpdm 0 fun _ => x) (.spdm 0 0x12 8)
     let n : Spdm := { version := 0x12, negotiated := true }
     (z.spdm 0).isSome = true ∧ ([(Instr.spdmGetVersion, ({} : Spdm)), (.spdmGetCapabilities, n), (.spdmNegotiateAlgorithms, n), (.spdmGetDigests, n), (.spdmGetCertificate, n),
       (.spdmChallenge, n), (.spdmGetMeasurements, n), (.spdmKeyExchange, n), (.spdmUnsupportedRequest, n), (.spdmGetDigests, {}), (.spdmEndSession, n)].all fun c =>
       nextIs c.1 (s c.2) fun t => t.out.length = 1) = true ∧
     nextIs .spdmFinish (s { n with session := some 0#384 }) (fun t => (t.spdm 0).map Spdm.finished = some true) = true ∧
     nextIs .spdmEndSession (s { n with session := some 0#384, finished := true }) (fun t => (t.spdm 0).map Spdm.finished = some false) = true) := by decide +kernel

/-- Entries of TLBs that an invalidation removes and spares. -/
def tT (f : Focus) : State := foc (tP.setDie 0 fun d => { d with tlb := [{ fetchEntry with va := 0x5000, gpa := 0x5000 }], waits := [(4095, { gen := 7, waiter := some (.warp tW), vd := 0, left := [{ va := 0x5000#64, code := 6 }] })] }) f

/-- A host frame whose lines the proxy has at hand. -/
def hostFrame : Nat := hostBase / 4096
def withHost (s : State) : State := { s with coh := { s.coh with llc := (frameLines hostFrame).map fun l => (l, {}) } }

theorem witness_PagingSteps :
    ((tT .none).vd 0).open = true ∧ ((tT .none).vd 0).tlbinv = none ∧
    nextIs .tlbInvalidateRange (tT (.vdValue 0 0x5000)) (fun t => (t.die 0).tlb.isEmpty && (t.cl 0).tlb.length = 1) = true ∧
    nextIs .tlbInvalidateRange (tT (.vdValue 0 0x6000)) (fun t => (t.die 0).tlb.length = 1) = true ∧
    ([(Instr.tlbInvalidateAsid, 1), (.tlbInvalidateVd, 2)].all fun c => nextIs c.1 (tT (.vdValue 0 c.2)) fun t =>
      (t.die 0).tlb.isEmpty && (t.cl 0).tlb.isEmpty && (t.vd 0).rootsDue) = true ∧
    nextIs .replaytWrite (tT (.vdValue 0 (4095 + 7 * 2 ^ 17))) (fun t => (find (t.die 0).waits 4095).map WaitEntry.left = some []) = true ∧
    nextIs .replayPage (tT (.vdValue 0 0x5000)) (fun t => (find (t.die 0).waits 4095).map WaitEntry.left = some [] && (t.vd 0).epoch = 1) = true ∧
    nextIs .replayAll (tT (.vdValue 0 64)) (fun t => (find (t.die 0).waits 4095).map WaitEntry.left = some []) = true ∧
    nextIs .fqheadWrite (foc (tP.setVd 0 fun v => { v with fqTail := 3#32 }) (.vdValue 0 3)) (fun t => (t.vd 0).fqHead = 3#32) = true ∧
    nextIs .rhbaseWrite (tT (.vdValue 0 0x1002)) (fun t => (t.vd 0).rhBase = 0x1000 && (t.vd 0).rhCount = 2 && (t.vd 0).hintsDue) = true ∧
    (let s := foc ((own tP).setVd 0 fun v => { v with rhBase := 0x1000, rhCount := 2, hintsDue := true }) (.vd 0)
     tableLines s 0 [0x1000, 0x1020] = [96] ∧ decide (May s 96 false) = true ∧ s.hintAddr 0 1 = some 0x1020 ∧ decide (May s 32 false) = true ∧
     nextIs .rhbaseWrite s (fun t => !(t.vd 0).hintsDue && (t.vd 0).hints.length = 2) = true) ∧
    nextIs .stage2Invalidate (tT (.range 0 0x5000 4096)) (fun t => (t.die 0).tlb.isEmpty && t.s2inv.length = 1) = true ∧
    (let s := { tT (.range 0 0x5000 4096) with s2inv := [(0, 0x5000, 4096, 1)] }
     s.settled 0 1 = true ∧ nextIs .invalidationComplete s (fun t => t.s2inv.isEmpty) = true ∧
     nextIs .invalidationComplete { s with migr := [(4, { vd := 0, leaf := 0x3008, gpage := 5, oldF := 1, newF := 9, switched := true, since := 0 })] }
       (fun t => t.migr.isEmpty && !(t.tag 0x1000).bound) = true) ∧
    (let s := foc (tP.setVd 0 fun v => { v with tlbinv := some (2#64, 1) }) (.vd 0)
     nextIs .invalidationComplete s (fun t => (t.vd 0).tlbDone = 1#16) = true) ∧
    (let s := own (foc (tP.setVd 0 fun v => { v with fq := 0x1004#64, undelivered := [{ va := 0x5000#64, code := 6 }] }) (.vd 0))
     tableLines s 0 [0x1000] = [96] ∧ decide (May s 96 false) = true ∧
     (match s.s2 0 0x1000 1 with | .ok _ _ pa => pa == 0x1000 && decide (May s 32 true) | _ => false) = true ∧
     nextIs .faultRecordDelivery s (fun t => (t.vd 0).fqTail = 1#32 && (t.vd 0).undelivered.isEmpty) = true) ∧
    (let s := foc ((tP.setWarp tW fun x => { x with parked := some (0, 9) }).setDie 0 fun d => { d with waits := [(9, { gen := 32767, waiter := some (.warp tW) })] }) (.waiter 0 9)
     nextIs .waiterWake s (fun t => (t.warp tW).map Warp.parked = some none && (find (t.die 0).waits 9).map WaitEntry.gen = some 1) = true) ∧
    (z.freeWait 31).isSome = true ∧ nextIs .waitTableEntryFree (foc { z with held := some .ott } (.die 31)) (fun t => t.held.isNone) = true ∧
    (let s := tT (.resolve 0 1 0x3018 (0x101D + 2 ^ 54) none)
     s.leafBad 0 0 0x3018 (0x101D + 2 ^ 54) = false ∧ s.mixes [] 1 1 = false ∧ s.hartBad 0x3018 = false ∧ decide (May s 96 true) = true ∧
     nextIs .stage2FaultResolution s (fun t => t.mem.readNat 0x3018 8 = 0x101D + 2 ^ 54) = true) ∧
    (let leaf := 0x401D + 2 ^ 54
     let s := withHost (foc { tP with mem := tP.mem.store hostBase [7#8] } (.resolve 0 1 0x3018 leaf (some hostFrame)))
     s.unnamed (4096 * hostFrame) 4096 = false ∧ decide (∀ l ∈ frameLines hostFrame, May s l false) = true ∧
     ((frameLines 4).all fun l => s.satisfied none l true) = true ∧ decide (May s 96 true) = true ∧ s.leafBad 0 0 0x3018 leaf = false ∧ s.mixes [] 4 1 = false ∧ s.retired 4 = false ∧
     nextIs .stage2FaultResolution s (fun t => (t.tag 0x4000).bound) = true) ∧
    (let s := withHost (foc (platen [0] { z with mem := [(0x3001, 7#8)], hbm := { z.hbm with tags := [(3, { key := 1, bound := true })] } })
       (.evict 0 9 3 hostFrame))
     decide (∀ l ∈ leafLines s 0 9, May s l false) = true ∧ s.anyLost (leafLines s 0 9) = false ∧ s.unnamed (4096 * hostFrame) 4096 = false ∧
     decide (∀ l ∈ frameLines hostFrame, May s l true) = true ∧ (s.leafOf 0 9).all (fun l => !bit l.2 0) = true ∧
     ((frameLines 3).all fun l => s.satisfied none l true && s.ready l) = true ∧
     nextIs .pageEviction s (fun t => !(t.tag 0x3000).bound && t.mem.read (hostBase + 1) = 7#8) = true) ∧
    (let s := { tP with hbm := { tP.hbm with tags := tP.hbm.tags ++ [(9, { key := 1, bound := true })] } }
     decide (∀ l ∈ leafLines s 0 1, May s l false) = true ∧ decide (May s 96 true) = true ∧ s.anyLost (leafLines s 0 1) = false ∧
     s.leafOf 0 1 = some (0x3008, 0x101D + 2 ^ 54) ∧
     nextIs .migrationStart (foc s (.migrate 4 0 1 0x3008 9)) (fun t => (find t.migr 4).isSome && bit (t.mem.readNat 0x3008 8) 6) = true ∧
     (let m : Migration := { vd := 0, leaf := 0x3008, gpage := 1, oldF := 1, newF := 9 }
      nextIs .migrationSwitch (foc { s with migr := [(4, { m with bitmap := 0xFFFFFFFF#32 })] } (.migrate 4 0 1 0x3008 9)) (fun t =>
        bits (t.mem.readNat 0x3008 8) 47 12 = 9) = true ∧
      let u := platen [63, 64, 96, 319] (foc { s with migr := [(4, { m with bitmap := 0x7FFFFFFF#32 })] } (.slotLine 4 31))
      u.agentHas 63 true = true ∧ u.agentHas 319 true = true ∧ u.walks.isEmpty = true ∧ u.posted.isEmpty = true ∧
      nextIs .migrationLineCopy u (fun t => (find t.migr 4).map Migration.bitmap = some 0xFFFFFFFF#32) = true)) := by decide +kernel
-- ## Scheduling, accesses, engines, the sampler, steps

def full : Tag := { tokens := 64, owner := true, valid := true }
/-- Die 0 holds all tokens of line 5, which holds 9. -/
def tOwn (s : State) : State := { s with coh := { s.coh with held := [(0, [(5, full)])], home := [(5, {})] }, mem := [(640, 9#8)] }
/-- The warp of log 2 with one access to line 5 for lane 0, which awaits its step. -/
def tAcc (a : AccKind → Access) (k : AccKind) (f : State → State) : State :=
  foc (f (tOwn (tX fun x => { x with accesses := [a k] }.addClass 0 1))) (.access tW 4)
def acc (k : AccKind) : Access := { id := 4, kind := k, line := some 5, lanes := [(0, 640)], width := 4, dst := some (3, false), pc := 0#64, frag := 0, instr := 4 }
def lane0 (t : State) : Option Word := (t.warp tW).map fun x => x.lane 3 0
def done0 (t : State) : Bool := (t.warp tW).any fun x => x.accesses.isEmpty

theorem witness_Scheduler :
    (let s := { (tB fun b => { b with place := .saved }).setVd 0 fun v => { v with maxClusters := 1, weight := 4, stride := 2 ^ 18 } with
       now := 36000 }
     s.atMicrosecond = true ∧ s.atBoundary = false ∧ s.isEligible 0 0 = true ∧ (s.grantOne 0).2 = some 0 ∧ (s.grantOne 1).2 = none ∧ ((s.grantOne 0).1.vd 0).pass = 0x40000#64 ∧
     (s.cl 5).draining.isNone = true ∧ bit (s.poolOf 0) 5 = true ∧ s.residents 5 = [] ∧
     nextIs .clusterOffer (foc s (.cluster 5)) (fun t => (t.cl 5).vd = some 0) = true) := by decide +kernel

/-- The first quantum boundary, with a power mode and a cluster pool that wait for it. -/
def tBoundary : State := { z with now := 36 * 250000, quantumNew := 20, power := { z.power with pending := some 2 }, poolNew := [(3, 7)] }

/-- Clusters 0 and 5 drain from time 0; the block on cluster 0 is being saved, and cluster 5 has none. -/
def tDrain : State :=
  ((tI.setCl 0 fun c => { c with draining := some 0 }).setCl 5 fun c => { c with draining := some 0 }).setBlk 0 fun b =>
    { b with place := .saving 0, savingAt := some 0 }

theorem witness_Scheduler_boundary :
    (decide (0 < tBoundary.quantum) && tBoundary.now == 1000 * ticksPerNs * tBoundary.quantum * 1 &&
     tBoundary.power.pending == some 2 && tBoundary.powerChange.power.mode == 2 &&
     nextIs .quantumBoundary { tBoundary with power := z.power } (fun t => t.pool = [(3, 7)])) = true := by decide +kernel
theorem witness_Scheduler_drain :
    ((tDrain.residents 5).isEmpty && nextIs .blockSave (foc tDrain (.cluster 5)) (fun t => (t.cl 5).draining.isNone) &&
     nextIs .drainOverrun { foc tDrain (.cluster 0) with now := 36 * 40000 } (fun t => (t.cl 0).overrun && t.out = [.vdc 0x100 0 0 0])) = true := by
  decide +kernel

/-- A gang block of VD 0 is resident on cluster 3 and another is saved: the idle cluster 5 is granted to its own VD only. -/
theorem witness_Scheduler_gang :
    (let s := ((tI.setKern 0 fun k => { k with coop := true }).setBlk 0 fun b => { b with place := .saved }).setVd 0 fun v =>
       { v with maxClusters := 1, weight := 4, stride := 2 ^ 18 }
     let s := s.setCl 5 fun c => { c with vd := some 0 }
     let s := { s with now := 36000, blocks := s.blocks ++ [(1, { kernel := 0, lin := 1, x := 1, y := 0, z := 0, vdie := 0, die := 0, place := .resident 3 })] }
     s.hasGang 0 = true ∧ s.residents 5 = [] ∧ s.isEligible 0 0 = true ∧ (s.grantTo 0 0).2 = some 0 ∧
     nextIs .clusterOffer (foc s (.cluster 5)) (fun t => (t.cl 5).vd = some 0) = true) := by decide +kernel

theorem witness_Scheduler_blocks :
    (let s := fun (p : Place) (f : Warp → Warp) => foc (((tX f).setBlk 0 fun b => { b with place := p, target := some 0 })) (.blk 0)
     ((s (.saving 0) id).blk 0).map (fun b => (s (.saving 0) id).drained 0 b) = some true ∧
     nextIs .blockSave (s (.saving 0) id) (fun t => (t.blk 0).map Block.place ≠ some (.saving 0)) = true ∧
     (let u := { s (.saving 0) id with cmds := [(4, { kind := .cpa [(0, 0, 0, 4)] 4 [], cluster := 0, warp := tW, tag := none, pc := 0#64, order := 4,
                                                        started := true, parked := some (0, 9) })] }
      u.cmds.any (fun c => c.2.parkedAt 0) = true ∧ nextIs .blockSave u (fun t => !t.cmds.any fun c => c.2.parkedAt 0) = true) ∧
     ((s .saved id).mapped 0 0).contains 0 = true ∧
     nextIs .blockRestore (s .saved id) (fun t => (t.blk 0).map Block.place = some (.resident 0)) = true ∧
     nextIs .blockExit (s (.resident 0) fun x => { x with exited := allLanes }) (fun t => (t.blk 0).map Block.place ≠ some (.resident 0)) = true ∧
     (((s (.resident 0) id).discardBlock 0).blk 0).map Block.place = some .exited) ∧
    (let s := { foc (tX fun x => x.setFrag 0 fun f => f.park (.sleep 7)) (.frag tW 0) with now := 36 * 7 }
     7 ≤ s.ns ∧ nextIs .sleepDeadline s (fun t => ((t.warp tW).bind fun x => x.frag 0).map Frag.wait = some .ready) = true) := by decide +kernel

theorem witness_CachesAndAccesses :
    (let s := tAcc acc (.load false) id
     (s.access tW 4).isSome = true ∧ lane0 (s.complete tW (acc (.load false)) [(0, 9), (31, 7)] none) = some 9#32 ∧
     s.l1Line 0 5 0 = none ∧ s.l2May 0 5 true = true ∧ s.isLost 5 = false ∧ s.acqReady 0 0 0 = true ∧
     nextIs .loadReturn s (fun t => lane0 t = some 9#32 && done0 t) = true ∧
     nextIs .loadReturn { s with hbm := { s.hbm with lost := [5] } } (fun t => done0 t && (t.warp tW).any fun x => !x.flags.isEmpty) = true ∧
     nextIs .loadReturn (tAcc acc (.load false) fun s => s.setCl 0 fun k => { k with l1 := [(5, { data := 7#1024, vd := 0 })] }) (fun t => lane0 t = some 7#32) = true ∧
     nextIs .loadReturn (tAcc (fun k => { acc k with bypass := true }) .sload id) done0 = true ∧
     nextIs .loadReturn (tAcc (fun k => { acc k with weight := true }) (.load true) id) (fun t => lane0 t = some 0#32 && done0 t) = true ∧
     nextIs .loadReturn (tAcc (fun k => { acc k with weight := true }) (.load true) fun s => s.setDie 0 fun d => { d with wlost := [5] }) (fun t =>
       (t.warp tW).any fun x => !x.flags.isEmpty) = true ∧
     nextIs .loadReturn (tAcc (fun k => { acc k with args := [(0, 3, 0)] }) (.near 0 1) id) (fun t => lane0 t = some 9#32 && t.mem = [(640, 12#8)]) = true ∧
     nextIs .storeAck (tAcc (fun k => { acc k with args := [(0, 3, 0)], dst := none }) (.near 0 1) id) (fun t => t.mem = [(640, 12#8)]) = true ∧
     nextIs .loadReturn (tAcc (fun k => { acc k with got := [(0, 8)] }) (.far 0 1) id) (fun t => lane0 t = some 8#32 && done0 t) = true ∧
     nextIs .storeAck (tAcc (fun k => { acc k with dst := none }) (.far 0 1) id) done0 = true ∧
     nextIs .loadReturn (tAcc acc (.pref true) id) done0 = true ∧
     nextIs .storeAck (tAcc (fun k => { acc k with dst := none }) .store id) done0 = true ∧
     nextIs .storeAck (tAcc (fun k => { acc k with dst := none }) (.flush true) id) done0 = true) ∧
    (let s := fun (d : Option (Nat × Bool)) (bad : Bool) => tMsg (tAcc (fun k => { acc k with ops := [(0, 3)], dst := d }) (.far 0 1) id)
       { src := homeOf 5, dst := .cluster 0, kind := .reply z.fabric.module 3 (some 8) bad, line := 5 }
     nextIs .loadReturn (s (some (3, false)) false) (fun t => lane0 t = some 8#32) = true ∧ nextIs .storeAck (s none false) done0 = true ∧
     nextIs .loadReturn (s (some (3, false)) true) (fun t => (t.warp tW).any fun x => !x.flags.isEmpty) = true) ∧
    (let e : WcbEntry := { line := 5, data := 7#1024, mask := 1#128, vd := 0, bypass := true, owners := [], inc := 0 }
     let s := fun (f : Cluster → Cluster) => foc ((tOwn tI).setCl 0 f) (.clusterLine 0 5)
     nextIs .wcbDrain (s fun k => { k with wcb := [e] }) (fun t => t.mem = [(640, 7#8)] && (t.cl 0).wcb.isEmpty) = true ∧
     nextIs .wcbDrain (s fun k => { k with wcb := [{ e with bypass := false }], l1 := [(5, { data := 9#1024, vd := 0 })] }) (fun t =>
       t.mem = [(640, 9#8)] && (find (t.cl 0).l1 5).map L1Line.dirty = some 1#128) = true ∧
     nextIs .wcbDrain (s fun k => { k with l1 := [(5, { data := 7#1024, vd := 0, dirty := 1#128 })] }) (fun t => t.mem = [(640, 7#8)]) = true ∧
     nextIs .instructionCacheFill (s id) (fun t => (find (t.cl 0).icache 5).isSome) = true) ∧
    (let s := fun (v : DWord) => foc { (tX fun x => x.setFrag 0 fun f => f.park (.sig 0x1100 0x1100 v)) with mem := [(0x1100, 9#8)], coh := { z.coh with held := [(0, [(34, full)])], home := [(34, {})] } } (.frag tW 0)
     (s 9#64).l2May 0 34 false = true ∧
     nextIs .waitsigRetest (s 9#64) (fun t => ((t.warp tW).bind fun x => x.frag 0).map Frag.wait = some .ready) = true ∧
     nextIs .waitsigRetest (s 10#64) (fun t => ((t.warp tW).bind fun x => x.frag 0).map Frag.wait = some (.sig 0x1100 0x1100 10#64)) = true) := by decide +kernel

/-- Command 4 of the block of log 2. -/
def tCm (c : Command → Command) (k : CmdKind) : State :=
  foc { tG.setBlk 0 (fun b => { b with place := .resident 0 }) with cmds := [(4, c { kind := k, cluster := 0, warp := tW, tag := none, pc := 0#64, order := 4, started := true })] }
    (.command 4)
def gone4 (t : State) : Bool := t.cmds.isEmpty

theorem witness_EngineSteps :
    (let d : CopyDesc := { src := 16, dst := 0x1000, xb := 4, yn := 1, zn := 1, srs := 0, sps := 0, drs := 0, dps := 0, skind := 2, dkind := 0, mcast := 0, bar := 255, multicast := false }
     nextIs .engineCommandStart (tCm (fun c => { c with started := false }) (.tcopy d)) (fun t => (find t.cmds 4).map Command.started = some true) = true ∧
     nextIs .ownershipWindow (tCm id (.tcopy d)) (fun t => (find t.cmds 4).map (fun c => c.window.map fun w => w.2.1) = some [32]) = true ∧
     nextIs .ownershipWindow (tCm (fun c => { c with window := [(32, 32, 0#1024, 1#128)] }) (.tcopy d)) (fun t => t.coh.reqs.length = 1) = true ∧
     nextIs .engineCommandComplete (tCm (fun c => { c with done := [32] }) (.tcopy d)) gone4 = true ∧
     nextIs .engineCommandComplete (tCm id (.tcopy { d with dst := 64, dkind := 2 })) gone4 = true ∧
     nextIs .engineCommandComplete (tCm id (.cpa [(0, 0, 0, 4)] 4 [0])) gone4 = true ∧
     nextIs .engineWriteLanded (foc ({ tOwn (tCm (fun c => { c with window := [(5, 5, 7#1024, 1#128)] }) (.tcopy d)) with focus := .none }) (.held (.die 0) 5)) (fun t =>
       t.mem = [(640, 7#8)] && (find t.cmds 4).map Command.done = some [5]) = true) ∧
    nextIs .engineCommandComplete (tCm id (.step { op := 0xD6, dst := 0x100, p := 0, a := 0, b := 0 })) gone4 = true ∧
    nextIs .matrixStepStart (tCm (fun c => { c with started := false }) (.step { op := 0xD6, dst := 0x100, p := 0, a := 0, b := 0 })) (fun t =>
      (find t.cmds 4).map Command.started = some true) = true ∧
    nextIs .matrixBudgetRefill (foc (z.setCl 3 fun k => { k with mxLevel := 0 }) (.cluster 3)) (fun t => (t.cl 3).mxLevel = 256) = true ∧
    (let q : Sequencer := { body := [{ op := 0xD6, dst := 0x100, p := 0, a := 0, b := 0 }], count := 1, inc := (0, 0, 0), warp := tW, pc := 0#64 }
     let s := foc (tG.setImg 0 fun i => { i with seq := some q }) (.blk 0)
     (q.step q.iter q.idx).isSome = true ∧ nextIs .mloopStepIssue s (fun t => t.cmds.length = 1 && (t.blk 0).any fun b => b.img.seq.isNone) = true) := by decide +kernel

/-- An `MSTORE` of a small accumulator to the scratchpad. -/
theorem witness_EngineSteps_store :
    (let s := (tCm id (.mstore 0x100 2 0 0 8)).setImg 0 fun i => { i with grant := some { m := 1, n := 2, type := 3 } }
     nextIs .engineCommandComplete s gone4) = true := by decide +kernel

theorem witness_SamplerAndDebugger :
    (let s := fun (w : Nat) => foc (tI.setVd 0 fun v => { v with smptail := 3#32, smpdrop := 5#32 }) (.vdValue 0 w)
     nextIs .smpcfgWrite (s (1 + 256 + 20 * 2 ^ 24)) (fun t => bits (t.vd 0).smpcfg.toNat 28 24 = 20 && bits (t.vd 0).smpcfg.toNat 2 0 = 1) = true ∧
     nextIs .smpcfgWrite (s (1 + 256 + 21 * 2 ^ 24)) (fun t => bits (t.vd 0).smpcfg.toNat 28 24 = 6) = true ∧
     nextIs .smpheadWrite (s 3) (fun t => (t.vd 0).smphead = 3#32) = true ∧ nextIs .smpdropClear (s 0) (fun t => (t.vd 0).smpdrop = 0#32) = true) ∧
    (let s := fun (cfg : Word) => foc ((tI.setVd 0 fun v => { v with smpcfg := cfg }).setCl 0 fun k =>
       { k with smp := k.smp.set! 0 { counter := 122880 } }) (.quad 0 0)
     nextIs .samplerTick (s 0x06040003#32) (fun t => (vget (t.cl 0).smp 0 {}).armed = some 0 && (vget (t.cl 0).smp 0 {}).counter = 0) = true ∧
     nextIs .samplerTick (s 0x06040001#32) (fun t => look (t.vd 0).smpSeq 0 0 = 1 && (vget (t.cl 0).smp 0 {}).ptr = 0) = true) ∧
    (let m : MemSample := { id := 4, vd := 0, die := 0, g := 0, q := 0, slot := 0, seq := 0, clock := 0, pc := 0#64, store := false }
     nextIs .memreqRecord (foc { tI with samples := [m] } (.times tW 4 [])) (fun t => t.samples.isEmpty) = true) ∧
    (let b := fun (f : Block → Block) => foc (((tI.setVd 0 fun v => { v with halts := [(3, 0)] }).setBlk 0 fun b => f { b with place := .halted 3 })) (.vdValue 0 (3 * 4))
     (b id).dbgRuns 0 = false ∧ (b id).haltedAt 0 3 = some 0 ∧
     nextIs .debugContinue (b id) (fun t => (t.vd 0).halts.isEmpty && (t.vd 0).dbgStatus = 0) = true ∧
     nextIs .debugStep (b id) (fun t => (t.blk 0).any fun b => b.stepping) = true ∧
     ([Instr.debugContinue, .debugStep, .debugRollback].all fun i => nextIs i (foc (b id) (.vdValue 0 0)) fun t => (t.vd 0).dbgStatus = 1) = true ∧
     nextIs .debugRollback (b id) (fun t => (t.vd 0).dbgStatus = 4) = true ∧
     nextIs .debugRollback (b fun b => { b with proof := some 0, snap := some b.img, logFull := true }) (fun t => (t.vd 0).dbgStatus = 3) = true ∧
     nextIs .debugRollback (foc (b fun b => { b with proof := some 0, snap := some b.img }) (.vdValue 0 (12 + 4096))) (fun t => (t.vd 0).dbgStatus = 2) = true ∧
     nextIs .debugRollback (b fun b => { b with proof := some 0, snap := some b.img }) (fun t => (t.vd 0).dbgBusy) = true) ∧
    (let s := foc (tB fun b => { b with replay := some (0, 0, []) }) (.blk 0)
     nextIs .rollbackCountReached s (fun t => (find (t.vd 0).halts 0).isSome && (t.blk 0).map Block.place = some (.saving 0)) = true) := by decide +kernel

/-- The words at the PC decode, and the step is the instruction's; a step of the device that waits comes first. -/
theorem witness_StepRunsDecoded :
    (let s := State.reset.withFetchWord 96 0x10C5C6C7
     s.agenda = [] ∧ s.due = [] ∧ s.turn = .warps ∧ s.quads = [(0, 0)] ∧
     (let a := ({ s with quads := [] }).afterMerge tW
      ({ s with quads := [] }).offerers 0 0 = [(tW, 0)] ∧ ((a.warp tW).bind Warp.chosen).map Frag.pc = some 4096#64 ∧
      (match (a.choose tW 0).ctx with
       | some c => match c.fetchInstr 3 (a.choose tW 0) 4096#64 with
         | (_, .ok ws) => decodeWords ws == .ok (.sadd 0xC5#8 0xC6#8 0xC7#8) 1
         | _ => false
       | none => false) = true)) ∧
    (match step { z with agenda := [(.smpdropClear, .vdValue 0 0)] } with | .next t => t.agenda.isEmpty | _ => false) = true := by decide +kernel

theorem witness_EveryInstructionAnswers :
    tI.ctx.isSome = true ∧ Instr.nop.isStep = false ∧ Instr.quotaRefill.isStep = true ∧ z.ctx.isNone = true ∧
    (match exec .nop z with | .fault .noWarp => true | _ => false) = true := by decide +kernel

theorem witness_MemoryStaysCanonical :
    let s := tQp { enabled := true, log2 := 4, started := [pk 0 0 []] } [] 2
    s.mem.wf = true ∧ (match step { s with agenda := [(.nopPacket, .queue 0 3 2)] } with | .next t => t.mem.wf | _ => false) = true := by decide +kernel

/-- A command page of the VDC's, and a function that is not there. -/
theorem witness_RegisterWriteSteps_vdc :
    (let s := fun (fn off value : Nat) => foc (z.setVd 0 fun v => { v with state := .active }) (.write fn off 8 value)
     nextIs .registerWrite (s 1024 (2 * 2 ^ 21) 10000) (fun t => t.fabric.timeoutNs = 10000) = true ∧
     nextIs .registerWrite (s 1024 (2 * 2 ^ 21) 9999) (fun t => t.out = [.tableError 11]) = true ∧
     (let u := { s 2 0 1 with boot := { z.boot with record := { z.boot.record with maxVds := 1 } } }
      u.totalVfs = 1 ∧ nextIs .registerWrite u (fun t => t.agenda.isEmpty) = true)) := by decide +kernel

/-- A queue whose head's write-back waits, and one whose enabling waits for a replay. -/
theorem witness_QueueSteps_waits :
    (let r : FRecord := { va := 0x5000#64, code := 6 }
     let s := fun (k : Queue) => tQp k [] 0
     nextIs .queueDisable (s { enabled := true, wbWaits := true }) (fun t => (t.queue 0 3).disabling) = true ∧
     nextIs .queueDisable ((s { enabling := true, waiting := some r }).setVd 0 fun v => { v with undelivered := [r] }) (fun t =>
       (t.queue 0 3).waiting.isNone && (t.vd 0).undelivered.isEmpty) = true ∧
     nextIs .deviceLaunchQueueRestart (foc ((s {}).setQueue 0 64 fun k => { k with enabled := true, wbWaits := true }) (.vdValue 0 0x1000))
       (fun t => (t.queue 0 64).restartAt = some 0x1000#64) = true) := by decide +kernel

/-- The error of a request out of order, a measurement that there is none of, what is sealed in a session, and the port's key. -/
theorem witness_SpdmSteps_session :
    (let s := fun (x : Spdm) (a : Nat) => foc (z.setSpdm 0 fun _ => x) (.spdm 0 a 8)
     let n : Spdm := { version := 0x12, negotiated := true }
     let k : Spdm := { n with session := some 5#384, finished := true }
     nextIs .spdmFinish (s n 0) (fun t => t.out = [.spdm 0 0x7F [0x04#8]]) = true ∧
     z.measurement 0 7 = none ∧ nextIs .spdmGetMeasurements (s n 7) (fun t => t.out = [.spdm 0 0x7F [0x01#8]]) = true ∧
     nextIs .spdmUnsupportedRequest (s k 0x3FE) (fun t => t.cxl.ide = [(3, 8)]) = true ∧
     nextIs .spdmUnsupportedRequest (s k 0x3FD) (fun t => t.cxl.ide.isEmpty) = true ∧
     (((s k 0).say 0 0x7F []).out.any fun o => match o with | .spdmSecured 0 0 _ => true | _ => false) = true) := by decide +kernel

/-- A flush whose line is on its way to the host, a line that comes into the L1 for a store, and a signal word that cannot be read. -/
theorem witness_CachesAndAccesses_lines :
    (let s := tAcc (fun k => { acc k with dst := none, sent := 1 }) (.flush true) id
     s.hasTxn 1 5 = false ∧ nextIs .storeAck s done0 = true) ∧
    (let e : WcbEntry := { line := 5, data := 7#1024, mask := 1#128, vd := 0, bypass := false, owners := [], inc := 0 }
     let s := foc ((tOwn tI).setCl 0 fun k => { k with wcb := [e] }) (.clusterLine 0 5)
     s.l1Line 0 5 0 = none ∧ ((s.cl 0).l1Room 5).isSome = true ∧ s.l2May 0 5 false = true ∧
     nextIs .wcbDrain s (fun t => (find t.clusters 0).any fun k => (find k.l1 5).map L1Line.dirty = some 1#128) = true) ∧
    (let s := foc (tX fun x => x.setFrag 0 fun f => f.park (.sig 0x1100 0x1100 9#64)) (.frag tW 0)
     let s := { s with mem := [(0x1100, 9#8)], coh := { z.coh with held := [(0, [(34, full)])], home := [(34, {})] }, hbm := { s.hbm with lost := [34] } }
     (match s.translate (some (0, 0)) 0 0 0x1100 0 with | (_, .ok pa) => pa == 0x1100 | _ => false) = true ∧
     nextIs .waitsigRetest s (fun t => ((t.warp tW).bind fun x => x.frag 0).map Frag.wait = some .ready) = true) := by decide +kernel

/-- A quadrant's tick with the sampler off: what is armed is armed no longer. -/
theorem witness_SamplerAndDebugger_off :
    nextIs .samplerTick (foc ((tI.setVd 0 fun v => { v with smpcfg := 0x06000700#32 }).setCl 0 fun k =>
      { k with smp := k.smp.set! 0 { counter := 122880, armed := some 4 } }) (.quad 0 0)) (fun t =>
        (vget (t.cl 0).smp 0 {}).armed.isNone && (vget (t.cl 0).smp 0 {}).period = 7) = true := by decide +kernel

/-- A fragment within a `VEXEC` whose last word has gone ends it: the step goes on with that instruction. -/
theorem witness_StepRunsDecoded_vexec :
    (let s := (State.reset.withFetchWord 96 0x10C5C6C7).setWarp tW fun x => x.setFrag 0 fun f =>
       { f with vx := some { instr := .vexec none 0#8, word := 0#32, nwords := 1, base := 0#32, act := 0#32, left := [], ready := 0 } }
     s.agenda = [] ∧ s.due = [] ∧
     (match step s with | .next t => (t.warp tW).any fun x => (x.frag 0).any fun f => f.pc == 4100#64 && f.vx.isNone | _ => false) = true) := by
  decide +kernel

end Sys2Proof.Tests
end

section
/-!
PROOF. The memory laws. A sparse map with rising keys is determined by its look-ups; in a canonical memory, which lists no zero
byte, every look-up is determined by the byte that reads there.
-/
namespace Sys2Proof.Machine

-- ## Maps that look up alike

theorem mem_of_find {α : Type} {m : NMap α} {k : Nat} {v : α} (h : find m k = some v) : (k, v) ∈ m := by
  induction m with
  | nil => cases h
  | cons e m ih =>
    obtain ⟨j, u⟩ := e
    by_cases hj : j = k
    · obtain rfl : u = v := by simpa [find, hj] using h
      simp [hj]
    · rw [find, if_neg hj] at h
      exact List.mem_cons_of_mem _ (ih h)

/-- A key that a map lists is not below the first key of a rising map that looks it up alike. -/
theorem head_le_of_find_eq {α : Type} {m m' : NMap α} {j i : Nat} {u w : α} (h' : risingFrom (i + 1) m' = true)
    (heq : find ((j, u) :: m) j = find ((i, w) :: m') j) : i ≤ j := by
  refine Nat.le_of_not_lt fun hlt => ?_
  rw [find, if_pos rfl, find, if_neg (by omega), find_none_of_rising m' (i + 1) j h' (by omega)] at heq
  cases heq

theorem eq_of_find_eq {α : Type} {m m' : NMap α} {lo lo' : Nat} (h : risingFrom lo m = true) (h' : risingFrom lo' m' = true)
    (heq : ∀ k, find m k = find m' k) : m = m' := by
  induction m generalizing m' lo lo' with
  | nil =>
    cases m' with
    | nil => rfl
    | cons e' m' => simpa [find] using heq e'.1
  | cons e m ih =>
    obtain ⟨j, u⟩ := e
    cases m' with
    | nil => simpa [find] using heq j
    | cons e' m' =>
      obtain ⟨i, w⟩ := e'
      simp only [risingFrom, Bool.and_eq_true, decide_eq_true_eq] at h h'
      obtain rfl : j = i :=
        Nat.le_antisymm (head_le_of_find_eq h.2 (heq i).symm) (head_le_of_find_eq h'.2 (heq j))
      obtain rfl : u = w := by simpa [find] using heq j
      have htail : ∀ k, find m k = find m' k := fun k => by
        by_cases hk : j = k
        · subst hk
          rw [find_none_of_rising m _ j h.2 (by omega), find_none_of_rising m' _ j h'.2 (by omega)]
        · simpa [find, hk] using heq k
      rw [ih h.2 h'.2 htail]

-- ## Memories

/-- A canonical memory lists exactly the addresses that do not read 0 (log 4). -/
theorem Memory.find_of_wf {m : Memory} (h : m.wf = true) (a : Nat) :
    find m a = if m.read a = 0#8 then none else some (m.read a) := by
  simp only [Memory.wf, Bool.and_eq_true] at h
  cases hf : find m a with
  | none => simp [Memory.read, hf]
  | some v =>
    have hv : v ≠ 0#8 := by simpa using List.all_eq_true.1 h.2 _ (mem_of_find hf)
    simp [Memory.read, hf, hv]

theorem Memory.eq_of_read_eq {m m' : Memory} (h : m.wf = true) (h' : m'.wf = true) (heq : ∀ b, m.read b = m'.read b) :
    m = m' := by
  have hfind : ∀ k, find m k = find m' k := fun k => by
    rw [Memory.find_of_wf h, Memory.find_of_wf h', heq k]
  simp only [Memory.wf, Bool.and_eq_true] at h h'
  exact eq_of_find_eq h.1 h'.1 hfind

theorem Memory.read_store_inside (m : Memory) (a k : Nat) (bs : List Byte) (h : m.wf = true) (hk : k < bs.length) :
    (m.store a bs).read (a + k) = bs.getD k 0#8 := by
  induction bs generalizing m a k with
  | nil => cases hk
  | cons b bs ih =>
    cases k with
    | zero =>
      rw [Memory.store, Memory.read_store_outside _ _ _ _ (by omega)]
      exact Memory.read_write_same m a b h
    | succ k =>
      rw [Memory.store, show a + (k + 1) = a + 1 + k by omega,
        ih _ _ _ (Memory.wf_write m a b h) (Nat.lt_of_succ_lt_succ hk), List.getD_cons_succ]

theorem Memory.readNat_storeNat_of_lt (m : Memory) (a n v : Nat) (h : m.wf = true) (hv : v < 2 ^ (8 * n)) :
    (m.storeNat a n v).readNat a n = v := by
  rw [Memory.readNat_storeNat m a n v h]
  exact Nat.mod_eq_of_lt (by rwa [Nat.pow_mul] at hv)

/-- The byte at the lowest address is the least significant one (R3). -/
theorem Memory.readNat_succ (m : Memory) (a n : Nat) :
    m.readNat a (n + 1) = (m.read a).toNat + 256 * m.readNat (a + 1) n := rfl

/-- Settles O26: the laws of reads after stores, and extensionality of canonical memories. -/
theorem memoryLaws : Obligations.MemoryLaws := by
  intro m a bs h
  exact ⟨Memory.wf_store m a bs h, fun k hk => Memory.read_store_inside m a k bs h hk,
    fun b hb => Memory.read_store_outside m a b bs hb, fun n v hv => Memory.readNat_storeNat_of_lt m a n v h hv,
    Memory.readNat_succ m a, fun _ h' heq => Memory.eq_of_read_eq h h' heq⟩

end Sys2Proof.Machine
end

section
/-!
PROOF. The SPDM responders (R138, R139): what a request in its order and one out of order come to, and what a response leaves of the
connection.
-/
namespace Sys2Proof.Machine

-- ## Connections

@[simp] theorem State.setSpdm_out (s : State) (fn : Nat) (f : Spdm → Spdm) : (s.setSpdm fn f).out = s.out := by
  unfold State.setSpdm
  split <;> rfl

/-- The responder of a function is the changed one after a change. -/
theorem State.spdm_setSpdm {s : State} {fn : Nat} {x : Spdm} (h : s.spdm fn = some x) (f : Spdm → Spdm) :
    (s.setSpdm fn f).spdm fn = some (f x) := by
  unfold State.spdm at h
  split at h
  · cases h
  split at h
  · cases h
    simp [State.spdm, State.setSpdm, *]
  split at h
  · cases h
  · cases h
    simp [State.spdm, State.setSpdm, *]

-- ## Responses (R139)

theorem State.say_plain {s : State} {fn : Nat} {x : Spdm} (h : s.spdm fn = some x) (hk : x.session = none) (code : Nat)
    (body : List Byte) : s.say fn code body = s.emit (.spdm fn code body) := by
  simp [State.say, h, hk]

theorem State.say_sealed {s : State} {fn : Nat} {x : Spdm} {k : BitVec 384} (h : s.spdm fn = some x) (hk : x.session = some k)
    (code : Nat) (body : List Byte) : s.say fn code body =
      (s.emit (.spdmSecured fn x.seq (Config.gcm k x.seq (leBytes 1 code ++ body)))).setSpdm fn fun y => { y with seq := x.seq + 1 } := by
  simp [State.say, h, hk]

/-- Of the connection a response changes the number of sealed messages alone. -/
theorem State.spdm_say {s : State} {fn : Nat} {x : Spdm} (h : s.spdm fn = some x) (code : Nat) (body : List Byte) :
    ∃ n, (s.say fn code body).spdm fn = some { x with seq := n } := by
  cases hk : x.session with
  | none => exact ⟨x.seq, by rw [State.say_plain h hk, ← hk]; exact h⟩
  | some k => exact ⟨x.seq + 1, by rw [State.say_sealed h hk, ← hk]; exact State.spdm_setSpdm (s := s.emit _) h _⟩

/-- A response to a request leaves the session as it is. -/
theorem State.spdm_respond {s : State} {fn : Nat} {x : Spdm} (h : s.spdm fn = some x) (req a b code : Nat) (body : List Byte) :
    ∃ y, (s.respond fn req a b code body).spdm fn = some y ∧ y.session = x.session ∧ y.finished = x.finished := by
  obtain ⟨n, hn⟩ := State.spdm_say h code body
  exact ⟨_, State.spdm_setSpdm hn _, rfl, rfl⟩

-- ## Requests

section
variable {s : State} {fn a b : Nat} {x : Spdm} {ok : Spdm → Bool} {f : State → Nat → Spdm → Nat → Nat → State}

theorem spdmStep_inOrder (hfoc : s.focus = .spdm fn a b) (hx : s.spdm fn = some x) (hok : ok x = true) :
    runDevice s (spdmStep ok f) = .next (f s fn x a b) :=
  runDevice_some (by simp [spdmStep, hfoc, hx, hok])

theorem spdmStep_outOfOrder (hfoc : s.focus = .spdm fn a b) (hx : s.spdm fn = some x) (hok : ok x = false) :
    runDevice s (spdmStep ok f) = .next (s.say fn 0x7F [0x04#8]) :=
  runDevice_some (by simp [spdmStep, hfoc, hx, hok])

theorem spdmGetMeasurements_of_some (hfoc : s.focus = .spdm fn a b) (hx : s.spdm fn = some x) (hn : x.negotiated = true)
    {m : List Byte} (hm : s.measurement fn a = some m) : exec .spdmGetMeasurements s =
      .next (s.respond fn 0xE0 a b 0x60 (leBytes 1 a ++ m ++ if b = 0 then [] else s.sign x (leBytes 1 a ++ m))) := by
  refine (spdmStep_inOrder hfoc hx hn).trans ?_
  simp only [hm]
  split <;> simp

theorem spdmGetMeasurements_of_none (hfoc : s.focus = .spdm fn a b) (hx : s.spdm fn = some x) (hn : x.negotiated = true)
    (hm : s.measurement fn a = none) : exec .spdmGetMeasurements s = .next (s.say fn 0x7F [0x01#8]) := by
  refine (spdmStep_inOrder hfoc hx hn).trans ?_
  simp only [hm]

/-- A key exchange opens a session, which its finish will establish. -/
theorem does_spdmKeyExchange (hfoc : s.focus = .spdm fn a b) (hx : s.spdm fn = some x) (hn : x.negotiated = true) :
    Does .spdmKeyExchange s fun t => ∃ y, t.spdm fn = some y ∧ y.session = some (Config.ecdh (Config.ephemeral s.free) a) ∧
      y.finished = false := by
  refine ⟨_, spdmStep_inOrder hfoc hx hn, ?_⟩
  obtain ⟨y, hy, -⟩ := State.spdm_respond (s := { s with free := s.free + 1 }) hx 0xE4 a b 0x64 _
  exact ⟨_, State.spdm_setSpdm hy _, rfl, rfl⟩

theorem does_spdmFinish (hfoc : s.focus = .spdm fn a b) (hx : s.spdm fn = some x) (hk : x.session.isSome = true)
    (hf : x.finished = false) : Does .spdmFinish s fun t => ∃ y, t.spdm fn = some y ∧ y.finished = true ∧ y.session = x.session := by
  refine ⟨_, spdmStep_inOrder hfoc hx (by simp [hk, hf]), ?_⟩
  obtain ⟨y, hy, hs, -⟩ := State.spdm_respond hx 0xE5 a b 0x65 []
  exact ⟨_, State.spdm_setSpdm hy _, rfl, hs⟩

theorem does_spdmEndSession (hfoc : s.focus = .spdm fn a b) (hx : s.spdm fn = some x) (hf : x.finished = true) :
    Does .spdmEndSession s fun t => ∃ y, t.spdm fn = some y ∧ y.finished = false ∧ y.session = none := by
  refine ⟨_, spdmStep_inOrder hfoc hx hf, ?_⟩
  obtain ⟨y, hy, -⟩ := State.spdm_respond hx 0xEC a b 0x6C []
  exact ⟨_, State.spdm_setSpdm hy _, rfl, rfl⟩

/-- In the PF's session a vendor-defined request programs a key of the host port's IDE (R105). -/
theorem spdmUnsupportedRequest_ide (hfoc : s.focus = .spdm fn a b) (hx : s.spdm fn = some x)
    (h : x.finished = true ∧ fn = 0 ∧ a % 256 = 0xFE) : exec .spdmUnsupportedRequest s =
      .next (State.say { s with cxl := { s.cxl with ide := put s.cxl.ide (a / 256) b } } fn 0x7E [0x03#8]) := by
  refine (spdmStep_inOrder hfoc hx rfl).trans ?_
  simp [h]

theorem spdmUnsupportedRequest_error (hfoc : s.focus = .spdm fn a b) (hx : s.spdm fn = some x)
    (h : ¬ (x.finished = true ∧ fn = 0 ∧ a % 256 = 0xFE)) : exec .spdmUnsupportedRequest s =
      .next (s.say fn 0x7F (0x07#8 :: leBytes 1 a)) := by
  refine (spdmStep_inOrder hfoc hx rfl).trans ?_
  rw [if_neg]
  simpa [and_assoc] using h

/-- Every request but the first has its place in the order, and is answered with an error out of it. -/
theorem spdm_outOfOrder (hfoc : s.focus = .spdm fn a b) (hx : s.spdm fn = some x) :
    ∀ q ∈ [(Instr.spdmGetCapabilities, x.version != 0), (.spdmNegotiateAlgorithms, x.version != 0), (.spdmGetDigests, x.negotiated),
        (.spdmGetCertificate, x.negotiated), (.spdmChallenge, x.negotiated), (.spdmGetMeasurements, x.negotiated),
        (.spdmKeyExchange, x.negotiated), (.spdmFinish, x.session.isSome && !x.finished), (.spdmEndSession, x.finished)],
      q.2 = false → exec q.1 s = .next (s.say fn 0x7F [0x04#8]) := by
  intro q hq hok
  simp only [List.mem_cons, List.not_mem_nil, or_false] at hq
  rcases hq with rfl | rfl | rfl | rfl | rfl | rfl | rfl | rfl | rfl <;> exact spdmStep_outOfOrder hfoc hx hok

end

/-- Settles O51: each request by the frame of SPDM requests, the sessions by what a response leaves of the connection. -/
theorem spdmSteps : Obligations.SpdmSteps := by
  intro s fn a b x hfoc hx
  have hver : x.version ≠ 0 → (x.version != 0) = true := fun h => by simpa using h
  refine ⟨spdmStep_inOrder hfoc hx rfl,
    fun hv => ⟨spdmStep_inOrder hfoc hx (hver hv), spdmStep_inOrder hfoc hx (hver hv)⟩,
    fun hn => ⟨spdmStep_inOrder hfoc hx hn, spdmStep_inOrder hfoc hx hn, spdmStep_inOrder hfoc hx hn,
      fun m => spdmGetMeasurements_of_some hfoc hx hn, spdmGetMeasurements_of_none hfoc hx hn, does_spdmKeyExchange hfoc hx hn⟩,
    does_spdmFinish hfoc hx, does_spdmEndSession hfoc hx, spdmUnsupportedRequest_ide hfoc hx, spdmUnsupportedRequest_error hfoc hx,
    fun code body => ⟨fun hk => State.say_plain hx hk code body, fun k hk => ?_⟩, spdm_outOfOrder hfoc hx⟩
  rw [State.say_sealed hx hk, State.setSpdm_out]
  rfl

end Sys2Proof.Machine
end

section
/-!
PROOF. Remote instructions (R380–R385): the checks of a capability in their order, the frame of an instruction whose checks all pass, and
its requests, of which every peer group has at least one.
-/
namespace Sys2Proof.Machine

-- ## The checks of a capability (R96)

theorem Ctx.capBad_invalid (c : Ctx) (k i size : Nat) (offs : List Nat) (h : 4096 ≤ i ∨ bit (c.s.cap c.vd i) 31 = false) :
    c.capBad k i size offs = some { code := 0x0B, einfo := BitVec.ofNat 32 i } := by
  unfold Ctx.capBad
  rw [if_pos (by simpa using h)]

section
variable {c : Ctx} {k i size : Nat} {offs : List Nat} (hi : i < 4096) (hv : bit (c.s.cap c.vd i) 31 = true)
include hi hv

theorem Ctx.capBad_noAllowance (hu : bits (c.s.cap c.vd i) 47 32 = 0) :
    c.capBad k i size offs = some { code := 0x0C, einfo := BitVec.ofNat 32 i } := by
  unfold Ctx.capBad
  rw [if_neg (by simp [hv, hi]), if_pos hu]

/-- Past the first two checks the others come to one fault, if any fails. -/
theorem Ctx.capBad_of_allowance (hu : bits (c.s.cap c.vd i) 47 32 ≠ 0) : c.capBad k i size offs =
    if bit (c.s.cap c.vd i) (permBit k) = false ∨ (∃ o ∈ offs, bits (c.s.cap c.vd i) 191 128 < o + size) ∨
        (k = 4 ∧ bits (c.s.cap c.vd i) 191 128 < bits (c.s.cap c.vd i) 255 192 + 8) then
      some { code := 0x07, einfo := BitVec.ofNat 32 (7 + 4096 * i) } else none := by
  unfold Ctx.capBad
  rw [if_neg (by simp [hv, hi]), if_neg hu]
  by_cases hp : bit (c.s.cap c.vd i) (permBit k) = false
  · simp [hp]
  by_cases hb : ∃ o ∈ offs, bits (c.s.cap c.vd i) 191 128 < o + size
  · simp [hp, hb]
  · simp [hp, hb]

end

/-- The checks of R96 in their order, as the faults they give. -/
theorem Ctx.capBad_cases (c : Ctx) (k i size : Nat) (offs : List Nat) : let e := c.s.cap c.vd i
    (4096 ≤ i ∨ bit e 31 = false → c.capBad k i size offs = some { code := 0x0B, einfo := BitVec.ofNat 32 i }) ∧
    (i < 4096 → bit e 31 = true → bits e 47 32 = 0 → c.capBad k i size offs = some { code := 0x0C, einfo := BitVec.ofNat 32 i }) ∧
    (i < 4096 → bit e 31 = true → bits e 47 32 ≠ 0 →
      (bit e (permBit k) = false ∨ (∃ o ∈ offs, bits e 191 128 < o + size) ∨ (k = 4 ∧ bits e 191 128 < bits e 255 192 + 8)) →
      c.capBad k i size offs = some { code := 0x07, einfo := BitVec.ofNat 32 (7 + 4096 * i) }) ∧
    (i < 4096 → bit e 31 = true → bits e 47 32 ≠ 0 → bit e (permBit k) = true → (∀ o ∈ offs, o + size ≤ bits e 191 128) →
      (k = 4 → bits e 255 192 + 8 ≤ bits e 191 128) → c.capBad k i size offs = none) := by
  refine ⟨c.capBad_invalid k i size offs, fun hi hv hu => Ctx.capBad_noAllowance hi hv hu, fun hi hv hu h => ?_,
    fun hi hv hu hp hb hk => ?_⟩
  · rw [Ctx.capBad_of_allowance hi hv hu, if_pos h]
  · rw [Ctx.capBad_of_allowance hi hv hu, if_neg]
    rintro (h | ⟨o, ho, h⟩ | ⟨h4, h⟩)
    · rw [hp] at h; cases h
    · exact absurd h (Nat.not_lt.2 (hb o ho))
    · exact absurd h (Nat.not_lt.2 (hk h4))

-- ## `RFENCE` (R385)

theorem toPeer_eq_false {e : Nat} {q : OutReq}
    (h : if bit e 26 = true then q.kind = 5 → q.group ≠ bits e 63 48 else q.kind ≠ 5 → q.module = bits e 11 0 → q.vd ≠ bits e 21 12) :
    toPeer e q = false := by
  unfold toPeer
  split at h
  · simpa [*] using h
  · simpa [*] using h

section
variable {s : State} {c : Ctx} {a : BitVec 8} (hctx : s.ctx = some c) (hg : c.guard = true) (hcl : c.Clear [sOp a 1])
include hctx hg hcl

theorem rfence_faults (h : 4096 ≤ (c.x.sf a.toNat).toNat ∨ bit (s.cap c.vd (c.x.sf a.toNat).toNat) 31 = false) :
    Faults (.rfence a) s c { code := 0x0B, einfo := BitVec.ofNat 32 (c.x.sf a.toNat).toNat } := by
  obtain ⟨rfl, -⟩ := State.ctx_some hctx
  refine Faults.of_fault hctx (exec_rfence a c.s) ?_
  unfold rfence
  rw [guarded_clear c _ _ hcl hg]
  dsimp only
  rw [if_pos (by simpa using h)]

/-- Nothing that the warp has outstanding was sent to the entry's peer, and no error is to be delivered. -/
theorem rfence_ends (hi : (c.x.sf a.toNat).toNat < 4096) (hv : bit (s.cap c.vd (c.x.sf a.toNat).toNat) 31 = true)
    (hno : ∀ r ∈ c.x.accesses, r.remoteKind.isSome = true → ∀ q, r.req = some q → toPeer (s.cap c.vd (c.x.sf a.toNat).toNat) q = false)
    (herr : (c.x.counter 1).err = none) : Ends (.rfence a) s c c.x c.nextPc := by
  obtain ⟨rfl, -⟩ := State.ctx_some hctx
  refine Ends.of_same hctx (exec_rfence a c.s) ?_
  unfold rfence
  rw [guarded_clear c _ _ hcl hg]
  dsimp only
  have hnone : (c.x.accesses.any fun r => r.remoteKind.isSome && r.req.any (toPeer (c.s.cap c.vd (c.x.sf a.toNat).toNat))) = false := by
    simp only [List.any_eq_false, Bool.and_eq_true, Option.any_eq_true, not_and, not_exists, Bool.not_eq_true]
    exact fun r hr hk q hq => hno r hr hk q hq
  rw [if_neg (by simp [hv, hi]), hnone, herr]
  rfl

end

-- ## Frames of memory instructions

/-- Where no acquire is due an access begins at once. -/
theorem Ctx.ordered_of_quiet {c : Ctx} (h : c.Quiet) (f : Ctx → Res) : c.ordered f = f c := by
  have hno : (c.x.accesses.any fun a => a.acq != 0) = false := by simpa using h.1
  simp [Ctx.ordered, hno, h.2]

/-- A release that has nothing left to wait for passes on the remote operations before it. -/
theorem Ctx.releasing_of_released {c : Ctx} {o : Option OPfx} {d : Nat} (h : c.Released o d) (f : Ctx → Res) :
    c.releasing o d f = f (c.passed o d) := by
  unfold Ctx.releasing Ctx.passed
  by_cases ho : ordOf o / 2 = 1
  · simp [ho, h ho]
  · simp [ho]

section
variable (c : Ctx) (o : Option OPfx) (d : Nat)

/-- The release changes the state alone. -/
theorem Ctx.passed_only : c.passed o d = { c with s := (c.passed o d).s } := by
  unfold Ctx.passed
  split <;> rfl

@[simp] theorem Ctx.passed_w : (c.passed o d).w = c.w := by rw [Ctx.passed_only]
@[simp] theorem Ctx.passed_x : (c.passed o d).x = c.x := by rw [Ctx.passed_only]
@[simp] theorem Ctx.passed_f : (c.passed o d).f = c.f := by rw [Ctx.passed_only]
@[simp] theorem Ctx.passed_b : (c.passed o d).b = c.b := by rw [Ctx.passed_only]
@[simp] theorem Ctx.passed_g : (c.passed o d).g = c.g := congrArg (fun b : Block => b.cluster.getD 0) (c.passed_b o d)

end

theorem Ctx.logged_of_none {c : Ctx} (h : c.b.proof = none) (s : State) (as : List Access) : c.logged s as = (s, as) := by
  simp [Ctx.logged, h]

-- ## Requests of the peer groups

/-- Cutting the groups' lengths off the list of all tagged requests, one after another, gives the groups again. -/
theorem foldl_regroup (gs : List (List Access)) (acc : List (List Access)) (l : List Access) :
    (gs.foldl (fun (r : List (List Access) × List Access) g => (r.1 ++ [r.2.take g.length], r.2.drop g.length)) (acc, l)).1 =
      acc ++ regroup (gs.map List.length) l := by
  induction gs generalizing acc l with
  | nil => simp [regroup]
  | cons g gs ih => simp [regroup, ih]

@[simp] theorem length_regroup (ns : List Nat) (l : List Access) : (regroup ns l).length = ns.length := by
  induction ns generalizing l with
  | nil => rfl
  | cons n ns ih => simp [regroup, ih]

theorem tagOps_ne_nil (c : Ctx) (s : State) {as : List Access} (h : as ≠ []) : (tagOps c s as).2 ≠ [] := by
  cases as with
  | nil => exact absurd rfl h
  | cons a as => simp [tagOps]

theorem dedup_ne_nil {α : Type} [DecidableEq α] {l : List α} (h : l ≠ []) : dedup l ≠ [] := by
  cases l with
  | nil => exact absurd rfl h
  | cons x xs => simp [dedup]

theorem mem_of_mem_dedup {α : Type} [DecidableEq α] {l : List α} {x : α} (h : x ∈ dedup l) : x ∈ l := by
  induction l with
  | nil => cases h
  | cons y ys ih =>
    rcases List.mem_cons.1 h with rfl | h
    · exact List.mem_cons_self
    · exact List.mem_cons_of_mem _ (ih (List.mem_filter.1 h).1)

theorem mem_of_mem_insertBy {α : Type} {f : α → Nat} {x y : α} {l : List α} (h : y ∈ insertBy f x l) : y = x ∨ y ∈ l := by
  induction l with
  | nil => exact .inl (List.mem_singleton.1 h)
  | cons z zs ih =>
    unfold insertBy at h
    split at h
    · exact List.mem_cons.1 h
    · rcases List.mem_cons.1 h with rfl | h
      · exact .inr List.mem_cons_self
      · exact (ih h).imp id (List.mem_cons_of_mem _)

theorem mem_of_mem_sortBy {α : Type} {f : α → Nat} {y : α} {l : List α} (h : y ∈ sortBy f l) : y ∈ l := by
  induction l with
  | nil => cases h
  | cons x xs ih =>
    rcases mem_of_mem_insertBy h with rfl | h
    · exact List.mem_cons_self
    · exact List.mem_cons_of_mem _ (ih h)

/-- A peer group is one of an active lane. -/
theorem lanes_ne_nil_of_mem_peerGroups {x : Warp} {a b : BitVec 8} {m : Mask} {g : Nat × List (Nat × Nat)}
    (h : g ∈ peerGroups x a b m) : g.2 ≠ [] := by
  unfold peerGroups at h
  obtain ⟨i, hi, rfl⟩ := List.mem_map.1 h
  obtain ⟨l, hl, rfl⟩ := List.mem_map.1 (mem_of_mem_dedup (mem_of_mem_sortBy hi))
  exact List.ne_nil_of_mem (List.mem_map_of_mem (List.mem_filter.2 ⟨hl, by simp⟩))

theorem byLine_ne_nil {l : List (Nat × Nat)} (h : l ≠ []) : byLine l ≠ [] := by
  simpa [byLine] using dedup_ne_nil (l := l.map fun p => p.2 / 128) (by simpa using h)

/-- Combined or not, lanes make a request: where they combine, the first eight of each address do. -/
theorem farRequests_ne_nil {op t : Nat} {bound : Nat → Nat} {l : List (Nat × Nat)} (h : l ≠ []) : farRequests op t bound l ≠ [] := by
  unfold farRequests
  split
  · obtain ⟨k, hk⟩ := List.exists_mem_of_ne_nil _ (dedup_ne_nil (l := l.map fun l => (l.2, bound l.1)) (by simpa using h))
    obtain ⟨x, hx, rfl⟩ := List.mem_map.1 (mem_of_mem_dedup hk)
    have hsame : x ∈ l.filter fun y => y.2 = x.2 && bound y.1 = bound x.1 := List.mem_filter.2 ⟨hx, by simp⟩
    refine List.ne_nil_of_mem (List.mem_flatMap.2 ⟨_, hk, ?_⟩) (a := (l.filter fun y => y.2 = x.2 && bound y.1 = bound x.1).take 8)
    dsimp only
    rw [eights, if_neg (by rw [List.isEmpty_iff]; exact List.ne_nil_of_mem hsame)]
    exact List.mem_cons_self
  · simpa using h

/-- A peer group makes a request. -/
theorem groupAccesses_ne_nil {k t n : Nat} {nr : Bool} {d : BitVec 8} {acq : Nat} {c : Ctx} {g : Nat × List (Nat × Nat)} (h : g.2 ≠ []) :
    groupAccesses k t n nr d acq c g ≠ [] := by
  unfold groupAccesses
  dsimp only
  split
  · simpa using byLine_ne_nil (by simpa using h)
  split
  · simpa using farRequests_ne_nil (by simpa using h)
  split <;> simp

/-- Groups that have requests are numbered as some, however their requests are tagged. -/
theorem numbered_regroup_ne_nil (c : Ctx) (n : Nat) {made : List (List Access)} {flat : List Access} (hmade : made ≠ [])
    (hsome : ∀ m ∈ made, m ≠ []) (hflat : flat ≠ []) : numbered c n (regroup (made.map List.length) flat) ≠ [] := by
  cases made with
  | nil => exact absurd rfl hmade
  | cons m ms => simp [regroup, numbered, hsome m List.mem_cons_self, hflat]

-- ## Issue

/-- Requests that find room are outstanding, and their class counts each group. -/
theorem Ctx.issueGroups_done {c : Ctx} {u : State} {cls : Nat} {gs : List (List Access)} (loads : Prop) [Decidable loads]
    (hne : numbered c u.nextId gs ≠ []) (hcls : (vget c.x.classes cls {}).count + gs.length ≤ 511)
    (hott : u.ottUsed c.g + (dedup ((numbered c u.nextId gs).filterMap Access.entry)).length ≤ 256) :
    c.issueGroups u cls (if loads then .none else .store) gs = .done
      ({ u with nextId := u.nextId + gs.length + (numbered c u.nextId gs).length }.setWarp c.w fun x =>
        ({ x with accesses := x.accesses ++ numbered c u.nextId gs }.addClass cls gs.length).setFrag c.f.id fun f =>
          if loads then f else f.stores true) := by
  unfold Ctx.issueGroups
  dsimp only
  rw [if_neg (by simpa using hne), if_neg (by simpa [Warp.classFull] using hcls), if_neg (Nat.not_lt.2 hott)]
  by_cases hl : loads
  · simp only [if_pos hl]
  · simp only [if_neg hl]

/-- What is issued is then sent as its ports allow. -/
def Res.sending : Res → Res
  | .done s => .done s.sendAll
  | r => r

/-- A remote instruction returns values to its destination. -/
def remoteReturns (k : Nat) (nr : Bool) : Bool := k = 0 || (k = 2 && !nr)

/-- The destination field of a remote instruction. -/
def remoteField (k n : Nat) (nr : Bool) (d : BitVec 8) : Opnd :=
  if k = 0 then vDst n d else if k = 2 then { vDst n d with reads := true, writes := !nr } else { vOp n d 0 with code := 0 }

/-- The lanes of a peer group whose offsets count: every one, or the lowest where the operation is on a whole line (R381). -/
def remoteLead (k : Nat) (g : Nat × List (Nat × Nat)) : List (Nat × Nat) := if k ≤ 2 then g.2 else g.2.take 1

/-- The bytes that a remote instruction accesses at an offset. -/
def remoteSize (k n : Nat) : Nat := if k ≤ 2 then 4 * n else 128

/-- The state in which a remote instruction's destination is ready for what returns. -/
def Ctx.remoteZeroed (r : Ctx) (k : Nat) (nr : Bool) (d : BitVec 8) (e : Eff) : State :=
  if remoteReturns k nr then r.s.setWarp r.w fun x => x.zeroLanes d.toNat (typeRegs e.type) e else r.s

/-- The requests of the peer groups, as they are before they have op ids. -/
def Ctx.remoteMade (r : Ctx) (k : Nat) (o : Option OPfx) (d a b : BitVec 8) (e : Eff) : List (List Access) :=
  (peerGroups r.x a b e.mask).map (groupAccesses k e.type (typeRegs e.type) (nrOf o) d (acqOf o 2) r)

/-- Groups that all have requests are issued where these find room, and sent as their ports allow. -/
theorem Ctx.issueGroups_sending {r : Ctx} {v u : State} {cls : Nat} {made : List (List Access)} {flat : List Access} (loads : Prop)
    [Decidable loads] (hne : made ≠ []) (hsome : ∀ m ∈ made, m ≠ []) (htag : tagOps r v made.flatten = (u, flat))
    (hcls : (vget r.x.classes cls {}).count + made.length ≤ 511)
    (hott : u.ottUsed r.g +
      (dedup ((numbered r u.nextId (regroup (made.map List.length) flat)).filterMap Access.entry)).length ≤ 256) :
    (r.issueGroups u cls (if loads then .none else .store) (regroup (made.map List.length) flat)).sending = .done
      ({ u with nextId := u.nextId + made.length + (numbered r u.nextId (regroup (made.map List.length) flat)).length }.setWarp r.w fun x =>
        ({ x with accesses := x.accesses ++ numbered r u.nextId (regroup (made.map List.length) flat) }.addClass cls
          made.length).setFrag r.f.id fun f => if loads then f else f.stores true).sendAll := by
  have hflat : flat ≠ [] := by
    obtain ⟨m, hm⟩ := List.exists_mem_of_ne_nil _ hne
    have := tagOps_ne_nil r v (as := made.flatten) fun h => hsome m hm (List.flatten_eq_nil_iff.1 h m hm)
    rwa [htag] at this
  have hlen : (regroup (made.map List.length) flat).length = made.length := by simp
  rw [Ctx.issueGroups_done loads (numbered_regroup_ne_nil r u.nextId hne hsome hflat) (by rwa [hlen]) hott, hlen]
  rfl

theorem Ctx.remoteMade_ne_nil {r : Ctx} {k : Nat} {o : Option OPfx} {d a b : BitVec 8} {e : Eff} :
    ∀ m ∈ r.remoteMade k o d a b e, m ≠ [] := fun m hm => by
  obtain ⟨g, hg, rfl⟩ := List.mem_map.1 hm
  exact groupAccesses_ne_nil (lanes_ne_nil_of_mem_peerGroups hg)

/-- The remote instructions with the kinds of their operations. -/
theorem exec_remote (o : Option OPfx) (p : Option VPfx) (d a b : BitVec 8) (s : State) :
    ∀ q ∈ [(0, Instr.rld o p d a b), (1, .rst o p d a b), (2, .ratom o p d a b), (3, .rvadd o p d a b), (4, .rwsig o p d a b),
      (5, .rred o p d a b)], exec q.2 s = runInstr s (remote q.1 o p d a b) := by
  intro q hq
  simp only [List.mem_cons, List.not_mem_nil, or_false] at hq
  rcases hq with rfl | rfl | rfl | rfl | rfl | rfl <;> rfl

theorem Completes.of_done {i : Instr} {s u : State} {c : Ctx} {f : Ctx → Res} (h : s.ctx = some c) (he : exec i s = runInstr s f)
    (hf : f c = .done u) : Completes i s u c := by
  unfold Completes
  rw [he, runInstr_ctx h, hf]
  rfl

section
variable {c : Ctx} {k : Nat} {o : Option OPfx} {p : Option VPfx} {d a b : BitVec 8} (hcalm : c.Calm) (hrel : c.Released o 2)
  (htype : typeBad p (c.eff p) (remoteTypes k) = none)
  (hclear : c.VClear p [remoteField k (typeRegs (c.eff p).type) (nrOf o) d, vOp 1 a 1, vOp 1 b 2])
  (hcap : ∀ g ∈ peerGroups c.x a b (c.eff p).mask,
    c.capBad k g.1 (remoteSize k (typeRegs (c.eff p).type)) ((remoteLead k g).map Prod.snd) = none)
  (halign : ∀ g ∈ peerGroups c.x a b (c.eff p).mask, ∀ l ∈ remoteLead k g, l.2 % remoteSize k (typeRegs (c.eff p).type) = 0)
include hcalm hrel htype hclear hcap halign

/-- Checks, interlock, order and release passed, a remote instruction issues the requests of its peer groups and sends what it may. -/
theorem remote_of_checks {u : State} {flat : List Access}
    (htag : tagOps (c.passed o 2) ((c.passed o 2).remoteZeroed k (nrOf o) d (c.eff p))
      ((c.passed o 2).remoteMade k o d a b (c.eff p)).flatten = (u, flat)) :
    remote k o p d a b c = Res.inLanes (c.eff p).mask
      (((c.passed o 2).issueGroups u (if remoteReturns k (nrOf o) then 0 else 1) (if k = 0 then .none else .store)
        (regroup (((c.passed o 2).remoteMade k o d a b (c.eff p)).map List.length) flat)).sending) := by
  obtain ⟨hacq, hdue, hproof, hreplay⟩ := hcalm
  obtain ⟨hrange, hready, hflag⟩ := hclear
  have hfault : ((peerGroups c.x a b (c.eff p).mask).findSome? fun g =>
      c.capBad k g.1 (if k ≤ 2 then 4 * typeRegs (c.eff p).type else 128)
        (if k ≤ 2 then g.2.map fun l => l.2 else (g.2.take 1).map fun l => l.2)) = none :=
    List.findSome?_eq_none_iff.2 fun g hg => by simpa only [remoteSize, remoteLead, apply_ite (List.map Prod.snd)] using hcap g hg
  have hbad : ((peerGroups c.x a b (c.eff p).mask).flatMap fun g => ((if k ≤ 2 then g.2 else g.2.take 1).filter fun l =>
      l.2 % (if k ≤ 2 then 4 * typeRegs (c.eff p).type else 128) != 0).map fun l => l.1) = [] := by
    simpa [List.flatMap_eq_nil_iff, List.filter_eq_nil_iff, remoteLead, remoteSize] using halign
  unfold remote
  dsimp only
  rw [show effOf c.x c.f.mask p = c.eff p from rfl]
  simp only [htype]
  refine congrArg _ ((checkRange_ok c _ _ hrange).trans <| (checkReady_ok c _ _ hready hflag _).trans <|
    (Ctx.ordered_of_quiet ⟨hacq, hdue⟩ _).trans ?_)
  simp only [hfault, hbad]
  refine (if_neg (by decide)).trans <| (Ctx.releasing_of_released hrel _).trans ?_
  refine (if_neg (by simp [Ctx.replaying, hreplay])).trans ?_
  have hmade : (peerGroups c.x a b (c.eff p).mask).map
      (groupAccesses k (c.eff p).type (typeRegs (c.eff p).type) (nrOf o) d (acqOf o 2) (c.passed o 2)) =
        (c.passed o 2).remoteMade k o d a b (c.eff p) := by rw [Ctx.remoteMade, Ctx.passed_x]
  have hlogged : (c.passed o 2).b.proof = none := by rwa [Ctx.passed_b]
  simp only [Ctx.logged_of_none hlogged, ite_self, hmade]
  rw [show (if (decide (k = 0) || decide (k = 2) && !nrOf o) = true then
      (c.passed o 2).s.setWarp (c.passed o 2).w fun x => x.zeroLanes d.toNat (typeRegs (c.eff p).type) (c.eff p) else (c.passed o 2).s) =
    (c.passed o 2).remoteZeroed k (nrOf o) d (c.eff p) from rfl, htag]
  simp only [foldl_regroup, List.nil_append]
  rfl

/-- Without an active lane the instruction makes no request. -/
theorem remote_completes_empty {s : State} {i : Instr} (hctx : s.ctx = some c) (hexec : exec i s = runInstr s (remote k o p d a b))
    (hgs : peerGroups c.x a b (c.eff p).mask = []) :
    Completes i s ((c.passed o 2).remoteZeroed k (nrOf o) d (c.eff p)).sendAll c := by
  have hmade : (c.passed o 2).remoteMade k o d a b (c.eff p) = [] := by simp [Ctx.remoteMade, hgs]
  refine Completes.of_done hctx hexec ((remote_of_checks hcalm hrel htype hclear hcap halign (by rw [hmade])).trans ?_)
  rw [hmade]
  rfl

/-- The requests of every peer group are outstanding, one count of their class for each group, and what may be sent is. -/
theorem remote_completes {s u : State} {i : Instr} {flat : List Access} (hctx : s.ctx = some c)
    (hexec : exec i s = runInstr s (remote k o p d a b)) (hgs : peerGroups c.x a b (c.eff p).mask ≠ [])
    (htag : tagOps (c.passed o 2) ((c.passed o 2).remoteZeroed k (nrOf o) d (c.eff p))
      ((c.passed o 2).remoteMade k o d a b (c.eff p)).flatten = (u, flat)) :
    let all := numbered (c.passed o 2) u.nextId (regroup (((c.passed o 2).remoteMade k o d a b (c.eff p)).map List.length) flat)
    let groups := (peerGroups c.x a b (c.eff p).mask).length
    let cls := if remoteReturns k (nrOf o) then 0 else 1
    (vget c.x.classes cls {}).count + groups ≤ 511 →
    u.ottUsed c.g + (dedup (all.filterMap Access.entry)).length ≤ 256 →
    Completes i s ({ u with nextId := u.nextId + groups + all.length }.setWarp c.w fun x =>
      ({ x with accesses := x.accesses ++ all }.addClass cls groups).setFrag c.f.id fun f =>
        if k = 0 then f else f.stores true).sendAll c := by
  intro all groups cls hcls hott
  have hlen : groups = ((c.passed o 2).remoteMade k o d a b (c.eff p)).length := by simp [groups, Ctx.remoteMade]
  have hne : (c.passed o 2).remoteMade k o d a b (c.eff p) ≠ [] := by simpa [Ctx.remoteMade] using hgs
  have hsent := Ctx.issueGroups_sending (k = 0) hne Ctx.remoteMade_ne_nil htag (by rwa [Ctx.passed_x, ← hlen]) (by rwa [Ctx.passed_g])
  rw [← hlen, Ctx.passed_w, Ctx.passed_f] at hsent
  exact Completes.of_done hctx hexec
    ((remote_of_checks hcalm hrel htype hclear hcap halign htag).trans (congrArg _ hsent))

end

/-- Settles O30: remote instructions by their frame and issue, `RFENCE`, and the checks of a capability. -/
theorem remoteAccess : Obligations.RemoteAccess := by
  refine ⟨fun s c o p d a b hctx => ⟨?_, fun hg hcl => ⟨rfence_faults hctx hg hcl, fun hi hv hno herr => ?_⟩⟩, Ctx.capBad_cases⟩
  · intro q hq hcalm hrel r e n nr returns field gs size lead htype hclear hcap halign v cls made
    have hexec := exec_remote o p d a b s q hq
    have hret : returns ↔ remoteReturns q.1 nr = true := by simp [returns, remoteReturns]
    have hv : v = r.remoteZeroed q.1 nr d e := by
      simp only [v, Ctx.remoteZeroed, ← hret, r, Ctx.passed_w]
      rfl
    have hc : cls = if remoteReturns q.1 nr then 0 else 1 :=
      ite_congr (propext hret) (fun _ => rfl) fun _ => rfl
    have hm : made = r.remoteMade q.1 o d a b e := by
      simp only [made, Ctx.remoteMade, r, Ctx.passed_x]
      rfl
    rw [hv, hc, hm]
    exact ⟨remote_completes_empty hcalm hrel htype hclear hcap halign hctx hexec,
      fun hgs u flat htag => remote_completes hcalm hrel htype hclear hcap halign hctx hexec hgs htag⟩
  · exact rfence_ends hctx hg hcl hi hv (fun r hr hk q hq => toPeer_eq_false (hno r hr hk q hq)) herr

end Sys2Proof.Machine
end

section
/-!
PROOF. The fabric at the requester (R97, R98, R100, R101, R104): what completing and sending leave of the fabric, how a request is performed
where it arrives, replies, timeouts and reductions, and how ports hand over planes.
-/
namespace Sys2Proof.Machine

-- ## What completing and sending leave of the fabric

/-- What every step of a folding keeps, the folding keeps. -/
theorem foldl_keeps {α β : Type} {f : State → α → State} {get : State → β} (h : ∀ s a, get (f s a) = get s) (l : List α) (s : State) :
    get (l.foldl f s) = get s := by
  induction l generalizing s with
  | nil => rfl
  | cons a l ih => exact (ih (f s a)).trans (h s a)

theorem State.Translated.fabric {s t : State} (h : s.Translated t) : t.fabric = s.fabric := by
  have := congrArg State.fabric h
  exact this

theorem State.placePost_fabric (s : State) (p : Post) : (s.placePost p).1.fabric = s.fabric := by
  unfold State.placePost
  split
  · rfl
  · split
    · rename_i h
      obtain ⟨l, -, rfl⟩ := Option.map_eq_some_iff.1 h
      exact (s.agentAsk_getD _ _ _ _).fabric
    · rfl
  · rename_i asid va _
    have h := (s.translate_translated none p.vd asid va 5).fabric
    split <;> simpa [*] using h

theorem State.makePost_fabric (s : State) (p : Post) (pa : Nat) : (s.makePost p pa).fabric = s.fabric := by
  have h := (s.platenPoke_translated pa p.bytes p.vd).fabric
  unfold State.makePost
  dsimp only
  split <;> exact h

/-- The device's own writes leave the fabric alone. -/
theorem State.drainPosts_fabric (ps kept : List Post) (s : State) : (State.drainPosts ps kept s).fabric = s.fabric := by
  induction ps generalizing kept s with
  | nil => rfl
  | cons p ps ih =>
    unfold State.drainPosts
    have h := s.placePost_fabric p
    split
    · exact ih _ _
    · split
      all_goals rename_i t hp; rw [hp] at h
      · exact (ih _ _).trans h
      · refine (ih _ _).trans (Eq.trans ?_ h)
        split <;> rfl
      · split
        · exact (ih _ _).trans ((State.makePost_fabric _ _ _).trans h)
        · exact (ih _ _).trans ((State.agentAsk_getD _ _ _ _ _).fabric.trans h)

theorem State.setLog_fabric (s : State) (b : Nat) (l : List LogEntry) : (s.setLog b l).fabric = s.fabric := by
  unfold State.setLog State.proofWrite
  split
  · dsimp only
    split
    · rfl
    · split
      · rfl
      · exact State.drainPosts_fabric _ _ _
  · rfl

@[simp] theorem State.noteAt_fabric (s : State) (b : Nat) (i : Option Nat) (vals : List Nat) : (s.noteAt b i vals).fabric = s.fabric := by
  unfold State.noteAt
  split
  · exact s.setLog_fabric _ _
  · rfl

@[simp] theorem State.finish_fabric (s : State) (w : WarpRef) (a : Access) : (s.finish w a).fabric = s.fabric := by
  unfold State.finish State.sampled
  split <;> rfl

@[simp] theorem State.complete_fabric (s : State) (w : WarpRef) (a : Access) (vals : List (Nat × Nat)) (bad : Option (Nat × Word)) :
    (s.complete w a vals bad).fabric = s.fabric := by
  simp [State.complete, State.note]

@[simp] theorem State.transmit_fabric (s : State) (w : WarpRef) (a : Access) : (s.transmit w a).fabric = s.fabric := by
  unfold State.transmit
  split <;> rfl

@[simp] theorem State.trySend_fabric (s : State) (w : WarpRef) (a : Access) : (s.trySend w a).fabric = s.fabric := by
  unfold State.trySend
  split
  · rfl
  split
  · exact s.complete_fabric _ _ _ _
  split
  · exact s.transmit_fabric _ _
  · rfl

@[simp] theorem State.sendAll_fabric (s : State) : s.sendAll.fabric = s.fabric :=
  foldl_keeps (f := fun s (a : WarpRef × Access) => s.trySend a.1 a.2) (fun s a => s.trySend_fabric a.1 a.2) _ s

theorem State.resendOrphan_ports (s : State) (a : Access) : (s.resendOrphan a).fabric.ports = s.fabric.ports := by
  unfold State.resendOrphan
  dsimp only
  split <;> rfl

/-- Sending again leaves the ports as they are. -/
@[simp] theorem State.resend_ports (s : State) (planes : List Nat) : (s.resend planes).fabric.ports = s.fabric.ports := by
  unfold State.resend
  dsimp only
  rw [State.sendAll_fabric]
  refine foldl_keeps (get := fun s => s.fabric.ports) (fun s a => ?_) _ s
  split
  · exact s.resendOrphan_ports _
  · split <;> simp
  · split <;> simp
  · simp

-- ## Changes of every record of a map

theorem find_mapv {α : Type} (m : NMap α) (k : Nat) (f : α → α) : find (mapv m f) k = (find m k).map f := by
  induction m with
  | nil => rfl
  | cons e m ih =>
    obtain ⟨j, v⟩ := e
    by_cases h : j = k
    · simp [mapv, find, h]
    · simpa [mapv, find, h] using ih

/-- A change of all records that leaves the default as it is changes what a look-up gives. -/
theorem look_mapv {α : Type} (m : NMap α) (k : Nat) (d : α) (f : α → α) (h : f d = d) : look (mapv m f) k d = f (look m k d) := by
  unfold look
  rw [find_mapv]
  cases find m k <;> simp [h]

-- ## Ports and planes (R100, R101)

section
variable (s : State) (p q c : Nat)

@[simp] theorem State.port_setPort_same (f : Port → Port) : look (s.setPort p f).fabric.ports p {} = f (look s.fabric.ports p {}) :=
  look_upd_same s.fabric.ports p _ f
theorem State.port_setPort_other (f : Port → Port) (h : q ≠ p) : look (s.setPort p f).fabric.ports q {} = look s.fabric.ports q {} :=
  look_upd_other s.fabric.ports p q _ f h

/-- A port that takes a plane carries it and what it carried. -/
theorem State.movePlane_planes (hq : q < 16) (hc : c < 16) (r : Nat) : (look (s.movePlane r c).fabric.ports c {}).planes.getLsbD q =
    (decide (q = r) || (look s.fabric.ports c {}).planes.getLsbD q) := by
  unfold State.movePlane
  dsimp only
  rw [if_pos hc, State.port_setPort_same]
  dsimp only
  rw [look_mapv _ _ _ _ (by simp)]
  rcases Nat.lt_trichotomy q r with h | rfl | h
  · simp [hq, h, Nat.ne_of_lt h]
  · simp [hq]
  · simp [hq, Nat.ne_of_gt h, Nat.sub_ne_zero_of_lt h]

/-- A port to which planes move one after another carries them all. -/
theorem State.movePlanes_planes (hq : q < 16) (hc : c < 16) (l : List Nat) (h : q ∈ l ∨ (look s.fabric.ports c {}).planes.getLsbD q = true) :
    (look (l.foldl (fun (s : State) r => s.movePlane r c) s).fabric.ports c {}).planes.getLsbD q = true := by
  induction l generalizing s with
  | nil => simpa using h
  | cons r l ih =>
    refine ih _ ?_
    rw [State.movePlane_planes _ _ _ hq hc]
    simp only [List.mem_cons] at h
    simp only [Bool.or_eq_true, decide_eq_true_eq]
    rcases h with (h | h) | h
    · exact .inr (.inl h)
    · exact .inl h
    · exact .inr (.inr h)

theorem State.carrierOf_movePlane (hc : c < 16) (hne : c ≠ p) : (s.movePlane p c).carrierOf p = some c := by
  simp [State.movePlane, State.carrierOf, State.setPort, hc, hne]

/-- A plane that moves to carrier 16 has no path. -/
theorem State.carrierOf_movePlane_none (hp : p < 16) : (s.movePlane p 16).carrierOf p = none := by
  simp [State.movePlane, State.carrierOf, show 16 ≠ p by omega]

/-- A port whose retries are exhausted drains; its restore ends (R100). -/
theorem portRetryExhausted_drains {n : Nat} (hfoc : s.focus = .plane p n)
    (hst : (look s.fabric.ports p {}).state = 2 ∨ (look s.fabric.ports p {}).state = 5) :
    exec .portRetryExhausted s = .next (s.setPort p fun k =>
      { k with state := 3, restoring := false, drainAt := some (s.now + ticksPerNs * s.fabric.timeoutNs)
               retries := min (2 ^ 24 - 1) (k.retries + n) }).sendAll := by
  refine runDevice_some ?_
  unfold portRetryExhausted
  rw [hfoc]
  exact if_neg (by rcases hst with h | h <;> simp [h])

/-- At the end of a drain the planes are handed over to the carrier that the switches name, and the link trains. -/
theorem does_portDrainEnd (hfoc : s.focus = .plane p c) (hst : (look s.fabric.ports p {}).state = 3)
    (hdue : ∀ t, (look s.fabric.ports p {}).drainAt = some t → t ≤ s.now)
    (hup : c = 16 ∨ (c < 16 ∧ c ≠ p ∧ (look s.fabric.ports c {}).state = 2)) : Does .portDrainEnd s fun t =>
      (look t.fabric.ports p {}).state = 4 ∧ (look t.fabric.ports p {}).drainAt = none ∧
      (c < 16 → ∀ q ∈ (look s.fabric.ports p {}).carries, (look t.fabric.ports c {}).planes.getLsbD q = true) := by
  have hnow : ((look s.fabric.ports p {}).drainAt.any fun t => decide (s.now < t)) = false := by
    cases h : (look s.fabric.ports p {}).drainAt with
    | none => rfl
    | some t => simpa using hdue t h
  refine ⟨_, runDevice_some (t := State.resend (State.setPort
    ((look s.fabric.ports p {}).carries.foldl (fun (s : State) q => s.movePlane q c) s) p fun k =>
      { k with state := 4, drainAt := none, restoring := false }) (look s.fabric.ports p {}).carries) ?_, ?_⟩
  · unfold portDrainEnd
    rw [hfoc]
    dsimp only
    rw [if_neg (by rcases hup with h | ⟨h, hcp, hup⟩ <;> simp [*])]
  · dsimp only
    rw [State.resend_ports, State.port_setPort_same]
    refine ⟨rfl, rfl, fun hc q hq => ?_⟩
    obtain ⟨-, hcp, -⟩ := hup.resolve_left (Nat.ne_of_lt hc)
    rw [State.port_setPort_other _ _ _ _ hcp]
    have hlt : q < 16 := List.mem_range.1 (List.mem_filter.1 hq).1
    exact s.movePlanes_planes q c hlt hc _ (.inl hq)

theorem planeRemapNotice_moves (hfoc : s.focus = .plane p c) (hp : p < 16) (hc : c < 16) (hst : (look s.fabric.ports c {}).state = 2)
    (hnew : s.carrierOf p ≠ some c) (hown : c ≠ p ∨ s.carrierOf p = none) :
    exec .planeRemapNotice s = .next (s.movePlane p c).sendAll := by
  refine runDevice_some ?_
  unfold planeRemapNotice
  rw [hfoc]
  dsimp only
  rw [if_neg (by simp [hst, hnew]; omega), if_neg (by rcases hown with h | h <;> simp [h]), if_neg (Nat.ne_of_lt hc)]

/-- A plane that comes back to its own port waits for what its carrier has sent (R101). -/
theorem planeRemapNotice_waits (hfoc : s.focus = .plane p p) (hp : p < 16) (hst : (look s.fabric.ports p {}).state = 2)
    (hnew : s.carrierOf p ≠ some p) (hpath : s.carrierOf p ≠ none) :
    exec .planeRemapNotice s = .next (s.setPort p fun k => { k with restoring := true }) := by
  refine runDevice_some ?_
  unfold planeRemapNotice
  rw [hfoc]
  dsimp only
  rw [if_neg (by simp [hst, hnew]; omega), if_pos (by simpa [Option.isSome_iff_ne_none] using hpath)]

theorem planeRemapNotice_noPath (hfoc : s.focus = .plane p 16) (hp : p < 16) :
    exec .planeRemapNotice s = .next ((s.movePlane p 16).resend [p]) := by
  have hcarrier : s.carrierOf p ≠ some 16 := fun h => by
    unfold State.carrierOf at h
    dsimp only at h
    split at h
    · have := Option.some.inj h
      omega
    · cases h
  refine runDevice_some ?_
  unfold planeRemapNotice
  rw [hfoc]
  dsimp only
  rw [if_neg (by simp [hcarrier]; omega), if_neg (by simp; omega), if_pos rfl]

theorem linkRetrained_retries {n : Nat} (hfoc : s.focus = .plane p n) (hp : p < 16) :
    exec .linkRetrained s = .next (s.setPort p fun k => { k with retries := min (2 ^ 24 - 1) (k.retries + n) }) := by
  refine runDevice_some ?_
  unfold linkRetrained
  rw [hfoc]
  exact if_pos hp

theorem linkRetrained_trains (hfoc : s.focus = .port p) (hst : (look s.fabric.ports p {}).state = 4) :
    exec .linkRetrained s = .next (s.setPort p fun k => { k with state := 5 }) := by
  refine runDevice_some ?_
  unfold linkRetrained
  rw [hfoc]
  exact if_pos hst

theorem fportctlRestore_restores (hfoc : s.focus = .port p) (hst : (look s.fabric.ports p {}).state = 5) :
    exec .fportctlRestore s = .next (s.setPort p fun k => { k with restoring := true }) := by
  refine runDevice_some ?_
  unfold fportctlRestore
  rw [hfoc]
  exact if_pos hst

/-- Once every request of its plane has a reply or has passed its timeout, a port takes its own plane back. -/
theorem planeRestoreComplete_takes (hfoc : s.focus = .port p)
    (hst : (look s.fabric.ports p {}).state = 5 ∨ (look s.fabric.ports p {}).state = 2)
    (hre : (look s.fabric.ports p {}).restoring = true)
    (hout : ∀ a ∈ s.allAccesses, a.2.remoteKind.isSome = true → a.2.sent = 1 → a.2.plane = p →
      a.2.time + ticksPerNs * s.fabric.timeoutNs ≤ s.now)
    (horph : ∀ a ∈ s.fabric.orphans, a.2.plane = p → a.2.time + ticksPerNs * s.fabric.timeoutNs ≤ s.now) :
    exec .planeRestoreComplete s =
      .next (((s.movePlane p p).setPort p fun k => { k with state := 2, restoring := false }).resend [p]) := by
  have hbusy : (s.allAccesses.any fun a => a.2.remoteKind.isSome && a.2.sent = 1 && a.2.plane = p && s.now < s.fabricDue a.2.time) = false := by
    simp only [List.any_eq_false, Bool.and_eq_true, decide_eq_true_eq, not_and, Nat.not_lt, and_imp]
    exact hout
  have horphan : (s.fabric.orphans.any fun a => a.2.plane = p && s.now < s.fabricDue a.2.time) = false := by
    simp only [List.any_eq_false, Bool.and_eq_true, decide_eq_true_eq, not_and, Nat.not_lt]
    exact horph
  refine runDevice_some ?_
  unfold planeRestoreComplete
  rw [hfoc]
  dsimp only
  rw [hbusy, horphan, if_neg (by rcases hst with h | h <;> simp [h, hre])]

end

-- ## Replies and timeouts (R97, R98)

section
variable {s : State} {w : WarpRef} {a : Access}

/-- A change of an access leaves its block where it is. -/
theorem State.cluster_setAccess (s : State) (w : WarpRef) (id : Nat) (f : Access → Access) :
    ((s.setAccess w id f).blk w.blk).bind Block.cluster = (s.blk w.blk).bind Block.cluster := by
  simp only [State.setAccess, State.setWarp, State.blk_setImg_same]
  cases s.blk w.blk <;> rfl

/-- A remote access of a resident block completes with its acquire, once that can be made. -/
theorem State.remoteDone_of_cluster {g : Nat} (hg : (s.blk w.blk).bind Block.cluster = some g) (hline : a.line = none) :
    let acq := if a.acq = 6 then 3 else a.acq
    let vals := if a.dst.isSome then sortBy (fun g => g.1) a.got else []
    s.remoteDone w a = if s.acqReady g a.vd acq then
      some (((s.complete w { a with acq := 0 } vals a.failed).acqDone g a.die a.vd acq).sendAll) else none := by
  intro acq vals
  unfold State.remoteDone State.farDone
  dsimp only
  rw [hg, hline]
  dsimp only
  cases h : s.acqReady g a.vd acq <;> simp [acq, vals]

theorem fabricReply_completes {op g : Nat} {refused : Bool} {data : LineData} (hfoc : s.focus = .reply op refused data)
    (hop : s.byPacket op = some (w, a)) (hk : a.remoteKind ≠ some 5 ∨ refused = true)
    (hg : (s.blk w.blk).bind Block.cluster = some g) (hline : a.line = none) :
    let b := { a with sent := 3, ops := [], got := a.got ++ if refused then [] else a.replyVals data
                      failed := a.failed.or (if refused then some (0x17, 1#32) else none) }
    let u := s.setAccess w a.id fun _ => b
    let acq := if a.acq = 6 then 3 else a.acq
    let vals := if a.dst.isSome then sortBy (fun g => g.1) b.got else []
    exec .fabricReply s = .next (if u.acqReady g a.vd acq then
      ((u.complete w { b with acq := 0 } vals b.failed).acqDone g a.die a.vd acq).sendAll else u.sendAll) := by
  intro b u acq vals
  have hdone := State.remoteDone_of_cluster (s := u) (w := w) (a := b) ((s.cluster_setAccess w a.id _).trans hg) hline
  refine runDevice_some ?_
  unfold fabricReply
  rw [hfoc]
  dsimp only
  rw [hop]
  dsimp only
  rw [if_neg (by rcases hk with h | h <;> simp [h])]
  refine congrArg some ((congrArg (fun o => Option.getD o u.sendAll) hdone).trans ?_)
  cases h : u.acqReady g a.vd acq <;> simp [b, acq, vals]

/-- The reply to what an aborted kernel had sent gives its unit back. -/
theorem fabricReply_orphan {op : Nat} {refused : Bool} {data : LineData} (hfoc : s.focus = .reply op refused data)
    (hop : s.byPacket op = none) (horph : (s.orphan op).isSome = true) : exec .fabricReply s = .next (s.dropOrphan op).sendAll := by
  obtain ⟨b, hb⟩ := Option.isSome_iff_exists.1 horph
  refine runDevice_some ?_
  simp only [fabricReply, hfoc, hop, hb, Option.map_some]

theorem fabricTimeout_completes {id : Nat} (hfoc : s.focus = .access w id) (ha : s.access w id = some a)
    (hk : a.remoteKind.isSome = true) (hsent : a.sent = 1) (hdue : a.time + ticksPerNs * s.fabric.timeoutNs ≤ s.now)
    (hplane : s.planeHandled a.plane = false) :
    exec .fabricTimeout s = .next (s.complete w { a with acq := 0 } [] (some (0x17, 0#32))).sendAll := by
  have hnow : ¬ s.now < s.fabricDue a.time := Nat.not_lt.2 hdue
  have hnone : a.remoteKind.isNone = false := by simpa using hk
  refine runDevice_some ?_
  unfold fabricTimeout
  rw [hfoc]
  dsimp only
  rw [ha, Option.bind_some, if_neg (by simp [hnone, hsent, hnow, hplane])]

end

-- ## Requests that arrive (R92, R98, R104)

theorem State.fabricTrans_translated (v : Nat) (l : List (Nat × Nat)) (s : State) : s.Translated (s.fabricTrans v l).1 := by
  induction l generalizing s with
  | nil => exact .refl s
  | cons e l ih =>
    unfold State.fabricTrans
    exact (s.translate_translated none v 0 e.1 e.2).trans (ih _)

/-- A request that arrives, and that nothing holds back, is performed; it stands at its port meanwhile. -/
theorem State.incoming_of_arrives {s t : State} {kind : Nat} {q : InReq} {pas : List Nat} (h : Arrives s t kind q pas)
    (f : State → List Nat → Option State) :
    s.incoming { q, kind } f = (f (t.hold { q, kind }) pas).or (s.news (t.hold { q, kind })) := by
  obtain ⟨hopen, hheld, hlen, htrans⟩ := h
  have hfab : t.fabric = s.fabric := by
    have := (s.fabricTrans_translated q.vd (HeldReq.uses { q, kind })).fabric
    rwa [htrans] at this
  have hfirst : ((s.fabric.held.takeWhile fun o => !(decide (o.q = q) && decide (o.kind = kind))).any fun o =>
      HeldReq.sameLine { q, kind } o && !s.requestDone o) = false := by
    simp only [List.any_eq_false, Bool.and_eq_true, not_and]
    intro o ho hsame
    rw [(hheld o ((List.takeWhile_sublist _).mem ho)).2] at hsame
    cases hsame
  have hkeep : (t.fabric.held.any fun o => decide (o.q = q) && decide (o.kind = kind)) = false := by
    rw [hfab]
    simp only [List.any_eq_false, Bool.and_eq_true, decide_eq_true_eq, not_and]
    exact fun o ho hq => absurd hq (hheld o ho).1
  unfold State.incoming
  dsimp only
  rw [if_neg (by simp [hopen]), hfirst, htrans]
  have hpas : ((HeldReq.uses { q, kind }).zip pas).map Prod.snd = pas := List.map_snd_zip (Nat.le_of_eq hlen)
  generalize (HeldReq.uses { q, kind }).zip pas = l at hpas
  simp [hkeep, hpas, List.filterMap_map, Function.comp_def]

/-- A platen agent that may write a line does, and counts as having used it. -/
theorem State.owning_of_may {t : State} {line : Nat} (h : May t line true) (me : Instr) (v : Nat) (f : State → State) :
    t.owning me [line] v f = some ((f (t.touch line)).passOn line) := by
  obtain ⟨htokens, hhost, hready, hbuf⟩ := h
  have hmay : t.agentMay line true = true := by
    simp only [State.agentMay, State.agentHas, htokens, hhost, hbuf]
    cases hl : hostLine line with
    | false => rfl
    | true => simp [hready hl]
  simp [State.owning, State.using, State.usingIf, hmay]

/-- A signal's request that arrives writes its line and sends its increment, and stands at its port until the reply (R94). -/
theorem State.signalled_of_arrives {s t : State} {kind pa sg : Nat} {q : InReq} (h : Arrives s t kind q [pa, sg])
    (hmay : May t (pa / 128) true) (me : Instr) : s.signalled me { q, kind } = some
      ((((((t.hold { q, kind }).touch (pa / 128)).writeMasked pa q.vd q.data q.mask).hold
        { q, kind, half := 1, sigPa := sg, timer := t.now }).portAtomic (t.portFor q.plane) q.vd sg 9 8
          [{ op := q.op, arg := 1, nr := true, module := q.srcModule, src := t.portFor q.plane }]).passOn (pa / 128)) := by
  have hheld : May (t.hold { q, kind }) (pa / 128) true := hmay
  have hnow : ((t.hold { q, kind }).touch (pa / 128)).now = t.now := by
    rw [State.touch_only]
    rfl
  have hport : ((t.hold { q, kind }).touch (pa / 128)).portFor q.plane = t.portFor q.plane := by
    rw [State.touch_only]
    rfl
  unfold State.signalled
  rw [if_neg Nat.zero_ne_one, State.incoming_of_arrives h]
  simp only [List.headD_cons, List.drop_succ_cons, List.drop_zero, State.owning_of_may hheld, hnow, hport, Option.some_or]

/-- A reduction's result lands in our window, and our signal word is incremented (R104). -/
theorem rredResult_performed {s t : State} {w : WarpRef} {a : Access} {op ty pa sg : Nat} {lines : List LineData}
    (hfoc : s.focus = .reduced op lines) (hop : s.byOp op = some (w, a)) (hkind : a.kind = .remote 5 ty) (hsent : a.sent = 1)
    (htwo : 2 ≤ lines.length) (hmax : lines.length ≤ 256) (hours : a.payload.1 ∈ lines) :
    let e := s.cap a.vd a.cap
    let q : InReq := { plane := a.plane, srcModule := s.fabric.module, srcVd := a.vd, op, vd := a.vd, fa := a.fa
                       mask := BitVec.allOnes 128, data := reduceLines ty lines, kind := ty, members := []
                       sig := bits e 127 64 + bits e 255 192 }
    Arrives (s.setAccess w a.id fun a => { a with sent := 3 }) t 5 q [pa, sg] → May t (pa / 128) true →
    exec .rredResult s =
      .next ((((((t.hold { q, kind := 5 }).touch (pa / 128)).writeMasked pa a.vd q.data q.mask).hold
        { q, kind := 5, half := 1, sigPa := sg, timer := t.now }).portAtomic (t.portFor a.plane) a.vd
        sg 9 8 [{ op, arg := 1, nr := true, module := s.fabric.module, src := t.portFor a.plane }]).passOn (pa / 128)).sendAll := by
  intro e q harr hmay
  refine runDevice_some ?_
  unfold rredResult
  rw [hfoc]
  dsimp only
  rw [hop]
  simp only [hkind]
  rw [if_neg (by simp [hsent, hours]; omega)]
  exact congrArg (Option.map State.sendAll) (State.signalled_of_arrives harr hmay .rredResult)

/-- Settles O43: replies, timeouts and reductions at the requester, then ports and planes. -/
theorem fabricReplySteps : Obligations.FabricReplySteps := by
  refine ⟨fun s w a => ⟨fun op refused data g hfoc hop hk hg hline => ?_, fun op refused data => fabricReply_orphan,
    fun id => fabricTimeout_completes, fun op lines ty t pa sg hfoc hop hkind hsent htwo hmax hours =>
      rredResult_performed hfoc hop hkind hsent htwo hmax hours⟩, fun s p => ?_⟩
  · have h := fabricReply_completes hfoc hop hk hg hline
    exact ⟨fun hr => by rw [h, if_pos hr], fun hr => by rw [h, if_neg (by simp [hr])]⟩
  · exact ⟨fun n => portRetryExhausted_drains s p, fun c => does_portDrainEnd s p c,
      fun c hfoc hp => ⟨planeRemapNotice_moves s p c hfoc hp, fun hc => by subst hc; exact planeRemapNotice_waits s c hfoc hp,
        fun hc => by subst hc; exact planeRemapNotice_noPath s p hfoc hp⟩,
      fun n => linkRetrained_retries s p,
      fun c hp hc hne => ⟨s.carrierOf_movePlane p c hc hne, s.carrierOf_movePlane_none p hp⟩,
      fun hfoc => ⟨linkRetrained_trains s p hfoc, fportctlRestore_restores s p hfoc, planeRestoreComplete_takes s p hfoc⟩⟩

end Sys2Proof.Machine
end

section
/-!
PROOF. Resets (R119, R132–R137): what leaves and stays when blocks and commands are discarded and when tokens are forgotten, what bring-up
makes of a state, and from these the steps of a VD's, a die's and the device's reset.
-/
namespace Sys2Proof.Machine

-- ## Lists of keys

theorem mem_keys_pick {α : Type} {m : NMap α} {p : α → Bool} {e : Nat × α} (he : e ∈ m) (hp : p e.2 = true) : e.1 ∈ keys (pick m p) :=
  List.mem_map_of_mem (List.mem_filter.2 ⟨he, hp⟩)

/-- Once the keys of the values that `p` selects are filtered out, no value is left that `p` selects. -/
theorem not_of_mem_filter_keys {α : Type} {m : NMap α} {p : α → Bool} {e : Nat × α}
    (h : e ∈ m.filter fun e => !(keys (pick m p)).contains e.1) : p e.2 = false := by
  obtain ⟨hm, hk⟩ := List.mem_filter.1 h
  refine Bool.eq_false_iff.2 fun hp => ?_
  rw [List.contains_iff_mem.2 (mem_keys_pick hm hp)] at hk
  cases hk

/-- A changed map lists what it listed, the value at the key changed. -/
theorem of_mem_adj {α : Type} {m : NMap α} {k : Nat} {f : α → α} {e : Nat × α} (h : e ∈ adj m k f) :
    e ∈ m ∨ ∃ v, (e.1, v) ∈ m ∧ e.2 = f v := by
  induction m with
  | nil => cases h
  | cons a m ih =>
    obtain ⟨j, u⟩ := a
    unfold adj at h
    split at h
    · rcases List.mem_cons.1 h with rfl | h
      · exact .inr ⟨u, List.mem_cons_self, rfl⟩
      · exact .inl (List.mem_cons_of_mem _ h)
    · rcases List.mem_cons.1 h with rfl | h
      · exact .inl List.mem_cons_self
      · exact (ih h).imp (List.mem_cons_of_mem _) fun ⟨v, hv, he⟩ => ⟨v, List.mem_cons_of_mem _ hv, he⟩

/-- Whether a filter by keys keeps a key decides what is found there. -/
theorem find_filter_key {α : Type} (m : NMap α) (p : Nat → Bool) (k : Nat) :
    find (m.filter fun e => p e.1) k = if p k then find m k else none := by
  induction m with
  | nil => simp [find]
  | cons e m ih =>
    obtain ⟨j, v⟩ := e
    by_cases hj : j = k
    · subst hj
      cases hp : p j <;> simp_all [find]
    · cases hp : p j <;> simp [find, hj, hp, ih]

-- ## What is dropped of commands and blocks

theorem State.dropCmds_not (s : State) (p : Command → Bool) : ∀ e ∈ (s.dropCmds p).cmds, p e.2 = false :=
  fun _ he => not_of_mem_filter_keys he

@[simp] theorem State.dropCmds_boot (s : State) (p : Command → Bool) : (s.dropCmds p).boot = s.boot := rfl
@[simp] theorem State.discardBlock_boot (s : State) (n : Nat) : (s.discardBlock n).boot = s.boot := rfl

/-- Discarding a block moves no block to another kernel. -/
theorem State.discardBlock_kernel {s : State} {n : Nat} {e : Nat × Block} (h : e ∈ (s.discardBlock n).blocks) :
    ∃ b, (e.1, b) ∈ s.blocks ∧ b.kernel = e.2.kernel := by
  rcases of_mem_adj h with h | ⟨b, hb, he⟩
  · exact ⟨e.2, h, rfl⟩
  · exact ⟨b, hb, by rw [he]⟩

theorem State.discardBlocks_kernel {l : List Nat} {s : State} {e : Nat × Block} (h : e ∈ (l.foldl State.discardBlock s).blocks) :
    ∃ b, (e.1, b) ∈ s.blocks ∧ b.kernel = e.2.kernel := by
  induction l generalizing s with
  | nil => exact ⟨e.2, h, rfl⟩
  | cons n l ih =>
    obtain ⟨b, hb, hk⟩ := ih h
    obtain ⟨b', hb', hk'⟩ := State.discardBlock_kernel hb
    exact ⟨b', hb', hk'.trans hk⟩

theorem State.vdOf_congr (s : State) {a b : Block} (h : a.kernel = b.kernel) : s.vdOf a = s.vdOf b := by
  unfold State.vdOf
  rw [h]

/-- When a VD's blocks have been discarded and their entries removed, the blocks left are other VDs'. -/
theorem State.vdOf_ne_of_discarded {s : State} {v : Nat} {e : Nat × Block}
    (h : e ∈ ((keys (pick s.blocks fun b => s.vdOf b = v)).foldl State.discardBlock s).blocks.filter fun e =>
      !(keys (pick s.blocks fun b => s.vdOf b = v)).contains e.1) : s.vdOf e.2 ≠ v := by
  obtain ⟨hm, hk⟩ := List.mem_filter.1 h
  obtain ⟨b, hb, hbk⟩ := State.discardBlocks_kernel hm
  have hne := not_of_mem_filter_keys (List.mem_filter.2 ⟨hb, hk⟩)
  rw [← s.vdOf_congr hbk]
  simpa using hne

-- ## Forgetting tokens (R51, R69)

/-- Apart from memory with its frames, coherence, the network and the links, the state is `s`. -/
def State.Forgets (s t : State) : Prop :=
  { t with mem := s.mem, hbm := s.hbm, coh := s.coh, net := s.net, cxl := s.cxl, nextId := s.nextId } = s

theorem State.Forgets.refl (s : State) : s.Forgets s := rfl
theorem State.Forgets.trans {s t u : State} (h : s.Forgets t) (h' : t.Forgets u) : s.Forgets u := by
  have := congrArg (fun (x : State) => { x with
    mem := s.mem, hbm := s.hbm, coh := s.coh, net := s.net, cxl := s.cxl, nextId := s.nextId }) h'
  exact this.trans h
theorem State.Forgets.foldl {α : Type} {f : State → α → State} (hf : ∀ (t : State) (a : α), t.Forgets (f t a)) (l : List α) (s : State) :
    s.Forgets (l.foldl f s) :=
  List.foldlRecOn l f (motive := s.Forgets) (.refl s) fun t ht a _ => ht.trans (hf t a)

section
variable {s t : State} (h : s.Forgets t)
include h
theorem State.Forgets.boot : t.boot = s.boot := (congrArg State.boot h :)
theorem State.Forgets.cmds : t.cmds = s.cmds := (congrArg State.cmds h :)
theorem State.Forgets.clusters : t.clusters = s.clusters := (congrArg State.clusters h :)
theorem State.Forgets.blocks : t.blocks = s.blocks := (congrArg State.blocks h :)
end

theorem State.send_forgets (s : State) (m : Msg) : s.Forgets (s.send m) := rfl
theorem State.setHome_forgets (s : State) (line : Nat) (t : Tag) : s.Forgets (s.setHome line t) := rfl
theorem State.takeHost_forgets (s : State) (line : Nat) : s.Forgets (s.takeHost line) := by
  unfold State.takeHost; split <;> rfl
theorem State.lose_forgets (s : State) (line : Nat) : s.Forgets (s.lose line) := by
  unfold State.lose; split <;> rfl
theorem State.giveUpHost_forgets (s : State) (line : Nat) : s.Forgets (s.giveUpHost line) := by
  unfold State.giveUpHost
  split
  · rfl
  · dsimp only
    split
    · rfl
    · exact s.takeHost_forgets line

/-- Tokens go home unless `p` says that they are gone, and where `q` says that they bring written bytes, these are given up. -/
theorem State.tokensHome_forgets (s : State) (line : Nat) (t : Tag) (p q : Bool) : s.Forgets
    (if p then s else if q then (s.setHome line t).giveUpHost line else s.setHome line t) := by
  split
  · exact .refl s
  split
  · exact (s.setHome_forgets line t).trans (State.giveUpHost_forgets _ _)
  · exact s.setHome_forgets line t

theorem State.forget_forgets (s : State) (h line : Nat) (t : Tag) (home : Bool) : s.Forgets (s.forget h line t home) := by
  have hdel : s.Forgets { s with coh := { s.coh with held := upd s.coh.held h [] fun m => del m line } } := rfl
  unfold State.forget
  dsimp only
  refine hdel.trans ?_
  split
  · exact State.tokensHome_forgets _ _ _ false _
  split
  · split
    · exact (State.setHome_forgets _ _ _).trans (State.lose_forgets _ _)
    · rfl
  · rfl

theorem State.forgetVd_forgets (s : State) (v : Nat) : s.Forgets (s.forgetVd v) :=
  State.Forgets.trans (t := List.foldl (fun (s : State) (e : Nat × Nat × Tag) => s.forget e.1 e.2.1 e.2.2 false) s _)
    (.foldl (fun t (e : Nat × Nat × Tag) => t.forget_forgets e.1 e.2.1 e.2.2 false) _ s) rfl

theorem State.dropMessages_forgets (s : State) (d : Nat) (dead : Nat → Bool) : s.Forgets (s.dropMessages d dead) := by
  refine State.Forgets.trans (.foldl (fun t m => ?_) _ s) rfl
  split
  · exact (State.send_forgets t _).trans (State.tokensHome_forgets _ _ _ _ _)
  · exact (State.send_forgets t _).trans (State.tokensHome_forgets _ _ _ _ _)
  · exact State.tokensHome_forgets _ _ _ _ _

theorem State.dropPersistent_forgets (s : State) (d : Nat) : s.Forgets (s.dropPersistent d) := by
  refine State.Forgets.trans (t := { s with coh := { s.coh with
    reqs := s.coh.reqs.filter fun r => r.h != some (Holder.die d)
    banks := mapv s.coh.banks fun k => { k with fifo := k.fifo.filter fun q => q.req != Holder.die d } } }) rfl ?_
  refine .foldl (fun t e => ?_) _ _
  split
  · split <;> rfl
  · rfl

/-- A dead die's tags, messages and persistent requests go. -/
theorem State.dieLost_forgets (s : State) (d : Nat) (dead : Nat → Bool) (home : Nat × Tag → Bool) (l : NMap Tag) : s.Forgets
    (((l.foldl (fun (s : State) (e : Nat × Tag) => s.forget d e.1 e.2 (home e)) s).dropMessages d dead).dropPersistent d) :=
  (State.Forgets.foldl (fun t (e : Nat × Tag) => t.forget_forgets d e.1 e.2 (home e)) l s).trans
    ((State.dropMessages_forgets _ d dead).trans (State.dropPersistent_forgets _ d))

-- ## A VD enters `KILLING` (R119, R133)

theorem State.beginKill_boot (s : State) (v : Nat) (release : Bool) (code : Nat) (fromDie : Bool) (ks : List Kernel) :
    (s.beginKill v release code fromDie ks).boot = s.boot := by
  unfold State.beginKill
  split
  · rfl
  · rfl
  · exact (State.Forgets.foldl (fun s e => s.send_forgets _) _ _).boot

theorem State.beginKill_of_open {s : State} {v : Nat} (hf : (s.vd v).state ≠ .free) (hk : (s.vd v).state ≠ .killing)
    (release : Bool) (code : Nat) (fromDie : Bool) (ks : List Kernel) : s.beginKill v release code fromDie ks =
      s.killEngines.foldl (fun s e => s.send { src := .control, dst := engineAt e, kind := .kill e, vd := v })
        (s.setVd v fun x => { x with
          state := .killing, lastCode := code
          kill := some { fromState := (s.vd v).state, release, left := s.killEngines, time := s.now, fromDie, kernels := ks, code } }) := by
  unfold State.beginKill
  split
  · exact absurd ‹_› hf
  · exact absurd ‹_› hk
  · rfl

theorem vfFunctionLevelReset_kills {s : State} {v : Nat} (hfoc : s.focus = .vd v) (hf : (s.vd v).state ≠ .free)
    (hk : (s.vd v).state ≠ .killing) : exec .vfFunctionLevelReset s =
      .next (s.killEngines.foldl (fun s e => s.send { src := .control, dst := engineAt e, kind := .kill e, vd := v })
        (s.setVd v fun x => { x with
          state := .killing, lastCode := 0
          kill := some { fromState := (s.vd v).state, left := s.killEngines, time := s.now } })) := by
  refine runDevice_some ?_
  unfold vfFunctionLevelReset
  rw [hfoc]
  dsimp only
  rw [if_neg hf, State.beginKill_of_open hf hk]

-- ## Engines act and acknowledge (R134, R135)

theorem State.takeMsg_vd {s u : State} {i : Nat} {m : Msg} (h : s.takeMsg i = some (m, u)) (v : Nat) : u.vd v = s.vd v := by
  unfold State.takeMsg at h
  split at h
  · cases h
  · obtain ⟨a, -, he⟩ := Option.map_eq_some_iff.1 h
    cases he
    rfl

theorem engineKill_acknowledges {s u : State} {i : Nat} {m : Msg} {e : KillEngine} (hfoc : s.focus = .msg i)
    (htake : s.takeMsg i = some (m, u)) (hm : m.kind = .kill e) : exec .engineKill s =
      .next ((u.killAt m.vd e).send { src := m.dst, dst := .control, kind := .killAck e, vd := m.vd }) := by
  refine runDevice_some ?_
  unfold engineKill
  rw [hfoc]
  dsimp only
  rw [htake, Option.bind_some]
  dsimp only
  rw [hm]

theorem does_killAck {s u : State} {i : Nat} {m : Msg} {e : KillEngine} {k : KillRun} (hfoc : s.focus = .msg i)
    (htake : s.takeMsg i = some (m, u)) (hm : m.kind = .killAck e) (hk : (s.vd m.vd).kill = some k) :
    Does .killAcksComplete s fun t => (t.vd m.vd).kill = some { k with left := k.left.filter (· ≠ e) } ∧
      (k.left.all (· = e) = true → k.erased = false → (.killAcksComplete, .vd m.vd) ∈ t.agenda) := by
  have hkill : ((u.setVd m.vd fun x => { x with kill := x.kill.map fun k => { k with left := k.left.filter (· ≠ e) } }).vd m.vd).kill =
      some { k with left := k.left.filter (· ≠ e) } := by
    rw [State.vd_setVd_same, State.takeMsg_vd htake, hk]
    rfl
  refine ⟨?next, runDevice_some ?step, ?after⟩
  case step =>
    unfold killAcksComplete
    rw [hfoc]
    dsimp only
    rw [htake, Option.bind_some]
    dsimp only
    rw [hm]
  case after =>
    split
    · exact ⟨hkill, fun _ _ => List.mem_append_right _ List.mem_cons_self⟩
    · rename_i hnot
      refine ⟨hkill, fun hall herased => absurd ?_ hnot⟩
      rw [hkill]
      simpa [herased] using hall

theorem killCluster_keeps_nothing (s : State) (v g : Nat) :
    (∀ e ∈ ((s.killCluster v g).cl g).tlb, e.vd ≠ v) ∧ (∀ e ∈ ((s.killCluster v g).cl g).wcb, e.vd ≠ v) ∧
      (∀ l ∈ ((s.killCluster v g).cl g).l1, l.2.vd ≠ v) := by
  unfold State.killCluster
  rw [State.cl_setCl_same]
  exact ⟨fun e he => bne_iff_ne.1 (List.mem_filter.1 he).2, fun e he => bne_iff_ne.1 (List.mem_filter.1 he).2,
    fun e he => bne_iff_ne.1 (List.mem_filter.1 he).2⟩

/-- A copy engine keeps of a VD's commands only the steps of matrix sequences, which are its matrix engine's. -/
theorem killAt_copyEngine_isStep {s : State} {v g b : Nat} {c : Command} (hmem : (s.killAt v (.copyEngine g)).cmds.contains (b, c))
    (hg : c.cluster = g) (hv : s.cmdVd c = v) : c.kind.isStep = true := by
  have := s.dropCmds_not _ (b, c) (List.contains_iff_mem.1 hmem)
  simpa [hg, hv] using this

theorem killAckTimeout_asks {s : State} {v : Nat} {e : KillEngine} {k : KillRun} (hfoc : s.focus = .engine v e)
    (hk : (s.vd v).kill = some k) (he : e ∈ k.left) (hlate : k.time + 10000 * ticksPerNs ≤ s.now) :
    (∀ d, engineDie e = some d → exec .killAckTimeout s = .next { s with agenda := s.agenda ++ [(.fatalDieError, .die d)] }) ∧
      (engineDie e = none → exec .killAckTimeout s = .next { s with agenda := s.agenda ++ [(.deviceReset, .none)] }) := by
  refine ⟨fun d hd => runDevice_some ?_, fun hd => runDevice_some ?_⟩
  all_goals simp [killAckTimeout, hfoc, hk, he, hd, Nat.not_lt.2 hlate]

-- ## After the last acknowledgement (R52, R119, R133)

/-- Erasing a VD notes what its reset has still to do, and leaves no block of the VD and, where it is released, no key. -/
theorem State.eraseVd_erased (u : State) (v : Nat) (k : KillRun) (sigs : List Nat) :
    (∃ frames, ((u.eraseVd v k sigs).vd v).kill = some { k with erased := true, frames, sigs }) ∧
      (∀ b ∈ (u.eraseVd v k sigs).blocks, u.vdOf b.2 ≠ v) ∧ (k.release = true → ∀ e ∈ (u.eraseVd v k sigs).keySlots, e.2 ≠ v) := by
  unfold State.eraseVd
  dsimp only
  refine ⟨⟨_, by rw [State.vd_setVd_same]⟩, fun b hb => ?_, fun hr e he => ?_⟩
  · rw [State.setVd_blocks] at hb
    split at hb
    all_goals
      dsimp only at hb
      rw [(State.forgetVd_forgets _ v).blocks] at hb
      exact State.vdOf_ne_of_discarded hb
  · rw [hr] at he
    exact of_decide_eq_true (List.mem_filter.1 he).2

theorem does_killAcksComplete_erases {s u : State} {v : Nat} {k : KillRun} {sigs : List Nat} (hfoc : s.focus = .vd v)
    (hk : (s.vd v).kill = some k) (hleft : k.left = []) (her : k.erased = false) (hsigs : s.signalAddrs v k.kernels = (u, some sigs)) :
    Does .killAcksComplete s fun t => (∃ frames, (t.vd v).kill = some { k with erased := true, frames, sigs }) ∧
      (∀ b ∈ t.blocks, u.vdOf b.2 ≠ v) ∧ (k.release = true → ∀ e ∈ t.keySlots, e.2 ≠ v) ∧ (.killAcksComplete, .vd v) ∈ t.agenda := by
  obtain ⟨hkill, hblocks, hkeys⟩ := u.eraseVd_erased v k sigs
  refine ⟨{ u.eraseVd v k sigs with agenda := (u.eraseVd v k sigs).agenda ++ [(.killAcksComplete, .vd v)] }, runDevice_some ?_,
    hkill, hblocks, hkeys, List.mem_append_right _ List.mem_cons_self⟩
  unfold killAcksComplete
  rw [hfoc]
  dsimp only
  rw [hk, Option.bind_some, hleft, her, hsigs]
  rfl

theorem killAcksComplete_ends {s : State} {v : Nat} {k : KillRun} (hfoc : s.focus = .vd v) (hk : (s.vd v).kill = some k)
    (hleft : k.left = []) (her : k.erased = true) (hframes : k.frames = []) (hsigs : k.sigs = []) :
    exec .killAcksComplete s = .next (s.endKill v k) := by
  refine runDevice_some ?_
  unfold killAcksComplete
  rw [hfoc]
  dsimp only
  rw [hk, Option.bind_some, hleft, her, hframes, hsigs]
  rfl

/-- The table of next states (R119). -/
theorem KillRun.next_cases (k : KillRun) (key : Bool) (dies : Nat) :
    (k.release = true → k.next key dies = .free) ∧
    (k.release = false → key = false → k.next key dies = .faulted) ∧
    (k.release = false → key = true → k.fromState = .configured → k.next key dies = .configured) ∧
    (k.release = false → key = true → k.fromState ≠ .configured → dies = 0 → k.next key dies = .faulted) ∧
    (k.release = false → key = true → k.fromState = .suspended → dies ≠ 0 → k.next key dies = .suspended) ∧
    (k.release = false → key = true → k.fromState = .active ∨ k.fromState = .faulted → dies ≠ 0 → k.next key dies = .active) := by
  refine ⟨?_, ?_, ?_, ?_, ?_, ?_⟩
  · intro hr; simp [KillRun.next, hr]
  · intro hr hk; simp [KillRun.next, hr, hk]
  · intro hr hk hf; simp [KillRun.next, hr, hk, hf]
  · intro hr hk hf hd; simp [KillRun.next, hr, hk, hf, hd]
  · intro hr hk hf hd; simp [KillRun.next, hr, hk, hf, hd]
  · rintro hr hk (hf | hf) hd <;> simp [KillRun.next, hr, hk, hf, hd]

-- ## A die fails (R132, R137)

/-- A die's fatal error disables it, drops its commands and removes its clusters; what follows forgets tokens and messages. -/
theorem fatalDieError_some {s : State} {d : Nat} (hfoc : s.focus = .die d) (hd : s.dieEnabled d = true) :
    ∃ u t : State, fatalDieError s = some t ∧ t.boot = { s.boot with disabled := s.boot.disabled ||| (1#32 <<< d) } ∧
      t.cmds = (u.dropCmds fun c => c.cluster / 16 = d).cmds ∧ t.clusters = u.clusters.filter fun c => c.1 / 16 != d := by
  unfold fatalDieError
  rw [hfoc]
  dsimp only
  rw [if_neg (by simp [hd])]
  generalize hu : List.foldl State.discardBlock _ _ = u
  have hboot : u.boot = { s.boot with disabled := s.boot.disabled ||| (1#32 <<< d) } := by
    rw [← hu]
    refine (foldl_keeps (get := State.boot) (fun s n => s.discardBlock_boot n) _ _).trans ?_
    exact foldl_keeps (get := State.boot) (fun s v => State.beginKill_boot { s with free := s.free + 1 } v _ _ _ _) _ _
  refine ⟨u, _, rfl, ?_, ?_, ?_⟩
  · rw [← hboot]
    exact (State.dieLost_forgets _ _ _ _ _).boot
  · exact (State.dieLost_forgets _ _ _ _ _).cmds
  · exact (State.dieLost_forgets _ _ _ _ _).clusters

theorem getLsbD_disable (m : BitVec 32) {d e : Nat} (hd : d < 32) :
    (m ||| (1#32 <<< d)).getLsbD e = (m.getLsbD e || decide (e = d)) := by
  rw [BitVec.getLsbD_or, ← BitVec.twoPow_eq, BitVec.getLsbD_twoPow]
  by_cases h : d = e
  · simp [h, h ▸ hd]
  · simp [h, Ne.symm h]

theorem does_fatalDieError {s : State} {d : Nat} (hfoc : s.focus = .die d) (hd : s.dieEnabled d = true) :
    Does .fatalDieError s fun t => t.dieEnabled d = false ∧ (∀ e, e ≠ d → t.dieEnabled e = s.dieEnabled e) ∧
      (∀ c ∈ t.cmds, c.2.cluster / 16 ≠ d) ∧ (∀ c ∈ t.clusters, c.1 / 16 ≠ d) := by
  obtain ⟨u, t, ht, hboot, hcmds, hcl⟩ := fatalDieError_some hfoc hd
  have h32 : d < 32 := by
    simp only [State.dieEnabled, Bool.and_eq_true, decide_eq_true_eq] at hd
    exact hd.1.1
  have hen : ∀ e, t.dieEnabled e = (s.dieEnabled e && !decide (e = d)) := fun e => by
    simp only [State.dieEnabled, hboot, getLsbD_disable _ h32, Bool.not_or, Bool.and_assoc]
  refine ⟨t, runDevice_some ht, ?_, fun e he => ?_, fun c hc => ?_, fun c hc => ?_⟩
  · simp [hen]
  · simp [hen, he]
  · rw [hcmds] at hc
    simpa using u.dropCmds_not _ c hc
  · rw [hcl] at hc
    exact bne_iff_ne.1 (List.mem_filter.1 hc).2

-- ## The device comes up again (R28–R31, R132)

theorem State.setCls_only (f : Cluster → Cluster) (l : List Nat) (s : State) : l.foldl (fun s g => s.setCl g f) s =
    { s with clusters := (l.foldl (fun s g => s.setCl g f) s).clusters } := by
  induction l generalizing s with
  | nil => rfl
  | cons g l ih => exact ih (s.setCl g f)

/-- A budget sets clusters and itself. -/
theorem State.setBudget_only (s : State) (k : Nat) :
    s.setBudget k = { s with power := { s.power with k }, clusters := (s.setBudget k).clusters } :=
  State.setCls_only (fun c => { c with mxLimit := 16 * k, mxLevel := min c.mxLevel (32 * k) }) _ { s with power := { s.power with k } }

/-- What bring-up leaves is that of a module right after reset; of memory what lies outside the package stays. -/
theorem State.bringUp_leaves (s : State) (b : Boot) :
    (s.bringUp b).vds = [] ∧ (s.bringUp b).blocks = [] ∧ (s.bringUp b).kernels = [] ∧ (s.bringUp b).cmds = [] ∧ (s.bringUp b).coh = {} ∧
      (s.bringUp b).mem = ((keys s.cxl.apart).foldl State.takeHost s).mem.filter (fun c => decide (hbmEnd ≤ c.1)) ∧
      (∀ g ∈ (s.bringUp b).hbm.tags, g.2.bound = false) ∧ (s.bringUp b).power.mode = b.record.minMode ∧
      (s.bringUp b).boot.number = b.number + 1 := by
  unfold State.bringUp
  dsimp only
  split
  · exact ⟨rfl, rfl, rfl, rfl, rfl, rfl, List.forall_mem_map.2 fun _ _ => rfl, rfl, rfl⟩
  · rw [State.setBudget_only]
    exact ⟨rfl, rfl, rfl, rfl, rfl, rfl, List.forall_mem_map.2 fun _ _ => rfl, rfl, rfl⟩

/-- A line that host and expander memory hold as the device does keeps its bytes while others take theirs. -/
theorem State.takeHost_read {s : State} {a : Nat} (h : find s.cxl.apart (a / 128) = none) (line : Nat) :
    (s.takeHost line).mem.read a = s.mem.read a ∧ find (s.takeHost line).cxl.apart (a / 128) = none := by
  unfold State.takeHost
  split
  · rename_i x hx
    have hne : a / 128 ≠ line := fun he => by
      rw [← he, h] at hx
      cases hx
    refine ⟨Memory.read_store_outside _ _ _ _ ?_, (find_del_other _ _ _ hne).trans h⟩
    rw [length_leBytes]
    omega
  · exact ⟨rfl, h⟩

theorem State.takeHosts_read {s : State} {a : Nat} (h : find s.cxl.apart (a / 128) = none) (l : List Nat) :
    (l.foldl State.takeHost s).mem.read a = s.mem.read a := by
  induction l generalizing s with
  | nil => rfl
  | cons line l ih =>
    obtain ⟨hread, hnone⟩ := State.takeHost_read h line
    exact (ih hnone).trans hread

theorem State.bringUp_read (s : State) (b : Boot) (a : Nat) : (s.bringUp b).mem.read a =
    if hbmEnd ≤ a then ((keys s.cxl.apart).foldl State.takeHost s).mem.read a else 0#8 := by
  obtain ⟨-, -, -, -, -, hmem, -⟩ := s.bringUp_leaves b
  unfold Memory.read
  rw [hmem, find_filter_key _ (fun k => decide (hbmEnd ≤ k))]
  by_cases h : hbmEnd ≤ a <;> simp [h]

theorem does_deviceReset {s : State} (hrec : s.boot.recovery = false) :
    Does .deviceReset s fun t => t.vds = [] ∧ t.blocks = [] ∧ t.kernels = [] ∧ t.cmds = [] ∧ t.coh = {} ∧
      (∀ a, a < hbmEnd → t.mem.read a = 0#8) ∧
      (s.mem.wf = true → ∀ a, hbmEnd ≤ a → find s.cxl.apart (a / 128) = none → t.mem.read a = s.mem.read a) ∧
      (∀ g ∈ t.hbm.tags, g.2.bound = false) ∧ t.power.mode = s.boot.record.minMode ∧ t.boot.number = s.boot.number + 1 := by
  obtain ⟨hvds, hblocks, hkernels, hcmds, hcoh, -, htags, hmode, hnumber⟩ := s.bringUp_leaves s.boot
  refine ⟨s.bringUp s.boot, runDevice_some (by simp [deviceReset, hrec]), hvds, hblocks, hkernels, hcmds, hcoh, fun a ha => ?_,
    fun _ a ha hnone => ?_, htags, hmode, hnumber⟩
  · rw [State.bringUp_read, if_neg (Nat.not_le.2 ha)]
  · rw [State.bringUp_read, if_pos ha, State.takeHosts_read hnone]

/-- Settles O47: a VD's reset from its first step to its last, then those of a die and of the device. -/
theorem resetSteps : Obligations.ResetSteps := by
  intro s
  exact ⟨fun v hfoc hf hk => vfFunctionLevelReset_kills hfoc hf hk,
    fun i m u e hfoc htake => ⟨fun hm => engineKill_acknowledges hfoc htake hm, fun k hm hk => does_killAck hfoc htake hm hk⟩,
    fun v g => ⟨fun b c hmem hg hv => killAt_copyEngine_isStep hmem hg hv, killCluster_keeps_nothing s v g⟩,
    fun v e k hfoc hk he hlate => killAckTimeout_asks hfoc hk he hlate,
    fun v k hfoc hk hleft => ⟨fun her u sigs hsigs => does_killAcksComplete_erases hfoc hk hleft her hsigs,
      fun her hframes hsigs => killAcksComplete_ends hfoc hk hleft her hframes hsigs⟩,
    KillRun.next_cases, fun d hfoc hd => does_fatalDieError hfoc hd, does_deviceReset⟩

end Sys2Proof.Machine
end

section
/-!
PROOF. `KICK`, `LAUNCH`, `MARK` (R263, R323–R325, R329) by the frame of an instruction, and the cases of an offer (R113). What the device
itself writes, such as a sample record, leaves blocks and so warps alone.
-/
namespace Sys2Proof.Machine

-- ## The device's own writes

/-- Apart from VDs, pending writes and what translation changes, the state is `s`. -/
def State.Posts (s t : State) : Prop := s.Translated { t with vds := s.vds, posted := s.posted }

theorem State.Translated.posts {s t : State} (h : s.Translated t) : s.Posts t := by
  have := congrArg (fun x : State => { x with vds := s.vds, posted := s.posted }) h
  exact this
theorem State.Posts.trans {s t u : State} (h : s.Posts t) (h' : t.Posts u) : s.Posts u := by
  have := congrArg (fun x : State => { x with
    mem := s.mem, clusters := s.clusters, dies := s.dies, hbm := s.hbm, coh := s.coh, net := s.net, cxl := s.cxl, walks := s.walks
    walkCache := s.walkCache, nextId := s.nextId, out := s.out, vds := s.vds, posted := s.posted }) h'
  exact this.trans h
theorem State.setVd_posts (s : State) (v : Nat) (f : Vd → Vd) : s.Posts (s.setVd v f) := rfl

theorem State.placePost_translated (s : State) (p : Post) : s.Translated (s.placePost p).1 := by
  unfold State.placePost
  split
  · rfl
  · split
    · rename_i h
      obtain ⟨l, -, rfl⟩ := Option.map_eq_some_iff.1 h
      exact s.agentAsk_getD _ _ _ _
    · rfl
  · rename_i asid va _
    have h := s.translate_translated none p.vd asid va 5
    split <;> simpa [*] using h

theorem State.makePost_posts (s : State) (p : Post) (pa : Nat) : s.Posts (s.makePost p pa) := by
  have h := (s.platenPoke_translated pa p.bytes p.vd).posts
  unfold State.makePost
  dsimp only
  split
  · exact h.trans (State.setVd_posts _ _ _)
  · exact h

theorem State.drainPosts_posts (ps kept : List Post) (s : State) : s.Posts (State.drainPosts ps kept s) := by
  induction ps generalizing kept s with
  | nil => rfl
  | cons p ps ih =>
    unfold State.drainPosts
    have h := (s.placePost_translated p).posts
    split
    · exact ih _ _
    split
    all_goals rename_i t hp; rw [hp] at h
    · exact h.trans (ih _ _)
    · refine (h.trans ?_).trans (ih _ _)
      split <;> rfl
    · split
      · exact (h.trans (State.makePost_posts _ _ _)).trans (ih _ _)
      · exact (h.trans (State.agentAsk_getD _ _ _ _ _).posts).trans (ih _ _)

/-- A sample record goes to its ring or is counted as dropped. -/
theorem State.sampleRecord_posts (s : State) (v : Nat) (bs : List Byte) : s.Posts (s.sampleRecord v bs) := by
  unfold State.sampleRecord
  dsimp only
  split
  · rfl
  · exact State.drainPosts_posts _ _ _

theorem State.publish_posts (s : State) (v asid : Nat) (bs : List Byte) (pa : Nat) : s.Posts (s.publish v asid bs pa) :=
  (s.platenPoke_translated pa bs v).posts.trans rfl

theorem State.Posts.blk {s t : State} (h : s.Posts t) (n : Nat) : t.blk n = s.blk n := by
  have := congrArg State.blocks h
  exact congrArg (fun bs => find bs n) this
theorem State.Posts.warp {s t : State} (h : s.Posts t) (w : WarpRef) : t.warp w = s.warp w := by
  unfold State.warp
  rw [h.blk]

-- ## Offers (R113, R120)

/-- A queue to which the tail `w` is offered (R113). -/
def Queue.offered (k : Queue) (w : Word) : Queue :=
  let d := w - k.tail
  let k := { k with reread := true, started := k.started.map Packet.retest }
  if !k.enabled then { k with diskick := true }
  else if d = 0#32 then k
  else if d.msb then { k with stale := k.stale + 1#32 }
  else if (w - k.head).toNat ≤ 2 ^ k.log2 then { k with tail := w }
  else { k with overkick := true }

/-- An offer is made to the queue of a VD that is neither being reset nor failed nor free. -/
theorem State.offer_of_taken {s : State} {v : Nat} (h : (s.vd v).state ∈ [.configured, .active, .suspended]) (q : Nat) (w : Word) :
    s.offer v q w = s.setQueue v q fun k => k.offered w := by
  simp only [List.mem_cons, List.not_mem_nil, or_false] at h
  unfold State.offer
  rcases h with h | h | h <;> rw [h] <;> rfl

/-- A VD that is being reset, has failed or is free ignores an offer (R120). -/
theorem State.offer_ignored {s : State} {v : Nat} (h : (s.vd v).state ∈ [.killing, .faulted, .free]) (q : Nat) (w : Word) :
    s.offer v q w = s := by
  simp only [List.mem_cons, List.not_mem_nil, or_false] at h
  unfold State.offer
  rcases h with h | h | h <;> rw [h]

theorem State.offer_posts (s : State) (v q : Nat) (w : Word) : s.Posts (s.offer v q w) := by
  unfold State.offer
  split <;> rfl

theorem State.queue_setQueue_other {s : State} {v q u p : Nat} (f : Queue → Queue) (h : u ≠ v ∨ p ≠ q) :
    (s.setQueue v q f).queue u p = s.queue u p := by
  unfold State.queue State.setQueue
  by_cases hu : u = v
  · subst hu
    rw [State.vd_setVd_same]
    exact look_upd_other _ _ _ _ _ (h.resolve_left fun h => h rfl)
  · rw [State.vd_setVd_other _ _ _ _ hu]

/-- The five cases of R113. -/
theorem Queue.offered_cases (k₀ : Queue) (w : Word) :
    let k := { k₀ with reread := true, started := k₀.started.map Packet.retest }
    (k.enabled = false → k₀.offered w = { k with diskick := true }) ∧
    (k.enabled = true → w = k.tail → k₀.offered w = k) ∧
    (k.enabled = true → (w - k.tail).msb = true → k₀.offered w = { k with stale := k.stale + 1#32 }) ∧
    (k.enabled = true → w ≠ k.tail → (w - k.tail).msb = false → (w - k.head).toNat ≤ 2 ^ k.log2 → k₀.offered w = { k with tail := w }) ∧
    (k.enabled = true → w ≠ k.tail → (w - k.tail).msb = false → 2 ^ k.log2 < (w - k.head).toNat →
      k₀.offered w = { k with overkick := true }) := by
  have hne : w ≠ k₀.tail → w - k₀.tail ≠ 0#32 := fun hw h => hw (by bv_omega)
  dsimp only
  refine ⟨fun he => ?_, fun he hw => ?_, fun he hm => ?_, fun he hw hm hr => ?_, fun he hw hm hr => ?_⟩
  · simp [Queue.offered, he]
  · simp [Queue.offered, he, hw]
  · have hback : w - k₀.tail ≠ 0#32 := fun h => by rw [h] at hm; cases hm
    simp [Queue.offered, he, hm, hback]
  · rw [Queue.offered, if_neg (by simp [he]), if_neg (hne hw), if_neg (by simp [hm])]
    exact if_pos hr
  · rw [Queue.offered, if_neg (by simp [he]), if_neg (hne hw), if_neg (by simp [hm])]
    exact if_neg (Nat.not_le.2 hr)

-- ## The issuing warp

section
variable {s : State} {c : Ctx} (hctx : s.ctx = some c)
include hctx

/-- A block that does not re-execute takes no value from a log. -/
theorem State.popLog_of_none (hr : c.b.replay = none) : c.s.popLog c.w = none := by
  obtain ⟨rfl, -, -, -, hb, -⟩ := State.ctx_some hctx
  simp [State.popLog, hb, hr]

/-- A block that does not prove its phases logs no value. -/
theorem State.logValue_of_none {u : State} (hu : s.Posts u) (hp : c.b.proof = none) (n : Nat) : u.logValue c.w n = u := by
  obtain ⟨-, -, -, -, hb, -⟩ := State.ctx_some hctx
  simp [State.logValue, hu.blk, hb, hp]

end

theorem Ctx.replaying_of_none {c : Ctx} (h : c.b.replay = none) : c.replaying = false := by simp [Ctx.replaying, h]

theorem Frag.stores_key (f : Frag) (b : Bool) : (f.stores b).key = f.key := by
  unfold Frag.stores Frag.promote
  split
  · split <;> rfl
  · rfl

theorem notedWarp_keys (c : Ctx) (x : Warp) : (notedWarp c x).frags.map Frag.key = x.frags.map Frag.key :=
  Warp.setFrag_keys x _ _ fun f => f.stores_key true

/-- What an instruction leaves apart from its warp says nothing of the warp. -/
theorem EndsIn.of_setWarp {i : Instr} {s u : State} {c : Ctx} {x : Warp} {pc : DWord} {g : Warp → Warp}
    (h : EndsIn i s (u.setWarp c.w g) c x pc) : EndsIn i s u c x pc := by
  obtain ⟨y, hexec, hkept, hstands⟩ := h
  exact ⟨y, by rw [hexec, State.setWarp_setWarp], hkept, hstands⟩

@[simp] theorem Warp.setSf_frags (x : Warp) (fv : Nat) (v : Word) : (x.setSf fv v).frags = x.frags := by
  unfold Warp.setSf Warp.setS
  split <;> rfl

-- ## `KICK` (R325)

section
variable {s : State} {c : Ctx} {a b : BitVec 8} (hctx : s.ctx = some c) (hg : c.guard = true)
  (hcl : c.Clear [sOp a 1, sOp b 2])
include hctx hg hcl

theorem kick_offers (hr : c.b.replay = none) (hq : (c.x.sf a.toNat).toNat < 64) :
    EndsIn (.kick a b) s ((c.noted s).offer c.vd (c.x.sf a.toNat).toNat (c.x.sf b.toNat)) c (notedWarp c c.x) c.nextPc := by
  obtain ⟨rfl, -, hw, -⟩ := State.ctx_some hctx
  refine EndsIn.of_done hctx (exec_kick a b c.s) ?_ ?_ (notedWarp_keys c c.x)
  · unfold kick
    rw [guarded_clear c _ _ hcl hg]
    dsimp only
    rw [if_neg (by simp [Ctx.replaying_of_none hr, hq])]
  · rw [(State.offer_posts _ _ _ _).warp]
    exact (State.warp_setWarp_same _ _ _).trans (by rw [hw]; rfl)

/-- A queue number beyond 63 names no queue. -/
theorem kick_offers_nothing (hq : 64 ≤ (c.x.sf a.toNat).toNat) : EndsIn (.kick a b) s s c (notedWarp c c.x) c.nextPc := by
  refine Ends.of_done hctx (exec_kick a b s) (fun x => notedWarp c x) ?_ (notedWarp_keys c c.x)
  unfold kick
  rw [guarded_clear c _ _ hcl hg]
  dsimp only
  rw [if_pos (by simp [hq])]
  rfl

end

-- ## `LAUNCH` (R173–R176, R324)

section
variable {s : State} {c : Ctx} {d a : BitVec 8} (hctx : s.ctx = some c) (hg : c.guard = true) (hr : c.b.replay = none)
  (hcl : c.Clear [sDst d, { k := .sg, val := a.toNat, code := 1 }])
include hctx hg hr hcl

theorem launch_faults (h : (s.vd c.vd).dlq = 0#64 ∨ (s.queue c.vd 64).stopped = true ∨ (s.queue c.vd 64).enabled = false) :
    Faults (.launch d a) s c { code := 0x07, einfo := 5#32 } := by
  obtain ⟨rfl, -⟩ := State.ctx_some hctx
  refine Faults.of_fault hctx (exec_launch d a c.s) ?_
  unfold launch
  rw [guarded_clear c _ _ hcl hg]
  dsimp only
  rw [State.popLog_of_none hctx hr]
  dsimp only
  rw [if_neg (by simp [Ctx.replaying_of_none hr]), if_pos (by simpa [or_assoc] using h)]

/-- The child's packet is published where the ring has room, earlier writes are performed, and the slot's line may be written. -/
theorem launch_publishes (hdlq : (s.vd c.vd).dlq ≠ 0#64) (hstop : (s.queue c.vd 64).stopped = false) (hen : (s.queue c.vd 64).enabled = true)
    (hroom : ((s.queue c.vd 64).tail - (s.queue c.vd 64).head).toNat < 2 ^ (s.queue c.vd 64).log2) (hproof : c.b.proof = none)
    (hrel : s.released c.g c.vd c.w c.x 2 = true) {u : State} {pa : Nat}
    (htr : s.translate c.place c.vd 0
      ((s.queue c.vd 64).ring.toNat + 64 * ((s.queue c.vd 64).tail.toNat % 2 ^ (s.queue c.vd 64).log2)) 1 = (u, .ok pa))
    (hmay : u.agentMay (pa / 128) true = true) :
    EndsIn (.launch d a) s (u.publish c.vd c.k.asid
      (childPacket c.x a.toNat ((s.queue c.vd 64).tail.toNat / 2 ^ (s.queue c.vd 64).log2 % 65536)) pa) c
      (notedWarp c (c.x.setSf d.toNat (s.vd c.vd).launchSeq)) c.nextPc := by
  obtain ⟨rfl, -, hw, -⟩ := State.ctx_some hctx
  have hpub : c.s.Posts (u.publish c.vd c.k.asid
      (childPacket c.x a.toNat ((c.s.queue c.vd 64).tail.toNat / 2 ^ (c.s.queue c.vd 64).log2 % 65536)) pa) := by
    have := (c.s.translate_translated c.place c.vd 0
      ((c.s.queue c.vd 64).ring.toNat + 64 * ((c.s.queue c.vd 64).tail.toNat % 2 ^ (c.s.queue c.vd 64).log2)) 1).posts
    rw [htr] at this
    exact this.trans (u.publish_posts ..)
  refine EndsIn.of_setWarp (g := fun x => notedWarp c (x.setSf d.toNat (c.s.vd c.vd).launchSeq))
    (EndsIn.of_done hctx (exec_launch d a c.s) ?_ ?_ ?_)
  · unfold launch
    rw [guarded_clear c _ _ hcl hg]
    dsimp only
    rw [State.popLog_of_none hctx hr]
    dsimp only
    rw [if_neg (by simp [Ctx.replaying_of_none hr]), if_neg (by simp [hdlq, hstop, hen]), if_neg (Nat.not_le.2 hroom),
      if_neg (by simp [hrel]), htr]
    dsimp only
    rw [if_neg (by simp [hmay]), Nat.shiftRight_eq_div_pow, State.logValue_of_none hctx hpub hproof]
    exact congrArg Res.done (State.setWarp_setWarp _ _ _ _)
  · rw [State.warp_setWarp_same, hpub.warp, hw]
    rfl
  · exact (notedWarp_keys c (c.x.setSf d.toNat (c.s.vd c.vd).launchSeq)).trans (congrArg _ (Warp.setSf_frags _ _ _))

end

-- ## `MARK` (R263, R329)

section
variable {s : State} {c : Ctx} {h : Option (BitVec 24)} {a i : BitVec 8} (hctx : s.ctx = some c) (hg : c.guard = true)
  (hcl : c.Clear [sOp a 1])
include hctx hg hcl

theorem mark_ends_off (hoff : bit (s.vd c.vd).smpcfg.toNat 0 = false) : Ends (.mark h a i) s c c.x c.nextPc := by
  obtain ⟨rfl, -⟩ := State.ctx_some hctx
  refine Ends.of_same hctx (exec_mark h a i c.s) ?_
  unfold mark
  rw [guarded_clear c _ _ hcl hg, if_pos (by simp [hoff])]

theorem mark_records (hr : c.b.replay = none) (hon : bit (s.vd c.vd).smpcfg.toNat 0 = true) :
    let q := 4 * c.g + c.w.wi % 4
    let n := look (s.vd c.vd).smpSeq q 0
    let u := s.setVd c.vd fun v => { v with smpSeq := put v.smpSeq q (n + 1) }
    EndsIn (.mark h a i) s (u.sampleRecord c.vd (sampleBytes (s.vclock c.vd) (bits c.pc.toNat 47 0) c.vd c.die c.g (c.w.wi % 4)
      c.x.slot 14 false c.x.rwc.toNat (c.x.sf a.toNat + immOf h false i).toNat n)) c c.x c.nextPc := by
  obtain ⟨rfl, -, hw, -⟩ := State.ctx_some hctx
  intro q n u
  refine EndsIn.of_done hctx (exec_mark h a i c.s) ?_ ?_ rfl
  · unfold mark
    rw [guarded_clear c _ _ hcl hg, if_neg (by simp [hon, Ctx.replaying_of_none hr])]
    have hclock : u.vclock c.vd = c.s.vclock c.vd := by simp [u, State.vclock]
    rw [← hclock]
    rfl
  · rw [(State.sampleRecord_posts _ _ _).warp]
    exact hw

end

/-- Settles O18: the three instructions by their frame, and offers by the cases of R113. -/
theorem queueInstructionsAndOffers : Obligations.QueueInstructionsAndOffers := by
  refine ⟨fun s c h d a b i hctx hg hr => ⟨fun hcl => ⟨kick_offers hctx hg hcl hr, kick_offers_nothing hctx hg hcl⟩,
    fun hcl => ⟨launch_faults hctx hg hr hcl, fun hdlq hstop hen hroom hproof hrel u pa htr hmay =>
      launch_publishes hctx hg hr hcl hdlq hstop hen hroom hproof hrel htr hmay⟩,
    fun hcl => ⟨mark_ends_off hctx hg hcl, mark_records hctx hg hcl hr⟩⟩, fun s v q w h => ?_, fun s v q w h => State.offer_ignored h q w⟩
  rw [State.offer_of_taken h, State.queue_setQueue_same]
  obtain ⟨hoff, hsame, hback, hforth, hover⟩ := (s.queue v q).offered_cases w
  exact ⟨hoff, hsame, hback, hforth, hover, fun u p hup => State.queue_setQueue_other _ hup⟩

end Sys2Proof.Machine
end

section
/-!
PROOF. Which move a step is (log 1), and how a quadrant issues (R177–R179, R281): the first warp of its order that is not held runs the
instruction that its chosen fragment's words decode to.
-/
namespace Sys2Proof.Machine

-- ## Moves

/-- A step of the device that must come next is executed first. -/
theorem step_of_agenda {s : State} {i : Instr} {f : Focus} {rest : List (Instr × Focus)} (h : s.agenda = (i, f) :: rest) :
    step s = exec i { s with agenda := rest, focus := f } := by
  simp only [step, move, h]

theorem step_of_due {s : State} {i : Instr} {f : Focus} {rest : List (Instr × Focus)} (ha : s.agenda = []) (h : s.due = (i, f) :: rest) :
    step s = exec i { s with due := rest, focus := f } := by
  simp only [step, move, ha, h]

/-- With nothing of the device's to come first a quadrant decides its issue. -/
theorem step_issuesQuad {s : State} {g q : Nat} {rest : List (Nat × Nat)} (ha : s.agenda = []) (hd : s.due = []) (ht : s.turn = .warps)
    (hq : s.quads = (g, q) :: rest) : step s = ({ s with quads := rest }).issueQuad g q := by
  simp only [step, move, ha, hd, ht, hq]

-- ## The chosen fragment's instruction (R281, R351)

section
variable {a : State} {w : WarpRef} {f : Frag} {c : Ctx} (hctx : (a.choose w f.id).ctx = some c)
include hctx

/-- A fragment within a `VEXEC` goes on with it. -/
theorem State.issueFrag_vexec {r : VexecRun} (hvx : c.f.vx = some r) :
    a.issueFrag w f = exec r.instr { a.choose w f.id with word := r.word, nwords := r.nwords, base := r.base } := by
  simp only [State.issueFrag, hctx, hvx]

theorem State.issueFrag_decoded {u : State} {words : List Word} {i : Instr} {len : Nat} (hvx : c.f.vx = none)
    (hfetch : c.fetchInstr 3 (a.choose w f.id) f.pc = (u, .ok words)) (hdec : decodeWords words = .ok i len) :
    a.issueFrag w f = exec i (u.fetched words) := by
  simp only [State.issueFrag, hctx, hvx, hfetch, hdec]

end

-- ## The first warp of the order (R177)

section
variable {g q n : Nat} {ws : List (WarpRef × Nat)} {w : WarpRef} {s : State} {f : Frag} (hheld : (s.prepare w).held = none)
  (hoffer : ((s.prepare w).warp w).bind Warp.offer = some f)
include hheld hoffer

/-- An instruction that is not held is the quadrant's issue; the warps behind choose their fragments. -/
theorem issueFirst_of_next {t : State} (hissue : (s.prepare w).issueFrag w f = .next t) (ht : t.held = none) :
    issueFirst g q ((w, n) :: ws) s =
      .next (((t.issuedBy g q w n f.pc).prepareRest ws).noteStalls (((s.prepare w).cl g).vd.getD 0) ws) := by
  simp [issueFirst, hheld, hoffer, hissue, ht]

/-- A held instruction leaves the issue to the warps behind. -/
theorem issueFirst_of_held {t : State} {r : Stall} (hissue : (s.prepare w).issueFrag w f = .next t) (ht : t.held = some r) :
    issueFirst g q ((w, n) :: ws) s = issueFirst g q ws (t.noteHold w (some r)) := by
  rw [issueFirst]
  simp only [hheld, hoffer, hissue, ht]
  rfl

theorem issueFirst_of_fault {e : Fault} (hissue : (s.prepare w).issueFrag w f = .fault e) :
    issueFirst g q ((w, n) :: ws) s = .fault e := by
  simp [issueFirst, hheld, hoffer, hissue]

end

/-- Settles O58: the step is the quadrant's issue, and the first warp's outcome decides which. -/
theorem stepRunsDecoded : Obligations.StepRunsDecoded := by
  refine fun s => ⟨?_, fun i f rest => step_of_agenda, fun i f rest => step_of_due⟩
  intro g q rest w n ws f c u words i len hag hdue hturn hquads a hord hheld hoffer hctx
  have hstep : step s = issueFirst g q ((w, n) :: ws) { s with quads := rest } := by
    rw [step_issuesQuad hag hdue hturn hquads, State.issueQuad, hord]
  refine ⟨fun r t hvx hexec ht => ?_, fun hvx hfetch hdec => ?_⟩
  · exact hstep.trans (issueFirst_of_next hheld hoffer ((State.issueFrag_vexec hctx hvx).trans hexec) ht)
  · have hrun := State.issueFrag_decoded hctx hvx hfetch hdec
    exact ⟨fun t hexec ht => hstep.trans (issueFirst_of_next hheld hoffer (hrun.trans hexec) ht),
      fun t r hexec ht => hstep.trans (issueFirst_of_held hheld hoffer (hrun.trans hexec) ht),
      fun e hexec => hstep.trans (issueFirst_of_fault hheld hoffer (hrun.trans hexec))⟩

end Sys2Proof.Machine
end

section
/-!
PROOF. Handler-class faults (R192, R288–R290) and `ERET` (R327): the warp that enters the handler, the kernel that an abort leaves, and the
warp that returns from the handler.
-/
namespace Sys2Proof.Machine

-- ## Handler entry (R288, R289)

/-- A fragment that goes on in the handler at `h`. -/
def Frag.enterAt (f : Frag) (h : DWord) : Frag := { f with pc := h, inHandler := true }

/-- The issuing warp as it enters the handler at `h`. -/
def Ctx.entered (c : Ctx) (i : FaultInfo) (h : DWord) : Warp :=
  { c.x with epc := i.epc.getD c.pc, emode := c.x.mode, mode := 0#32, ecause := i.ecause, einfo := i.einfo, handler := true }.setFrag
    c.f.id fun f => f.enterAt h

section
variable {s : State} {c : Ctx} {h : DWord} (hctx : s.ctx = some c)
include hctx

theorem takeFault_enters (hk : c.k.handler = some h) (hx : c.x.handler = false) (i : FaultInfo) :
    takeFault c i = s.setWarp c.w fun _ => c.entered i h := by
  obtain ⟨rfl, -, hw, -⟩ := State.ctx_some hctx
  simp only [takeFault, hk, hx, Bool.false_eq_true, if_false]
  exact c.s.setWarp_const _ _ _ hw

/-- While one fragment is in the handler another that faults waits for it. -/
theorem takeFault_waits (hk : c.k.handler = some h) (hx : c.x.handler = true) (hf : c.f.inHandler = false) (i : FaultInfo) :
    takeFault c i = s.setFrag c.w c.f.id fun f => f.park .handler := by
  obtain ⟨rfl, -⟩ := State.ctx_some hctx
  simp only [takeFault, hk, hx, hf, Bool.false_eq_true, if_true, if_false]

/-- The fragment that faults goes on at the handler with its lanes. -/
theorem Ctx.entered_frag (i : FaultInfo) :
    (c.entered i h).frag c.f.id = some (c.f.enterAt h) := by
  obtain ⟨-, -, -, hf, -⟩ := State.ctx_some hctx
  exact (Warp.setFrag_frag _ c.f.id (fun f => f.enterAt h) fun _ => rfl).trans (congrArg (Option.map _) hf)

end

theorem Ctx.entered_frag_other (c : Ctx) (i : FaultInfo) (h : DWord) {n : Nat} (hn : n ≠ c.f.id) :
    (c.entered i h).frag n = c.x.frag n :=
  Warp.setFrag_frag_other _ _ _ (fun f => f.enterAt h) (fun _ => rfl) hn

-- ## Abort (R192, R290)

@[simp] theorem State.kern_discardBlock (s : State) (n k : Nat) : (s.discardBlock n).kern k = s.kern k := rfl
@[simp] theorem State.kern_unseal (s : State) (v n k : Nat) : (s.unseal v n).kern k = s.kern k := rfl

@[simp] theorem State.kern_setVd (s : State) (v : Nat) (f : Vd → Vd) (k : Nat) : (s.setVd v f).kern k = s.kern k := rfl

/-- An abort of a kernel that runs records its code and leaves it no block. -/
theorem State.kern_abort {s : State} {k : Nat} {kn : Kernel} (hk : s.kern k = some kn) (ha : kn.abort = none)
    (hc : kn.complete = false) (code : Nat) (r : FRecord) :
    (s.abort k code (some r)).kern k = some { kn with abortRec := some r, abort := some code, left := 0 } := by
  unfold State.abort
  rw [hk]
  dsimp only
  rw [if_neg (by simp [ha, hc]), State.kern_unseal, State.kern_setKern_same,
    foldl_keeps (get := fun s => s.kern k) (fun s n => s.kern_discardBlock n k), State.kern_setKern_same, State.kern_setVd, hk]
  rfl

/-- Without a handler, or within it, the kernel is aborted. -/
theorem takeFault_aborts {c : Ctx} (h : c.k.handler = none ∨ (c.x.handler = true ∧ c.f.inHandler = true)) (i : FaultInfo) :
    takeFault c i = c.s.abort c.b.kernel i.code (some (i.record c)) := by
  unfold takeFault
  rcases h with h | ⟨hx, hf⟩
  · rw [h]
  · cases c.k.handler <;> simp [hx, hf]

-- ## `ERET` (R327)

/-- A fragment once the handler state ends: one that waited for it is ready. -/
def Frag.released (f : Frag) : Frag := { f with inHandler := false, wait := if f.wait = .handler then .ready else f.wait }

theorem Frag.released_wait (f : Frag) : f.released.wait ≠ .handler := by
  unfold Frag.released
  split
  · exact nofun
  · assumption

/-- A fragment that ran last at `now` and goes on at `pc`. -/
def Frag.goAt (f : Frag) (pc : DWord) (now : Nat) : Frag := { f with pc := pc, lastRan := now }

/-- The issuing warp as it returns from the handler, before any reconvergence. -/
def Ctx.returned (c : Ctx) : Warp :=
  { c.x with mode := c.x.emode, handler := false, frags := c.x.frags.map Frag.released }.setFrag
    c.f.id fun f => f.goAt c.x.epc c.s.now

/-- Each fragment of the returned warp is one of the warp's, released, and stands where it stood or at the return address. -/
theorem Ctx.of_mem_returned {c : Ctx} {g : Frag} (h : g ∈ c.returned.frags) :
    ∃ f ∈ c.x.frags, g = f.released ∨ g = f.released.goAt c.x.epc c.s.now := by
  rcases mem_modFirst _ (fun f : Frag => f.goAt c.x.epc c.s.now) _ _ h with hm | ⟨b, hb, rfl⟩
  · obtain ⟨f, hf, rfl⟩ := List.mem_map.1 hm
    exact ⟨f, hf, .inl rfl⟩
  · obtain ⟨f, hf, rfl⟩ := List.mem_map.1 hb
    exact ⟨f, hf, .inr rfl⟩

theorem counted_inHandler (i : Nat) (f : Frag) : (counted i f).inHandler = f.inHandler := by
  unfold counted Frag.promote
  split
  · rfl
  · split
    · split <;> rfl
    · rfl

section
variable {s : State} {c : Ctx} (hctx : s.ctx = some c)
include hctx

theorem Ctx.returned_frag : c.returned.frag c.f.id = some (c.f.released.goAt c.x.epc c.s.now) := by
  obtain ⟨-, -, -, hf, -⟩ := State.ctx_some hctx
  have hrel : (c.x.frags.map Frag.released).find? (fun f => f.id = c.f.id) = some c.f.released :=
    (find_map_same _ Frag.released (fun _ => rfl) c.x.frags).trans (congrArg (Option.map _) hf)
  exact (Warp.setFrag_frag _ _ (fun f => f.goAt c.x.epc c.s.now) fun _ => rfl).trans (congrArg (Option.map _) hrel)

/-- Where the return address is no fragment's rejoin PC, nothing reconverges. -/
theorem Ctx.returned_arrive (hj : c.NoJoin c.x.epc) : c.returned.arrive c.f.id = c.returned := by
  have hno : c.returned.atJoin (c.f.released.goAt c.x.epc c.s.now) = false := by
    simp only [Warp.atJoin, Bool.or_eq_false_iff, List.any_eq_false, Bool.and_eq_true, decide_eq_true_eq, not_and,
      decide_eq_false_iff_not]
    refine ⟨hj.1, fun g hg hp => ?_⟩
    obtain ⟨f, hf, rfl | rfl⟩ := Ctx.of_mem_returned hg <;> exact hj.2 f hf hp
  simp [Warp.arrive, Ctx.returned_frag hctx, hno]

theorem leaveHandler_returns (hj : c.NoJoin c.x.epc) : leaveHandler c = s.setWarp c.w fun _ => c.returned := by
  have harr := Ctx.returned_arrive hctx hj
  obtain ⟨rfl, -, hw, -⟩ := State.ctx_some hctx
  exact (c.s.setWarp_const _ _ _ hw).trans (congrArg (fun y => c.s.setWarp c.w fun _ => y) harr)

theorem eret_outside (hf : c.f.inHandler = false) : Faults .eret s c { code := 0x01, einfo := s.base } := by
  obtain ⟨rfl, -⟩ := State.ctx_some hctx
  exact Faults.of_fault hctx (exec_eret c.s) (by simp [eret, hf])

theorem eret_misaligned (hf : c.f.inHandler = true) (he : c.x.epc &&& 3#64 ≠ 0#64) :
    Faults .eret s c { code := 0x05, einfo := 0#32 } :=
  Faults.of_fault hctx (exec_eret s) (by simp [eret, hf, he])

/-- `ERET` counts as it returns. -/
theorem eret_returns (hf : c.f.inHandler = true) (he : c.x.epc &&& 3#64 = 0#64) (hj : c.NoJoin c.x.epc) :
    exec .eret s = .next (s.setWarp c.w fun _ =>
      { c.returned with rwc := c.x.rwc + 1#64, passStop := false }.countIssue c.f.id) := by
  have hres : eret c = .moved (leaveHandler c) := by simp [eret, hf, he]
  rw [exec_eret, execEret, runInstr_ctx hctx, hres, settle, leaveHandler_returns hctx hj, State.setWarp_setWarp]
  rfl

end

/-- Settles O16: entry, wait and abort by what taking a fault comes to, and the return by the warp that it leaves. -/
theorem handlerEntryAndReturn : Obligations.HandlerEntryAndReturn := by
  refine ⟨fun s c i hctx => ⟨fun h hk hx => ⟨c.entered i h, takeFault_enters hctx hk hx i, ?_⟩,
      fun h hk hx hf => takeFault_waits hctx hk hx hf i, fun h ha hc => ?_⟩,
    fun s c hctx => ⟨eret_outside hctx, eret_misaligned hctx, fun hf he hj => ⟨_, eret_returns hctx hf he hj, ?_⟩⟩⟩
  · refine ⟨rfl, rfl, rfl, rfl, rfl, rfl, rfl, rfl, rfl, rfl, ?_, fun n hn => c.entered_frag_other i h hn⟩
    rw [Ctx.entered_frag hctx i]
    rfl
  · obtain ⟨rfl, -, -, -, -, hkern⟩ := State.ctx_some hctx
    rw [takeFault_aborts h i]
    exact ⟨_, State.kern_abort hkern ha hc i.code _, rfl, rfl⟩
  · refine ⟨rfl, rfl, rfl, rfl, rfl, rfl, rfl, rfl, ?_, fun g hg => ?_⟩
    · exact congrArg (Option.map _) (Warp.countIssue_frag _ (c.f.released.goAt c.x.epc c.s.now) (Ctx.returned_frag hctx))
    · rw [Warp.countIssue_frags] at hg
      obtain ⟨b, hb, rfl⟩ := List.mem_map.1 hg
      rw [counted_inHandler, (counted_keeps c.f.id b).2.2.2.2.2]
      obtain ⟨f, -, rfl | rfl⟩ := Ctx.of_mem_returned hb <;> exact ⟨rfl, f.released_wait⟩

end Sys2Proof.Machine
end

section
/-!
PROOF. Loads as they issue (R353–R361, R319): the frame of a memory instruction whose checks pass, what its lanes' translations come to,
and the accesses that find room.
-/
namespace Sys2Proof.Machine

-- ## Frames

/-- Checks, interlock and order passed, a memory instruction comes to its own part. -/
theorem memFrame_of_clear {c : Ctx} {p : Option VPfx} {os : List Opnd} (htype : typeBad p (c.eff p) bitTypes = none)
    (hclear : c.VClear p os) (hquiet : c.Quiet) (f : Ctx → Eff → Res) (cls : Nat) :
    memFrame p os c f cls = Res.inLanes (c.eff p).mask (f c (c.eff p)) := by
  obtain ⟨hrange, hready, hflag⟩ := hclear
  unfold memFrame
  dsimp only
  rw [show effOf c.x c.f.mask p = c.eff p from rfl, htype]
  exact congrArg _ ((checkRange_ok c _ _ hrange).trans <| (checkReady_ok c _ _ hready hflag _).trans <|
    Ctx.ordered_of_quiet hquiet _)

theorem Ctx.Calm.quiet {c : Ctx} (h : c.Calm) : c.Quiet :=
  have ⟨hacq, hdue, _⟩ := h
  ⟨hacq, hdue⟩

/-- The lanes on resident pages with their physical addresses. -/
def residentLanes (ts : List (Nat × Nat × Tr)) : List (Nat × Nat) :=
  ts.filterMap fun t => match t.2.2 with
    | .ok pa => some (t.1, pa)
    | _ => none

theorem replays_of_ok {ts : List (Nat × Nat × Tr)} (h : ∀ t ∈ ts, ∃ pa, t.2.2 = .ok pa) : replays ts = [] :=
  List.filterMap_eq_nil_iff.2 fun t ht => by
    obtain ⟨pa, hpa⟩ := h t ht
    rw [hpa]

/-- Lanes that all translate have their physical addresses. -/
theorem residentLanes_of_ok (lanes : List (Nat × Nat)) (pas : List Nat) :
    residentLanes ((lanes.zip pas).map fun t => (t.1.1, t.1.2, Tr.ok t.2)) = physical lanes pas :=
  List.filterMap_map.trans (congrFun (List.filterMap_eq_map (f := fun t : (Nat × Nat) × Nat => (t.1.1, t.2))) (lanes.zip pas))

/-- Lanes that meet no watch and all translate are accessed at their physical addresses. -/
theorem Ctx.access_of_maps {c : Ctx} {atype log2w : Nat} {lanes : List (Nat × Nat)} {pas : List Nat} {u : State}
    (h : c.Maps atype log2w lanes pas u) (f : State → List (Nat × Nat) → Res) (who : Mask) :
    c.access atype log2w lanes f who = f u (physical lanes pas) := by
  obtain ⟨-, -, hwatch, -, htrans⟩ := h
  simp only [Ctx.access, hwatch, htrans]
  have hok : ∀ t ∈ (lanes.zip pas).map fun t => (t.1.1, t.1.2, Tr.ok t.2), ∃ pa, t.2.2 = Tr.ok pa := fun t ht => by
    obtain ⟨l, -, rfl⟩ := List.mem_map.1 ht
    exact ⟨_, rfl⟩
  split
  · rename_i hbusy
    obtain ⟨t, ht, hb⟩ := List.any_eq_true.1 hbusy
    obtain ⟨pa, h⟩ := hok t ht
    rw [h] at hb
    cases of_decide_eq_true hb
  split
  · rename_i hbad
    obtain ⟨t, ht, hsome⟩ := List.exists_of_findSome?_eq_some hbad
    obtain ⟨pa, h⟩ := hok t ht
    rw [h] at hsome
    cases hsome
  · refine (if_pos ?_).trans (congrArg (f u) (residentLanes_of_ok lanes pas))
    rw [replays_of_ok hok]
    rfl

-- ## Issue

@[simp] theorem length_numbered_single (c : Ctx) (n : Nat) (as : List Access) : (numbered c n [as]).length = as.length := by
  simp [numbered]

/-- Accesses that find room are outstanding, and count once in their class. -/
theorem Ctx.issue_of_room {c : Ctx} {u : State} {cls : Nat} {as : List Access} (h : c.Room u cls as) (load : Bool) :
    c.issue u cls load as = .done (c.issued u cls load as) := by
  obtain ⟨hne, hott, hcls⟩ := h
  have hgs : (if as.isEmpty then [] else [as]) = [as] := if_neg (by simpa using hne)
  have hsome : numbered c u.nextId [as] ≠ [] := fun h => hne (List.length_eq_zero_iff.1 (by simpa using congrArg List.length h))
  have hclass : c.x.classFull cls [as].length = false := decide_eq_false (Nat.not_lt.2 hcls)
  unfold Ctx.issue
  rw [hgs]
  unfold Ctx.issueGroups
  dsimp only
  rw [if_neg (by simpa using hsome), if_neg (Bool.eq_false_iff.1 hclass), if_neg (Nat.not_lt.2 hott), length_numbered_single]
  cases load <;> rfl

/-- Without an access nothing is issued. -/
theorem Ctx.issue_nil (c : Ctx) (u : State) (cls : Nat) (load : Bool) : c.issue u cls load [] = .done u := rfl

/-- An instruction that comes to the issue of accesses, which find room, completes with them issued. -/
theorem Completes.of_issue {i : Instr} {s v : State} {c : Ctx} {f : Ctx → Res} {m : Mask} {cls : Nat} {load : Bool} {as : List Access}
    (hctx : s.ctx = some c) (hexec : exec i s = runInstr s f) (hf : f c = Res.inLanes m (c.issue v cls load as)) :
    (c.Room v cls as → Completes i s (c.issued v cls load as) c) ∧ (as = [] → Completes i s v c) := by
  refine ⟨fun hroom => .of_done hctx hexec ?_, fun hnil => .of_done hctx hexec ?_⟩
  · rw [hf, Ctx.issue_of_room hroom]
    rfl
  · rw [hf, hnil, Ctx.issue_nil]
    rfl

-- ## `LDG` (R356)

/-- `LDG` comes to the issue of one access for each line. -/
theorem ldg_of_maps {c : Ctx} {o : Option OPfx} {p : Option VPfx} {d a : BitVec 8} {m : MFld} {u : State} {pas : List Nat}
    (htype : typeBad p (c.eff p) bitTypes = none) (hclear : c.VClear p (vDst (widthRegs m.w) d :: addrOps a m))
    (halign : misaligned (widthOf m.w) (globalLanes c.x a m (c.eff p).mask) = none)
    (hmaps : c.Maps 0 m.w.toNat (globalLanes c.x a m (c.eff p).mask) pas u) :
    ldg o p d a m c = Res.inLanes (c.eff p).mask (c.issue (u.setWarp c.w fun x => x.zeroLanes d.toNat (widthRegs m.w) (c.eff p)) 0 true
      (loadAccesses o d m (c.eff p).type (physical (globalLanes c.x a m (c.eff p).mask) pas))) := by
  have ⟨hcalm, hsample, _⟩ := hmaps
  have ⟨_, _, hproof, hreplay⟩ := hcalm
  unfold ldg
  rw [memFrame_of_clear htype hclear hcalm.quiet]
  dsimp only
  rw [halign]
  dsimp only
  rw [Ctx.access_of_maps hmaps, Ctx.replaying_of_none hreplay, Ctx.logged_of_none hproof, hsample]
  rfl

-- ## `LDGNF` (R358)

/-- The lanes that are on no resident page. -/
def absentLanes (ts : List (Nat × Nat × Tr)) : Mask :=
  maskOf ((ts.filter fun t => match t.2.2 with
    | .ok _ => false
    | _ => true).map fun t => t.1)

/-- All but the lanes on non-present pages. -/
def presentLanes (ts : List (Nat × Nat × Tr)) : List (Nat × Nat × Tr) :=
  ts.filter fun t => match t.2.2 with
    | .replay _ _ absent => !absent
    | _ => true

/-- Every lane translates or is on a non-present page. -/
def ResidentOrAbsent (ts : List (Nat × Nat × Tr)) : Prop :=
  ∀ t ∈ ts, (∃ pa, t.2.2 = .ok pa) ∨ ∃ code s2, t.2.2 = .replay code s2 true

/-- The issuing warp of an `LDGNF` as its accesses issue: the lanes `away` are loaded with 0 and clear their bits of the predicate. -/
def Warp.partLoaded (x : Warp) (q : VPfx) (d : BitVec 8) (m : MFld) (e : Eff) (away : Mask) : Warp :=
  let y := (x.zeroLanes d.toNat (widthRegs m.w) e).writeGroup d.toNat (widthRegs m.w) 0#32 away false fun _ => 0
  y.setP (predC (some q)) (writeMask (y.pred (predC (some q))) 0#32 e.mask e.zero (e.mask &&& ~~~ away))

/-- Where every lane is on a resident page none is loaded with 0. -/
theorem Warp.partLoaded_of_ite (x : Warp) (q : VPfx) (d : BitVec 8) (m : MFld) (e : Eff) (away : Mask) :
    (let x := x.zeroLanes d.toNat (widthRegs m.w) e
     let x := if away = 0#32 then x else x.writeGroup d.toNat (widthRegs m.w) 0#32 away false fun _ => 0
     x.setP (predC (some q)) (writeMask (x.pred (predC (some q))) 0#32 e.mask e.zero (e.mask &&& ~~~ away))) =
      x.partLoaded q d m e away := by
  by_cases h : away = 0#32
  · subst h
    rfl
  · simp only [Warp.partLoaded, if_neg h]

/-- With no lane away every active lane sets its bit of the predicate. -/
theorem Warp.partLoaded_zero (x : Warp) (q : VPfx) (d : BitVec 8) (m : MFld) (e : Eff) :
    x.partLoaded q d m e 0#32 =
      let y := x.zeroLanes d.toNat (widthRegs m.w) e
      y.setP (predC (some q)) (writeMask (y.pred (predC (some q))) 0#32 e.mask e.zero e.mask) := by
  unfold Warp.partLoaded
  rw [show ~~~0#32 = BitVec.allOnes 32 from rfl, BitVec.and_allOnes]
  rfl

theorem residentLanes_presentLanes (ts : List (Nat × Nat × Tr)) : residentLanes (presentLanes ts) = residentLanes ts := by
  unfold residentLanes presentLanes
  rw [List.filterMap_filter]
  refine congrArg (fun f => List.filterMap f ts) (funext fun ⟨l, va, r⟩ => ?_)
  cases r with
  | replay code s2 absent => cases absent <;> rfl
  | _ => rfl

section
variable {ts : List (Nat × Nat × Tr)} (hts : ResidentOrAbsent ts)
include hts

theorem ResidentOrAbsent.absent : maskOf ((ts.filter fun t => match t.2.2 with
    | .replay _ _ absent => absent
    | _ => false).map fun t => t.1) = absentLanes ts := by
  refine congrArg (fun l : List (Nat × Nat × Tr) => maskOf (l.map fun t => t.1)) (List.filter_congr fun t ht => ?_)
  rcases hts t ht with ⟨pa, h⟩ | ⟨code, s2, h⟩ <;> rw [h]

/-- The lanes whose pages are not missing translate. -/
theorem ResidentOrAbsent.ok_of_present : ∀ t ∈ presentLanes ts, ∃ pa, t.2.2 = .ok pa := by
  intro t ht
  obtain ⟨hmem, hkeep⟩ := List.mem_filter.1 ht
  refine (hts t hmem).resolve_right fun ⟨code, s2, h⟩ => ?_
  rw [h] at hkeep
  cases hkeep

end

/-- Where every lane translates or is on a non-present page, `LDGNF` comes to the issue of one access for each line of the resident ones. -/
theorem ldgnf_of_walk {c : Ctx} {o : Option OPfx} {q : VPfx} {d a : BitVec 8} {m : MFld} {u : State} {ts : List (Nat × Nat × Tr)}
    (htype : typeBad (some q) (c.eff (some q)) bitTypes = none)
    (hclear : c.VClear (some q) (vDst (widthRegs m.w) d :: addrOps a m ++ predCOp (some q)))
    (halign : misaligned (widthOf m.w) (globalLanes c.x a m (c.eff (some q)).mask) = none) (hcalm : c.Calm) (hsample : c.sample = none)
    (hwatch : c.watched 0 (2 ^ m.w.toNat) (globalLanes c.x a m (c.eff (some q)).mask) = none)
    (htrans : transLanes c.place c.vd c.k.asid 0 c.s (globalLanes c.x a m (c.eff (some q)).mask) = (u, ts))
    (hts : ResidentOrAbsent ts) :
    ldgnf o q d a m c = Res.inLanes (c.eff (some q)).mask
      (c.issue (u.setWarp c.w fun x => x.partLoaded q d m (c.eff (some q)) (absentLanes ts)) 0 true
        (loadAccesses o d m (c.eff (some q)).type (residentLanes ts))) := by
  have ⟨_, _, hproof, hreplay⟩ := hcalm
  have hwatch' : c.watched 0 (widthOf m.w) (globalLanes c.x a m (c.eff (some q)).mask) = none := hwatch
  have hbusy : (ts.any fun t => decide (t.2.2 = Tr.busy)) = false := by
    simp only [List.any_eq_false, decide_eq_true_eq]
    intro t ht hb
    rcases hts t ht with ⟨pa, h⟩ | ⟨code, s2, h⟩ <;> rw [h] at hb <;> cases hb
  unfold ldgnf
  rw [memFrame_of_clear htype hclear hcalm.quiet]
  dsimp only
  rw [halign, hwatch']
  simp only [Ctx.walked, htrans, hbusy]
  rw [if_neg (by decide)]
  split
  · rename_i hbad
    obtain ⟨t, ht, hsome⟩ := List.exists_of_findSome?_eq_some hbad
    obtain ⟨pa, h⟩ := hts.ok_of_present t ht
    rw [h] at hsome
    cases hsome
  · have hrest := congrArg (fun l => !l.isEmpty) (replays_of_ok hts.ok_of_present)
    refine congrArg _ ((if_neg (Bool.eq_false_iff.1 hrest)).trans ?_)
    rw [Ctx.replaying_of_none hreplay, Ctx.logged_of_none hproof, hsample]
    have hwarp : (fun x : Warp => _) = fun x => x.partLoaded q d m (c.eff (some q)) (absentLanes ts) :=
      funext fun x => (x.partLoaded_of_ite q d m _ _).trans (congrArg (x.partLoaded q d m _) hts.absent)
    exact (congrArg (fun g => c.issue (u.setWarp c.w g) 0 true _) hwarp).trans
      (congrArg (fun l => c.issue _ 0 true (loadAccesses o d m _ l)) (residentLanes_presentLanes ts))

/-- Lanes that all translate are on resident pages. -/
theorem residentOrAbsent_of_ok (l : List ((Nat × Nat) × Nat)) : ResidentOrAbsent (l.map fun t => (t.1.1, t.1.2, Tr.ok t.2)) := by
  intro t ht
  obtain ⟨e, -, rfl⟩ := List.mem_map.1 ht
  exact .inl ⟨_, rfl⟩

theorem absentLanes_of_ok (l : List ((Nat × Nat) × Nat)) : absentLanes (l.map fun t => (t.1.1, t.1.2, Tr.ok t.2)) = 0#32 := by
  have hnone : ((l.map fun t => (t.1.1, t.1.2, Tr.ok t.2)).filter fun t => match t.2.2 with
      | .ok _ => false
      | _ => true) = [] := List.filter_eq_nil_iff.2 fun t ht => by
    obtain ⟨e, -, rfl⟩ := List.mem_map.1 ht
    exact Bool.false_ne_true
  unfold absentLanes
  rw [hnone]
  rfl

-- ## `LDW` (R72, R73, R361)

/-- With an active lane, a valid region and a seal that lets the kernel read, `LDW` comes to the issue of accesses to the weight store. -/
theorem ldw_of_region {c : Ctx} {p : Option VPfx} {d a : BitVec 8} {m : MFld} {sl : Seal}
    (htype : typeBad p (c.eff p) bitTypes = none) (hclear : c.VClear p (vDst (widthRegs m.w) d :: localOps a m)) (hcalm : c.Calm) :
    let r := c.s.region c.die c.vd
    let lanes := (lanesOf (c.eff p).mask).map fun l => (l, localAddr c.x a m l)
    misaligned (widthOf m.w) lanes = none → lanes ≠ [] → r.valid = true → (∀ l ∈ lanes, l.2 < r.size * 2 ^ 20) →
    (c.s.seal c.die c.vd).read c.b.kernel = .ok sl →
    ldw p d a m c = Res.inLanes (c.eff p).mask (c.issue ((c.s.setDie c.die fun x => { x with seals := put x.seals c.vd sl }).setWarp c.w
      fun x => x.zeroLanes d.toNat (widthRegs m.w) (c.eff p)) 0 true
      ((loadAccesses none d m (c.eff p).type (lanes.map fun l => (l.1, r.base * 2 ^ 20 + l.2))).map fun a => { a with weight := true })) := by
  intro r lanes halign hne hvalid hin hseal
  have ⟨_, _, hproof, hreplay⟩ := hcalm
  have hinside : (!r.valid || lanes.any fun l => decide (r.size * 2 ^ 20 ≤ l.2)) = false := by
    simpa [hvalid, -Prod.forall] using hin
  unfold ldw
  rw [memFrame_of_clear htype hclear hcalm.quiet]
  dsimp only
  rw [halign]
  dsimp only
  rw [if_neg (fun h => hne (List.isEmpty_iff.1 h)), if_neg (Bool.eq_false_iff.1 hinside), hseal]
  dsimp only
  rw [Ctx.replaying_of_none hreplay, Ctx.logged_of_none hproof]
  rfl

-- ## `SLD` (R319)

/-- `SLD` comes to the issue of the access of its lane. -/
theorem sld_of_maps {c : Ctx} {o : Option OPfx} {d a : BitVec 8} {w : BitVec 3} {st : Bool} {u : State} {pa : Nat} (hg : c.guard = true)
    (hclear : c.Clear [{ scalarData d w with reads := false, writes := true }, spOp a 1])
    (halign : (c.x.spair a.toNat).toNat % 2 ^ w.toNat = 0)
    (hmaps : c.Maps 0 w.toNat [(lowLane c.f.mask, (c.x.spair a.toNat).toNat)] [pa] u) :
    sld o d a w st c = c.issue u 0 true [scalarLoad o d w st (lowLane c.f.mask) pa] := by
  have ⟨hcalm, _⟩ := hmaps
  have ⟨_, _, hproof, hreplay⟩ := hcalm
  unfold sld scalarMem
  rw [guarded_clear c _ _ hclear hg, Ctx.ordered_of_quiet hcalm.quiet]
  dsimp only
  rw [if_neg (by simp [halign]), Ctx.access_of_maps hmaps, Ctx.replaying_of_none hreplay, Ctx.logged_of_none hproof]
  rfl

/-- Settles O20: each load comes to the issue of its accesses, which complete it once they find room. -/
theorem loads : Obligations.Loads := by
  refine fun s c o p q d a m w st u pas hctx => ⟨?ldg, ?resident, ?partly, ?ldw, ?sld⟩
  case ldg =>
    intro e lanes as v htype hclear halign hmaps
    have hissue := Completes.of_issue hctx (exec_ldg o p d a m s) (ldg_of_maps htype hclear halign hmaps)
    exact ⟨hissue.1, fun hnone => hissue.2 (by rw [show globalLanes c.x a m (c.eff p).mask = [] from hnone]; rfl)⟩
  case resident =>
    intro e lanes as v htype hclear halign hmaps
    obtain ⟨hcalm, hsample, hwatch, -, htrans⟩ := hmaps
    have hrun := ldgnf_of_walk (o := o) htype hclear halign hcalm hsample hwatch htrans (residentOrAbsent_of_ok _)
    rw [residentLanes_of_ok, absentLanes_of_ok] at hrun
    simp only [Warp.partLoaded_zero] at hrun
    exact (Completes.of_issue hctx (exec_ldgnf o q d a m s) hrun).1
  case partly =>
    intro e lanes htype hclear halign hcalm hsample hwatch ts htrans hts here away as v
    exact (Completes.of_issue hctx (exec_ldgnf o q d a m s)
      (ldgnf_of_walk htype hclear halign hcalm hsample hwatch htrans hts)).symm
  case ldw =>
    intro e r lanes as htype hclear halign hcalm hne hvalid hin sl hseal v
    obtain ⟨rfl, -⟩ := State.ctx_some hctx
    exact (Completes.of_issue hctx (exec_ldw p d a m c.s) (ldw_of_region htype hclear hcalm halign hne hvalid hin hseal)).1
  case sld =>
    intro l va hg hclear halign pa hmaps as hroom
    exact .of_done hctx (exec_sld o d a w st s) ((sld_of_maps hg hclear halign hmaps).trans (Ctx.issue_of_room hroom true))

end Sys2Proof.Machine
end

section
/-!
PROOF. Element results: integers between their bits and their values (R239), and what a NaN operand makes of an operation (R237).
-/
namespace Sys2Proof.Machine

-- ## Integers (R239)

theorem cast_wrap (w : Nat) (v : Int) : ((wrap w v : Nat) : Int) = v % (2 ^ w : Nat) :=
  Int.toNat_of_nonneg (Int.emod_nonneg v (Int.natCast_ne_zero.2 (Nat.ne_of_gt (Nat.two_pow_pos w))))

theorem wrap_lt (w : Nat) (v : Int) : wrap w v < 2 ^ w := by
  have hlt := Int.emod_lt_of_pos v (Int.natCast_pos.2 (Nat.two_pow_pos w))
  rw [← cast_wrap] at hlt
  exact Int.ofNat_lt.1 hlt

theorem sextInt_eq_bmod (w a : Nat) : sextInt w a = (a : Int).bmod (2 ^ w) := by
  have hcut : (a : Int) % (2 ^ w : Nat) < ((2 ^ w : Nat) + 1) / 2 ↔ ¬ 2 ^ w ≤ 2 * (a % 2 ^ w) := by
    rw [← Int.natCast_emod]
    generalize a % 2 ^ w = r
    have heven : 2 ^ w = 1 ∨ 2 ^ w % 2 = 0 := by cases w with
      | zero => exact .inl rfl
      | succ w => exact .inr (by omega)
    generalize 2 ^ w = n at heven
    omega
  rw [Int.bmod_def]
  simp only [hcut, sextInt, ite_not]
  push_cast
  rfl

/-- The value of an element is one of those with its bits. -/
theorem intVal_emod (signed : Bool) (w a : Nat) : intVal signed w a % (2 ^ w : Nat) = (a : Int) % (2 ^ w : Nat) := by
  cases signed with
  | true => exact (congrArg (· % _) (sextInt_eq_bmod w a)).trans Int.bmod_emod
  | false => exact (congrArg (· % _) (Int.natCast_emod a (2 ^ w))).trans (Int.emod_emod ..)

/-- An integer of the type's range is the value of its own low bits. -/
theorem intVal_wrap {signed : Bool} {w : Nat} {v : Int} (hw : 1 ≤ w) (hmin : intMin signed w ≤ v) (hmax : v ≤ intMax signed w) :
    intVal signed w (wrap w v) = v := by
  cases signed with
  | true =>
    obtain ⟨n, rfl⟩ := Nat.exists_eq_add_of_le' hw
    simp only [intMin, intMax, if_true, Nat.add_sub_cancel] at hmin hmax
    refine (sextInt_eq_bmod _ _).trans ?_
    rw [cast_wrap, Int.emod_bmod]
    exact Int.bmod_eq_of_le_mul_two (by omega) (by omega)
  | false =>
    simp only [intMin, intMax, Bool.false_eq_true, if_false] at hmin hmax
    show ((wrap w v % 2 ^ w : Nat) : Int) = v
    rw [Nat.mod_eq_of_lt (wrap_lt w v), cast_wrap]
    exact Int.emod_eq_of_lt hmin (by omega)

theorem intMin_le_intMax (signed : Bool) (w : Nat) : intMin signed w ≤ intMax signed w := by
  have := Nat.two_pow_pos w
  have := Nat.two_pow_pos (w - 1)
  cases signed <;> simp only [intMin, intMax, if_true, Bool.false_eq_true, if_false] <;> omega

theorem intVal_intRes_sat (signed : Bool) {w : Nat} (v : Int) (hw : 1 ≤ w) :
    intVal signed w (intRes true signed w v) = max (intMin signed w) (min (intMax signed w) v) :=
  intVal_wrap hw (Int.le_max_left ..) (Int.max_le.2 ⟨intMin_le_intMax signed w, Int.min_le_left ..⟩)

theorem intVal_intRes_wrap_emod (signed : Bool) (w : Nat) (v : Int) :
    intVal signed w (intRes false signed w v) % 2 ^ w = v % 2 ^ w := by
  have h := intVal_emod signed w (wrap w v)
  rw [cast_wrap, Int.emod_emod] at h
  rwa [show ((2 ^ w : Nat) : Int) = 2 ^ w from Int.natCast_pow 2 w] at h

theorem intRes_lt (sat signed : Bool) (w : Nat) (v : Int) : intRes sat signed w v < 2 ^ w := by
  cases sat <;> exact wrap_lt w _

-- ## NaNs (R237)

theorem Fmt.isNan_dec (f : Fmt) (b : Nat) :
    (f.dec b).isNan = true ↔ (b >>> f.fb) % 2 ^ f.eb = 2 ^ f.eb - 1 ∧ b % 2 ^ f.fb ≠ 0 := by
  unfold Fmt.dec
  dsimp only
  by_cases hexp : (b >>> f.fb) % 2 ^ f.eb = 2 ^ f.eb - 1
  · rw [if_pos hexp]
    split <;> simp [Num.isNan, *]
  · rw [if_neg hexp]
    split <;> simp [Num.isNan, hexp]

section
variable {f : Fmt} (he : 0 < f.eb)
include he

/-- A NaN is not subnormal. -/
theorem Fmt.flushIn_of_isNan {b : Nat} (h : (f.dec b).isNan = true) (ftz : Bool) : f.flushIn ftz b = b := by
  obtain ⟨hexp, -⟩ := (f.isNan_dec b).1 h
  have := Nat.one_lt_two_pow (Nat.ne_of_gt he)
  exact if_neg (by simp; omega)

/-- Flushing neither makes a NaN nor removes one. -/
theorem Fmt.isNan_dec_flushIn (ftz : Bool) (b : Nat) : (f.dec (f.flushIn ftz b)).isNan = (f.dec b).isNan := by
  cases h : (f.dec b).isNan with
  | true => rw [Fmt.flushIn_of_isNan he h, h]
  | false =>
    unfold Fmt.flushIn
    split
    · refine Bool.eq_false_iff.2 fun hn => ((f.isNan_dec _).1 hn).2 ?_
      exact Nat.sub_mod_eq_zero_of_mod_eq (Nat.mod_mod _ _).symm
    · exact h

end

/-- What holds of the four formats holds of every type's (R234). -/
theorem forall_fmtOf {P : Fmt → Prop} (hf16 : P { eb := 5, fb := 10 }) (hbf16 : P { eb := 8, fb := 7 })
    (hf64 : P { eb := 11, fb := 52 }) (hf32 : P f32) (t : Nat) : P (fmtOf t) := by
  unfold fmtOf
  split
  · exact hf16
  split
  · exact hbf16
  split
  · exact hf64
  · exact hf32

theorem fmtOf_eb_pos (t : Nat) : 0 < (fmtOf t).eb :=
  forall_fmtOf (P := fun f => 0 < f.eb) (by decide) (by decide) (by decide) (by decide) t

theorem isNan_nanBits (t : Nat) : ((fmtOf t).dec (fmtOf t).nanBits).isNan = true :=
  forall_fmtOf (P := fun f => (f.dec f.nanBits).isNan = true) (by decide) (by decide) (by decide) (by decide) t

/-- A NaN result is the canonical one, and raises only what the operation itself raised. -/
theorem result_nan (t : Nat) (ftz : Bool) (rnd : Nat) (cond : Bool) :
    (fmtOf t).result ftz rnd .nan cond = ((fmtOf t).nanBits, cond) := by
  simp only [Fmt.result, Fmt.round, Fmt.flushIn_of_isNan (fmtOf_eb_pos t) (isNan_nanBits t), Bool.or_false]

theorem sumNum_pair_nan (rnd : Nat) {x y : Num} (h : x.isNan = true ∨ y.isNan = true) : sumNum rnd [x, y] = .nan :=
  if_pos (by simpa using h)

theorem Num.eq_nan_of_isNan {x : Num} (h : x.isNan = true) : x = .nan := by
  cases x with
  | nan => rfl
  | _ => cases h

/-- A NaN made of a NaN is no invalid operation (R238). -/
theorem invalid_of_isNan (r : Num) {x y : Num} (h : x.isNan = true ∨ y.isNan = true) : invalid r [x, y] = false := by
  rcases h with h | h <;> simp [invalid, h]

theorem Num.isNan_neg (x : Num) : x.neg.isNan = x.isNan := by cases x <;> rfl

theorem Num.mul_nan {x y : Num} (h : x.isNan = true ∨ y.isNan = true) : x.mul y = .nan := by
  rcases h with h | h <;> obtain rfl := Num.eq_nan_of_isNan h
  · rfl
  · cases x <;> rfl

theorem Num.div_nan {x y : Num} (h : x.isNan = true ∨ y.isNan = true) : x.div y = (.nan, false) := by
  rcases h with h | h <;> obtain rfl := Num.eq_nan_of_isNan h
  · rfl
  · cases x <;> rfl

/-- An operation that answers a NaN operand with NaN gives the canonical one of the format, and raises nothing. -/
theorem fop2_nan {f : Num → Num → Num × Bool} (hf : ∀ x y, x.isNan = true ∨ y.isNan = true → f x y = (.nan, false)) {v : VEnv}
    {a b : Nat} (h : ((fmtOf v.t).dec a).isNan = true ∨ ((fmtOf v.t).dec b).isNan = true) :
    fop2 f v a b = ((fmtOf v.t).nanBits, false) := by
  rw [← Fmt.isNan_dec_flushIn (fmtOf_eb_pos _) v.ftz a, ← Fmt.isNan_dec_flushIn (fmtOf_eb_pos _) v.ftz b] at h
  simp only [fop2, hf _ _ h, invalid_of_isNan _ h, result_nan, Bool.or_false]

/-- Sum, difference, product and quotient with a NaN operand. -/
theorem arith_nan {v : VEnv} {a b : Nat} (h : ((fmtOf v.t).dec a).isNan = true ∨ ((fmtOf v.t).dec b).isNan = true) :
    ∀ f ∈ [fadd, fsub, fmul, fdiv], f v a b = ((fmtOf v.t).nanBits, false) := by
  intro f hf
  simp only [List.mem_cons, List.not_mem_nil, or_false] at hf
  rcases hf with rfl | rfl | rfl | rfl
  · exact fop2_nan (fun x y h => by rw [sumNum_pair_nan _ h]) h
  · exact fop2_nan (fun x y h => by rw [sumNum_pair_nan _ (by rwa [Num.isNan_neg])]) h
  · exact fop2_nan (fun x y h => by rw [Num.mul_nan h]) h
  · exact fop2_nan (fun x y => Num.div_nan) h

theorem fsqrt_nan {v : VEnv} {a : Nat} (h : ((fmtOf v.t).dec a).isNan = true) : fsqrt v a = ((fmtOf v.t).nanBits, false) := by
  simp only [fsqrt, Fmt.flushIn_of_isNan (fmtOf_eb_pos _) h, Num.eq_nan_of_isNan h, Num.sqrt, result_nan]

section
variable {v : VEnv} {a b : Nat} (mx : Bool)

theorem fminmax_nan_left (ha : ((fmtOf v.t).dec a).isNan = true) (hb : ((fmtOf v.t).dec b).isNan = false) :
    fminmax mx v a b = ((fmtOf v.t).flushIn v.ftz b, false) := by
  simp [fminmax, Fmt.isNan_dec_flushIn (fmtOf_eb_pos _), ha, hb]

theorem fminmax_nan_right (ha : ((fmtOf v.t).dec a).isNan = false) (hb : ((fmtOf v.t).dec b).isNan = true) :
    fminmax mx v a b = ((fmtOf v.t).flushIn v.ftz a, false) := by
  simp [fminmax, Fmt.isNan_dec_flushIn (fmtOf_eb_pos _), ha, hb]

end

/-- Settles O12: integer results by what the low bits of an integer stand for, NaNs by each operation's own answer to one. -/
theorem elementResults : Obligations.ElementResults := by
  refine ⟨fun signed w v hw => ⟨intVal_intRes_sat signed v hw, intVal_intRes_wrap_emod signed w v, intVal_wrap hw,
    fun sat => intRes_lt sat signed w v⟩, fun v a b _ => ?_⟩
  exact ⟨arith_nan, fsqrt_nan, fun ha hb mx => fminmax_nan_left mx ha hb, fun ha hb mx => fminmax_nan_right mx ha hb,
    isNan_nanBits v.t⟩

end Sys2Proof.Machine
end

section
/-!
PROOF. The frame of vector instructions (R330) once for all bodies that write a group of vector registers, and the instructions with a
third source, field `C` (R277).
-/
namespace Sys2Proof.Machine

-- ## What a written group leaves of the warp's fragments

@[simp] theorem Warp.setV_frags (x : Warp) (n : Nat) (r : VReg) : (x.setV n r).frags = x.frags := rfl

@[simp] theorem Warp.writeGroup_frags (x : Warp) (d regs : Nat) (reach m : Mask) (z : Bool) (f : Nat → Nat) :
    (x.writeGroup d regs reach m z f).frags = x.frags := by
  unfold Warp.writeGroup
  split
  · rfl
  · generalize hrs : List.range regs = rs
    clear hrs
    induction rs generalizing x with
    | nil => rfl
    | cons r rs ih => exact (ih _).trans (Warp.setV_frags ..)

-- ## Accepted types

/-- An `RND` of 5 or 6 in a `VPfx`, which an instruction that rounds does not take (R277, log 72). -/
def RndRefused (rounds : Bool) (p : Option VPfx) : Prop := rounds = true ∧ ∃ q, p = some q ∧ (q.rnd = 5#3 ∨ q.rnd = 6#3)

theorem typeBad_of_refused {p : Option VPfx} {e : Eff} {types : List Nat} {rounds : Bool} (h : e.type ∉ types ∨ RndRefused rounds p) :
    typeBad p e types rounds = some (illegalType e.type e.rnd) := by
  rcases h with h | ⟨rfl, q, rfl, hq⟩
  · simp [typeBad, h]
  · rcases hq with h | h <;> simp [typeBad, h]

theorem mem_types_of_typeBad {p : Option VPfx} {e : Eff} {types : List Nat} {rounds : Bool} (h : typeBad p e types rounds = none) :
    e.type ∈ types :=
  Decidable.byContradiction fun hne => by
    rw [typeBad_of_refused (.inl hne)] at h
    cases h

-- ## The frame of a vector instruction

section
variable {c : Ctx} {p : Option VPfx} {y : VBody} {types : List Nat} (htypes : y.types = some types)
include htypes

/-- A type that is not accepted faults before anything else (R286). -/
theorem vec_of_refused (h : (c.eff p).type ∉ types ∨ RndRefused y.rounds p) :
    vec p y c = .fault { illegalType (c.eff p).type (c.eff p).rnd with lanes := some (c.eff p).mask } := by
  have hcheck : typeCheck p (c.eff p) y.types y.rounds = some (illegalType (c.eff p).type (c.eff p).rnd) := by
    rw [htypes]
    exact typeBad_of_refused h
  unfold vec
  rw [show effOf c.x c.f.mask p = c.eff p from rfl]
  dsimp only
  rw [hcheck]
  rfl

/-- Checks and interlock passed, an instruction without accumulator fragment comes to what its body comes to. -/
theorem vec_of_clear (hacc : VPfx.acc p = none) (htype : typeBad p (c.eff p) types y.rounds = none)
    (hclear : c.VClear p (y.ops (c.eff p).type)) :
    (∀ x, y.run c.x c.f.mask 0#32 (c.eff p) (y.bvals c.x (c.eff p)) = .ok x → vec p y c = .done (c.s.setWarp c.w fun _ => x)) ∧
    (∀ i, y.run c.x c.f.mask 0#32 (c.eff p) (y.bvals c.x (c.eff p)) = .error i →
      vec p y c = .fault { i with lanes := some (i.lanes.getD (c.eff p).mask) }) := by
  obtain ⟨hrange, hready, hflag⟩ := hclear
  have hcheck : typeCheck p (c.eff p) y.types y.rounds = none := by
    rw [htypes]
    exact htype
  unfold vec
  rw [show effOf c.x c.f.mask p = c.eff p from rfl]
  dsimp only
  rw [hcheck, hacc]
  dsimp only
  rw [checkRange_ok c _ _ hrange, checkReady_ok c _ _ hready hflag]
  exact ⟨fun x hrun => by rw [hrun]; rfl, fun i hrun => by rw [hrun]; rfl⟩

end

/-- A body that writes every active lane of a group of vector registers, the values of its lanes as `lane` has them. -/
structure VBody.Writes (y : VBody) (c : Ctx) (p : Option VPfx) (types : List Nat) (d regs : Nat) (lane : Nat → Nat × Bool) : Prop where
  types_eq : y.types = some types
  dst_eq : y.dst (c.eff p).type = .v d regs
  sel_eq : y.sel = false
  needsActive_eq : y.needsActive = false
  lane_eq : (c.eff p).type ∈ types → ∀ l, y.lane c.x (c.eff p) (y.bvals c.x (c.eff p)) l = lane l

/-- Its results are written, or the conditions raised in its active lanes trap (R238, R330). -/
theorem VBody.Writes.run_eq {y : VBody} {c : Ctx} {p : Option VPfx} {types : List Nat} {d regs : Nat} {lane : Nat → Nat × Bool}
    (hy : y.Writes c p types d regs lane) (htype : (c.eff p).type ∈ types) :
    y.run c.x c.f.mask 0#32 (c.eff p) (y.bvals c.x (c.eff p)) =
      if mFpx c.x.mode && c.raised p lane != 0#32 then
        .error { code := 0x16, einfo := c.raised p lane, lanes := some (c.eff p).mask }
      else .ok (c.x.writeGroup d regs 0#32 (c.eff p).mask (c.eff p).zero fun l => (lane l).1) := by
  unfold VBody.run
  simp [VBody.mask, hy.sel_eq, hy.needsActive_eq, hy.dst_eq, hy.lane_eq htype, Ctx.raised]

/-- What a vector instruction comes to whose body writes a group of vector registers. -/
theorem VecResult.of_writes {i : Instr} {s : State} {c : Ctx} {p : Option VPfx} {y : VBody} {types : List Nat} {os : List Opnd}
    {d regs : Nat} {lane : Nat → Nat × Bool} (hctx : s.ctx = some c) (hexec : exec i s = runInstr s (vec p y))
    (hacc : VPfx.acc p = none) (hrounds : y.rounds = roundsRnd i) (hos : y.ops (c.eff p).type = os)
    (hy : y.Writes c p types d regs lane) : VecResult i s c p types os d regs lane := by
  subst hos
  rw [VecResult, ← hrounds]
  refine ⟨fun htype hclear => ?_, fun hbad => .of_fault hctx hexec (vec_of_refused hy.types_eq hbad)⟩
  obtain ⟨hok, herror⟩ := vec_of_clear hy.types_eq hacc htype hclear
  have hrun := hy.run_eq (mem_types_of_typeBad htype)
  refine ⟨fun hquiet => ?_, fun hfpx hraised => .of_fault hctx hexec (herror _ (hrun.trans (if_pos (by simp [hfpx, hraised]))))⟩
  have hdone := hok _ (hrun.trans (if_neg (by rcases hquiet with h | h <;> simp [h])))
  exact .of_done hctx hexec (fun _ => _) hdone (congrArg _ (Warp.writeGroup_frags ..))

-- ## Sources `A`, `B` and `C` (R277)

theorem VPfx.acc_of_acb {p : VPfx} (h : p.acb = false) : VPfx.acc (some p) = none := by
  simp [VPfx.acc, h]

/-- Elementwise bodies apply their operation to the elements of their three sources. -/
theorem ew3_writes (c : Ctx) (p : VPfx) (d a b : BitVec 8) {y : VBody} {types : List Nat}
    {f : VEnv → Nat → Nat → Nat → Nat × Bool} {r : Bool} (hy : y = { ew3 p d a b types f with rounds := r }) :
    y.Writes c (some p) types d.toNat (typeRegs (c.eff (some p)).type) (lanes3 c.x (c.eff (some p)) a b p.c f) :=
  hy ▸ ⟨rfl, rfl, rfl, rfl, fun _ _ => rfl⟩

-- ## Dot products (R251, R340)

theorem foldl_add_eq_sum (f : Nat → Int) (l : List Nat) (z : Int) : l.foldl (fun t k => t + f k) z = z + (l.map f).sum := by
  induction l generalizing z with
  | nil => simp
  | cons k l ih => simp [ih, Int.add_assoc]

/-- The operation of a dot product on one lane: of as many elements as a register holds. -/
def dotElem (v : VEnv) (x y z : Nat) : Nat × Bool := if isIeee v.t then dotFloat v x y z else dotInt v (elemCount v.t) x y z

theorem vdot_lane (types : List Nat) (p : VPfx) (d a b : BitVec 8) (x : Warp) (e : Eff) (bv : Nat → Nat) (l : Nat)
    (hfloat : isIeee e.type = true → elemCount e.type = 2) :
    (vdotBody types p d a b).lane x e bv l = dotElem (envOf x e) (x.lane a.toNat l).toNat (bv l) (x.lane p.c.toNat l).toNat := by
  unfold vdotBody dotElem
  dsimp only
  by_cases hf : isIeee e.type = true
  · rw [if_pos hf, if_pos (show isIeee (envOf x e).t = true from hf), hfloat hf]
    simp [dotFloat, envOf, List.range_succ]
  · rw [if_neg hf, if_neg (show ¬ isIeee (envOf x e).t = true from hf)]
    simp only [dotInt, foldl_add_eq_sum, envOf]

/-- A dot product on packed types, whose operands are single registers, has the result `g` where this is its operation in those types. -/
theorem vdot_writes (c : Ctx) (p : VPfx) (d a b : BitVec 8) {y : VBody} {types : List Nat}
    {g : Nat → Nat → Nat → Nat × Bool} {r : Bool} (hy : y = { vdotBody types p d a b with rounds := r })
    (htypes : ∀ t ∈ types, typeRegs t = 1 ∧ (isIeee t = true → elemCount t = 2))
    (hg : (c.eff (some p)).type ∈ types → dotElem (envOf c.x (c.eff (some p))) = g) :
    y.Writes c (some p) types d.toNat 1 fun l =>
      g (c.x.lane a.toNat l).toNat (c.x.lane b.toNat l).toNat (c.x.lane p.c.toNat l).toNat := by
  subst hy
  refine ⟨rfl, rfl, rfl, rfl, fun ht l => ?_⟩
  obtain ⟨hregs, hcount⟩ := htypes _ ht
  have hb : (vdotBody types p d a b).bvals c.x (c.eff (some p)) l = (c.x.lane b.toNat l).toNat := by
    show c.x.laneN (typeRegs _) b.toNat l = _
    rw [hregs]
    rfl
  rw [← hg ht, ← hb]
  exact vdot_lane types p d a b _ _ _ l hcount

theorem dotElem_of_bytes {v : VEnv} (h : v.t ∈ [7, 8]) : dotElem v = dotInt v 4 := by
  have hv : isIeee v.t = false ∧ elemCount v.t = 4 := (by decide : ∀ t ∈ [7, 8], isIeee t = false ∧ elemCount t = 4) _ h
  funext x y z
  simp [dotElem, hv]

theorem dotElem_of_halves {v : VEnv} (h : v.t ∈ [3, 4, 5, 6]) : dotElem v = if isIeee v.t then dotFloat v else dotInt v 2 := by
  have hv : elemCount v.t = 2 := (by decide : ∀ t ∈ [3, 4, 5, 6], elemCount t = 2) _ h
  funext x y z
  unfold dotElem
  rw [hv]
  split <;> rfl

/-- Settles O8: each instruction by the frame of vector instructions, which its body meets. -/
theorem vectorTernary : Obligations.VectorTernary := by
  intro s c p d a b hctx hacb
  have hacc := VPfx.acc_of_acb hacb
  refine ⟨?vmad, ?vbfi, ?vfma, ?vdot4, ?vdot2⟩
  case vmad => exact .of_writes hctx (exec_vmad p d a b s) hacc rfl rfl (ew3_writes c p d a b rfl)
  case vbfi => exact .of_writes hctx (exec_vbfi p d a b s) hacc rfl rfl (ew3_writes c p d a b rfl)
  case vfma => exact .of_writes hctx (exec_vfma p d a b s) hacc rfl rfl (ew3_writes c p d a b rfl)
  case vdot4 =>
    exact .of_writes hctx (exec_vdot4 p d a b s) hacc rfl rfl (vdot_writes c p d a b rfl (by decide) fun ht => dotElem_of_bytes ht)
  case vdot2 =>
    exact .of_writes hctx (exec_vdot2 p d a b s) hacc rfl rfl (vdot_writes c p d a b rfl (by decide) fun ht => dotElem_of_halves ht)

end Sys2Proof.Machine
end

section
/-!
PROOF. The sampler (R257–R262) and the debugger's commands (R264, R267, R270). The device's own writes account for each record of a
sample ring, and leave the clusters with their quadrants' samplers alone.
-/
namespace Sys2Proof.Machine

-- ## What the platen's agents leave of the clusters

theorem State.enlist_clusters (s : State) (h : Option Holder) (line : Nat) (write : Bool) (v inc : Nat) (us : List (Instr × Focus))
    (send : Bool) : (s.enlist h line write v inc us send).clusters = s.clusters := by
  have hissue (t : State) (r : TokReq) : (t.issueReq r true).clusters = t.clusters := by
    unfold State.issueReq
    split
    · rfl
    · exact (State.Forgets.foldl (fun t _ => t.send_forgets _) _ t).clusters
  unfold State.enlist
  dsimp only
  split
  · rfl
  · split
    · exact hissue _ _
    · rfl

theorem State.cxlTxn_clusters (s : State) (kind line v : Nat) (owes : Owed) : (s.cxlTxn kind line v owes).clusters = s.clusters := by
  unfold State.cxlTxn
  dsimp only
  split <;> rfl

theorem State.agentAsk_clusters (s : State) (line : Nat) (write : Bool) (v : Nat) (us : List (Instr × Focus)) :
    ((s.agentAsk line write v us).getD s).clusters = s.clusters := by
  have hfollow (kind : Nat) : ((s.follow kind line v us).getD s).clusters = s.clusters := by
    unfold State.follow
    dsimp only
    split
    · exact s.cxlTxn_clusters ..
    · split <;> rfl
  have hwant (h : Option Holder) : (s.want h line write v (s.lineInc line) us).clusters = s.clusters := by
    unfold State.want
    split
    · rfl
    · exact s.enlist_clusters ..
  unfold State.agentAsk
  dsimp only
  split
  · split
    · rfl
    · exact s.enlist_clusters ..
  split
  · split
    · rfl
    · exact hwant _
  · exact hfollow _

theorem State.poke_clusters (s : State) (pa : Nat) (bs : List Byte) : (s.poke pa bs).clusters = s.clusters := by
  have hkeep : (s.keepTarget (pa / 128)).clusters = s.clusters := by
    unfold State.keepTarget
    split <;> rfl
  unfold State.poke
  dsimp only
  split <;> exact hkeep

theorem State.llcRoom_clusters (s : State) (line : Nat) : (s.llcRoom line).clusters = s.clusters := by
  have hevict (l : Nat) : (s.evictLlc l).clusters = s.clusters := by
    unfold State.evictLlc
    split
    · rfl
    · dsimp only
      split <;> rfl
  unfold State.llcRoom
  dsimp only
  split
  · rfl
  · split
    · exact hevict _
    · rfl

theorem State.fillLlc_clusters (s : State) (line v : Nat) (dirty : Bool) : (s.fillLlc line v dirty).clusters = s.clusters := by
  have hpass : ((s.atProxy line v).passOn line).clusters = s.clusters := by
    unfold State.passOn
    split <;> rfl
  unfold State.fillLlc
  split
  · split
    · exact (State.cxlTxn_clusters ..).trans hpass
    · rfl
  · dsimp only
    rw [← s.llcRoom_clusters line]
    split <;> rfl

theorem State.platenPoke_clusters (s : State) (pa : Nat) (bs : List Byte) (v : Nat) : (s.platenPoke pa bs v).clusters = s.clusters := by
  rw [← s.poke_clusters pa bs]
  unfold State.platenPoke
  dsimp only
  split
  · rfl
  · exact State.fillLlc_clusters ..

theorem State.walkWaits_clusters (s : State) (w : Walk) (write : Bool) : (s.walkWaits w write).clusters = s.clusters := by
  unfold State.walkWaits
  dsimp only
  split
  · exact s.agentAsk_clusters ..
  · split
    · rfl
    · exact State.agentAsk_clusters ..

theorem State.walk_clusters (s : State) (place : Option (Nat × Nat)) (v asid va atype : Nat) :
    (s.walk place v asid va atype).1.clusters = s.clusters := by
  unfold State.walk
  dsimp only
  generalize List.find? _ (_ ++ _) = wait
  cases wait with
  | some l => exact s.walkWaits_clusters ..
  | none =>
    dsimp only
    generalize s.anyLost _ = lost
    cases lost with
    | true => rfl
    | false =>
      cases s.walkOut v asid va atype with
      | error r => rfl
      | ok r =>
        simp only [Bool.false_eq_true, if_false]
        split
        · rfl
        · exact State.platenPoke_clusters ..

theorem State.translate_platen_clusters (s : State) (v asid va atype : Nat) :
    (s.translate none v asid va atype).1.clusters = s.clusters := by
  have h := s.walk_clusters none v asid va atype
  unfold State.translate
  dsimp only
  split
  · rfl
  · split
    all_goals
      rename_i hw
      rw [hw] at h
      exact h

theorem State.placePost_clusters (s : State) (p : Post) : (s.placePost p).1.clusters = s.clusters := by
  unfold State.placePost
  split
  · rfl
  · split
    · rename_i h
      obtain ⟨l, -, rfl⟩ := Option.map_eq_some_iff.1 h
      exact s.agentAsk_clusters ..
    · rfl
  · rename_i asid va _
    have h := s.translate_platen_clusters p.vd asid va 5
    split
    all_goals
      rename_i hr
      rw [hr] at h
      exact h

-- ## Records of a VD's ring

/-- How many of some pending writes are records of a VD's sample ring. -/
def ringPosts (v : Nat) (ps : List Post) : Nat := (ps.filter fun p => p.tail && p.vd = v).length

theorem ringPosts_append_cons (v : Nat) (kept ps : List Post) (p : Post) :
    ringPosts v (kept ++ p :: ps) = ringPosts v (kept ++ ps) + if p.tail && p.vd = v then 1 else 0 := by
  simp only [ringPosts, List.filter_append, List.length_append, List.filter_cons]
  split
  · exact (Nat.add_assoc ..).symm
  · rfl

/-- From `s` on, pending writes have become `ps` and the state `t`: the VD's records in the ring, dropped, and still among `ps` come to
`n`, unless the count of drops is at its end. -/
structure State.Records (s : State) (v : Nat) (n : Word) (ps : List Post) (t : State) : Prop where
  clusters_eq : t.clusters = s.clusters
  smpSeq_eq : (t.vd v).smpSeq = (s.vd v).smpSeq
  accounted : (t.vd v).smptail + (t.vd v).smpdrop + BitVec.ofNat 32 (ringPosts v ps) = n ∨ (t.vd v).smpdrop = 0xFFFFFFFF#32

theorem State.Translated.vd {s t : State} (h : s.Translated t) (v : Nat) : t.vd v = s.vd v := by
  have := congrArg State.vds h
  exact congrArg (fun m => look m v {}) this

section
variable {s t u : State} {v : Nat} {n : Word} {kept ps : List Post} {p : Post}

theorem State.Records.translated (h : s.Records v n ps t) (hvds : t.Translated u) (hclusters : u.clusters = t.clusters) :
    s.Records v n ps u := by
  obtain ⟨hcl, hseq, hacc⟩ := h
  rw [← hvds.vd v] at hseq hacc
  exact ⟨hclusters.trans hcl, hseq, hacc⟩

theorem State.Records.of_ringPosts_eq {qs : List Post} (h : s.Records v n ps t) (hq : ringPosts v qs = ringPosts v ps) :
    s.Records v n qs t := by
  obtain ⟨hcl, hseq, hacc⟩ := h
  exact ⟨hcl, hseq, by rwa [hq]⟩

/-- A pending write that is made or dropped is counted, by the tail or by the drops. -/
theorem State.Records.counted {f : Vd → Vd} (h : s.Records v n (kept ++ p :: ps) t) (hseq : ∀ x, (f x).smpSeq = x.smpSeq)
    (hf : ∀ x, x.smpdrop ≠ 0xFFFFFFFF#32 → (f x).smptail + (f x).smpdrop = x.smptail + x.smpdrop + 1#32)
    (hsat : ∀ x, x.smpdrop = 0xFFFFFFFF#32 → (f x).smpdrop = 0xFFFFFFFF#32) :
    s.Records v n (kept ++ ps) (if p.tail then t.setVd p.vd f else t) := by
  obtain ⟨hcl, hsq, hacc⟩ := h
  rw [ringPosts_append_cons] at hacc
  by_cases hp : p.tail = true ∧ p.vd = v
  · obtain ⟨htail, rfl⟩ := hp
    rw [if_pos htail]
    refine ⟨hcl, by rw [State.vd_setVd_same, hseq, hsq], ?_⟩
    rw [State.vd_setVd_same]
    by_cases hd : (t.vd p.vd).smpdrop = 0xFFFFFFFF#32
    · exact .inr (hsat _ hd)
    · refine .inl ?_
      have hn := hacc.resolve_right hd
      rw [if_pos (by simp [htail]), BitVec.ofNat_add] at hn
      rw [hf _ hd, ← hn]
      ac_rfl
  · have hsame : (if p.tail = true then t.setVd p.vd f else t).vd v = t.vd v := by
      split
      · exact State.vd_setVd_other _ _ _ _ fun h => hp ⟨‹_›, h.symm⟩
      · rfl
    rw [if_neg (by simpa using hp)] at hacc
    refine ⟨?_, by rw [hsame, hsq], by rwa [hsame]⟩
    split <;> exact hcl

theorem State.Records.dropped (h : s.Records v n (kept ++ p :: ps) t) :
    s.Records v n (kept ++ ps) (if p.tail then t.dropSample p.vd else t) :=
  h.counted (fun _ => rfl) (fun x hx => by simp only [if_neg hx]; ac_rfl) (fun x hx => by simp only [if_pos hx]; exact hx)

theorem State.Records.made (h : s.Records v n (kept ++ p :: ps) t) (pa : Nat) : s.Records v n (kept ++ ps) (t.makePost p pa) :=
  (h.translated (t.platenPoke_translated pa p.bytes p.vd) (t.platenPoke_clusters pa p.bytes p.vd)).counted
    (fun _ => rfl) (fun x _ => by ac_rfl) (fun _ hx => hx)

/-- Pending writes that go on keep the account, however many of them are made. -/
theorem State.Records.drainPosts (h : s.Records v n (kept ++ ps) t) :
    s.Records v n (State.drainPosts ps kept t).posted (State.drainPosts ps kept t) := by
  induction ps generalizing kept t with
  | nil =>
    rw [List.append_nil] at h
    exact ⟨h.clusters_eq, h.smpSeq_eq, h.accounted⟩
  | cons p ps ih =>
    unfold State.drainPosts
    have hplaced := h.translated (t.placePost_translated p) (t.placePost_clusters p)
    split
    · exact ih (by simpa using h)
    · split
      all_goals
        rename_i u hu
        rw [hu] at hplaced
      · exact ih (by simpa using hplaced)
      · exact ih hplaced.dropped
      · split
        · exact ih (hplaced.made _)
        · refine ih (State.Records.translated ?_ (State.agentAsk_getD ..) (State.agentAsk_clusters ..))
          refine hplaced.of_ringPosts_eq ?_
          rw [List.append_assoc, List.singleton_append, ringPosts_append_cons, ringPosts_append_cons]

end

/-- A record goes to its VD's ring, waits to be written, or is dropped and counted. -/
theorem State.sampleRecord_records (s : State) (v : Nat) (bs : List Byte) : s.Records v
    ((s.vd v).smptail + (s.vd v).smpdrop + BitVec.ofNat 32 (ringPosts v s.posted + 1)) (s.sampleRecord v bs).posted
    (s.sampleRecord v bs) := by
  have hstart (a : Nat) : s.Records v ((s.vd v).smptail + (s.vd v).smpdrop + BitVec.ofNat 32 (ringPosts v s.posted + 1))
      (s.posted ++ [{ vd := v, dest := .guest a, bytes := bs, tail := true }]) s :=
    ⟨rfl, rfl, .inl (by rw [ringPosts_append_cons]; simp)⟩
  unfold State.sampleRecord
  dsimp only
  split
  · exact (hstart 0).dropped.of_ringPosts_eq (by simp [State.dropSample, State.setVd])
  · exact State.Records.drainPosts (kept := []) (hstart _)

-- ## The sampler's registers (R257)

theorem bits_lt (x hi lo : Nat) : bits x hi lo < 2 ^ (hi + 1 - lo) := Nat.mod_lt _ (Nat.two_pow_pos _)

/-- The fields of a `SMPCFG` put together. -/
theorem bits_smpcfg {a b n : Nat} (ha : a < 2 ^ 3) (hb : b < 2 ^ 16) (hn : n < 2 ^ 5) :
    let x := (BitVec.ofNat 32 (a + 256 * b + 2 ^ 24 * n)).toNat
    bits x 2 0 = a ∧ bits x 23 8 = b ∧ bits x 28 24 = n := by
  simp only [bits, BitVec.toNat_ofNat, Nat.shiftRight_eq_div_pow]
  omega

/-- The log of the ring's size that a write of `w` gives `SMPCFG` (R257): it stands while the sampler is on. -/
def ringLog (old w : Nat) : Nat :=
  if bit old 0 then bits old 28 24 else if 6 ≤ bits w 28 24 ∧ bits w 28 24 ≤ 20 then bits w 28 24 else 6

theorem ringLog_lt (old w : Nat) : ringLog old w < 2 ^ 5 := by
  have := bits_lt old 28 24
  unfold ringLog
  split
  · exact this
  · split <;> omega

section
variable {s : State} {v w : Nat} (hfoc : s.focus = .vdValue v w) (hopen : (s.vd v).open = true)
include hfoc hopen

theorem smpcfgWrite_writes (hmode : bits w 2 1 ≤ 1) (hperiod : bits w 23 8 ≠ 0) : exec .smpcfgWrite s =
    .next (s.setVd v fun x => { x with
      smpcfg := BitVec.ofNat 32 (bits w 2 0 + 256 * bits w 23 8 + 2 ^ 24 * ringLog (s.vd v).smpcfg.toNat w)
      smpSeq := if bit w 0 && !bit (s.vd v).smpcfg.toNat 0 then [] else x.smpSeq }) := by
  refine runDevice_some ?_
  unfold smpcfgWrite
  rw [hfoc]
  dsimp only
  rw [if_neg (by simp [hopen, hperiod]; omega)]
  simp [ringLog]

theorem does_smpcfgWrite (hmode : bits w 2 1 ≤ 1) (hperiod : bits w 23 8 ≠ 0) : Does .smpcfgWrite s fun t =>
    bits (t.vd v).smpcfg.toNat 2 0 = bits w 2 0 ∧ bits (t.vd v).smpcfg.toNat 23 8 = bits w 23 8 ∧
    bits (t.vd v).smpcfg.toNat 28 24 = ringLog (s.vd v).smpcfg.toNat w ∧ (∀ u, u ≠ v → t.vd u = s.vd u) := by
  obtain ⟨hmodes, hperiods, hlog⟩ := bits_smpcfg (bits_lt w 2 0) (bits_lt w 23 8) (ringLog_lt (s.vd v).smpcfg.toNat w)
  refine ⟨_, smpcfgWrite_writes hfoc hopen hmode hperiod, ?_, ?_, ?_, fun u hu => State.vd_setVd_other _ _ _ _ hu⟩
  all_goals rw [State.vd_setVd_same]
  · exact hmodes
  · exact hperiods
  · exact hlog

theorem smpheadWrite_moves (h : (BitVec.ofNat 32 w - (s.vd v).smphead).toNat ≤ ((s.vd v).smptail - (s.vd v).smphead).toNat) :
    exec .smpheadWrite s = .next (s.setVd v fun x => { x with smphead := BitVec.ofNat 32 w }) := by
  refine runDevice_some ?_
  unfold smpheadWrite
  rw [hfoc]
  exact if_neg (by simpa [hopen] using h)

theorem smpdropClear_clears : exec .smpdropClear s = .next (s.setVd v fun x => { x with smpdrop := 0#32 }) := by
  refine runDevice_some ?_
  unfold smpdropClear
  rw [hfoc]
  exact if_pos hopen

end

-- ## Ticks (R258–R260)

theorem nextSlot_nil (p : Nat) : nextSlot p [] = none := List.find?_eq_none.2 fun _ _ => by simp

theorem nextSlot_of_first {p k : Nat} {slots : List Nat} (hk : k < 16) (hmem : (p + 1 + k) % 16 ∈ slots)
    (hfirst : ∀ j, j < k → (p + 1 + j) % 16 ∉ slots) : nextSlot p slots = some ((p + 1 + k) % 16) := by
  unfold nextSlot
  rw [List.find?_map, List.find?_range_eq_some.2 ⟨by simpa using hmem, List.mem_range.2 hk, fun j hj => by simpa using hfirst j hj⟩]
  rfl

/-- The slot that a quadrant's next tick samples, if it has a warp. -/
def State.tickSlot (s : State) (g q : Nat) : Option Nat :=
  nextSlot (vget (s.cl g).smp q {}).ptr ((s.quadSlots g q).map fun w => w.1)

/-- What a tick makes of a quadrant's sampler, which belongs to VD `v`. -/
def State.ticked (s : State) (g q v : Nat) : SmpQuad :=
  let k := vget (s.cl g).smp q {}
  let cfg := (s.vd v).smpcfg.toNat
  { counter := k.counter - 120 * k.period, period := bits cfg 23 8, ptr := (s.tickSlot g q).getD k.ptr
    armed := if bit cfg 0 && bits cfg 2 1 = 1 then some (look (s.vd v).smpSeq (4 * g + q) 0) else none }

def State.tick (s : State) (g q v : Nat) : State := s.setCl g fun c => { c with smp := c.smp.setIfInBounds q (s.ticked g q v) }

/-- A tick with the sampler on takes a sequence number as well. -/
def State.tickOn (s : State) (g q v : Nat) : State := (s.tick g q v).setVd v fun x =>
  { x with smpSeq := put x.smpSeq (4 * g + q) ((look (s.vd v).smpSeq (4 * g + q) 0 + 1) % 2 ^ 32) }

theorem smp_of_tick {s t : State} {g q v : Nat} (hq : q < 4) (ht : t.clusters = (s.tick g q v).clusters) :
    vget (t.cl g).smp q {} = s.ticked g q v := by
  have hcl : t.cl g = (s.tick g q v).cl g := congrArg (fun m : NMap Cluster => look m g {}) ht
  simp [hcl, State.tick, vget, hq]

section
variable {s : State} {g q v : Nat}

section
variable (hfoc : s.focus = .quad g q) (hvd : (s.cl g).vd = some v)
  (hdue : 120 * (vget (s.cl g).smp q {}).period ≤ (vget (s.cl g).smp q {}).counter)
include hfoc hvd hdue

theorem samplerTick_off (hoff : bit (s.vd v).smpcfg.toNat 0 = false) : exec .samplerTick s = .next (s.tick g q v) := by
  refine runDevice_some ?_
  unfold samplerTick
  rw [hfoc]
  dsimp only
  rw [hvd, Option.bind_some, if_neg (Nat.not_lt.2 hdue), if_pos (by simp [hoff])]
  rfl

/-- With the sampler on, a tick arms the quadrant for its next request, or writes the record of the slot it samples. -/
theorem samplerTick_on (hon : bit (s.vd v).smpcfg.toNat 0 = true) : exec .samplerTick s = .next
    (if bits (s.vd v).smpcfg.toNat 2 1 = 1 then s.tickOn g q v else
      (s.tickOn g q v).sampleRecord v ((s.tickOn g q v).tickBytes v g q (look (s.vd v).smpSeq (4 * g + q) 0)
        ((s.tickSlot g q).bind fun n => (s.quadSlots g q).find? fun w => w.1 = n))) := by
  refine runDevice_some ?_
  unfold samplerTick
  rw [hfoc]
  dsimp only
  rw [hvd, Option.bind_some, if_neg (Nat.not_lt.2 hdue), if_neg (by simp [hon])]
  exact congrArg some (ite_congr (by simp [hon]) (fun _ => rfl) fun _ => rfl)

end

/-- With the sampler on, a tick takes the quadrant's next number, and only the write of a record reaches memory. -/
theorem does_samplerTick_on (hfoc : s.focus = .quad g q) (hq : q < 4) (hvd : (s.cl g).vd = some v)
    (hdue : 120 * (vget (s.cl g).smp q {}).period ≤ (vget (s.cl g).smp q {}).counter) (hon : bit (s.vd v).smpcfg.toNat 0 = true) :
    Does .samplerTick s fun t =>
      look (t.vd v).smpSeq (4 * g + q) 0 = (look (s.vd v).smpSeq (4 * g + q) 0 + 1) % 2 ^ 32 ∧
      vget (t.cl g).smp q {} = s.ticked g q v ∧ (bits (s.vd v).smpcfg.toNat 2 1 = 1 → t.mem = s.mem) := by
  have hseq : look ((s.tickOn g q v).vd v).smpSeq (4 * g + q) 0 = (look (s.vd v).smpSeq (4 * g + q) 0 + 1) % 2 ^ 32 := by
    rw [State.tickOn, State.vd_setVd_same, look_put_same]
  refine ⟨_, samplerTick_on hfoc hvd hdue hon, ?_⟩
  split
  next harms => exact ⟨hseq, smp_of_tick hq rfl, fun _ => rfl⟩
  next hwrites =>
    have hrec := (s.tickOn g q v).sampleRecord_records v ((s.tickOn g q v).tickBytes v g q (look (s.vd v).smpSeq (4 * g + q) 0)
      ((s.tickSlot g q).bind fun n => (s.quadSlots g q).find? fun w => w.1 = n))
    exact ⟨by rw [hrec.smpSeq_eq, hseq], smp_of_tick hq hrec.clusters_eq, fun harms => absurd harms hwrites⟩

end

-- ## Records of sampled requests (R262)

/-- The sampled request `id` is no longer waited for, and its stages' times have drawn their free values. -/
def State.timed (s : State) (id : Nat) : State := { s with free := s.free + 12, samples := s.samples.filter fun n => n.id != id }

/-- Under any outcome of its stages' times, a sampled request's record goes to its VD's ring. -/
theorem memreqRecord_records {s : State} {w : WarpRef} {id : Nat} {stages : List Nat} {m : MemSample}
    (hfoc : s.focus = .times w id stages) (hm : s.samples.find? (fun m => m.id = id) = some m) : ∃ bs, exec .memreqRecord s = .next
      ((s.timed id).sampleRecord m.vd bs) := by
  refine Exists.imp (fun _ => runDevice_some) ?_
  unfold memreqRecord
  rw [hfoc]
  dsimp only
  rw [hm]
  exact ⟨_, rfl⟩

theorem State.Posts.samples_free {s t : State} (h : s.Posts t) : t.samples = s.samples ∧ t.free = s.free :=
  ⟨(congrArg State.samples h :), (congrArg State.free h :)⟩

/-- The VD's records before and after, those written, those waiting and those dropped, differ by the new one. -/
theorem State.sampleRecord_counts (s : State) (v : Nat) (bs : List Byte) :
    let t := s.sampleRecord v bs
    (t.vd v).smptail - (s.vd v).smptail + BitVec.ofNat 32 (ringPosts v t.posted) + ((t.vd v).smpdrop - (s.vd v).smpdrop) =
      BitVec.ofNat 32 (ringPosts v s.posted + 1) ∨ (t.vd v).smpdrop = 0xFFFFFFFF#32 := by
  refine (s.sampleRecord_records v bs).accounted.imp_left fun h => ?_
  grind only

theorem does_memreqRecord {s : State} {w : WarpRef} {id : Nat} {stages : List Nat} {m : MemSample}
    (hfoc : s.focus = .times w id stages) (hm : s.samples.find? (fun m => m.id = id) = some m) : Does .memreqRecord s fun t =>
      (∀ n ∈ t.samples, n.id ≠ id) ∧ t.free = s.free + 12 ∧
      ((t.vd m.vd).smptail - (s.vd m.vd).smptail + BitVec.ofNat 32 (ringPosts m.vd t.posted) +
          ((t.vd m.vd).smpdrop - (s.vd m.vd).smpdrop) = BitVec.ofNat 32 (ringPosts m.vd s.posted + 1) ∨
        (t.vd m.vd).smpdrop = 0xFFFFFFFF#32) := by
  obtain ⟨bs, hexec⟩ := memreqRecord_records hfoc hm
  obtain ⟨hsamples, hfree⟩ := (State.sampleRecord_posts _ m.vd bs).samples_free
  refine ⟨_, hexec, fun n hn => ?_, hfree, State.sampleRecord_counts _ m.vd bs⟩
  rw [hsamples] at hn
  simpa using (List.mem_filter.1 hn).2

-- ## Debugger commands (R264, R267)

section
variable {s : State} {v w : Nat} (hfoc : s.focus = .vdValue v w) (hopen : (s.vd v).open = true) (hruns : s.dbgRuns v = false)
include hfoc hopen hruns

theorem State.debug_unnamed (h : s.haltedAt v (bits w 5 2) = none) (f : Nat → Nat → Nat → Nat → State) :
    s.debug f = some (s.dbgEnd v 1) := by
  simp [State.debug, hfoc, hopen, hruns, h]

theorem State.debug_named {n : Nat} (h : s.haltedAt v (bits w 5 2) = some n) (f : Nat → Nat → Nat → Nat → State) :
    s.debug f = some (f v w (bits w 5 2) n) := by
  simp [State.debug, hfoc, hopen, hruns, h]

theorem debug_unnamed_ends (h : s.haltedAt v (bits w 5 2) = none) :
    ∀ c ∈ [Instr.debugContinue, .debugStep, .debugRollback], exec c s = .next (s.dbgEnd v 1) := by
  simp only [List.forall_mem_cons, List.not_mem_nil, false_implies, implies_true, and_true]
  have hend := State.debug_unnamed hfoc hopen hruns h
  exact ⟨runDevice_some (hend _), runDevice_some (hend _), runDevice_some (hend _)⟩

-- ## Roll back (R270)

section
variable {n : Nat} {b : Block} (hat : s.haltedAt v (bits w 5 2) = some n) (hb : s.blk n = some b)
include hat hb

theorem debugRollback_unproven (hproof : b.proof = none) : exec .debugRollback s = .next (s.dbgEnd v 4) := by
  refine runDevice_some ((State.debug_named hfoc hopen hruns hat _).trans ?_)
  simp [hb, hproof]

variable {e : Nat} {img : Image} (hproof : b.proof = some e) (hsnap : b.snap = some img)
include hproof hsnap

theorem debugRollback_logFull (hlog : b.logFull = true) : exec .debugRollback s = .next (s.dbgEnd v 3) := by
  refine runDevice_some ((State.debug_named hfoc hopen hruns hat _).trans ?_)
  simp [hb, hproof, hsnap, hlog]

variable (hlog : b.logFull = false) {lo hi : Warp} (hlo : img.warps[bits w 10 6]? = some lo) (hhi : b.img.warps[bits w 10 6]? = some hi)
include hlog hlo hhi

/-- The count of a roll back is one that the warp has passed since the snapshot, or the command fails. -/
theorem debugRollback_counts : exec .debugRollback s = .next
    (if bits w 63 12 < lo.rwc.toNat % 2 ^ 52 || hi.rwc.toNat % 2 ^ 52 < bits w 63 12 then s.dbgEnd v 2
      else ((s.rollBack n (bits w 10 6) (bits w 63 12) b img).release v (bits w 5 2) n).setVd v fun x => { x with dbgBusy := true }) := by
  refine runDevice_some ((State.debug_named hfoc hopen hruns hat _).trans (congrArg some ?_))
  dsimp only
  rw [hb]
  dsimp only
  rw [hproof, hsnap]
  dsimp only
  rw [if_neg (by simp [hlog]), hlo, hhi]
  rfl

end

end

theorem State.abandonFor_of_none {s : State} {n : Nat} (h : ∀ c ∈ s.cmds, c.2.parkedAt n = false) : s.abandonFor n = s := by
  have hnone : (pick s.cmds fun c => c.parkedAt n) = [] := List.filter_eq_nil_iff.2 fun c hc => by simp [h c hc]
  unfold State.abandonFor
  rw [hnone]
  rfl

/-- Block `n`, which has re-executed on cluster `g` with `r` left of its log, is saved for a halt with index `i`. -/
def State.haltAgain (s : State) (n g i : Nat) (b : Block) (r : Nat × Nat × List LogEntry) : State :=
  (((s.setBlk n fun b => { b with place := .saving g }).setBlk n fun b => { b with replay := none, log := usedLog b.log r.2.2 }).setVd
    (s.vdOf b) fun x => { x with halts := put x.halts i n }).dbgEnd (s.vdOf b) 0

section
variable {s : State} {n g i : Nat} {b : Block} {r : Nat × Nat × List LogEntry}

theorem State.haltAgain_vd : (s.haltAgain n g i b r).vd (s.vdOf b) =
    { s.vd (s.vdOf b) with halts := put (s.vd (s.vdOf b)).halts i n, dbgStatus := 0, dbgBusy := false } := by
  unfold State.haltAgain State.dbgEnd
  rw [State.vd_setVd_same, State.vd_setVd_same]
  rfl

theorem State.haltAgain_blk (hb : s.blk n = some b) : (s.haltAgain n g i b r).blk n =
    some { b with place := .saving g, replay := none, log := usedLog b.log r.2.2 } := by
  refine (State.blk_setBlk_same (s.setBlk n _) n _).trans ?_
  rw [State.blk_setBlk_same, hb]
  rfl

/-- A block that has re-executed to its count takes the lowest free index and halts again. -/
theorem rollbackCountReached_halts (hfoc : s.focus = .blk n) (hb : s.blk n = some b) (hg : b.cluster = some g)
    (hr : b.replay = some r) (hreached : b.reached = true) (hcmds : ∀ c ∈ s.cmds, c.2.parkedAt n = false)
    (hfirst : ∀ j, j < i → find (s.vd (s.vdOf b)).halts j ≠ none) (hi : i < 16) (hfree : find (s.vd (s.vdOf b)).halts i = none) :
    exec .rollbackCountReached s = .next (s.haltAgain n g i b r) := by
  have hindex : (List.range 16).find? (fun i => (find (s.vd (s.vdOf b)).halts i).isNone) = some i :=
    List.find?_range_eq_some.2 ⟨by simp [hfree], List.mem_range.2 hi, fun j hj => by
      simpa [Option.isSome_iff_ne_none] using hfirst j hj⟩
  refine runDevice_some ?_
  unfold rollbackCountReached
  rw [hfoc]
  dsimp only
  rw [hb, Option.bind_some, hg, Option.bind_some, hindex]
  dsimp only
  rw [if_neg (by simp [hreached]), State.endReplay, hr]
  exact congrArg some (State.abandonFor_of_none (s := s.haltAgain n g i b r) hcmds)

end

-- ## The obligation

/-- Settles O56: registers and ticks by what a tick makes of its quadrant, records by the account that pending writes keep, and commands
by the block that they name. -/
theorem samplerAndDebugger : Obligations.SamplerAndDebugger := by
  unfold Obligations.SamplerAndDebugger
  refine ⟨fun s => ⟨?registers, ?off, ?on, ?requests⟩, fun s => ⟨?commands, ?reached⟩⟩
  case registers =>
    exact fun v w hfoc hopen => ⟨does_smpcfgWrite hfoc hopen, smpheadWrite_moves hfoc hopen, smpdropClear_clears hfoc hopen⟩
  case off =>
    intro g q v hfoc hq hvd hdue hoff
    refine ⟨_, samplerTick_off hfoc hvd hdue hoff, ?_, rfl, rfl, ?_⟩
    all_goals rw [smp_of_tick hq rfl]
    · simp [State.ticked, hoff]
    · rfl
  case on =>
    intro g q v hfoc hq hvd hdue hon ptr slots
    obtain ⟨t, hexec, hseq, hsmp, hmem⟩ := does_samplerTick_on hfoc hq hvd hdue hon
    refine ⟨t, hexec, hseq, ?_⟩
    rw [hsmp]
    refine ⟨rfl, fun hnone => ?_, fun k hk hin hfirst => ?_, fun harms => ⟨?_, hmem harms⟩, fun hpc => ?_⟩
    · exact congrArg (Option.getD · ptr) ((congrArg (nextSlot ptr) hnone).trans (nextSlot_nil ptr))
    · exact congrArg (Option.getD · ptr) (nextSlot_of_first hk hin hfirst)
    · simp [State.ticked, hon, harms]
    · simp [State.ticked, hpc]
  case requests => exact fun w id stages m hfoc hm => does_memreqRecord hfoc hm
  case commands =>
    intro v w hfoc hopen hruns
    refine ⟨debug_unnamed_ends hfoc hopen hruns, fun n hat => ⟨?_, ?_, ?_, ?_, ?_⟩⟩
    · exact runDevice_some (State.debug_named hfoc hopen hruns hat _)
    · exact runDevice_some (State.debug_named hfoc hopen hruns hat _)
    · intro b e img lo hi hb hproof hsnap hlog wi count hlo hhi
      rw [debugRollback_counts hfoc hopen hruns hat hb hproof hsnap hlog hlo hhi]
      refine ⟨fun hge hle => ?_, fun hout => ?_⟩
      · rw [if_neg (by simp; omega)]
      · rw [if_pos (by simpa using hout)]
    · exact fun b e img hb hproof hsnap => debugRollback_logFull hfoc hopen hruns hat hb hproof hsnap
    · exact fun b hb => debugRollback_unproven hfoc hopen hruns hat hb
  case reached =>
    intro n b g r k i hfoc hb hg hr hreached hk hcmds hfirst hi hfree
    subst hk
    refine ⟨_, rollbackCountReached_halts hfoc hb hg hr hreached hcmds hfirst hi hfree, ?_⟩
    dsimp only
    rw [State.haltAgain_vd, State.haltAgain_blk hb]
    exact ⟨find_put_same .., rfl, rfl, rfl⟩

end Sys2Proof.Machine
end

section
/-!
PROOF. Encoding and decoding (R271–R286): an instruction that has words decodes from them, as words and as bytes, and what the decoder
answers is well formed and no step of the device.
-/
namespace Sys2Proof

-- ## Instructions read back from their words

open Laws.RoundTrip in
/-- The words that `encode` writes decode to their instruction: the round trip of each row of the opcode map (R284). A step of the
device has no base word, and so has what stands for an illegal opcode. -/
theorem decodeWords_encode {i : Instr} (hwf : i.wf = true) (hbase : i.baseWord.isSome = true) :
    decodeWords (encode i) = .ok i (encode i).length := by
  refine (?_ : Laws.RoundTrip.Statement i) hwf hbase
  cases i with
  | nop => apply nop | exit => apply exit | bra => apply bra | call => apply call | ret => apply ret | jmpr => apply jmpr
  | brs => apply brs | brsz => apply brsz | brv => apply brv | brany => apply brany | brall => apply brall | syncw => apply syncw
  | trap => apply trap | brk => apply brk | yield => apply yield | sleep => apply sleep | sadd => apply sadd | ssub => apply ssub
  | smul => apply smul | smulh => apply smulh | smulhn => apply smulhn | sand => apply sand | sor => apply sor | sxor => apply sxor
  | sshl => apply sshl | sshr => apply sshr | ssra => apply ssra | smin => apply smin | smax => apply smax | sminn => apply sminn
  | smaxn => apply smaxn | sadd64 => apply sadd64 | saddi => apply saddi | sandi => apply sandi | sori => apply sori
  | sxori => apply sxori | sshli => apply sshli | sshri => apply sshri | ssrai => apply ssrai | smovi => apply smovi
  | seq => apply seq | slt => apply slt | sltn => apply sltn | sle => apply sle | spopc => apply spopc | sclz => apply sclz
  | sffs => apply sffs | ssel => apply ssel | srd => apply srd | swr => apply swr | setmode => apply setmode
  | getmode => apply getmode | prd => apply prd | pwr => apply pwr | vgetl => apply vgetl | vsetl => apply vsetl | smov => apply smov
  | sld => apply sld | sst => apply sst | satom => apply satom | vdquery => apply vdquery | capq => apply capq
  | launch => apply launch | kick => apply kick | vadd => apply vadd | vsub => apply vsub | vmul => apply vmul | vmulh => apply vmulh
  | vmad => apply vmad | vand => apply vand | vor => apply vor | vxor => apply vxor | vshl => apply vshl | vshr => apply vshr
  | vmin => apply vmin | vmax => apply vmax | vabs => apply vabs | vneg => apply vneg | vclz => apply vclz | vpopc => apply vpopc
  | vaddi => apply vaddi | vandi => apply vandi | vori => apply vori | vxori => apply vxori | vshli => apply vshli
  | vshri => apply vshri | vmovi => apply vmovi | vmov => apply vmov | vsel => apply vsel | vbfe => apply vbfe | vbfi => apply vbfi
  | vbrev => apply vbrev | vlaneid => apply vlaneid | viota => apply viota | vfadd => apply vfadd | vfsub => apply vfsub
  | vfmul => apply vfmul | vfma => apply vfma | vfmin => apply vfmin | vfmax => apply vfmax | vfabs => apply vfabs
  | vfneg => apply vfneg | vfdiv => apply vfdiv | vfsqrt => apply vfsqrt | vrcp => apply vrcp | vrsq => apply vrsq
  | vexp2 => apply vexp2 | vlog2 => apply vlog2 | vsin => apply vsin | vcos => apply vcos | vtanh => apply vtanh
  | vsigm => apply vsigm | vround => apply vround | vfrac => apply vfrac | vcvt => apply vcvt | vclass => apply vclass
  | vcmpeq => apply vcmpeq | vcmpne => apply vcmpne | vcmplt => apply vcmplt | vcmple => apply vcmple | vcmpun => apply vcmpun
  | vscale => apply vscale | vpack => apply vpack | vunpk => apply vunpk | vdot4 => apply vdot4 | vdot2 => apply vdot2
  | pand => apply pand | por => apply por | pxor => apply pxor | pnot => apply pnot | pmov => apply pmov | pseti => apply pseti
  | vshfl => apply vshfl | vshflx => apply vshflx | vshflu => apply vshflu | vshfld => apply vshfld | vbcast => apply vbcast
  | vred => apply vred | vscan => apply vscan | vmatch => apply vmatch | vexec => apply vexec | vexecq => apply vexecq
  | ldg => apply ldg | stg => apply stg | ldgnf => apply ldgnf | lds => apply lds | sts => apply sts | ldw => apply ldw
  | pref => apply pref | cflush => apply cflush | cpa => apply cpa | tcopy => apply tcopy | pgreq => apply pgreq
  | atomgAdd => apply atomgAdd | atomgMin => apply atomgMin | atomgMax => apply atomgMax | atomgAnd => apply atomgAnd
  | atomgOr => apply atomgOr | atomgXor => apply atomgXor | atomgExch => apply atomgExch | atomgIncw => apply atomgIncw
  | atomgFadd => apply atomgFadd | atomgCas => apply atomgCas | fence => apply fence | bar => apply bar | bararv => apply bararv
  | barwait => apply barwait | gbar => apply gbar | waitsig => apply waitsig | atomsAdd => apply atomsAdd | atomsMin => apply atomsMin
  | atomsMax => apply atomsMax | atomsAnd => apply atomsAnd | atomsOr => apply atomsOr | atomsXor => apply atomsXor
  | atomsExch => apply atomsExch | atomsCas => apply atomsCas | rld => apply rld | rst => apply rst | ratom => apply ratom
  | rvadd => apply rvadd | rwsig => apply rwsig | rred => apply rred | rfence => apply rfence | waitc => apply waitc
  | waitt => apply waitt | tagq => apply tagq | tshape => apply tshape | sclaim => apply sclaim | srel => apply srel
  | mzero => apply mzero | mma => apply mma | mmaz => apply mmaz | mscacc => apply mscacc | mloop => apply mloop
  | mstore => apply mstore | eret => apply eret | mark => apply mark
  | _ => exact fun _ hnone => nomatch hnone

theorem decodeWords_of_encode {i : Instr} {ws : List (BitVec 32)} (hwf : i.wf = true) (hbase : i.baseWord.isSome = true)
    (hws : encode i = ws) : decodeWords ws = .ok i ws.length :=
  hws ▸ decodeWords_encode hwf hbase

theorem decode_bytes (ws : List (BitVec 32)) : decode (ws.flatMap fun w => leBytes 4 w.toNat) = decodeWords ws :=
  congrArg decodeWords (wordsOf_bytes ws)

/-- Settles O1: the round trip of each instruction over words, which the bytes of the words spell (R3). -/
theorem decodeOfEncode : Obligations.DecodeOfEncode := by
  unfold Obligations.DecodeOfEncode
  exact fun i hwf hbase => ⟨decodeWords_encode hwf hbase, (decode_bytes _).trans (decodeWords_encode hwf hbase)⟩

-- ## What the decoder answers

/-- No row of the opcode map (R284) builds a step of the device. A row builds nothing at most for want of a vector word (R277) or an
order word (R280): with these split, every row is known. -/
theorem build_all_not_isStep (x : Pfx) (w : BitVec 32) : ∀ op < 0xE2, (build op x w).all (fun p => !p.1.isStep) = true := by
  obtain ⟨_ | v, j, k, _ | o⟩ := x
  all_goals
    repeat refine Nat.forall_lt_succ_right.2 ⟨?_, rfl⟩
    exact fun _ hop => nomatch hop

theorem build_isStep_false {op : Nat} {x : Pfx} {w : BitVec 32} {i : Instr} {zeros : Bool} (hop : op < 0xE2)
    (h : build op x w = some (i, zeros)) : i.isStep = false := by
  have hrow := build_all_not_isStep x w op hop
  rw [h] at hrow
  exact (Bool.not_eq_true' _).mp hrow

/-- Check 2 of R286 comes first: a reserved opcode is illegal whatever stands in front of it. -/
theorem decodeBase_reserved (ps : List (BitVec 32)) {w : BitVec 32} (h : reservedOp (opcode w) = true) :
    decodeBase ps w = .illegalOpcode w (ps.length + 1) :=
  if_pos h

theorem opcode_lt_of_not_reserved {op : Nat} (h : ¬ reservedOp op = true) : op < 0xE2 := by
  simp only [reservedOp, Bool.or_eq_true, decide_eq_true_eq, not_or] at h
  omega

/-- An answer passes the four checks of R286, and counts the words in front of it and its own. -/
theorem decodeBase_ok {ps : List (BitVec 32)} {w : BitVec 32} {i : Instr} {n : Nat} (h : decodeBase ps w = .ok i n) :
    n = ps.length + 1 ∧ i.wf = true ∧ i.isStep = false := by
  unfold decodeBase at h
  dsimp only at h
  split at h
  · cases h
  next hres =>
    split at h
    · cases h
    split at h
    · cases h
    split at h
    · cases h
    next j zeros hbuild =>
      split at h
      · cases h
      next hpfx =>
        split at h
        next hfields =>
          obtain ⟨rfl, rfl⟩ := Decoded.ok.inj h
          simp only [Bool.and_eq_true] at hfields
          exact ⟨rfl, by simpa [Instr.wf, hfields] using hpfx, build_isStep_false (opcode_lt_of_not_reserved hres) hbuild⟩
        · cases h

/-- An answer is that of a base word behind at most two words of those given (R281). -/
theorem decodeWords_ok_base {ws : List (BitVec 32)} {i : Instr} {n : Nat} (h : decodeWords ws = .ok i n) :
    ∃ ps w us, ws = ps ++ w :: us ∧ ps.length ≤ 2 ∧ decodeBase ps w = .ok i n := by
  unfold decodeWords at h
  split at h
  · cases h
  next w ws =>
    split at h
    · exact ⟨[], w, ws, rfl, by simp, h⟩
    split at h
    · cases h
    next u us =>
      split at h
      · exact ⟨[w], u, us, rfl, by simp, h⟩
      split at h
      · cases h
      next v vs =>
        split at h
        · cases h
        · exact ⟨[w, u], v, vs, rfl, by simp, h⟩

/-- Settles O2: an answer is that of its base word, whose row and checks give all but the length. -/
theorem decoderAnswers : Obligations.DecoderAnswers := by
  unfold Obligations.DecoderAnswers
  refine ⟨fun ws i n h => ?_, fun w hw hres => ?_⟩
  · obtain ⟨ps, w, us, rfl, hps, hbase⟩ := decodeWords_ok_base h
    obtain ⟨rfl, hwf, hstep⟩ := decodeBase_ok hbase
    exact ⟨hwf, hstep, by omega, by omega, by simp⟩
  · simp [decodeWords, hw, decodeBase_reserved [] hres]

-- ## Samples

/-- Settles O3: each sample is the encoding of its instruction, and the last word's opcode is reserved (R285). -/
theorem decodeSanity : Obligations.DecodeSanity := by
  unfold Obligations.DecodeSanity
  refine ⟨?_, ?_, ?_, ?_, ?_, ?_, ?_, ?_, ?_, ?reserved⟩
  case reserved => exact decodeBase_reserved [0xF800001F#32] (w := 0x5E000000#32) rfl
  all_goals exact decodeWords_of_encode rfl rfl rfl

end Sys2Proof
end
section
/-!
PROOF. The memory stays in its canonical form (log 4): what a state's memory is after a choice, a fold and an optional step, and the memory
of the state that an outcome carries.
-/
namespace Sys2Proof.Machine

theorem State.mem_ite {c : Prop} [Decidable c] (a b : State) : (if c then a else b).mem = if c then a.mem else b.mem := by split <;> rfl

theorem foldl_mem {α : Type} {f : State → α → State} (h : ∀ s a,
    (f s a).mem = s.mem) (l : List α) (s : State) : (l.foldl f s).mem = s.mem :=
  foldl_keeps h l s

theorem foldl_wf {α : Type} {f : State → α → State} (h : ∀ s a,
    s.mem.wf = true → (f s a).mem.wf = true) {s : State} (hs : s.mem.wf = true) (l : List α) :
    (l.foldl f s).mem.wf = true := by
  induction l generalizing s with
  | nil => exact hs
  | cons a l ih => exact ih (h s a hs)

theorem getD_mem {m : Memory} {s : State} {o : Option State} (h : ∀ t, o = some t → t.mem = m) (hs : s.mem = m) : (o.getD s).mem = m := by
  cases o with
  | none => exact hs
  | some t => exact h t rfl

theorem getD_wf {s : State} {o : Option State} (h : ∀ t, o = some t → t.mem.wf = true) (hs : s.mem.wf = true) : (o.getD s).mem.wf = true
    := by
  cases o with
  | none => exact hs
  | some t => exact h t rfl

/-- The state that an outcome carries. -/
def Res.out : Res → Option State
  | .done s | .goto s _ _ | .park s _ | .moved s | .issued s | .wait s _ | .parked s | .busy s => some s
  | .hold _ | .fault _ => none

/-- The memory of the state that an outcome carries has the property. -/
def Res.Mem (q : Memory → Prop) (r : Res) : Prop := ∀ s, r.out = some s → q s.mem

def Res.Wf (r : Res) : Prop := r.Mem fun m => m.wf = true

section

variable {q : Memory → Prop} {s : State}

@[simp] theorem Res.mem_done : (Res.done s).Mem q ↔ q s.mem := by simp [Res.Mem, Res.out]

@[simp] theorem Res.mem_goto (pc : DWord) (b : Bool) : (Res.goto s pc b).Mem q ↔ q s.mem := by simp [Res.Mem, Res.out]

@[simp] theorem Res.mem_park (w : Wait) : (Res.park s w).Mem q ↔ q s.mem := by simp [Res.Mem, Res.out]

@[simp] theorem Res.mem_moved : (Res.moved s).Mem q ↔ q s.mem := by simp [Res.Mem, Res.out]

@[simp] theorem Res.mem_issued : (Res.issued s).Mem q ↔ q s.mem := by simp [Res.Mem, Res.out]

@[simp] theorem Res.mem_wait (w : Wait) : (Res.wait s w).Mem q ↔ q s.mem := by simp [Res.Mem, Res.out]

@[simp] theorem Res.mem_parked : (Res.parked s).Mem q ↔ q s.mem := by simp [Res.Mem, Res.out]

@[simp] theorem Res.mem_busy : (Res.busy s).Mem q ↔ q s.mem := by simp [Res.Mem, Res.out]

@[simp] theorem Res.mem_hold (r : Stall) : (Res.hold r).Mem q := by simp [Res.Mem, Res.out]

@[simp] theorem Res.mem_fault (i : FaultInfo) : (Res.fault i).Mem q := by simp [Res.Mem, Res.out]

end

/-- A step of a state with canonical memory leads to one, where it leads anywhere. -/
def Keeps (f : State → Option State) : Prop := ∀ s t, s.mem.wf = true → f s = some t → t.mem.wf = true

end Sys2Proof.Machine
end

section
/-!
PROOF. What keeps the memory as it is, and what keeps its canonical form (log 4): the state's own operations, translation, the warps' waits,
faults and accesses.
-/
namespace Sys2Proof.Machine

-- ## Machine/Ops

theorem State.eq_of_news {s t u : State} (e : s.news t = some u) : u = t := by
  unfold State.news at e
  split at e
  · cases e
  · exact (Option.some.inj e).symm

theorem State.news_wf {s t u : State} (hwf : t.mem.wf = true) (e : s.news t = some u) : u.mem.wf = true :=
  State.eq_of_news e ▸ hwf

@[simp] theorem State.freeBytes_mem (s : State) (n : Nat) : (State.freeBytes s n).1.mem = s.mem := rfl

@[simp] theorem State.dropWaits_mem (s : State) (p : WaitEntry → Bool) (on : Nat → Bool) : (State.dropWaits s p on).mem = s.mem := rfl

@[simp] theorem State.discardBlock_mem (s : State) (b : Nat) : (State.discardBlock s b).mem = s.mem := by
  simp [State.discardBlock]

@[simp] theorem State.unseal_mem (s : State) (v k : Nat) : (State.unseal s v k).mem = s.mem := rfl

@[simp] theorem State.abort_mem (s : State) (k code : Nat) (r : Option FRecord) : (State.abort s k code r).mem = s.mem := by
  unfold State.abort
  (repeat' split) <;> simp [foldl_mem]

@[simp] theorem enterHandler_mem (c : Ctx) (i : FaultInfo) (h : DWord) : (enterHandler c i h).mem = c.s.mem := rfl

@[simp] theorem takeFault_mem (c : Ctx) (i : FaultInfo) : (takeFault c i).mem = c.s.mem := by
  unfold takeFault
  (repeat' split) <;> simp

@[simp] theorem leaveHandler_mem (c : Ctx) : (leaveHandler c).mem = c.s.mem := rfl

@[simp] theorem leave_mem (c : Ctx) (s : State) (g : Frag → Frag) : (leave c s g).mem = s.mem := rfl

@[simp] theorem retire_mem (c : Ctx) (s : State) (g : Frag → Frag) : (retire c s g).mem = s.mem := rfl

@[simp] theorem parkBehind_mem (c : Ctx) (s : State) (w : Wait) : (parkBehind c s w).mem = s.mem := rfl

@[simp] theorem retireTo_mem (c : Ctx) (s : State) (pc : DWord) (g : Frag → Frag) : (retireTo c s pc g).mem = s.mem := rfl

-- ## Machine/Holder

@[simp] theorem State.keepTarget_mem (s : State) (line : Nat) : (State.keepTarget s line).mem = s.mem := by
  unfold State.keepTarget
  split <;> rfl

@[simp] theorem State.poke_wf {s : State} (hwf : s.mem.wf = true) (pa : Nat) (bs : List Byte) : (s.poke pa bs).mem.wf = true := by
  have hk : (s.keepTarget (pa / 128)).mem.wf = true := by simp [hwf]
  unfold State.poke
  dsimp only
  split
  · exact Memory.wf_store _ _ _ (Memory.wf_store _ _ _ hk)
  · exact Memory.wf_store _ _ _ hk

@[simp] theorem State.send_mem (s : State) (m : Msg) : (State.send s m).mem = s.mem := by
  simp only [State.send]

@[simp] theorem State.setHeld_mem (s : State) (h : Holder) (line : Nat) (t : Tag) : (State.setHeld s h line t).mem = s.mem := rfl

@[simp] theorem State.setHome_mem (s : State) (line : Nat) (t : Tag) : (State.setHome s line t).mem = s.mem := rfl

@[simp] theorem State.hint_mem (s : State) (line : Nat) (h : Holder) (on : Bool) : (State.hint s line h on).mem = s.mem := by
  unfold State.hint
  split <;> rfl

@[simp] theorem State.forwards_mem (s : State) (line : Nat) (write : Bool) (mask : Option Nat) (req : Option Holder) (v : Nat) :
    (State.forwards s line write mask req v).mem = s.mem := by
  simp [State.forwards, foldl_mem]

@[simp] theorem State.issueReq_mem (s : State) (r : TokReq) (first : Bool) : (State.issueReq s r first).mem = s.mem := by
  unfold State.issueReq
  split <;> simp

@[simp] theorem State.enlist_mem (s : State) (h : Option Holder) (line : Nat) (write : Bool) (v inc : Nat) (us : List (Instr × Focus))
    (send : Bool) : (State.enlist s h line write v inc us send).mem = s.mem := by
  simp [State.enlist, State.mem_ite]

@[simp] theorem State.want_mem (s : State) (h : Option Holder) (line : Nat) (write : Bool) (v inc : Nat) (us : List (Instr × Focus)) :
    (State.want s h line write v inc us).mem = s.mem := by
  unfold State.want
  split <;> simp

@[simp] theorem State.startTxn_mem (s : State) (t : CxlTxn) : (State.startTxn s t).mem = s.mem := rfl

@[simp] theorem State.cxlTxn_mem (s : State) (kind line v : Nat) (owes : Owed) : (State.cxlTxn s kind line v owes).mem = s.mem := by
  simp [State.cxlTxn, State.mem_ite]

@[simp] theorem State.cxlStart_mem (s : State) (kind line v : Nat) : (State.cxlStart s kind line v).mem = s.mem := by
  simp [State.cxlStart]

@[simp] theorem State.backInvalidate_mem (s : State) (line v : Nat) (owes : Owed) : (State.backInvalidate s line v owes).mem = s.mem := by
  simp [State.backInvalidate]

theorem State.follow_mem {s : State} {kind line v : Nat} {us : List (Instr × Focus)} {u : State}
    (e : State.follow s kind line v us = some u) : u.mem = s.mem := by
  grind [State.follow, State.cxlTxn_mem]

@[simp] theorem State.readHbm_mem (s : State) (line v : Nat) : (State.readHbm s line v).mem = s.mem := by
  simp [State.readHbm, State.mem_ite]

@[simp] theorem State.atProxy_mem (s : State) (line v : Nat) : (State.atProxy s line v).mem = s.mem := rfl

@[simp] theorem State.passOn_mem (s : State) (line : Nat) : (State.passOn s line).mem = s.mem := by
  unfold State.passOn
  split <;> rfl

@[simp] theorem State.evictLlc_mem (s : State) (line : Nat) : (State.evictLlc s line).mem = s.mem := by
  unfold State.evictLlc
  (repeat' split) <;> simp

@[simp] theorem State.llcRoom_mem (s : State) (line : Nat) : (State.llcRoom s line).mem = s.mem := by
  unfold State.llcRoom
  grind [State.evictLlc_mem]

@[simp] theorem State.fillLlc_mem (s : State) (line v : Nat) (dirty : Bool) : (State.fillLlc s line v dirty).mem = s.mem := by
  simp [State.fillLlc, State.mem_ite]

theorem State.agentAsk_mem {s : State} {line : Nat} {write : Bool} {v : Nat} {us : List (Instr × Focus)} {u : State}
    (e : State.agentAsk s line write v us = some u) : u.mem = s.mem := by
  grind [State.agentAsk, State.enlist_mem, State.want_mem, State.follow_mem]

theorem State.usingIf_wf {s u : State} {me : Instr} {v : Nat} {f : State → Option State} {may : Nat × Bool → Bool} {ls : List (Nat ×
    Bool)} (hf : Keeps f) (hwf : s.mem.wf = true)
    (e : s.usingIf may me ls v f = some u) : u.mem.wf = true := by
  unfold State.usingIf at e
  split at e
  · obtain ⟨t, ht, rfl⟩ := Option.map_eq_some_iff.1 e
    have htouch : (ls.foldl (fun t l => t.touch l.1) s).mem.wf = true := foldl_wf (fun s a h => by simpa using h) hwf _
    exact foldl_wf (fun s a h => by simpa using h) (hf _ _ htouch ht) _
  · rw [State.agentAsk_mem e]; exact hwf

theorem State.using_wf {s u : State} {me : Instr} {v : Nat} {f : State → Option State} {ls : List (Nat × Bool)} (hf : Keeps f) (hwf :
    s.mem.wf = true) (e : s.using me ls v f = some u) :
    u.mem.wf = true := State.usingIf_wf hf hwf e

theorem State.usingBuffer_wf {s u : State} {me : Instr} {v : Nat} {f : State → Option State} {ls : List Nat} (hf : Keeps f) (hwf :
    s.mem.wf = true) (e : s.usingBuffer me ls v f = some u) :
    u.mem.wf = true := State.usingIf_wf hf hwf e

theorem State.owning_wf {s u : State} {me : Instr} {v : Nat} {ls : List Nat} {g : State → State} (hg : ∀ t,
    t.mem.wf = true → (g t).mem.wf = true)
    (hwf : s.mem.wf = true) (e : s.owning me ls v g = some u) : u.mem.wf = true :=
  State.using_wf (fun t u ht hu => by cases hu; exact hg t ht) hwf e

@[simp] theorem State.platenPoke_wf {s : State} (hwf : s.mem.wf = true) (pa : Nat) (bs : List Byte) (v : Nat) :
    (State.platenPoke s pa bs v).mem.wf = true := by
  unfold State.platenPoke
  split <;> simp [hwf]

-- ## Machine/Translate

@[simp] theorem State.cacheWalk_mem (s : State) (v : Nat) (path : List Nat) : (State.cacheWalk s v path).mem = s.mem := rfl

@[simp] theorem State.walkWaits_mem (s : State) (w : Walk) (write : Bool) : (s.walkWaits w write).mem = s.mem := by
  unfold State.walkWaits
  dsimp only
  split
  · exact getD_mem (fun t ht => State.agentAsk_mem ht) rfl
  split
  · rfl
  · exact getD_mem (fun t ht => (State.agentAsk_mem ht).trans rfl) rfl

@[simp] theorem State.endWalks_mem (s : State) (place : Option (Nat × Nat)) (e : TlbEntry) : (State.endWalks s place e).mem = s.mem := rfl

@[simp] theorem State.walk_wf {s : State} (hwf : s.mem.wf = true) (place : Option (Nat × Nat)) (v asid va atype : Nat) :
    (State.walk s place v asid va atype).1.mem.wf = true := by
  unfold State.walk
  grind [State.walkWaits_mem, State.cacheWalk_mem, State.endWalks_mem, State.platenPoke_wf]

@[simp] theorem State.mapTlb_mem (s : State) (d g : Nat) (f : Nat → List TlbEntry → List TlbEntry) : (State.mapTlb s d g f).mem = s.mem := by
  unfold State.mapTlb
  split <;> rfl

@[simp] theorem State.translate_wf {s : State} (hwf : s.mem.wf = true) (place : Option (Nat × Nat)) (v asid va atype : Nat) :
    (State.translate s place v asid va atype).1.mem.wf = true := by
  unfold State.translate
  grind [State.walk_wf, State.mapTlb_mem, State.emit_mem]

theorem State.usingTables_wf {s u : State} {me : Instr} {v : Nat} {f : State → Option State} {gpas : List Nat} (hf : Keeps f) (hwf :
    s.mem.wf = true)
    (e : s.usingTables me v gpas f = some u) : u.mem.wf = true := State.using_wf hf hwf e

theorem State.tablesLack_mem {s : State} {v gpa : Nat} {u : State} (e : s.tablesLack v gpa = some u) : u.mem = s.mem := by
  obtain ⟨l, -, rfl⟩ := Option.map_eq_some_iff.1 e
  exact getD_mem (fun t ht => State.agentAsk_mem ht) rfl

@[simp] theorem State.dropSample_mem (s : State) (v : Nat) : (State.dropSample s v).mem = s.mem := rfl

@[simp] theorem State.placePost_wf {s : State} (hwf : s.mem.wf = true) (p : Post) : (State.placePost s p).1.mem.wf = true := by
  unfold State.placePost
  grind [State.tablesLack_mem, State.translate_wf]

@[simp] theorem State.makePost_wf {s : State} (hwf : s.mem.wf = true) (p : Post) (pa : Nat) : (State.makePost s p pa).mem.wf = true := by
  unfold State.makePost
  split <;> simp [hwf]

@[simp] theorem State.drainPosts_wf {s : State} (hwf : s.mem.wf = true) (ps kept : List Post) : (State.drainPosts ps kept s).mem.wf =
    true := by
  induction ps generalizing s kept with
  | nil => exact hwf
  | cons p ps ih =>
    have hp := State.placePost_wf hwf p
    unfold State.drainPosts
    split
    · exact ih hwf _
    split <;> rename_i h <;> rw [h] at hp <;> dsimp only at hp
    · exact ih hp _
    · refine ih ?_ _
      split <;> simp [hp]
    · split
      · exact ih (State.makePost_wf hp _ _) _
      · exact ih (getD_wf (fun t ht => State.agentAsk_mem ht ▸ hp) hp) _

@[simp] theorem State.post_wf {s : State} (hwf : s.mem.wf = true) (ps : List Post) : (State.post s ps).mem.wf = true := by
  simp [State.post, hwf]

@[simp] theorem State.s2Write_wf {s : State} (hwf : s.mem.wf = true) (v gpa : Nat) (bs : List Byte) (cmd : Option Nat) :
    (State.s2Write s v gpa bs cmd).mem.wf = true := by
  simp [State.s2Write, hwf]

@[simp] theorem State.resumePosts_wf {s : State} (hwf : s.mem.wf = true) (line : Nat) : (State.resumePosts s line).mem.wf = true := by
  unfold State.resumePosts
  split <;> simp [hwf]

@[simp] theorem State.report_mem (s : State) (v : Nat) (rs : List FRecord) : (State.report s v rs).mem = s.mem := by
  unfold State.report
  grind [State.setVd_mem, State.emit_mem, foldl_mem]

theorem State.enterWait_mem {s : State} {d v : Nat} {who : Waiter} {rs : List FRecord} {u : Nat × State}
    (e : State.enterWait s d v who rs = some u) : u.2.mem = s.mem := by
  unfold State.enterWait at e
  grind [Option.bind_eq_some_iff, Option.map_eq_some_iff, State.setDie_mem, State.report_mem]

@[simp] theorem transLanes_wf {s : State} (hwf : s.mem.wf = true) (place : Option (Nat × Nat)) (v asid atype : Nat) (l : List (Nat × Nat)) :
    (transLanes place v asid atype s l).1.mem.wf = true := by
  induction l generalizing s with
  | nil => exact hwf
  | cons a l ih =>
    rw [transLanes]
    exact ih (State.translate_wf hwf place v asid a.2 atype)

-- ## Machine/Order

@[simp] theorem State.passRemotes_mem (s : State) (w : WarpRef) (scope : Nat) : (State.passRemotes s w scope).mem = s.mem := by
  unfold State.passRemotes
  split <;> rfl

@[simp] theorem State.dropL1_mem (s : State) (g : Nat) : (State.dropL1 s g).mem = s.mem := rfl

@[simp] theorem State.dropHostLines_mem (s : State) (d v : Nat) : (State.dropHostLines s d v).mem = s.mem := by
  simp [State.dropHostLines, foldl_mem]

@[simp] theorem State.acquire_mem (s : State) (g d v scope : Nat) : (State.acquire s g d v scope).mem = s.mem := by
  simp [State.acquire, State.mem_ite]

@[simp] theorem State.proofWrite_wf {s : State} (hwf : s.mem.wf = true) (k : Kernel) (b : Block) (lo hi : Nat) :
    (State.proofWrite s k b lo hi).mem.wf = true := by
  unfold State.proofWrite
  grind [State.freeBytes_mem, State.s2Write_wf]

@[simp] theorem State.setLog_wf {s : State} (hwf : s.mem.wf = true) (b : Nat) (l : List LogEntry) : (State.setLog s b l).mem.wf = true := by
  unfold State.setLog
  split <;> simp [hwf]

@[simp] theorem State.noteAt_wf {s : State} (hwf : s.mem.wf = true) (b : Nat) (i : Option Nat) (vals : List Nat) :
    (State.noteAt s b i vals).mem.wf = true := by
  unfold State.noteAt
  split <;> simp [hwf]

@[simp] theorem State.logValue_wf {s : State} (hwf : s.mem.wf = true) (w : WarpRef) (v : Nat) : (State.logValue s w v).mem.wf = true := by
  unfold State.logValue
  (repeat' split) <;> simp [hwf]

@[simp] theorem State.snapshot_wf {s : State} (hwf : s.mem.wf = true) (n : Nat) : (State.snapshot s n).mem.wf = true := by
  unfold State.snapshot
  grind [State.setBlk_mem, State.proofWrite_wf, State.setLog_wf]

@[simp] theorem State.phaseEnd_wf {s : State} (hwf : s.mem.wf = true) (b : Nat) (took : List Nat) :
    (State.phaseEnd s b took).mem.wf = true := by
  unfold State.phaseEnd
  grind [State.setBlk_mem, State.snapshot_wf, State.setVd_mem, State.setWarp_mem, foldl_wf]

@[simp] theorem State.endBar_wf {s : State} (hwf : s.mem.wf = true) (blk b carry : Nat) (bar : Barrier) :
    (State.endBar s blk b carry bar).mem.wf = true := by
  simp [State.endBar, hwf]

@[simp] theorem State.testBar_wf {s : State} (hwf : s.mem.wf = true) (blk b : Nat) (first : Bool) :
    (State.testBar s blk b first).mem.wf = true := by
  unfold State.testBar
  grind [State.endBar_wf]

@[simp] theorem State.warpArrive_wf {s : State} (hwf : s.mem.wf = true) (w : WarpRef) (b v nwarps : Nat) :
    (State.warpArrive s w b v nwarps).mem.wf = true := by
  unfold State.warpArrive
  grind [State.setWarp_mem, State.testBar_wf, State.setImg_mem]

@[simp] theorem Ctx.arrive_wf {s : State} (hwf : s.mem.wf = true) (c : Ctx) (b v : Nat) : (Ctx.arrive c s b v).mem.wf = true := by
  unfold Ctx.arrive
  grind [State.setWarp_mem, State.warpArrive_wf]

@[simp] theorem State.engineArrive_wf {s : State} (hwf : s.mem.wf = true) (blk b : Nat) : (State.engineArrive s blk b).mem.wf = true := by
  simp [State.engineArrive, hwf]

@[simp] theorem State.testGbar_wf {s : State} (hwf : s.mem.wf = true) (k : Nat) : (State.testGbar s k).mem.wf = true := by
  unfold State.testGbar
  grind [State.setKern_mem, State.setImg_mem, State.phaseEnd_wf, foldl_wf]

@[simp] theorem Ctx.garrive_wf {s : State} (hwf : s.mem.wf = true) (c : Ctx) : (Ctx.garrive c s).mem.wf = true := by
  unfold Ctx.garrive
  grind [State.setWarp_mem, State.testGbar_wf, State.setKern_mem]

@[simp] theorem State.wholeArrivals_wf {s : State} (hwf : s.mem.wf = true) (w : WarpRef) (k nwarps : Nat) :
    (State.wholeArrivals s w k nwarps).mem.wf = true := by
  unfold State.wholeArrivals
  grind [State.setKern_mem, State.setWarp_mem, State.warpArrive_wf, foldl_wf]

@[simp] theorem State.afterExit_wf {s : State} (hwf : s.mem.wf = true) (w : WarpRef) (k nwarps : Nat) :
    (State.afterExit s w k nwarps).mem.wf = true := by
  unfold State.afterExit
  grind [State.testGbar_wf, State.testBar_wf, State.wholeArrivals_wf, foldl_wf]

@[simp] theorem State.afterMerge_wf {s : State} (hwf : s.mem.wf = true) (w : WarpRef) : (State.afterMerge s w).mem.wf = true := by
  unfold State.afterMerge
  (repeat' split) <;> simp [hwf]

@[simp] theorem State.afterMerges_wf {s : State} (hwf : s.mem.wf = true) : (State.afterMerges s).mem.wf = true := by
  unfold State.afterMerges
  grind [State.afterMerge_wf, foldl_wf]

-- ## Machine/Access

@[simp] theorem State.disarm_mem (s : State) (g q : Nat) : (State.disarm s g q).mem = s.mem := rfl

@[simp] theorem Ctx.logged_mem (c : Ctx) (s : State) (as : List Access) : (Ctx.logged c s as).1.mem = s.mem := by
  unfold Ctx.logged
  split <;> rfl

theorem State.popLog_mem {s : State} {w : WarpRef} {u : List Nat × State} (e : State.popLog s w = some u) : u.2.mem = s.mem := by
  unfold State.popLog at e
  grind [Option.bind_eq_some_iff, Option.map_eq_some_iff, State.setBlk_mem]

-- ## Machine/Net

@[simp] theorem State.opId_mem (s : State) (e : Endpoint) : (State.opId s e).1.mem = s.mem := rfl

@[simp] theorem State.opIds_mem (e : Endpoint) (s : State) (l : List Nat) : (State.opIds e s l).1.mem = s.mem := by
  induction l generalizing s with
  | nil => rfl
  | cons a l ih =>
    rw [State.opIds]
    exact (ih _).trans (State.opId_mem s e)

-- ## Machine/Atomic

@[simp] theorem sendFar_mem (c : Ctx) (op t width : Nat) (nr : Bool) (s : State) (a : Access) :
    (sendFar c op t width nr s a).1.mem = s.mem := by
  simp [sendFar, foldl_mem]

@[simp] theorem sendAllFar_mem (c : Ctx) (op t width : Nat) (nr : Bool) (s : State) (l : List Access) :
    (sendAllFar c op t width nr s l).1.mem = s.mem := by
  induction l generalizing s with
  | nil => rfl
  | cons a l ih =>
    rw [sendAllFar]
    exact (ih _).trans (sendFar_mem c op t width nr s a)

-- ## Machine/Complete

@[simp] theorem State.sampled_mem (s : State) (w : WarpRef) (a : Access) : (State.sampled s w a).mem = s.mem := by
  unfold State.sampled
  split <;> rfl

@[simp] theorem State.finish_mem (s : State) (w : WarpRef) (a : Access) : (State.finish s w a).mem = s.mem := by
  simp [State.finish]

@[simp] theorem State.note_wf {s : State} (hwf : s.mem.wf = true) (w : WarpRef) (a : Access) (vals : List Nat) :
    (State.note s w a vals).mem.wf = true := by
  simp [State.note, hwf]

@[simp] theorem State.complete_wf {s : State} (hwf : s.mem.wf = true) (w : WarpRef) (a : Access) (vals : List (Nat × Nat))
    (bad : Option (Nat × Word)) : (State.complete s w a vals bad).mem.wf = true := by
  simp [State.complete, hwf]

@[simp] theorem State.setAccess_mem (s : State) (w : WarpRef) (id : Nat) (f : Access → Access) : (State.setAccess s w id f).mem = s.mem := rfl

-- ## Machine/Sync

@[simp] theorem Ctx.noted_mem (c : Ctx) (s : State) : (Ctx.noted c s).mem = s.mem := rfl

-- ## Machine/System

@[simp] theorem Ctx.wideLogged_wf {c : Ctx} (hwf : c.s.mem.wf = true) (i : Nat) (v : DWord) : (c.wideLogged i v).1.mem.wf = true := by
  unfold Ctx.wideLogged
  split
  · exact hwf
  split <;> rename_i h
  · rw [State.popLog_mem h]; exact hwf
  · simp [hwf]

@[simp] theorem State.offer_mem (s : State) (v q : Nat) (w : Word) : (State.offer s v q w).mem = s.mem := by
  unfold State.offer
  split <;> rfl

@[simp] theorem State.publish_wf {s : State} (hwf : s.mem.wf = true) (v asid : Nat) (bs : List Byte) (pa : Nat) :
    (State.publish s v asid bs pa).mem.wf = true := by
  simp [State.publish, hwf]

@[simp] theorem State.sampleRecord_wf {s : State} (hwf : s.mem.wf = true) (v : Nat) (bs : List Byte) :
    (State.sampleRecord s v bs).mem.wf = true := by
  unfold State.sampleRecord
  grind [State.dropSample_mem, State.post_wf]

-- ## Machine/Fabric

@[simp] theorem State.transmit_mem (s : State) (w : WarpRef) (a : Access) : (State.transmit s w a).mem = s.mem := by
  unfold State.transmit
  split <;> rfl

@[simp] theorem State.trySend_wf {s : State} (hwf : s.mem.wf = true) (w : WarpRef) (a : Access) : (State.trySend s w a).mem.wf = true := by
  unfold State.trySend
  (repeat' split) <;> simp [hwf]

@[simp] theorem State.sendAll_wf {s : State} (hwf : s.mem.wf = true) : (State.sendAll s).mem.wf = true := by
  simp +contextual [State.sendAll, foldl_wf, hwf]

@[simp] theorem tagOps_mem (c : Ctx) (s : State) (l : List Access) : (tagOps c s l).1.mem = s.mem := by
  induction l generalizing s with
  | nil => rfl
  | cons a l ih =>
    rw [tagOps]
    exact (ih _).trans (State.opIds_mem ..)

-- ## Machine/Fetch

@[simp] theorem Ctx.fetch_wf {s : State} (hwf : s.mem.wf = true) (c : Ctx) (pc : DWord) : (Ctx.fetch c s pc).1.mem.wf = true := by
  unfold Ctx.fetch
  grind [State.translate_wf]

@[simp] theorem Ctx.fetchN_wf {s : State} (hwf : s.mem.wf = true) (c : Ctx) (n : Nat) (pc : DWord) : (c.fetchN n s pc).1.mem.wf = true := by
  induction n generalizing s pc with
  | zero => exact hwf
  | succ n ih =>
    have hs := Ctx.fetch_wf hwf c pc
    unfold Ctx.fetchN
    split <;> rename_i h <;> rw [h] at hs
    · have hn := ih hs (pc + 4#64)
      split <;> rename_i h <;> (try rw [h] at hn) <;> exact hn
    · exact hs

-- ## Machine/Copy

@[simp] theorem Ctx.logOne_mem (c : Ctx) (s : State) : (Ctx.logOne c s).1.mem = s.mem := by
  unfold Ctx.logOne
  split <;> rfl

@[simp] theorem Ctx.logSource_mem (c : Ctx) (s : State) (cmd : Command) : (c.logSource s cmd).1.mem = s.mem := by
  unfold Ctx.logSource
  split <;> rename_i h
  · exact State.popLog_mem h
  · exact Ctx.logOne_mem c s

end Sys2Proof.Machine
end

section
/-!
PROOF. The memory's canonical form (log 4) through the network, the coherence of the stations and the caches, and the engines.
-/
namespace Sys2Proof.Machine

-- ## Machine/Router

theorem flitInjection_mem {s u : State} (e : flitInjection s = some u) : u.mem = s.mem := by
  grind [flitInjection]

theorem flitArrival_mem {s u : State} (e : flitArrival s = some u) : u.mem = s.mem := by
  grind [flitArrival]

theorem State.takeMsg_mem {s : State} {i : Nat} {u : Msg × State} (e : State.takeMsg s i = some u) : u.2.mem = s.mem := by
  unfold State.takeMsg at e
  grind [Option.bind_eq_some_iff, Option.map_eq_some_iff]

-- ## Machine/Token

@[simp] theorem State.sendHeld_mem (s : State) (h : Holder) (line : Nat) (dst : Endpoint) (n : Nat) (own data : Bool) (v : Nat) (evict : Bool) :
    (State.sendHeld s h line dst n own data v evict).mem = s.mem := rfl

@[simp] theorem State.sendAllHeld_mem (s : State) (h : Holder) (line : Nat) (dst : Endpoint) (v : Nat) :
    (State.sendAllHeld s h line dst v).mem = s.mem := by
  simp [State.sendAllHeld, State.mem_ite]

@[simp] theorem State.sendHome_mem (s : State) (line : Nat) (tgt : Holder) (n : Nat) (own data : Bool) (v : Nat) :
    (State.sendHome s line tgt n own data v).mem = s.mem := by
  unfold State.sendHome
  split <;> simp

@[simp] theorem State.obey_mem (s : State) (h : Holder) (line : Nat) : (State.obey s h line).mem = s.mem := by
  unfold State.obey
  (repeat' split) <;> simp

@[simp] theorem State.obeyHome_mem (s : State) (line : Nat) : (State.obeyHome s line).mem = s.mem := by
  unfold State.obeyHome
  grind [State.readHbm_mem, State.sendHome_mem, State.fillLlc_mem]

theorem transientRequest_mem {s u : State} (e : transientRequest s = some u) : u.mem = s.mem := by
  unfold transientRequest at e
  split at e
  · obtain ⟨⟨m, t⟩, ht, h⟩ := Option.bind_eq_some_iff.1 e
    have := State.takeMsg_mem ht
    grind [State.takeMsg_mem, State.readHbm_mem, State.fillLlc_mem, State.sendHome_mem, State.forwards_mem]
  · cases e

@[simp] theorem State.answerForward_mem (s : State) (h : Holder) (line : Nat) (write : Bool) (dst : Endpoint) (v : Nat) :
    (State.answerForward s h line write dst v).mem = s.mem := by
  simp [State.answerForward, State.mem_ite]

theorem forwardedRequest_mem {s u : State} (e : forwardedRequest s = some u) : u.mem = s.mem := by
  unfold forwardedRequest at e
  split at e
  · obtain ⟨⟨m, t⟩, ht, h⟩ := Option.bind_eq_some_iff.1 e
    have := State.takeMsg_mem ht
    grind [State.takeMsg_mem, State.backInvalidate_mem, State.answerForward_mem]
  · cases e

theorem holderEviction_mem {s u : State} (e : holderEviction s = some u) : u.mem = s.mem := by
  grind [holderEviction, State.backInvalidate_mem, State.sendHeld_mem]

theorem llcEviction_mem {s u : State} (e : llcEviction s = some u) : u.mem = s.mem := by
  unfold llcEviction at e
  grind [Option.bind_eq_some_iff, Option.map_eq_some_iff, State.evictLlc_mem]

@[simp] theorem State.endPersistent_mem (s : State) (h : Holder) (line : Nat) : (State.endPersistent s h line).mem = s.mem := by
  unfold State.endPersistent
  (repeat' split) <;> simp

@[simp] theorem State.settleReqs_mem (s : State) (h : Option Holder) (line : Nat) : (State.settleReqs s h line).mem = s.mem := by
  simp [State.settleReqs, State.mem_ite]

@[simp] theorem State.finishReqs_mem (s : State) (h : Option Holder) (line : Nat) : (State.finishReqs s h line).mem = s.mem := rfl

@[simp] theorem State.resume_wf {s : State} (hwf : s.mem.wf = true) (line : Nat) : (State.resume s line).mem.wf = true := by
  simp +contextual [State.resume, foldl_wf, hwf]

@[simp] theorem State.freshen_mem (s : State) (h : Holder) (line : Nat) : (State.freshen s h line).mem = s.mem := by
  unfold State.freshen
  (repeat' split) <;> simp

theorem tokenArrival_wf {s u : State} (hwf : s.mem.wf = true) (e : tokenArrival s = some u) : u.mem.wf = true := by
  unfold tokenArrival at e
  split at e
  · obtain ⟨⟨m, t⟩, ht, h⟩ := Option.bind_eq_some_iff.1 e
    have := State.takeMsg_mem ht
    grind [State.takeMsg_mem, State.setHeld_mem, State.freshen_mem, State.settleReqs_mem, State.obey_mem, State.resume_wf,
        State.setHome_mem, State.fillLlc_mem, State.hint_mem, State.obeyHome_mem]
  · cases e

theorem requestReissue_mem {s u : State} (e : requestReissue s = some u) : u.mem = s.mem := by
  unfold requestReissue at e
  grind [Option.bind_eq_some_iff, Option.map_eq_some_iff, State.issueReq_mem, State.send_mem]

@[simp] theorem State.setBank_mem (s : State) (a b : Nat) (k : Bank) : (State.setBank s a b k).mem = s.mem := rfl

@[simp] theorem State.activate_mem (s : State) (a b : Nat) : (State.activate s a b).mem = s.mem := by
  unfold State.activate
  grind [State.setBank_mem, State.send_mem, foldl_mem]

theorem persistentRequest_mem {s u : State} (e : persistentRequest s = some u) : u.mem = s.mem := by
  unfold persistentRequest at e
  split at e
  · obtain ⟨⟨m, t⟩, ht, h⟩ := Option.bind_eq_some_iff.1 e
    have := State.takeMsg_mem ht
    grind [State.takeMsg_mem, State.activate_mem, State.setBank_mem]
  · cases e

@[simp] theorem State.underForce_mem (s : State) (e : Endpoint) (line : Nat) : (State.underForce s e line).mem = s.mem := by
  unfold State.underForce
  (repeat' split) <;> simp

theorem persistentActivation_mem {s u : State} (e : persistentActivation s = some u) : u.mem = s.mem := by
  unfold persistentActivation at e
  split at e
  · obtain ⟨⟨m, t⟩, ht, h⟩ := Option.bind_eq_some_iff.1 e
    have hm : t.mem = s.mem := State.takeMsg_mem ht
    dsimp only at h
    split at h
    · rw [← Option.some.inj h]; simp [hm]
    · cases h
  · rw [State.eq_of_news e]; simp
  · rw [State.eq_of_news e]; simp
  · cases e

theorem persistentDeactivation_mem {s u : State} (e : persistentDeactivation s = some u) : u.mem = s.mem := by
  unfold persistentDeactivation at e
  split at e
  · obtain ⟨⟨m, t⟩, ht, h⟩ := Option.bind_eq_some_iff.1 e
    have hm : t.mem = s.mem := State.takeMsg_mem ht
    dsimp only at h
    split at h
    · split at h
      · rw [← Option.some.inj h]; exact hm
      split at h
      · cases h
      · rw [← Option.some.inj h]; simp [foldl_mem, hm]
    · rw [← Option.some.inj h]; simp [hm]
    · cases h
  · cases e

theorem deactivationAcksDone_mem {s u : State} (e : deactivationAcksDone s = some u) : u.mem = s.mem := by
  unfold deactivationAcksDone at e
  split at e
  · obtain ⟨⟨m, t⟩, ht, h⟩ := Option.bind_eq_some_iff.1 e
    have := State.takeMsg_mem ht
    grind [State.takeMsg_mem, State.activate_mem, State.setBank_mem]
  · grind [State.takeMsg_mem, State.activate_mem, State.setBank_mem]
  · cases e

-- ## Machine/Station

@[simp] theorem State.setStation_mem (s : State) (i : Nat) (f : Station → Station) : (State.setStation s i f).mem = s.mem := rfl

theorem atomicStationArrival_mem {s u : State} (e : atomicStationArrival s = some u) : u.mem = s.mem := by
  unfold atomicStationArrival at e
  split at e
  · obtain ⟨⟨m, t⟩, ht, h⟩ := Option.bind_eq_some_iff.1 e
    have hm : t.mem = s.mem := State.takeMsg_mem ht
    dsimp only at h
    split at h
    · obtain ⟨x, -, rfl⟩ := Option.map_eq_some_iff.1 h
      simp [hm]
    · rw [← Option.some.inj h]; exact hm
    · cases h
  · cases e

theorem groupApply_wf {s u : State} (hwf : s.mem.wf = true) (e : groupApply s = some u) : u.mem.wf = true := by
  grind [groupApply, State.want_mem, State.readHbm_mem, State.setStation_mem, State.fillLlc_mem, State.poke_wf]

@[simp] theorem State.replyAll_mem (s : State) (g : Group) : (State.replyAll s g).mem = s.mem := by
  simp [State.replyAll, foldl_mem]

@[simp] theorem State.mapSigs_mem (s : State) (f : SigRun → SigRun) : (State.mapSigs s f).mem = s.mem := rfl

@[simp] theorem State.signalWritten_mem (s : State) (op : Nat) : (State.signalWritten s op).mem = s.mem := rfl

@[simp] theorem State.hold_mem (s : State) (h : HeldReq) : (State.hold s h).mem = s.mem := rfl

@[simp] theorem State.unhold_mem (s : State) (h : HeldReq) : (State.unhold s h).mem = s.mem := rfl

@[simp] theorem State.refreshL1_mem (s : State) (g line : Nat) : (State.refreshL1 s g line).mem = s.mem := by
  unfold State.refreshL1
  (repeat' split) <;> simp

@[simp] theorem State.acqDone_mem (s : State) (g d v acq : Nat) : (State.acqDone s g d v acq).mem = s.mem := by
  unfold State.acqDone
  split <;> simp

theorem State.farDone_wf {s : State} {w : WarpRef} {a : Access} {u : State} (hwf : s.mem.wf = true) (e : State.farDone s w a = some u) :
    u.mem.wf = true := by
  grind [State.farDone, State.complete_wf, State.refreshL1_mem, State.acqDone_mem]

@[simp] theorem State.memberDone_wf {s : State} (hwf : s.mem.wf = true) (op v : Nat) (code : Option Nat) :
    (State.memberDone s op v code).mem.wf = true := by
  unfold State.memberDone
  grind [Option.bind_eq_some_iff, Option.map_eq_some_iff, State.setAccess_mem, State.farDone_wf, getD_wf]

@[simp] theorem State.replyArrives_wf {s : State} (hwf : s.mem.wf = true) (op : Nat) (v : Option Nat) (bad : Bool) :
    (State.replyArrives s op v bad).mem.wf = true := by
  simp [State.replyArrives, hwf]

@[simp] theorem State.signalDone_wf {s : State} (hwf : s.mem.wf = true) (h : HeldReq) (bad : Bool) :
    (State.signalDone s h bad).mem.wf = true := by
  unfold State.signalDone
  split <;> simp [hwf]

theorem groupReply_wf {s u : State} (hwf : s.mem.wf = true) (e : groupReply s = some u) : u.mem.wf = true := by
  unfold groupReply at e
  split at e
  · grind [State.setStation_mem, State.replyAll_mem, State.takeMsg_mem, State.signalDone_wf, State.emit_mem, State.signalWritten_mem]
  · obtain ⟨⟨m, t⟩, ht, h⟩ := Option.bind_eq_some_iff.1 e
    have := State.takeMsg_mem ht
    grind [State.setStation_mem, State.replyAll_mem, State.takeMsg_mem, State.signalDone_wf, State.emit_mem, State.signalWritten_mem]
  · cases e

theorem combineTimerExpiry_mem {s u : State} (e : combineTimerExpiry s = some u) : u.mem = s.mem := by
  unfold combineTimerExpiry at e
  split at e
  · obtain ⟨a, -, h⟩ := Option.bind_eq_some_iff.1 e
    split at h
    · cases h
    · rw [← Option.some.inj h, foldl_mem, State.setAccess_mem]
      intro t o
      split
      · simp
      split <;> simp
  · obtain ⟨a, -, h⟩ := Option.bind_eq_some_iff.1 e
    dsimp only at h
    split at h
    · cases h
    · rw [← Option.some.inj h]; simp
  · obtain ⟨a, -, h⟩ := Option.bind_eq_some_iff.1 e
    split at h
    · cases h
    · rw [← Option.some.inj h]; simp
  · cases e

@[simp] theorem State.answered_wf {s : State} (hwf : s.mem.wf = true) (op what v : Nat) : (State.answered s op what v).mem.wf = true := by
  unfold State.answered
  (repeat' split) <;> simp [hwf]

-- ## Machine/Cache

@[simp] theorem State.fillL1_mem (s : State) (g line v : Nat) : (State.fillL1 s g line v).mem = s.mem := by
  unfold State.fillL1
  split <;> rfl

@[simp] theorem State.markDirty_mem (s : State) (d line : Nat) : (State.markDirty s d line).mem = s.mem := rfl

theorem State.ask_mem {s : State} {w : WarpRef} {a : Access} {line : Nat} {write : Bool} {u : State}
    (e : State.ask s w a line write = some u) : u.mem = s.mem := by
  grind [State.ask, State.setAccess_mem, State.want_mem]

theorem State.loadLine_wf {s : State} {g : Nat} {w : WarpRef} {x : Warp} {a : Access} {line : Nat} {u : State} (hwf : s.mem.wf = true)
    (e : State.loadLine s g w x a line = some u) : u.mem.wf = true := by
  grind [State.loadLine, State.acqDone_mem, State.complete_wf, State.ask_mem, State.fillL1_mem]

theorem State.nearLine_wf {s u : State} {g : Nat} {w : WarpRef} {x : Warp} {a : Access} {line op t : Nat} (hwf : s.mem.wf = true)
    (e : s.nearLine g w x a line op t = some u) : u.mem.wf = true := by
  unfold State.nearLine at e
  split at e
  · cases e
  split at e
  · rw [State.ask_mem e]; exact hwf
  split at e
  · rw [← Option.some.inj e]; simp [hwf]
  · rw [← Option.some.inj e]
    have hp : ∀ mem : Memory, (a.lanes.foldl (fun s l => s.poke l.2 (mem.bytes l.2 (if typeRegs t = 2 then 8 else 4))) s).mem.wf = true :=
      fun mem => foldl_wf (fun t l ht => State.poke_wf ht _ _) hwf _
    simp [hp]

theorem State.loadWeight_wf {s : State} {w : WarpRef} {a : Access} {line : Nat} {u : State} (hwf : s.mem.wf = true)
    (e : State.loadWeight s w a line = some u) : u.mem.wf = true := by
  grind [State.loadWeight, State.complete_wf]

theorem loadReturn_wf {s u : State} (hwf : s.mem.wf = true) (e : loadReturn s = some u) : u.mem.wf = true := by
  unfold loadReturn at e
  split at e
  · simp only [Option.bind_eq_some_iff] at e
    obtain ⟨x, -, a, -, b, -, g, -, line, -, e⟩ := e
    split at e
    · split at e
      · exact State.farDone_wf hwf e
      · cases e
    · split at e
      · exact State.loadWeight_wf hwf e
      · exact State.loadLine_wf hwf e
    · split at e
      · exact State.loadWeight_wf hwf e
      · exact State.loadLine_wf hwf e
    · split at e
      · exact State.nearLine_wf hwf e
      · cases e
    · split at e
      · rw [State.ask_mem e]; exact hwf
      · rw [← Option.some.inj e]
        split <;> simp [hwf]
    · cases e
  · obtain ⟨⟨m, t⟩, ht, h⟩ := Option.bind_eq_some_iff.1 e
    have hm : t.mem = s.mem := State.takeMsg_mem ht
    dsimp only at h
    split at h
    · split at h
      · rw [← Option.some.inj h]; simp [hm, hwf]
      · cases h
    · cases h
  · cases e

theorem storeAck_wf {s u : State} (hwf : s.mem.wf = true) (e : storeAck s = some u) : u.mem.wf = true := by
  unfold storeAck at e
  split at e
  · simp only [Option.bind_eq_some_iff] at e
    obtain ⟨x, -, a, -, b, -, g, -, line, -, e⟩ := e
    split at e
    · split at e
      · rw [← Option.some.inj e]; simp [hwf]
      · cases e
    · split at e
      · cases e
      split at e
      · split at e
        · cases e
        · rw [← Option.some.inj e]; simp [hwf]
      · rw [← Option.some.inj e]
        split <;> simp [hwf]
    · split at e
      · exact State.nearLine_wf hwf e
      · cases e
    · split at e
      · exact State.farDone_wf hwf e
      · cases e
    · cases e
  · obtain ⟨⟨m, t⟩, ht, h⟩ := Option.bind_eq_some_iff.1 e
    have hm : t.mem = s.mem := State.takeMsg_mem ht
    dsimp only at h
    split at h
    · split at h
      · rw [← Option.some.inj h]; simp [hm, hwf]
      · cases h
    · cases h
  · cases e

@[simp] theorem State.pokeMask_wf {s : State} (hwf : s.mem.wf = true) (line : Nat) (d : LineData) (m : ByteMask) :
    (State.pokeMask s line d m).mem.wf = true := by
  unfold State.pokeMask
  grind [State.poke_wf, foldl_wf]

theorem State.askFor_mem {s : State} {me : Instr} {d line v inc : Nat} {write : Bool} {u : State}
    (e : State.askFor s me d line v inc write = some u) : u.mem = s.mem := by
  grind [State.askFor, State.want_mem]

theorem State.askStores_mem {s : State} {g line v inc : Nat} {write : Bool} {u : State}
    (e : State.askStores s g line v inc write = some u) : u.mem = s.mem := by
  unfold State.askStores at e
  grind [Option.bind_eq_some_iff, Option.map_eq_some_iff, State.askFor_mem]

theorem State.l1ToL2_wf {s : State} {g line : Nat} {u : State} (hwf : s.mem.wf = true) (e : State.l1ToL2 s g line = some u) :
    u.mem.wf = true := by
  unfold State.l1ToL2 at e
  grind [Option.bind_eq_some_iff, Option.map_eq_some_iff, State.markDirty_mem, State.pokeMask_wf, State.setCl_mem]

theorem wcbDrain_wf {s u : State} (hwf : s.mem.wf = true) (e : wcbDrain s = some u) : u.mem.wf = true := by
  unfold wcbDrain at e
  grind [Option.bind_eq_some_iff, Option.map_eq_some_iff, State.askStores_mem, State.l1ToL2_wf, State.setCl_mem, State.refreshL1_mem,
      State.markDirty_mem, State.pokeMask_wf]

theorem instructionCacheFill_mem {s u : State} (e : instructionCacheFill s = some u) : u.mem = s.mem := by
  grind [instructionCacheFill, State.askFor_mem, State.setCl_mem]

theorem waitsigRetest_wf {s u : State} (hwf : s.mem.wf = true) (e : waitsigRetest s = some u) : u.mem.wf = true := by
  unfold waitsigRetest at e
  split at e
  · rename_i w f _
    simp only [Option.bind_eq_some_iff] at e
    obtain ⟨x, -, fr, -, b, -, k, -, e⟩ := e
    split at e
    · rename_i va _ v g _ _
      have ht := State.translate_wf hwf (some (b.die, g)) k.vd k.asid va 0
      split at e
      · split at e
        · exact State.news_wf (by simp [ht]) e
        split at e
        · exact State.news_wf (getD_wf (fun t hu => by rw [State.askFor_mem hu]; simp [ht]) (by simp [ht])) e
        split at e
        · rw [← Option.some.inj e]; simp [ht]
        split at e
        · rw [← Option.some.inj e]; simp [ht]
        · rw [← Option.some.inj e]; simp [ht]
      · exact State.news_wf ht e
      · rw [← Option.some.inj e]; simp [ht]
    · cases e
  · cases e

-- ## Machine/Engine

@[simp] theorem State.endCommand_wf {s : State} (hwf : s.mem.wf = true) (id : Nat) : (State.endCommand s id).mem.wf = true := by
  unfold State.endCommand
  grind [State.refreshL1_mem, State.setWarp_mem, State.engineArrive_wf, foldl_wf]

@[simp] theorem State.setCmd_mem (s : State) (id : Nat) (f : Command → Command) : (State.setCmd s id f).mem = s.mem := rfl

theorem engineCommandStart_mem {s u : State} (e : engineCommandStart s = some u) : u.mem = s.mem := by
  unfold engineCommandStart at e
  grind [Option.bind_eq_some_iff, Option.map_eq_some_iff, State.setCmd_mem]

@[simp] theorem State.engineLines_wf {s : State} (hwf : s.mem.wf = true) (c : Command) (v asid slot atype : Nat) (as : List Nat) :
    (State.engineLines s c v asid slot atype as).1.mem.wf = true := by
  unfold State.engineLines
  grind [transLanes_wf]

@[simp] theorem State.readLines_mem (s : State) (me : Instr) (id d v : Nat) (ls : List (Nat × Nat)) : (s.readLines me id d v ls).1.mem = s.mem
    := by
  unfold State.readLines
  split
  · rfl
  · exact foldl_mem (fun t a => getD_mem (fun u hu => State.askFor_mem hu) rfl) _ _

@[simp] theorem State.readBytes_wf {s : State} (hwf : s.mem.wf = true) (me : Instr) (id : Nat) (c : Command) (k : Kernel) (slot : Nat)
    (as : List Nat) : (State.readBytes s me id c k slot as).1.mem.wf = true := by
  unfold State.readBytes
  grind [State.engineLines_wf, State.readLines_mem]

@[simp] theorem State.stage_wf {s : State} (hwf : s.mem.wf = true) (me : Instr) (id : Nat) (c : Command) (b : Block) (k : Kernel) (slot : Nat)
    (d : CopyDesc) (ps : List (Int × Int)) : (State.stage s me id c b k slot d ps).1.mem.wf = true := by
  unfold State.stage
  grind [State.readBytes_wf]

@[simp] theorem State.spoil_mem (s : State) (d : CopyDesc) (ps : List (Int × Int)) (bs : List Nat) : (State.spoil s d ps bs).1.mem = s.mem := by
  unfold State.spoil
  split <;> rfl

@[simp] theorem State.landWeight_mem (s : State) (d : Nat) (ws : List (Nat × Nat)) : (State.landWeight s d ws).mem = s.mem := rfl

@[simp] theorem State.spoilLines_wf {s : State} (hwf : s.mem.wf = true) (id : Nat) (c : Command) (b : Block) (k : Kernel) (rest : List Nat) :
    (State.spoilLines s id c b k rest).mem.wf = true := by
  simp [State.spoilLines, hwf]

@[simp] theorem State.landFree_mem (s : State) (c : Command) (b : Block) (k : Kernel) (d : CopyDesc) :
    (State.landFree s c b k d).mem = s.mem := by
  unfold State.landFree
  grind [State.freeBytes_mem, State.landWeight_mem, State.setImg_mem, foldl_mem]

@[simp] theorem State.spoilAll_wf {s : State} (hwf : s.mem.wf = true) (id : Nat) (c : Command) (b : Block) (k : Kernel) :
    (State.spoilAll s id c b k).mem.wf = true := by
  unfold State.spoilAll
  grind [State.spoilLines_wf, State.landFree_mem, State.freeBytes_mem, State.setImg_mem, foldl_wf]

@[simp] theorem State.abandonCmd_wf {s : State} (hwf : s.mem.wf = true) (id : Nat) : (State.abandonCmd s id).mem.wf = true := by
  unfold State.abandonCmd
  (repeat' split) <;> simp [hwf]

@[simp] theorem State.abandonFor_wf {s : State} (hwf : s.mem.wf = true) (n : Nat) : (State.abandonFor s n).mem.wf = true := by
  simp +contextual [State.abandonFor, foldl_wf, hwf]

theorem State.parkCmd_wf {s u : State} {id : Nat} {c : Command} {v : Nat} {rs : List FRecord} (hwf : s.mem.wf = true)
    (e : s.parkCmd id c v rs = some u) : u.mem.wf = true := by
  unfold State.parkCmd at e
  obtain ⟨r, hr, rfl⟩ := Option.map_eq_some_iff.1 e
  have hm : r.2.mem.wf = true := State.enterWait_mem hr ▸ hwf
  dsimp only
  split
  · exact State.abandonCmd_wf (by simp [hm]) _
  · simp [hm]

theorem State.copyLocal_wf {s u : State} {id : Nat} {c : Command} {b : Block} {k : Kernel} {slot : Nat} {d : CopyDesc}
    (hwf : s.mem.wf = true) (e : s.copyLocal id c b k slot d = some u) : u.mem.wf = true := by
  have hs := State.stage_wf hwf .engineCommandComplete id c b k slot d d.pairs
  unfold State.copyLocal at e
  dsimp only at e
  split at e <;> rename_i h <;> rw [h] at hs <;> dsimp only at hs
  · exact State.news_wf hs e
  · exact State.parkCmd_wf hs e
  · rw [← Option.some.inj e]
    refine State.endCommand_wf ?_ _
    split
    · simp [hs]
    · exact foldl_wf (fun t r ht => by simp [ht]) (by simp [hs]) _
  · rw [← Option.some.inj e]
    refine State.endCommand_wf ?_ _
    split
    · simp [hs]
    · exact foldl_wf (fun t r ht => by simp [ht]) (by simp [hs]) _

@[simp] theorem State.cpaLane_wf {s : State} (hwf : s.mem.wf = true) (id : Nat) (c : Command) (k : Kernel) (slot size : Nat)
    (l : Nat × Nat × Nat × Nat) : (State.cpaLane s id c k slot size l).1.mem.wf = true := by
  unfold State.cpaLane
  grind [State.readBytes_wf]

theorem wf_of_eq_mk {α : Type} {p : State × α} {t : State} {a : α} (e : p = (t, a)) (h : p.1.mem.wf = true) : t.mem.wf = true := by
  rw [e] at h; exact h

theorem State.cpaRun_wf {s u : State} {id : Nat} {c : Command} {k : Kernel} {slot size : Nat} {lanes : List (Nat × Nat × Nat × Nat)}
    {landed : List Nat} (hwf : s.mem.wf = true) (e : s.cpaRun id c k slot size lanes landed = some u) : u.mem.wf = true := by
  have hfold : ∀ (f : State × List Nat × List FRecord → Nat × Nat × Nat × Nat → State × List Nat × List FRecord),
      (∀ t l, t.1.mem.wf = true → (f t l).1.mem.wf = true) → ∀ (ls : List (Nat × Nat × Nat × Nat)) t, t.1.mem.wf = true →
        (ls.foldl f t).1.mem.wf = true := fun f hf ls => by
    induction ls with
    | nil => exact fun t ht => ht
    | cons l ls ih => exact fun t ht => ih _ (hf t l ht)
  unfold State.cpaRun at e
  dsimp only at e
  generalize hr : List.foldl _ _ _ = r at e
  have hw : r.1.mem.wf = true := by
    rw [← hr]
    refine hfold _ (fun t l ht => ?_) _ _ hwf
    have hl := State.cpaLane_wf ht id c k slot size l
    split <;> rename_i h <;> rw [h] at hl <;> dsimp only at hl
    · exact hl
    · exact hl
    · simp [hl]
    · simp [hl]
  split at e
  · rw [← Option.some.inj e]; exact State.endCommand_wf hw id
  split at e
  · exact State.news_wf (by simp [hw]) e
  · rw [← Option.some.inj e]
    exact getD_wf (fun t ht => State.parkCmd_wf (by simp [hw]) ht) (by simp [hw])

@[simp] theorem State.outBytes_wf {s : State} (hwf : s.mem.wf = true) (id : Nat) (c : Command) (b : Block) (k : Kernel) (slot : Nat)
    (ls : List Nat) : (State.outBytes s id c b k slot ls).1.mem.wf = true := by
  unfold State.outBytes
  grind [State.stage_wf]

@[simp] theorem State.staged_wf {s : State} (hwf : s.mem.wf = true) (c : Command) (ls : List Nat) (ws : List (Nat × Nat)) :
    (State.staged s c ls ws).1.mem.wf = true := by
  unfold State.staged
  split <;> simp [hwf]

@[simp] theorem State.spoilRest_wf {s : State} (hwf : s.mem.wf = true) (id : Nat) (c : Command) (b : Block) (k : Kernel) (code : Nat)
    (e : Word) (acc : ErrAccess) : (State.spoilRest s id c b k code e acc).mem.wf = true := by
  simp [State.spoilRest, hwf]

theorem ownershipWindow_wf {s u : State} (hwf : s.mem.wf = true) (e : ownershipWindow s = some u) : u.mem.wf = true := by
  unfold ownershipWindow at e
  split at e
  · rename_i id _
    simp only [Option.bind_eq_some_iff] at e
    obtain ⟨c, -, b, -, k, -, e⟩ := e
    split at e
    · cases e
    split at e
    · rw [State.askFor_mem e]; exact hwf
    split at e
    · cases e
    split at e <;> rename_i h <;> have ho := wf_of_eq_mk h (State.outBytes_wf hwf ..)
    · exact State.news_wf ho e
    · exact State.parkCmd_wf ho e
    · rw [← Option.some.inj e]; simp [ho]
    · cases e
    split at e <;> rename_i h <;> have hl := wf_of_eq_mk h (State.engineLines_wf ho ..)
    · exact State.news_wf hl e
    · exact State.parkCmd_wf hl e
    · rw [← Option.some.inj e]; simp [hl]
    · cases e
    · rw [← Option.some.inj e]; simp [hl]
  · cases e

@[simp] theorem State.heal_mem (s : State) (line : Nat) (m : ByteMask) : (State.heal s line m).mem = s.mem := by
  unfold State.heal
  split <;> rfl

theorem engineWriteLanded_wf {s u : State} (hwf : s.mem.wf = true) (e : engineWriteLanded s = some u) : u.mem.wf = true := by
  grind [engineWriteLanded, State.heal_mem, State.markDirty_mem, State.pokeMask_wf, State.setHeld_mem, State.setCmd_mem, State.obey_mem]

theorem engineCommandComplete_wf {s u : State} (hwf : s.mem.wf = true) (e : engineCommandComplete s = some u) : u.mem.wf = true := by
  unfold engineCommandComplete at e
  split at e
  · simp only [Option.bind_eq_some_iff] at e
    obtain ⟨c, -, b, -, k, -, e⟩ := e
    split at e
    · cases e
    split at e
    · rw [← Option.some.inj e]; simp [hwf]
    · exact State.cpaRun_wf hwf e
    · split at e
      · split at e
        · rw [← Option.some.inj e]; simp [hwf]
        · cases e
      · exact State.copyLocal_wf hwf e
    · split at e
      · split at e
        · rw [← Option.some.inj e]; simp [hwf]
        · cases e
      · obtain ⟨g, -, rfl⟩ := Option.map_eq_some_iff.1 e
        simp [hwf]
  · cases e

theorem matrixStepStart_mem {s u : State} (e : matrixStepStart s = some u) : u.mem = s.mem := by
  unfold matrixStepStart at e
  grind [Option.bind_eq_some_iff, Option.map_eq_some_iff, State.setCl_mem, State.setCmd_mem]

theorem matrixBudgetRefill_mem {s u : State} (e : matrixBudgetRefill s = some u) : u.mem = s.mem := by
  grind [matrixBudgetRefill, State.setCl_mem]

theorem mloopStepIssue_mem {s u : State} (e : mloopStepIssue s = some u) : u.mem = s.mem := by
  unfold mloopStepIssue at e
  grind [Option.bind_eq_some_iff, Option.map_eq_some_iff, State.setCl_mem, State.setImg_mem, State.setWarp_mem]

-- ## Machine/Power

theorem powerModeClockSettle_mem {s u : State} (e : powerModeClockSettle s = some u) : u.mem = s.mem := by
  grind [powerModeClockSettle]

@[simp] theorem State.setBudget_mem (s : State) (k : Nat) : (s.setBudget k).mem = s.mem := by
  unfold State.setBudget
  rw [foldl_mem fun s g => State.setCl_mem s g _]

theorem powerWindowEnd_mem {s u : State} (e : powerWindowEnd s = some u) : u.mem = s.mem := by
  grind [powerWindowEnd, State.setBudget_mem]

theorem temperatureReport_mem {s u : State} (e : temperatureReport s = some u) : u.mem = s.mem := by
  grind [temperatureReport, State.setDie_mem]

theorem refreshPhaseEnd_mem {s u : State} (e : refreshPhaseEnd s = some u) : u.mem = s.mem := by
  grind [refreshPhaseEnd, State.setDie_mem]

-- ## Machine/Hbm

@[simp] theorem State.seal'_mem (s : State) (line : Nat) : (State.seal' s line).mem = s.mem := by
  simp only [State.seal']

@[simp] theorem State.reseal_mem (s : State) (p : Nat → Bool) : (State.reseal s p).mem = s.mem := by
  simp [State.reseal, foldl_mem]

@[simp] theorem State.exhausted_mem (s : State) (fs : List Nat) (key level : Nat) : (State.exhausted s fs key level).mem = s.mem := by
  unfold State.exhausted
  split <;> rfl

@[simp] theorem State.freezeGroup_mem (s : State) (line : Nat) : (State.freezeGroup s line).mem = s.mem := by
  simp [State.freezeGroup]

@[simp] theorem State.freezeNode_mem (s : State) (line level : Nat) : (State.freezeNode s line level).mem = s.mem := by
  simp [State.freezeNode]

@[simp] theorem State.remac_mem (s : State) (slice level i : Nat) : (State.remac s slice level i).mem = s.mem := by
  simp only [State.remac]

@[simp] theorem State.remacPath_mem (s : State) (line : Nat) (old : NMap Counters) : (State.remacPath s line old).mem = s.mem := by
  simp [State.remacPath, foldl_mem]

@[simp] theorem State.advance_mem (s : State) (line : Nat) : (State.advance s line).mem = s.mem := by
  simp [State.advance, State.mem_ite]

@[simp] theorem State.dropReq_mem (s : State) (id : Nat) : (State.dropReq s id).mem = s.mem := rfl

theorem hbm4eWrite_mem {s u : State} (e : hbm4eWrite s = some u) : u.mem = s.mem := by
  unfold hbm4eWrite at e
  grind [Option.bind_eq_some_iff, Option.map_eq_some_iff, State.freezeGroup_mem, State.freezeNode_mem, State.dropReq_mem,
      State.seal'_mem, State.advance_mem]

@[simp] theorem State.endRead_mem (s : State) (r : HbmReq) : (State.endRead s r).mem = s.mem := rfl

theorem hbm4eReadComplete_mem {s u : State} (e : hbm4eReadComplete s = some u) : u.mem = s.mem := by
  unfold hbm4eReadComplete at e
  grind [Option.bind_eq_some_iff, Option.map_eq_some_iff, State.endRead_mem, State.fillLlc_mem]

@[simp] theorem State.lose_mem (s : State) (line : Nat) : (State.lose s line).mem = s.mem := by
  unfold State.lose
  split <;> rfl

theorem hbm4eReadRetryComplete_mem {s u : State} (e : hbm4eReadRetryComplete s = some u) : u.mem = s.mem := by
  unfold hbm4eReadRetryComplete at e
  grind [Option.bind_eq_some_iff, Option.map_eq_some_iff, State.endRead_mem, State.fillLlc_mem, State.lose_mem, State.emit_mem,
      State.setDie_mem]

@[simp] theorem State.setBucket_mem (s : State) (m v : Nat) (f : Bucket → Bucket) : (State.setBucket s m v f).mem = s.mem := rfl

theorem pseudoChannelSlot_mem {s u : State} (e : pseudoChannelSlot s = some u) : u.mem = s.mem := by
  unfold pseudoChannelSlot at e
  grind [Option.bind_eq_some_iff, Option.map_eq_some_iff, State.setBucket_mem]

theorem quotaRefill_mem {s u : State} (e : quotaRefill s = some u) : u.mem = s.mem := by
  grind [quotaRefill]

theorem sramUncorrectableError_mem {s u : State} (e : sramUncorrectableError s = some u) : u.mem = s.mem := by
  unfold sramUncorrectableError at e
  grind [Option.bind_eq_some_iff, Option.map_eq_some_iff, State.setHeld_mem, State.sendHeld_mem, State.lose_mem]

@[simp] theorem State.unfreeze_mem (s : State) (f : Nat) : (State.unfreeze s f).mem = s.mem := by
  simp [State.unfreeze, foldl_mem]

@[simp] theorem State.clearFrame_wf {s : State} (hwf : s.mem.wf = true) (f : Nat) : (s.clearFrame f).mem.wf = true := by
  simpa [State.clearFrame] using Memory.wf_filter s.mem _ hwf

@[simp] theorem State.readFor_mem (s : State) (line v : Nat) (u : Instr × Focus) : (State.readFor s line v u).mem = s.mem := by
  simp [State.readFor]

theorem State.withFrame_wf {s u : State} {me : Instr} {v : Nat} {f : State → Option State} {n : Nat} {data : Bool} (hf : Keeps f) (hwf :
    s.mem.wf = true)
    (e : s.withFrame me v n f data = some u) : u.mem.wf = true := by
  unfold State.withFrame at e
  split at e
  · exact hf _ _ hwf e
  dsimp only at e
  generalize (if data = true then _ else _ : List Nat) = absent at e
  split at e
  · exact State.news_wf (foldl_wf (fun s a h => by simpa using h) (by simpa using hwf) _) e
  split at e
  · exact State.news_wf (foldl_wf (fun s a h => by simpa using h) (by simpa using hwf) _) e
  · obtain ⟨t, ht, rfl⟩ := Option.map_eq_some_iff.1 e
    exact foldl_wf (fun s a h => by simpa using h) (hf _ _ (by simpa using hwf) ht) _

@[simp] theorem State.bind'_wf {s : State} (hwf : s.mem.wf = true) (f key : Nat) : (State.bind' s f key).mem.wf = true := by
  unfold State.bind'
  split <;> simp [hwf]

theorem State.bindFrame_wf {s u : State} {me : Instr} {v : Nat} {f : State → Option State} {n key : Nat} (hf : Keeps f) (hwf : s.mem.wf =
    true) (e : s.bindFrame me v n key f = some u) :
    u.mem.wf = true := by
  unfold State.bindFrame at e
  dsimp only at e
  split at e
  · exact hf _ _ hwf e
  · exact State.withFrame_wf (fun t u ht hu => hf _ _ (by simp [ht]) hu) hwf e

theorem tokenRegeneration_wf {s u : State} (hwf : s.mem.wf = true) (e : tokenRegeneration s = some u) : u.mem.wf = true := by
  grind [tokenRegeneration, State.clearFrame_wf, State.setVd_mem]

-- ## Machine/Signal

@[simp] theorem State.setVector_mem (s : State) (fn n : Nat) (f : MsixVec → MsixVec) : (State.setVector s fn n f).mem = s.mem := by
  unfold State.setVector
  split <;> rfl

@[simp] theorem State.fire_mem (s : State) (fn n : Nat) : (State.fire s fn n).mem = s.mem := by
  simp [State.fire, State.mem_ite]

@[simp] theorem State.pend_mem (s : State) (fn n : Nat) : (State.pend s fn n).mem = s.mem := by
  simp [State.pend]

@[simp] theorem State.deliver_mem (s : State) (v src : Nat) : (State.deliver s v src).mem = s.mem := by
  simp [State.deliver, State.mem_ite]

@[simp] theorem State.raise_mem (s : State) (v src : Nat) : (State.raise s v src).mem = s.mem := by
  unfold State.raise
  split <;> simp

theorem msixVectorUnmask_mem {s u : State} (e : msixVectorUnmask s = some u) : u.mem = s.mem := by
  grind [msixVectorUnmask, State.fire_mem]

@[simp] theorem State.queueWaits_mem (s : State) (v q : Nat) (r : FRecord) : (State.queueWaits s v q r).mem = s.mem := by
  simp [State.queueWaits]

/-- The state that an access of a queue has made. -/
def QAccess.state : QAccess → State
  | .ok s _ | .park s | .busy s | .bad s => s

theorem State.queueAccess_wf {s : State} (hwf : s.mem.wf = true) (v q asid va : Nat) (write : Bool) :
    (s.queueAccess v q asid va write).state.mem.wf = true := by
  have ht := State.translate_wf hwf none v asid va (if write then 1 else 0)
  unfold State.queueAccess
  split <;> rename_i h <;> rw [h] at ht <;> simpa [QAccess.state] using ht

theorem State.queueUse_wf {s u : State} {me : Instr} {v q asid va n : Nat} {write : Bool} {bad : State → State}
    {f : State → Nat → Option State} (hb : ∀ t, t.mem.wf = true → (bad t).mem.wf = true) (hf : ∀ pa, Keeps fun t => f t pa)
    (hwf : s.mem.wf = true) (e : s.queueUse me v q asid va n write bad f = some u) : u.mem.wf = true := by
  have ht := State.queueAccess_wf hwf v q asid va write
  unfold State.queueUse at e
  split at e <;> rename_i h <;> rw [h] at ht
  · cases e; exact ht
  · exact State.news_wf ht e
  · cases e; exact hb _ ht
  · exact State.using_wf (hf _) ht e

@[simp] theorem State.stopQueue_mem (s : State) (v q reason src : Nat) : (State.stopQueue s v q reason src).mem = s.mem := by
  simp [State.stopQueue]

@[simp] theorem State.flushHost_mem (s : State) (v : Nat) : (State.flushHost s v).mem = s.mem := by
  simp [State.flushHost, foldl_mem]

@[simp] theorem State.sendSignal_mem (s : State) (v code : Nat) (r : SigRun) : (State.sendSignal s v code r).1.mem = s.mem := rfl

/-- The state that the writing of a signal has made, where there is one. -/
def Signalled.state : Signalled → Option State
  | .done s _ | .run s _ => some s
  | .wait r => r

theorem State.goOn_wf {s u : State} {v code domain : Nat} {r : SigRun} (hwf : s.mem.wf = true)
    (e : (s.goOn v code domain r).state = some u) : u.mem.wf = true := by
  unfold State.goOn at e
  split at e
  · cases e
  split at e
  · rw [← Option.some.inj e]; simp [hwf]
  split at e
  · cases e
  · rw [← Option.some.inj e]; exact hwf

theorem State.signal_wf {s u : State} {v q asid va code domain : Nat} {run : Option SigRun} (hwf : s.mem.wf = true)
    (e : (s.signal v q asid va code domain run).state = some u) : u.mem.wf = true := by
  unfold State.signal at e
  split at e
  · exact State.goOn_wf hwf e
  split at e
  · rw [← Option.some.inj e]; exact hwf
  have ha := State.queueAccess_wf hwf v q asid va true
  split at e <;> rename_i h <;> rw [h] at ha
  · rw [← Option.some.inj e]; exact ha
  · exact State.news_wf ha e
  · rw [← Option.some.inj e]; exact ha
  · exact State.goOn_wf ha e

end Sys2Proof.Machine
end

section
/-!
PROOF. The memory's canonical form (log 4) through scheduling, the queues, paging, the links and the expanders.
-/
namespace Sys2Proof.Machine

-- ## Machine/Select

@[simp] theorem State.writeDump_wf {s : State} (hwf : s.mem.wf = true) (n : Nat) (k : Kernel) (b : Block) (idx : Nat) :
    (State.writeDump s n k b idx).mem.wf = true := by
  simp [State.writeDump, hwf]

-- ## Machine/Sched

@[simp] theorem State.grantTo_mem (s : State) (v d : Nat) : (State.grantTo s v d).1.mem = s.mem := rfl

@[simp] theorem State.grantOne_mem (s : State) (d : Nat) : (State.grantOne s d).1.mem = s.mem := by
  unfold State.grantOne
  split <;> rfl

@[simp] theorem State.start_wf {s : State} (hwf : s.mem.wf = true) (n g base : Nat) (k : Kernel) :
    (State.start s n g base k).mem.wf = true := by
  unfold State.start
  grind [State.setBlk_mem, State.setLog_wf, State.proofWrite_wf]

@[simp] theorem State.restore_mem (s : State) (n g base : Nat) : (State.restore s n g base).mem = s.mem := by
  unfold State.restore
  (repeat' split) <;> simp [foldl_mem]

@[simp] theorem State.placeOn_wf {s : State} (hwf : s.mem.wf = true) (n : Nat) (b : Block) (k : Kernel) (g base : Nat) :
    (State.placeOn s n b k g base).mem.wf = true := by
  unfold State.placeOn
  split <;> simp [hwf]

@[simp] theorem State.fillN_wf {s : State} (hwf : s.mem.wf = true) (n v d : Nat) : (State.fillN n s v d).mem.wf = true := by
  induction n generalizing s with
  | zero => exact hwf
  | succ n ih =>
    unfold State.fillN
    split
    · exact hwf
    split
    · exact hwf
    split
    · exact hwf
    · exact ih (by simp [hwf])

@[simp] theorem State.fill_wf {s : State} (hwf : s.mem.wf = true) (v d : Nat) : (State.fill s v d).mem.wf = true := by
  unfold State.fill
  split <;> simp [hwf]

@[simp] theorem State.fillVd_wf {s : State} (hwf : s.mem.wf = true) (v : Nat) : (State.fillVd s v).mem.wf = true := by
  simp +contextual [State.fillVd, foldl_wf, hwf]

@[simp] theorem State.fillAll_wf {s : State} (hwf : s.mem.wf = true) : (State.fillAll s).mem.wf = true := by
  simp +contextual [State.fillAll, foldl_wf, hwf]

@[simp] theorem State.switchTo_mem (s : State) (g : Nat) (v : Option Nat) : (State.switchTo s g v).mem = s.mem := by
  unfold State.switchTo
  split <;> rfl

@[simp] theorem State.beginSave_wf {s : State} (hwf : s.mem.wf = true) (n : Nat) : (State.beginSave s n).mem.wf = true := by
  unfold State.beginSave
  split <;> simp [hwf]

@[simp] theorem State.handOver_wf {s : State} (hwf : s.mem.wf = true) (g : Nat) (v : Option Nat) : (State.handOver s g v).mem.wf = true := by
  unfold State.handOver
  grind [State.switchTo_mem, State.setCl_mem, State.beginSave_wf, foldl_wf]

@[simp] theorem State.handIfEmpty_wf {s : State} (hwf : s.mem.wf = true) (g : Nat) : (State.handIfEmpty s g).mem.wf = true := by
  unfold State.handIfEmpty
  grind [State.fill_wf, State.switchTo_mem]

@[simp] theorem State.eligibility_mem (s : State) : (State.eligibility s).mem = s.mem := by
  unfold State.eligibility
  grind [State.setVd_mem, foldl_mem]

@[simp] theorem grantLoop_mem (s : State) (l : List Nat) : (grantLoop s l).1.mem = s.mem := by
  induction l generalizing s with
  | nil => rfl
  | cons a l ih =>
    rw [grantLoop]
    exact (ih _).trans (State.grantOne_mem s _)

@[simp] theorem State.gang_wf {s : State} (hwf : s.mem.wf = true) (kid : Nat) : (State.gang s kid).mem.wf = true := by
  unfold State.gang
  split
  · grind [State.setKern_mem, State.placeOn_wf, State.setBlk_mem, State.beginSave_wf, foldl_wf, getD_wf]
  · grind [State.setKern_mem, State.placeOn_wf, State.setBlk_mem, State.beginSave_wf, foldl_wf, getD_wf]

@[simp] theorem State.powerChange_mem (s : State) : (State.powerChange s).mem = s.mem := by
  unfold State.powerChange
  split
  · grind [State.setBudget_mem]
  · grind [State.setBudget_mem]

theorem quantumBoundary_wf {s u : State} (hwf : s.mem.wf = true) (e : quantumBoundary s = some u) : u.mem.wf = true := by
  unfold quantumBoundary at e
  dsimp only at e
  split at e
  · cases e
  rw [← Option.some.inj e]
  refine State.fillAll_wf (foldl_wf (fun t k ht => State.gang_wf ht k) (foldl_wf (fun t p ht => ?_) ?_ _) _)
  · split
    · exact ht
    · simp [ht]
  · simp [hwf]

@[simp] theorem State.offerOne_mem (s : State) (g : Nat) : (State.offerOne s g).1.mem = s.mem := by
  unfold State.offerOne
  (repeat' split) <;> simp

theorem clusterOffer_wf {s u : State} (hwf : s.mem.wf = true) (e : clusterOffer s = some u) : u.mem.wf = true := by
  grind [clusterOffer, State.offerOne_mem, State.switchTo_mem, State.fillAll_wf]

@[simp] theorem State.abandon_mem (s : State) (n : Nat) : (State.abandon s n).mem = s.mem := rfl

@[simp] theorem State.writeImage_wf {s : State} (hwf : s.mem.wf = true) (b : Block) (k : Kernel) :
    (State.writeImage s b k).mem.wf = true := by
  simp +contextual [State.writeImage, foldl_wf, hwf]

@[simp] theorem State.halt_wf {s : State} (hwf : s.mem.wf = true) (n idx g : Nat) (k : Kernel) (b : Block) :
    (State.halt s n idx g k b).mem.wf = true := by
  unfold State.halt
  grind [State.writeDump_wf, State.setVd_mem, State.setBlk_mem]

theorem blockSave_wf {s u : State} (hwf : s.mem.wf = true) (e : blockSave s = some u) : u.mem.wf = true := by
  unfold blockSave at e
  split at e
  · rename_i n _
    simp only [Option.bind_eq_some_iff] at e
    obtain ⟨b, -, k, -, e⟩ := e
    split at e
    · split at e
      · rw [← Option.some.inj e]; simp [hwf]
      split at e
      · cases e
      have hend : ∀ (r : State) g, r.mem.wf = true →
          (if ((r.handIfEmpty g).cl g).draining.isSome then r.handIfEmpty g else (r.handIfEmpty g).fill k.vd b.die).mem.wf = true :=
        fun r g hr => by split <;> simp [hr]
      rw [← Option.some.inj e]
      refine hend _ _ ?_
      split
      · split <;> simp [hwf]
      · simp [hwf]
    · cases e
  · split at e
    · cases e
    · rw [← Option.some.inj e]; simp [hwf]
  · cases e

theorem drainOverrun_mem {s u : State} (e : drainOverrun s = some u) : u.mem = s.mem := by
  grind [drainOverrun, State.setCl_mem, State.emit_mem]

theorem blockRestore_mem {s u : State} (e : blockRestore s = some u) : u.mem = s.mem := by
  unfold blockRestore at e
  grind [Option.bind_eq_some_iff, Option.map_eq_some_iff, State.restore_mem, State.setBlk_mem]

theorem blockExit_wf {s u : State} (hwf : s.mem.wf = true) (e : blockExit s = some u) : u.mem.wf = true := by
  unfold blockExit at e
  grind [Option.bind_eq_some_iff, Option.map_eq_some_iff, State.phaseEnd_wf, State.discardBlock_mem, State.testGbar_wf,
      State.setKern_mem, State.fill_wf, State.handIfEmpty_wf]

theorem sleepDeadline_mem {s u : State} (e : sleepDeadline s = some u) : u.mem = s.mem := by
  unfold sleepDeadline at e
  grind [Option.bind_eq_some_iff, Option.map_eq_some_iff, State.setWarp_mem]

-- ## Machine/Queue

theorem State.readTable_wf {s u : State} {me : Instr} {v : Nat} {wait : State → FRecord → State} {bad : State → Option State}
    {g : State → NMap (DWord × DWord) → Option State} (hw : ∀ t r, t.mem.wf = true → (wait t r).mem.wf = true) (hb : Keeps bad)
    (hg : ∀ m, Keeps fun t => g t m) (hwf : s.mem.wf = true) (e : s.readTable me v wait bad g = some u) : u.mem.wf = true := by
  refine State.usingTables_wf (fun t u ht hu => ?_) hwf e
  dsimp only at hu
  split at hu
  · refine State.using_wf (fun t u ht hu => ?_) ht hu
    split at hu
    · exact hb _ _ ht hu
    · exact hg _ _ _ ht hu
  · cases hu; exact hw _ _ hwf
  · cases hu; exact hw _ _ hwf
  · exact hb _ _ ht hu

@[simp] theorem State.keepRoots_mem (s : State) (v : Nat) (tab : NMap (DWord × DWord)) (asids : List Nat) :
    (State.keepRoots s v tab asids).mem = s.mem := rfl

@[simp] theorem State.takeTable_mem (s : State) (v : Nat) (tab : NMap (DWord × DWord)) : (State.takeTable s v tab).mem = s.mem := rfl

theorem State.rereadRoots_wf {s u : State} {v : Nat} (hwf : s.mem.wf = true) (e : s.rereadRoots v = some u) : u.mem.wf = true := by
  unfold State.rereadRoots at e
  split at e
  · cases e
  · exact State.readTable_wf (fun t r ht => by simp [ht]) (fun t u ht hu => by rw [← Option.some.inj hu]; simp [ht])
      (fun m t u ht hu => by rw [← Option.some.inj hu]; simp [ht]) hwf e

theorem queueEnable_wf {s u : State} (hwf : s.mem.wf = true) (e : queueEnable s = some u) : u.mem.wf = true := by
  unfold queueEnable at e
  split at e
  · dsimp only at e
    split at e
    · cases e
    rcases Option.or_eq_some_iff.1 e with e | ⟨-, e⟩
    · refine State.readTable_wf (fun t r ht => by simp [ht]) (fun t u ht hu => by rw [← Option.some.inj hu]; simp [ht])
        (fun m t u ht hu => State.queueUse_wf (fun t ht => by simp [ht]) (fun pa t u ht hu => ?_) (by simp [ht]) hu) (by simp [hwf]) e
      rw [← Option.some.inj hu]
      split
      · simp [ht]
      split <;> simp [ht]
    · exact State.news_wf (by simp [hwf]) e
  · cases e

@[simp] theorem State.endWait_mem (s : State) (v q : Nat) : (State.endWait s v q).mem = s.mem := by
  unfold State.endWait
  split <;> rfl

@[simp] theorem State.queueIdle_mem (s : State) (v q : Nat) : (State.queueIdle s v q).mem = s.mem := by
  unfold State.queueIdle
  grind [State.setQueue_mem, State.endWait_mem]

theorem queueDisable_mem {s u : State} (e : queueDisable s = some u) : u.mem = s.mem := by
  grind [queueDisable, State.queueIdle_mem, State.setQueue_mem, State.endWait_mem]

theorem queueRestart_mem {s u : State} (e : queueRestart s = some u) : u.mem = s.mem := by
  grind [queueRestart, State.setQueue_mem]

theorem deviceLaunchQueueRestart_mem {s u : State} (e : deviceLaunchQueueRestart s = some u) : u.mem = s.mem := by
  grind [deviceLaunchQueueRestart, State.setVd_mem, State.queueIdle_mem, State.setQueue_mem]

theorem kickPageWrite_mem {s u : State} (e : kickPageWrite s = some u) : u.mem = s.mem := by
  grind [kickPageWrite, State.offer_mem]

theorem State.writeHead_wf {s u : State} {v q : Nat} (hwf : s.mem.wf = true) (e : s.writeHead v q = some u) : u.mem.wf = true :=
  State.queueUse_wf (fun t ht => by simp [ht]) (fun pa t u ht hu => by rw [← Option.some.inj hu]; simp [ht]) hwf e

theorem slotPoll_wf {s u : State} (hwf : s.mem.wf = true) (e : slotPoll s = some u) : u.mem.wf = true := by
  unfold slotPoll at e
  split at e
  · dsimp only at e
    split at e
    · exact State.writeHead_wf hwf e
    split at e
    · cases e
    refine State.queueUse_wf (fun t ht => by simp [ht]) (fun pa t u ht hu => ?_) hwf e
    dsimp only at hu
    generalize (if t.mem.read pa = 5#8 then t.ns else 0 : Nat) = n at hu
    split at hu
    · rw [← Option.some.inj hu]; simp [ht]
    split at hu
    · rw [← Option.some.inj hu]; simp [ht]
    split at hu <;> (rw [← Option.some.inj hu]; simp [ht])
  · cases e

@[simp] theorem State.setPacket_mem (s : State) (v q i : Nat) (f : Packet → Packet) : (State.setPacket s v q i f).mem = s.mem := rfl

@[simp] theorem State.performed_mem (s : State) (v q i code : Nat) : (State.performed s v q i code).mem = s.mem := rfl

theorem onPacket_wf {s u : State} {type : Nat} {f : Nat → Nat → Queue → Packet → Option State}
    (hf : ∀ v q k p u, f v q k p = some u → u.mem.wf = true) (e : onPacket s type f = some u) : u.mem.wf = true := by
  unfold onPacket at e
  split at e
  · obtain ⟨p, -, hp⟩ := Option.bind_eq_some_iff.1 e
    split at hp
    · cases hp
    · exact hf _ _ _ _ _ hp
  · cases e

theorem nopPacket_wf {s u : State} (hwf : s.mem.wf = true) (e : nopPacket s = some u) : u.mem.wf = true :=
  onPacket_wf (fun v q k p u hu => by rw [← Option.some.inj hu]; simp [hwf]) e

theorem launchPacket_wf {s u : State} (hwf : s.mem.wf = true) (e : launchPacket s = some u) : u.mem.wf = true :=
  onPacket_wf (fun v q k p u hu => by
    split at hu
    · cases hu
    · rw [← Option.some.inj hu]
      exact State.fillVd_wf (by simp [hwf]) _) e

@[simp] theorem State.packetBad_mem (s : State) (v q i : Nat) : (State.packetBad s v q i).mem = s.mem := by
  simp [State.packetBad]

theorem State.packetUse_wf {s u : State} {me : Instr} {v q i va n : Nat} {write : Bool}
    {f : State → Nat → Option State} (hf : ∀ pa, Keeps fun t => f t pa)
    (hwf : s.mem.wf = true) (e : s.packetUse me v q i va n write f = some u) : u.mem.wf = true :=
  State.queueUse_wf (fun t ht => by simpa using ht) hf hwf e

@[simp] theorem State.letGo_wf {s : State} (hwf : s.mem.wf = true) (line : Nat) : (State.letGo s line).mem.wf = true := by
  unfold State.letGo
  split <;> simp [hwf]

theorem copyPacket_wf {s u : State} (hwf : s.mem.wf = true) (e : copyPacket s = some u) : u.mem.wf = true :=
  onPacket_wf (fun v q k p u hu => by
    dsimp only at hu
    split at hu
    · exact State.packetUse_wf (fun pa t u ht hu => by rw [← Option.some.inj hu]; simp [ht]) hwf hu
    have ha := State.queueAccess_wf hwf v q (s.queue v q).asid ((p.n 16 8 + p.progress) % 2 ^ 64) true
    split at hu <;> rename_i h <;> rw [h] at ha <;> dsimp only [QAccess.state] at ha
    · rw [← Option.some.inj hu]; exact ha
    · exact State.news_wf ha hu
    · rw [← Option.some.inj hu]; simp [ha]
    rcases Option.or_eq_some_iff.1 hu with hu | ⟨-, hu⟩
    · refine State.usingBuffer_wf (fun t u ht hu => ?_) (by simp [ha]) hu
      rw [← Option.some.inj hu]
      split <;> simp [ht]
    · exact State.news_wf (by simp [ha]) hu) e

theorem waitTest_wf {me : Instr} {s u : State} {v q : Nat} {p : Packet} (hwf : s.mem.wf = true) (e : waitTest me s v q p = some u) :
    u.mem.wf = true :=
  State.packetUse_wf (fun pa t u ht hu => by
    dsimp only at hu
    (repeat' split at hu) <;> (rw [← Option.some.inj hu]; simp [ht])) hwf e

theorem waitSignalPacket_wf {s u : State} (hwf : s.mem.wf = true) (e : waitSignalPacket s = some u) : u.mem.wf = true :=
  onPacket_wf (fun _ _ _ _ _ hu => waitTest_wf hwf hu) e

theorem waitSignalRetest_wf {s u : State} (hwf : s.mem.wf = true) (e : waitSignalRetest s = some u) : u.mem.wf = true :=
  onPacket_wf (fun _ _ _ _ _ hu => waitTest_wf hwf hu) e

/-- What must be done first of a domain's release keeps the form, and a release that is done changes nothing. -/
theorem State.domainRelease_error_wf {s : State} {v domain : Nat} {k : Option Nat} {r : Option State} (hwf : s.mem.wf = true)
    (e : s.domainRelease v domain k = .error r) {u : State} (hu : r = some u) : u.mem.wf = true := by
  unfold State.domainRelease at e
  split at e
  · cases e; rw [← Option.some.inj hu]; simp [hwf]
  split at e
  · cases e; cases hu
  split at e
  · cases e; cases hu
  · cases e

theorem State.domainRelease_ok {s t : State} {v domain : Nat} {k : Option Nat} (e : s.domainRelease v domain k = .ok t) : t = s := by
  unfold State.domainRelease at e
  split at e
  · cases e
  split at e
  · cases e
  split at e
  · cases e
  · cases e; rfl

theorem writeSignalPacket_wf {s u : State} (hwf : s.mem.wf = true) (e : writeSignalPacket s = some u) : u.mem.wf = true :=
  onPacket_wf (fun v q k p u hu => by
    split at hu <;> rename_i h
    · exact State.domainRelease_error_wf hwf h hu
    · obtain rfl := State.domainRelease_ok h
      refine State.packetUse_wf (fun pa t u ht hu => ?_) hwf hu
      dsimp only at hu
      split at hu <;> (rw [← Option.some.inj hu]; simp [ht])) e

theorem timestampPacket_wf {s u : State} (hwf : s.mem.wf = true) (e : timestampPacket s = some u) : u.mem.wf = true :=
  onPacket_wf (fun v q k p u hu => State.packetUse_wf (fun pa t u ht hu => by rw [← Option.some.inj hu]; simp [ht]) hwf hu) e

@[simp] theorem State.packetDone_mem (s : State) (v q i : Nat) (irq : Option Nat) : (State.packetDone s v q i irq).mem = s.mem := by
  unfold State.packetDone
  split <;> simp

theorem packetCompletion_wf {s u : State} (hwf : s.mem.wf = true) (e : packetCompletion s = some u) : u.mem.wf = true := by
  unfold packetCompletion at e
  split at e
  · rename_i v q i _
    obtain ⟨p, -, he⟩ := Option.bind_eq_some_iff.1 e
    split at he
    · cases he
    have hrel : ∀ r, (if p.sig.isSome = true then .ok s else s.domainRelease v p.domain none) = .error r →
        ∀ u, r = some u → u.mem.wf = true := fun r h u hu => by
      split at h
      · cases h
      · exact State.domainRelease_error_wf hwf h hu
    have hok : ∀ t, (if p.sig.isSome = true then .ok s else s.domainRelease v p.domain none) = .ok t → t = s := fun t h => by
      split at h
      · cases h; rfl
      · exact State.domainRelease_ok h
    split at he <;> rename_i h
    · exact hrel _ h _ he
    obtain rfl := (hok _ h).symm
    split at he <;> rename_i hs
    · exact State.signal_wf hwf (by rw [hs]; exact he)
    · rw [← Option.some.inj he]
      simp [State.signal_wf hwf (by rw [hs]; rfl)]
    · have ht := State.signal_wf hwf (by rw [hs]; rfl)
      rw [← Option.some.inj he]
      split <;> simp [ht]
  · cases e

@[simp] theorem State.dropKernel_mem (s : State) (kid : Nat) : (State.dropKernel s kid).mem = s.mem := rfl

theorem kernelCompletion_wf {s u : State} (hwf : s.mem.wf = true) (e : kernelCompletion s = some u) : u.mem.wf = true := by
  unfold kernelCompletion at e
  split at e
  · rename_i kid _ _
    obtain ⟨k, -, he⟩ := Option.bind_eq_some_iff.1 e
    split at he
    · cases he
    dsimp only at he
    generalize ((s.packet k.vd k.queue k.idx).bind fun p => p.sig) = run at he
    have hrel : ∀ r, (if run.isSome = true then .ok s else s.domainRelease k.vd k.domain (some kid)) = .error r →
        ∀ u, r = some u → u.mem.wf = true := fun r h u hu => by
      split at h
      · cases h
      · exact State.domainRelease_error_wf hwf h hu
    have hok : ∀ t, (if run.isSome = true then .ok s else s.domainRelease k.vd k.domain (some kid)) = .ok t → t = s := fun t h => by
      split at h
      · cases h; rfl
      · exact State.domainRelease_ok h
    have hu : (if run.isSome = true then s else s.unseal k.vd kid).mem.wf = true := by split <;> simp [hwf]
    split at he <;> rename_i h
    · exact hrel _ h _ he
    obtain rfl := (hok _ h).symm
    split at he <;> rename_i hs
    · exact State.signal_wf hu (by rw [hs]; exact he)
    · rw [← Option.some.inj he]
      simp [State.signal_wf hu (by rw [hs]; rfl)]
    · have ht := State.signal_wf hu (by rw [hs]; rfl)
      rw [← Option.some.inj he]
      split <;> simp [ht]
  · cases e

theorem kernelAbort_wf {s u : State} (hwf : s.mem.wf = true) (e : kernelAbort s = some u) : u.mem.wf = true := by
  unfold kernelAbort at e
  grind [Option.bind_eq_some_iff, Option.map_eq_some_iff, State.fillVd_wf, State.abort_mem]

-- ## Machine/Paging

@[simp] theorem State.dropTlb_mem (s : State) (v : Nat) (p : TlbEntry → Bool) : (State.dropTlb s v p).mem = s.mem := rfl

theorem State.beginInval_mem {s : State} {kind : Nat} {u : State} (e : State.beginInval s kind = some u) : u.mem = s.mem := by
  grind [State.beginInval, State.setVd_mem, State.dropTlb_mem]

theorem tlbInvalidateRange_mem {s u : State} (e : tlbInvalidateRange s = some u) : u.mem = s.mem := by
  grind [tlbInvalidateRange, State.beginInval_mem]

theorem tlbInvalidateAsid_mem {s u : State} (e : tlbInvalidateAsid s = some u) : u.mem = s.mem := by
  grind [tlbInvalidateAsid, State.beginInval_mem]

theorem tlbInvalidateVd_mem {s u : State} (e : tlbInvalidateVd s = some u) : u.mem = s.mem := by
  grind [tlbInvalidateVd, State.beginInval_mem]

theorem stage2Invalidate_mem {s u : State} (e : stage2Invalidate s = some u) : u.mem = s.mem := by
  grind [stage2Invalidate, State.dropTlb_mem]

@[simp] theorem State.freeFrame_mem (s : State) (f : Nat) : (State.freeFrame s f).mem = s.mem := by
  simp [State.freeFrame]

@[simp] theorem State.restartInval_mem (s : State) (v w : Nat) : (State.restartInval s v w).mem = s.mem := rfl

theorem invalidationComplete_wf {s u : State} (hwf : s.mem.wf = true) (e : invalidationComplete s = some u) : u.mem.wf = true := by
  unfold invalidationComplete at e
  split at e
  · split at e
    · split at e
      · obtain ⟨t, ht, rfl⟩ := Option.map_eq_some_iff.1 e
        have := State.rereadRoots_wf hwf ht
        split <;> simp [this]
      split at e
      · rw [← Option.some.inj e]; simp [hwf]
      · cases e
    · cases e
  · obtain ⟨x, -, e⟩ := Option.bind_eq_some_iff.1 e
    dsimp only at e
    split at e
    · cases e
    · rw [← Option.some.inj e]
      refine foldl_wf (fun t m ht => ?_) ?_ _
      · simp [ht]
      · exact hwf
  · cases e

@[simp] theorem State.matchRecords_mem (s : State) (v : Nat) (p : FRecord → Bool) : (State.matchRecords s v p).mem = s.mem := rfl

theorem replaytWrite_mem {s u : State} (e : replaytWrite s = some u) : u.mem = s.mem := by
  grind [replaytWrite, State.setDie_mem]

theorem replayPage_mem {s u : State} (e : replayPage s = some u) : u.mem = s.mem := by
  grind [replayPage, State.setVd_mem, State.matchRecords_mem]

theorem replayAll_mem {s u : State} (e : replayAll s = some u) : u.mem = s.mem := by
  grind [replayAll, State.setVd_mem, State.matchRecords_mem]

theorem waiterWake_mem {s u : State} (e : waiterWake s = some u) : u.mem = s.mem := by
  unfold waiterWake at e
  grind [Option.bind_eq_some_iff, Option.map_eq_some_iff, State.setDie_mem, State.setVd_mem, State.setWarp_mem, State.setCmd_mem]

theorem waitTableEntryFree_mem {s u : State} (e : waitTableEntryFree s = some u) : u.mem = s.mem := by
  grind [waitTableEntryFree]

theorem fqheadWrite_mem {s u : State} (e : fqheadWrite s = some u) : u.mem = s.mem := by
  grind [fqheadWrite, State.setVd_mem]

theorem faultRecordDelivery_wf {s u : State} (hwf : s.mem.wf = true) (e : faultRecordDelivery s = some u) : u.mem.wf = true := by
  unfold faultRecordDelivery at e
  split at e
  · dsimp only at e
    split at e
    · cases e
    split at e
    · cases e
    refine State.usingTables_wf (fun t u ht hu => ?_) hwf e
    split at hu
    · refine State.owning_wf (fun t ht => ?_) ht hu
      split <;> simp [ht]
    · cases hu
  · cases e

theorem State.withHints_wf {s u : State} {me : Instr} {v : Nat} {f : State → Option State} (hf : Keeps f) (hwf : s.mem.wf = true) (e :
    s.withHints me v f = some u) : u.mem.wf = true :=
  State.usingTables_wf (fun _ _ ht hu => State.using_wf (fun _ _ ht hu => hf _ _ (by simpa using ht) hu) ht hu) hwf e

theorem rhbaseWrite_wf {s u : State} (hwf : s.mem.wf = true) (e : rhbaseWrite s = some u) : u.mem.wf = true := by
  unfold rhbaseWrite at e
  split at e
  · split at e
    · cases e
    · rw [← Option.some.inj e]; simp [hwf]
  · split at e
    · exact State.withHints_wf (fun t u ht hu => by rw [← Option.some.inj hu]; exact ht) hwf e
    · cases e
  · cases e

theorem State.withLeaf_wf {s u : State} {me : Instr} {v : Nat} {f : State → Option State} {gpage : Nat} (hf : Keeps f) (hwf : s.mem.wf =
    true) (e : s.withLeaf me v gpage f = some u) :
    u.mem.wf = true :=
  State.using_wf (fun t u ht hu => by
    split at hu
    · cases hu
    · exact hf t u ht hu) hwf e

@[simp] theorem State.warm_wf {s : State} (hwf : s.mem.wf = true) (v gpage : Nat) (h : Hint) (rs : List FRecord) :
    (State.warm s v gpage h rs).mem.wf = true := by
  unfold State.warm
  grind [State.translate_wf, foldl_wf]

@[simp] theorem State.homePoke_wf {s : State} (hwf : s.mem.wf = true) (pa : Nat) (bs : List Byte) (v : Nat) :
    (State.homePoke s pa bs v).mem.wf = true := by
  simp [State.homePoke, hwf]

theorem State.copyFrame_wf {s : State} {poke : State → Nat → List Byte → State} {src dst : Nat}
    (hp : ∀ t a bs, t.mem.wf = true → (poke t a bs).mem.wf = true) (hwf : s.mem.wf = true) :
    (s.copyFrame poke src dst).mem.wf = true :=
  foldl_wf (fun t a ht => by
    split
    · simpa using ht
    · exact hp _ _ _ ht) hwf _

@[simp] theorem State.mapsAgain_mem (s : State) (e : Nat) : (State.mapsAgain s e).mem = s.mem := by
  simp [State.mapsAgain, State.mem_ite]

theorem stage2FaultResolution_wf {s u : State} (hwf : s.mem.wf = true) (e : stage2FaultResolution s = some u) : u.mem.wf = true := by
  unfold stage2FaultResolution at e
  split at e
  · rename_i v gpage leafAddr leaf src _
    have hcopy : ∀ (t : State) o f, t.mem.wf = true →
        ((t.copyFrame (fun s pa bs => s.homePoke pa bs v) o f).platenPoke leafAddr (leBytes 8 leaf) v).mem.wf = true :=
      fun t o f ht => State.platenPoke_wf (State.copyFrame_wf (fun t a bs ht => by simp [ht]) ht) ..
    refine State.withHints_wf (fun t u ht hu => ?_) hwf e
    generalize (t.vd v).hint gpage = h at hu
    dsimp only at hu
    split at hu
    · cases hu
    split at hu
    · rw [← Option.some.inj hu]; simp [ht]
    refine State.using_wf (fun t u ht hu => ?_) ht hu
    split at hu
    · rw [← Option.some.inj hu, State.matchRecords_mem]
      cases h with
      | none => cases src <;> simp [ht, hcopy]
      | some h => exact State.warm_wf (by cases src <;> simp [ht, hcopy]) ..
    · refine State.withFrame_wf (fun t u ht hu => ?_) ht hu
      rw [← Option.some.inj hu, State.matchRecords_mem]
      cases h with
      | none => cases src <;> dsimp only <;> split <;> simp [ht, hcopy]
      | some h => exact State.warm_wf (by cases src <;> dsimp only <;> split <;> simp [ht, hcopy]) ..
  · cases e

theorem pageEviction_wf {s u : State} (hwf : s.mem.wf = true) (e : pageEviction s = some u) : u.mem.wf = true := by
  unfold pageEviction at e
  split at e
  · refine State.withHints_wf (fun t u ht hu => State.withLeaf_wf (fun t u ht hu => ?_) ht hu) hwf e
    dsimp only at hu
    split at hu
    · cases hu
    split at hu
    · rw [← Option.some.inj hu]; simp [ht]
    refine State.using_wf (fun t u ht hu => State.withFrame_wf (fun t u ht hu => ?_) ht hu) ht hu
    rw [← Option.some.inj hu, State.freeFrame_mem]
    split
    · exact ht
    · exact State.copyFrame_wf (fun t a bs ht => by simp [ht]) ht
  · cases e

theorem migrationStart_wf {s u : State} (hwf : s.mem.wf = true) (e : migrationStart s = some u) : u.mem.wf = true := by
  unfold migrationStart at e
  split at e
  · refine State.withLeaf_wf (fun t u ht hu => ?_) hwf e
    dsimp only at hu
    split at hu
    · cases hu
    · exact State.owning_wf (fun t ht => by simp [ht]) ht hu
  · cases e

theorem migrationLineCopy_wf {s u : State} (hwf : s.mem.wf = true) (e : migrationLineCopy s = some u) : u.mem.wf = true := by
  unfold migrationLineCopy at e
  split at e
  · obtain ⟨m, -, h⟩ := Option.bind_eq_some_iff.1 e
    split at h
    · cases h
    · refine State.usingBuffer_wf (fun t u ht hu => ?_) hwf h
      rw [← Option.some.inj hu]
      refine State.letGo_wf (State.letGo_wf ?_ _) _
      dsimp only
      split <;> simp [ht]
  · cases e

theorem migrationSwitch_wf {s u : State} (hwf : s.mem.wf = true) (e : migrationSwitch s = some u) : u.mem.wf = true := by
  unfold migrationSwitch at e
  split at e
  · obtain ⟨m, -, h⟩ := Option.bind_eq_some_iff.1 e
    split at h
    · cases h
    · refine State.using_wf (fun t u ht hu => ?_) hwf h
      split at hu
      · cases hu
      · rw [← Option.some.inj hu]; simp [ht]
  · cases e

-- ## Machine/Link

@[simp] theorem State.dropRecs_mem (s : State) (h : HeldReq) : (State.dropRecs s h).mem = s.mem := rfl

@[simp] theorem State.refuse_wf {s : State} (hwf : s.mem.wf = true) (h : HeldReq) : (State.refuse s h).mem.wf = true := by
  unfold State.refuse
  grind [State.dropRecs_mem, State.unhold_mem, State.complete_wf, State.emit_mem, foldl_wf]

@[simp] theorem State.fabricTrans_wf {s : State} (hwf : s.mem.wf = true) (v : Nat) (l : List (Nat × Nat)) : (s.fabricTrans v l).1.mem.wf = true
    := by
  induction l generalizing s with
  | nil => exact hwf
  | cons a l ih =>
    rw [State.fabricTrans]
    exact ih (State.translate_wf hwf none v 0 a.1 a.2)

theorem State.incoming_wf {s u : State} {h : HeldReq} {f : State → List Nat → Option State} (hf : ∀ pas, Keeps fun t => f t pas)
    (hwf : s.mem.wf = true) (e : s.incoming h f = some u) : u.mem.wf = true := by
  have hkeep : ∀ t : State, t.mem.wf = true →
      (if t.fabric.held.any (fun o => o.q = h.q && o.kind = h.kind) then t else t.hold h).mem.wf = true := fun t ht => by
    split
    · exact ht
    · simp [ht]
  have ht := State.fabricTrans_wf hwf h.q.vd h.uses
  unfold State.incoming at e
  dsimp only at e
  split at e
  · rw [← Option.some.inj e]; simp [hwf]
  split at e
  · exact State.news_wf (hkeep _ hwf) e
  split at e
  · cases e
  split at e
  · exact State.news_wf (hkeep _ ht) e
  split at e
  · rw [← Option.some.inj e]; simp [ht]
  split at e
  · rcases Option.or_eq_some_iff.1 e with e | ⟨-, e⟩
    · exact hf _ _ _ (hkeep _ ht) e
    · exact State.news_wf (hkeep _ ht) e
  split at e
  · cases e
  · rw [← Option.some.inj e]; simp [ht]

@[simp] theorem State.writeMasked_wf {s : State} (hwf : s.mem.wf = true) (pa v : Nat) (data : LineData) (m : ByteMask) :
    (State.writeMasked s pa v data m).mem.wf = true := by
  simp [State.writeMasked, hwf]

theorem rldRequest_wf {s u : State} (hwf : s.mem.wf = true) (e : rldRequest s = some u) : u.mem.wf = true := by
  unfold rldRequest at e
  split at e
  · refine State.incoming_wf (fun pas t u ht hu => State.using_wf (fun t u ht hu => ?_) ht hu) hwf e
    rw [← Option.some.inj hu]
    split <;> simp [ht]
  · cases e

theorem rstRequest_wf {s u : State} (hwf : s.mem.wf = true) (e : rstRequest s = some u) : u.mem.wf = true := by
  unfold rstRequest at e
  split at e
  · exact State.incoming_wf (fun pas t u ht hu => State.owning_wf (fun t ht => by simp [ht]) ht hu) hwf e
  · cases e

@[simp] theorem State.portAtomic_mem (s : State) (port : Endpoint) (v pa type width : Nat) (members : List Member) :
    (State.portAtomic s port v pa type width members).mem = s.mem := rfl

theorem ratomRequest_wf {s u : State} (hwf : s.mem.wf = true) (e : ratomRequest s = some u) : u.mem.wf = true := by
  unfold ratomRequest at e
  split at e
  · dsimp only at e
    split at e
    · split at e
      · cases e
      · rw [← Option.some.inj e]; simp [hwf]
    · exact State.incoming_wf (fun pas t u ht hu => by rw [← Option.some.inj hu]; simp [ht]) hwf e
  · cases e

theorem rvaddRequest_wf {s u : State} (hwf : s.mem.wf = true) (e : rvaddRequest s = some u) : u.mem.wf = true := by
  unfold rvaddRequest at e
  split at e
  · refine State.incoming_wf (fun pas t u ht hu => ?_) hwf e
    dsimp only at hu
    split at hu
    · rw [← Option.some.inj hu]; simp [ht]
    split at hu
    · cases hu
    split at hu
    · split at hu
      · cases hu
      · rw [← Option.some.inj hu]; simp [ht]
    split at hu
    · split at hu
      · cases hu
      · rw [← Option.some.inj hu]; simp [ht]
    · rw [← Option.some.inj hu]
      split <;> simp [ht]
  · cases e

theorem State.signalled_wf {s u : State} {me : Instr} {h : HeldReq} (hwf : s.mem.wf = true) (e : s.signalled me h = some u) :
    u.mem.wf = true := by
  unfold State.signalled at e
  split at e
  · cases e
  · exact State.incoming_wf (fun pas t u ht hu => State.owning_wf (fun t ht => by simp [ht]) ht hu) hwf e

theorem rwsigRequest_wf {s u : State} (hwf : s.mem.wf = true) (e : rwsigRequest s = some u) : u.mem.wf = true := by
  grind [rwsigRequest, State.signalled_wf]

theorem rredResult_wf {s u : State} (hwf : s.mem.wf = true) (e : rredResult s = some u) : u.mem.wf = true := by
  unfold rredResult at e
  split at e
  · split at e
    · cases e
    split at e
    · split at e
      · cases e
      obtain ⟨t, ht, rfl⟩ := Option.map_eq_some_iff.1 e
      simp [State.signalled_wf (by simp [hwf]) ht]
    · cases e
  · split at e
    · exact State.signalled_wf hwf e
    · cases e
  · cases e

theorem outcomeQuery_wf {s u : State} (hwf : s.mem.wf = true) (e : outcomeQuery s = some u) : u.mem.wf = true := by
  unfold outcomeQuery at e
  split at e
  · obtain ⟨⟨m, t⟩, ht, h⟩ := Option.bind_eq_some_iff.1 e
    have hm : t.mem = s.mem := State.takeMsg_mem ht
    dsimp only at h
    split at h
    · rw [← Option.some.inj h]; simp [hm, hwf]
    · cases h
  · exact State.incoming_wf (fun pas t u ht hu => by rw [← Option.some.inj hu]; simp [ht]) hwf e
  · cases e

theorem outcomeQueryAnswer_wf {s u : State} (hwf : s.mem.wf = true) (e : outcomeQueryAnswer s = some u) : u.mem.wf = true := by
  unfold outcomeQueryAnswer at e
  split at e
  · obtain ⟨⟨m, t⟩, ht, h⟩ := Option.bind_eq_some_iff.1 e
    have := State.takeMsg_mem ht
    grind [State.takeMsg_mem, State.hold_mem, State.signalDone_wf, State.emit_mem, State.mapSigs_mem, State.signalWritten_mem,
        State.answered_wf]
  · grind [State.takeMsg_mem, State.hold_mem, State.signalDone_wf, State.emit_mem, State.mapSigs_mem, State.signalWritten_mem,
      State.answered_wf]
  · cases e

theorem State.remoteDone_wf {s : State} {w : WarpRef} {a : Access} {u : State} (hwf : s.mem.wf = true)
    (e : State.remoteDone s w a = some u) : u.mem.wf = true := by
  unfold State.remoteDone at e
  grind [Option.bind_eq_some_iff, Option.map_eq_some_iff, State.sendAll_wf, State.farDone_wf]

@[simp] theorem State.dropOrphan_mem (s : State) (op : Nat) : (State.dropOrphan s op).mem = s.mem := rfl

theorem fabricReply_wf {s u : State} (hwf : s.mem.wf = true) (e : fabricReply s = some u) : u.mem.wf = true := by
  unfold fabricReply at e
  split at e
  · split at e
    · dsimp only at e
      split at e
      · cases e
      · rw [← Option.some.inj e]
        exact getD_wf (fun t ht => State.remoteDone_wf (by simp [hwf]) ht) (by simp [hwf])
    · obtain ⟨x, -, rfl⟩ := Option.map_eq_some_iff.1 e
      simp [hwf]
  · obtain ⟨a, -, h⟩ := Option.bind_eq_some_iff.1 e
    split at h
    · rw [← Option.some.inj h]; simp [hwf]
    split at h
    · exact State.remoteDone_wf hwf h
    · cases h
  · cases e

theorem fabricTimeout_wf {s u : State} (hwf : s.mem.wf = true) (e : fabricTimeout s = some u) : u.mem.wf = true := by
  unfold fabricTimeout at e
  grind [Option.bind_eq_some_iff, Option.map_eq_some_iff, State.sendAll_wf, State.complete_wf, State.dropOrphan_mem]

@[simp] theorem State.setPort_mem (s : State) (p : Nat) (f : Port → Port) : (State.setPort s p f).mem = s.mem := rfl

theorem portRetryExhausted_wf {s u : State} (hwf : s.mem.wf = true) (e : portRetryExhausted s = some u) : u.mem.wf = true := by
  grind [portRetryExhausted, State.sendAll_wf, State.setPort_mem]

@[simp] theorem State.movePlane_mem (s : State) (q c : Nat) : (State.movePlane s q c).mem = s.mem := by
  simp [State.movePlane, State.mem_ite]

@[simp] theorem State.resendOrphan_mem (s : State) (a : Access) : (State.resendOrphan s a).mem = s.mem := by
  unfold State.resendOrphan
  split <;> rfl

@[simp] theorem State.resend_wf {s : State} (hwf : s.mem.wf = true) (planes : List Nat) : (State.resend s planes).mem.wf = true := by
  unfold State.resend
  grind [State.sendAll_wf, State.resendOrphan_mem, State.transmit_mem, State.complete_wf, foldl_wf]

theorem portDrainEnd_wf {s u : State} (hwf : s.mem.wf = true) (e : portDrainEnd s = some u) : u.mem.wf = true := by
  unfold portDrainEnd at e
  split at e
  · dsimp only at e
    split at e
    · cases e
    · rw [← Option.some.inj e]
      simp [foldl_mem, hwf]
  · cases e

theorem planeRemapNotice_wf {s u : State} (hwf : s.mem.wf = true) (e : planeRemapNotice s = some u) : u.mem.wf = true := by
  grind [planeRemapNotice, State.setPort_mem, State.movePlane_mem, State.resend_wf, State.sendAll_wf]

theorem linkRetrained_mem {s u : State} (e : linkRetrained s = some u) : u.mem = s.mem := by
  grind [linkRetrained, State.setPort_mem]

theorem fportctlRestore_mem {s u : State} (e : fportctlRestore s = some u) : u.mem = s.mem := by
  grind [fportctlRestore, State.setPort_mem]

theorem planeRestoreComplete_wf {s u : State} (hwf : s.mem.wf = true) (e : planeRestoreComplete s = some u) : u.mem.wf = true := by
  grind [planeRestoreComplete, State.resend_wf, State.setPort_mem, State.movePlane_mem]

-- ## Machine/Cxl

@[simp] theorem State.setCxl_mem (s : State) (f : Cxl → Cxl) : (State.setCxl s f).mem = s.mem := rfl

theorem State.startTxns_wf {s : State} (hwf : s.mem.wf = true) (n : Nat) : (State.startTxns n s).mem.wf = true := by
  induction n generalizing s with
  | zero => exact hwf
  | succ n ih =>
    unfold State.startTxns
    split
    · exact hwf
    split
    · exact hwf
    · refine ih ?_
      split
      · simpa using hwf
      · simp [hwf]

@[simp] theorem State.endTxn_wf {s : State} (hwf : s.mem.wf = true) (t : CxlTxn) :
    (State.endTxn s t).mem.wf = true := State.startTxns_wf (State.resume_wf (by simpa using hwf) t.line) _

@[simp] theorem State.takeHost_wf {s : State} (hwf : s.mem.wf = true) (line : Nat) : (s.takeHost line).mem.wf = true := by
  unfold State.takeHost
  split
  · exact Memory.wf_store _ _ _ hwf
  · exact hwf

@[simp] theorem State.putHost_mem (s : State) (line : Nat) (d : LineData) : (State.putHost s line d).mem = s.mem := rfl

theorem cxlTransactionComplete_wf {s u : State} (hwf : s.mem.wf = true) (e : cxlTransactionComplete s = some u) : u.mem.wf = true := by
  unfold cxlTransactionComplete at e
  grind [Option.bind_eq_some_iff, Option.map_eq_some_iff, State.endTxn_wf, State.putHost_mem, State.atProxy_mem, State.takeHost_wf]

theorem hostCxlRequest_wf {s u : State} (hwf : s.mem.wf = true) (e : hostCxlRequest s = some u) : u.mem.wf = true := by
  unfold hostCxlRequest at e
  split at e
  · dsimp only at e
    split at e
    · cases e
    split at e
    · refine State.using_wf (fun t u ht hu => ?_) hwf e
      rw [← Option.some.inj hu]
      split <;> simp [ht]
    split at e
    · rw [← Option.some.inj e]; simp [hwf]
    split at e
    · split at e
      · cases e
      · rw [← Option.some.inj e]; simp [hwf]
    · rw [← Option.some.inj e]
      split <;> simp [hwf]
  · cases e

theorem hostSnoop_wf {s u : State} (hwf : s.mem.wf = true) (e : hostSnoop s = some u) : u.mem.wf = true := by
  unfold hostSnoop at e
  split at e
  · dsimp only at e
    split at e
    · cases e
    split at e
    · obtain ⟨d, -, rfl⟩ := Option.map_eq_some_iff.1 e
      simp [hwf]
    split at e
    · split at e
      · cases e
      · rw [← Option.some.inj e]; simp [hwf]
    split at e
    · rw [State.follow_mem e]; exact hwf
    · have hh := State.takeHost_wf hwf
      rw [← Option.some.inj e]
      split
      · exact Memory.wf_store _ _ _ (hh _)
      · exact hh _
  · cases e

@[simp] theorem State.giveUp_mem (s : State) (t : CxlTxn) (failed : Bool) : (State.giveUp s t failed).mem = s.mem := by
  unfold State.giveUp
  grind [State.sendHeld_mem, State.obey_mem, State.answerForward_mem]

theorem backInvalidationResponse_wf {s u : State} (hwf : s.mem.wf = true) (e : backInvalidationResponse s = some u) : u.mem.wf = true := by
  unfold backInvalidationResponse at e
  grind [Option.bind_eq_some_iff, Option.map_eq_some_iff, State.platenPoke_wf, State.setCxl_mem, State.endTxn_wf, State.giveUp_mem]

@[simp] theorem State.dropExpander_mem (s : State) (p from' : Nat) : (State.dropExpander s p from').mem = s.mem := rfl

@[simp] theorem State.hostGone_mem (s : State) (line : Nat) : (State.hostGone s line).mem = s.mem := by
  unfold State.hostGone
  split <;> rfl

@[simp] theorem State.discardWrite_wf {s : State} (hwf : s.mem.wf = true) (t : CxlTxn) : (State.discardWrite s t).mem.wf = true := by
  unfold State.discardWrite
  grind [State.emit_mem, State.takeHost_wf]

@[simp] theorem State.failTxn_wf {s : State} (hwf : s.mem.wf = true) (t : CxlTxn) : (State.failTxn s t).mem.wf = true := by
  unfold State.failTxn
  (repeat' split) <;> simp [hwf]

@[simp] theorem State.troubled_wf {s : State} (hwf : s.mem.wf = true) (id : Nat) : (State.troubled s id).mem.wf = true := by
  unfold State.troubled
  (repeat' split) <;> simp [hwf]

theorem cxlCompletionTimeout_wf {s u : State} (hwf : s.mem.wf = true) (e : cxlCompletionTimeout s = some u) : u.mem.wf = true := by
  unfold cxlCompletionTimeout at e
  grind [Option.bind_eq_some_iff, Option.map_eq_some_iff, State.troubled_wf]

theorem cxlLinkDown_wf {s u : State} (hwf : s.mem.wf = true) (e : cxlLinkDown s = some u) : u.mem.wf = true := by
  unfold cxlLinkDown at e
  split at e
  · split at e
    · cases e
    · cases e
      exact foldl_wf (fun t a ht => by simp [ht]) (by simpa using hwf) _
  · cases e

@[simp] theorem State.linkBack_mem (s : State) (p : Nat) : (State.linkBack s p).mem = s.mem := by
  unfold State.linkBack
  grind [State.emit_mem, State.setCxl_mem, foldl_mem]

@[simp] theorem State.trainHost_mem (s : State) (cxl : Bool) : (State.trainHost s cxl).mem = s.mem := by
  simp [State.trainHost, State.mem_ite, foldl_mem]

theorem cxlLinkRetrain_mem {s u : State} (e : cxlLinkRetrain s = some u) : u.mem = s.mem := by
  grind [cxlLinkRetrain, State.linkBack_mem, State.trainHost_mem]

theorem expanderRetrain_mem {s u : State} (e : expanderRetrain s = some u) : u.mem = s.mem := by
  grind [expanderRetrain, State.setCxl_mem, State.linkBack_mem, State.dropExpander_mem]

end Sys2Proof.Machine
end

section
/-!
PROOF. The memory's canonical form (log 4) through reset, the virtual dies' controller, the registers, debugging, attestation and issue.
-/
namespace Sys2Proof.Machine

-- ## Machine/Reset

@[simp] theorem State.beginKill_mem (s : State) (v : Nat) (release : Bool) (code : Nat) (fromDie : Bool) (ks : List Kernel) :
    (s.beginKill v release code fromDie ks).mem = s.mem := by
  unfold State.beginKill
  split
  · rfl
  · rfl
  · exact foldl_mem (fun s a => by simp) _ _

theorem vfFunctionLevelReset_mem {s u : State} (e : vfFunctionLevelReset s = some u) : u.mem = s.mem := by
  grind [vfFunctionLevelReset, State.beginKill_mem]

@[simp] theorem State.dropCmds_mem (s : State) (p : Command → Bool) : (State.dropCmds s p).mem = s.mem := rfl

@[simp] theorem State.killCluster_mem (s : State) (v g : Nat) : (State.killCluster s v g).mem = s.mem := by
  simp [State.killCluster, foldl_mem]

@[simp] theorem State.killQueues_mem (s : State) (v : Nat) : (State.killQueues s v).mem = s.mem := rfl

@[simp] theorem State.dropAccesses_mem (s : State) (p : Access → Bool) : (State.dropAccesses s p).mem = s.mem := rfl

@[simp] theorem State.dropGroups_mem (s : State) (v : Nat) (p : Nat → Bool) : (State.dropGroups s v p).mem = s.mem := rfl

@[simp] theorem State.killAt_wf {s : State} (hwf : s.mem.wf = true) (v : Nat) (l : KillEngine) : (State.killAt s v l).mem.wf = true := by
  unfold State.killAt
  grind [State.killCluster_mem, State.dropCmds_mem, State.killQueues_mem, State.refuse_wf, State.dropAccesses_mem, State.dropGroups_mem,
      State.setCxl_mem, State.setVd_mem, State.dropWaits_mem, State.setDie_mem, foldl_wf]

theorem engineKill_wf {s u : State} (hwf : s.mem.wf = true) (e : engineKill s = some u) : u.mem.wf = true := by
  unfold engineKill at e
  split at e
  · obtain ⟨⟨m, t⟩, ht, h⟩ := Option.bind_eq_some_iff.1 e
    have := State.takeMsg_mem ht
    grind [State.takeMsg_mem, State.send_mem, State.killAt_wf]
  · cases e

theorem killAckTimeout_mem {s u : State} (e : killAckTimeout s = some u) : u.mem = s.mem := by
  unfold killAckTimeout at e
  grind [Option.bind_eq_some_iff, Option.map_eq_some_iff]

@[simp] theorem State.giveUpHost_wf {s : State} (hwf : s.mem.wf = true) (line : Nat) : (s.giveUpHost line).mem.wf = true := by
  unfold State.giveUpHost
  split
  · exact hwf
  dsimp only
  split
  · exact Memory.wf_store _ _ _ hwf
  · exact State.takeHost_wf hwf line

@[simp] theorem State.forget_wf {s : State} (hwf : s.mem.wf = true) (h line : Nat) (t : Tag) (home : Bool) :
    (State.forget s h line t home).mem.wf = true := by
  unfold State.forget
  (repeat' split) <;> simp [hwf]

@[simp] theorem State.forgetVd_wf {s : State} (hwf : s.mem.wf = true) (v : Nat) : (State.forgetVd s v).mem.wf = true := by
  simp +contextual [State.forgetVd, foldl_wf, hwf]

@[simp] theorem State.signalAddrs_wf {s : State} (hwf : s.mem.wf = true) (v : Nat) (ns : List Kernel) : (s.signalAddrs v ns).1.mem.wf =
    true := by
  induction ns generalizing s with
  | nil => exact hwf
  | cons n ns ih =>
    unfold State.signalAddrs
    split
    · exact ih hwf
    have ht := State.translate_wf hwf none v n.asid n.signal.toNat 1
    split <;> rename_i h <;> rw [h] at ht
    · exact ht
    · exact ih ht

@[simp] theorem State.eraseVd_wf {s : State} (hwf : s.mem.wf = true) (v : Nat) (k : KillRun) (sigs : List Nat) :
    (State.eraseVd s v k sigs).mem.wf = true := by
  unfold State.eraseVd
  grind [State.discardBlock_mem, State.forgetVd_wf, State.setVd_mem, foldl_wf]

@[simp] theorem State.enterActive_mem (s : State) (v : Nat) : (State.enterActive s v).mem = s.mem := by
  unfold State.enterActive
  split <;> rfl

@[simp] theorem State.endKill_mem (s : State) (v : Nat) (k : KillRun) : (State.endKill s v k).mem = s.mem := by
  unfold State.endKill
  grind [State.switchTo_mem, State.setVd_mem, State.deliver_mem, State.enterActive_mem, foldl_mem]

theorem killAcksComplete_wf {s u : State} (hwf : s.mem.wf = true) (e : killAcksComplete s = some u) : u.mem.wf = true := by
  unfold killAcksComplete at e
  split at e
  · obtain ⟨⟨m, t⟩, ht, h⟩ := Option.bind_eq_some_iff.1 e
    have hm : t.mem.wf = true := State.takeMsg_mem ht ▸ hwf
    dsimp only at h
    split at h
    · rw [← Option.some.inj h]
      split <;> simp [hm]
    · cases h
  · rename_i v _
    obtain ⟨k, -, h⟩ := Option.bind_eq_some_iff.1 e
    have hsig := State.signalAddrs_wf hwf v k.kernels
    split at h
    · cases h
    split at h
    · split at h <;> rename_i hr <;> rw [hr] at hsig <;> dsimp only at hsig
      · exact State.news_wf hsig h
      · rw [← Option.some.inj h]; simp [hsig]
    split at h
    · cases h
    split at h
    · rw [← Option.some.inj h]; simp [hwf]
    · dsimp only at h
      split at h <;> rename_i hg
      · exact State.goOn_wf hwf (by rw [hg]; exact h)
      · rw [← Option.some.inj h]; simp [State.goOn_wf hwf (by rw [hg]; rfl)]
      · rw [← Option.some.inj h]; simp [State.goOn_wf hwf (by rw [hg]; rfl)]
  · cases e

@[simp] theorem State.dropMessages_wf {s : State} (hwf : s.mem.wf = true) (d : Nat) (dead : Nat → Bool) :
    (State.dropMessages s d dead).mem.wf = true := by
  unfold State.dropMessages
  grind [State.send_mem, State.setHome_mem, State.giveUpHost_wf, foldl_wf]

@[simp] theorem State.dropPersistent_mem (s : State) (d : Nat) : (State.dropPersistent s d).mem = s.mem := by
  unfold State.dropPersistent
  grind [State.send_mem, foldl_mem]

theorem fatalDieError_wf {s u : State} (hwf : s.mem.wf = true) (e : fatalDieError s = some u) : u.mem.wf = true := by
  unfold fatalDieError at e
  split at e
  · split at e
    · cases e
    rw [← Option.some.inj e]
    simp only [State.dropPersistent_mem]
    refine State.dropMessages_wf (foldl_wf (fun t a ht => by simp [ht]) ?_ _) _ _
    simp [foldl_mem, hwf]
  · cases e

@[simp] theorem State.bringUp_wf {s : State} (hwf : s.mem.wf = true) (b : Boot) : (s.bringUp b).mem.wf = true := by
  have hs := foldl_wf (f := State.takeHost) (fun t l ht => State.takeHost_wf ht l) hwf (keys s.cxl.apart)
  unfold State.bringUp
  dsimp only
  split
  · exact Memory.wf_filter _ _ hs
  · rw [State.setBudget_mem]; exact Memory.wf_filter _ _ hs

theorem deviceReset_wf {s u : State} (hwf : s.mem.wf = true) (e : deviceReset s = some u) : u.mem.wf = true := by
  grind [deviceReset, State.bringUp_wf]

-- ## Machine/Vdc

@[simp] theorem State.mbEnd_mem (s : State) (seq status : Nat) (res : List Nat) : (State.mbEnd s seq status res).mem = s.mem := by
  simp [State.mbEnd]

theorem mailbox_wf {inRecovery : Bool} {bad : State → Bool} {allowed : VdState → Bool}
    {f : State → Nat → Except Nat (State × List Nat)} {s u : State} (hf : ∀ v p, f s v = .ok p → p.1.mem.wf = true)
    (hwf : s.mem.wf = true) (e : mailbox inRecovery bad allowed f s = some u) : u.mem.wf = true := by
  unfold mailbox at e
  split at e
  · dsimp only at e
    split at e
    · cases e; simpa using hwf
    split at e
    · cases e; simpa using hwf
    split at e
    · cases e; simpa using hwf
    split at e
    · cases e; simpa using hwf
    · cases e; rename_i h; simpa using hf _ _ h
  · cases e

theorem createVd_wf {s u : State} (hwf : s.mem.wf = true) (e : createVd s = some u) : u.mem.wf = true :=
  mailbox_wf (fun v p h => by split at h <;> cases h; exact hwf) hwf e

theorem startVd_wf {s u : State} (hwf : s.mem.wf = true) (e : startVd s = some u) : u.mem.wf = true :=
  mailbox_wf (fun v p h => by split at h <;> cases h; simpa using hwf) hwf e

theorem suspendVd_wf {s u : State} (hwf : s.mem.wf = true) (e : suspendVd s = some u) : u.mem.wf = true :=
  mailbox_wf (fun v p h => by cases h; simpa using hwf) hwf e

theorem resumeVd_wf {s u : State} (hwf : s.mem.wf = true) (e : resumeVd s = some u) : u.mem.wf = true :=
  mailbox_wf (fun v p h => by cases h; simpa using hwf) hwf e

theorem resetVd_wf {s u : State} (hwf : s.mem.wf = true) (e : resetVd s = some u) : u.mem.wf = true :=
  mailbox_wf (fun v p h => by cases h; simpa using hwf) hwf e

theorem destroyVd_wf {s u : State} (hwf : s.mem.wf = true) (e : destroyVd s = some u) : u.mem.wf = true :=
  mailbox_wf (fun v p h => by cases h; simpa using hwf) hwf e

theorem setWeight_wf {s u : State} (hwf : s.mem.wf = true) (e : setWeight s = some u) : u.mem.wf = true :=
  mailbox_wf (fun v p h => by cases h; simpa using hwf) hwf e

theorem setPowerMode_wf {s u : State} (hwf : s.mem.wf = true) (e : setPowerMode s = some u) : u.mem.wf = true :=
  mailbox_wf (fun v p h => by split at h <;> cases h; exact hwf) hwf e

theorem queryVd_wf {s u : State} (hwf : s.mem.wf = true) (e : queryVd s = some u) : u.mem.wf = true :=
  mailbox_wf (fun v p h => by cases h; exact hwf) hwf e

theorem loadImage_wf {s u : State} (hwf : s.mem.wf = true) (e : loadImage s = some u) : u.mem.wf = true :=
  mailbox_wf (fun v p h => by
    dsimp only at h
    split at h
    · cases h
    split at h
    · cases h
    · cases h; exact State.bringUp_wf hwf _) hwf e

theorem unknownCommand_mem {s u : State} (e : unknownCommand s = some u) : u.mem = s.mem := by
  grind [unknownCommand, State.mbEnd_mem]

@[simp] theorem State.refused_mem (s : State) (table : Nat) : (State.refused s table).mem = s.mem := rfl

theorem virtualDieTableWrite_mem {s u : State} (e : virtualDieTableWrite s = some u) : u.mem = s.mem := by
  grind [virtualDieTableWrite, State.refused_mem, State.setVd_mem]

theorem regionTableWrite_mem {s u : State} (e : regionTableWrite s = some u) : u.mem = s.mem := by
  grind [regionTableWrite, State.refused_mem, State.setDie_mem]

theorem keyTagWrite_wf {s u : State} (hwf : s.mem.wf = true) (e : keyTagWrite s = some u) : u.mem.wf = true := by
  unfold keyTagWrite at e
  split at e
  · dsimp only at e
    split at e
    · cases e
    split at e
    · split at e
      · cases e; simpa using hwf
      · exact State.withFrame_wf (fun t u ht hu => by cases hu; simpa using ht) hwf e
    split at e
    · cases e; simpa using hwf
    split at e
    · cases e
    · exact State.bindFrame_wf (fun t u ht hu => by cases hu; exact ht) hwf e
  · cases e

theorem stage2EntryWrite_wf {s u : State} (hwf : s.mem.wf = true) (e : stage2EntryWrite s = some u) : u.mem.wf = true := by
  unfold stage2EntryWrite at e
  split at e
  · split at e
    · cases e; simpa using hwf
    split at e
    · cases e; simpa using hwf
    · exact State.owning_wf (fun t ht => by simp [ht]) hwf e
  · cases e

theorem interruptRemapWrite_mem {s u : State} (e : interruptRemapWrite s = some u) : u.mem = s.mem := by
  grind [interruptRemapWrite, State.refused_mem, State.setVd_mem]

theorem keySlotLoad_mem {s u : State} (e : keySlotLoad s = some u) : u.mem = s.mem := by
  grind [keySlotLoad, State.refused_mem]

theorem vdControlBlockWrite_mem {s u : State} (e : vdControlBlockWrite s = some u) : u.mem = s.mem := by
  grind [vdControlBlockWrite, State.refused_mem, State.setVd_mem, State.beginKill_mem, State.enterActive_mem]

theorem schcfgWrite_mem {s u : State} (e : schcfgWrite s = some u) : u.mem = s.mem := by
  grind [schcfgWrite, State.refused_mem]

theorem schpoolWrite_mem {s u : State} (e : schpoolWrite s = some u) : u.mem = s.mem := by
  grind [schpoolWrite, State.refused_mem]

-- ## Machine/Regs

@[simp] theorem State.push_mem (s : State) (l : List (Instr × Focus)) : (State.push s l).mem = s.mem := rfl

@[simp] theorem State.msixWrite_mem (s : State) (fn off size value : Nat) : (State.msixWrite s fn off size value).mem = s.mem := by
  simp [State.msixWrite, State.mem_ite]

@[simp] theorem State.controlWrite_mem (s : State) (v r size value : Nat) : (State.controlWrite s v r size value).mem = s.mem := by
  simp [State.controlWrite, State.mem_ite]

@[simp] theorem State.pfWrite_mem (s : State) (off size value : Nat) : (State.pfWrite s off size value).mem = s.mem := by
  simp [State.pfWrite, State.mem_ite]

@[simp] theorem State.vdcWrite_mem (s : State) (off value : Nat) : (State.vdcWrite s off value).mem = s.mem := by
  unfold State.vdcWrite
  grind [State.setVd_mem, State.setBucket_mem, State.refused_mem, State.setCxl_mem]

theorem registerWrite_mem {s u : State} (e : registerWrite s = some u) : u.mem = s.mem := by
  grind [registerWrite, State.vdcWrite_mem, State.pfWrite_mem, State.push_mem, State.controlWrite_mem, State.msixWrite_mem]

-- ## Machine/Debug

theorem smpcfgWrite_mem {s u : State} (e : smpcfgWrite s = some u) : u.mem = s.mem := by
  grind [smpcfgWrite, State.setVd_mem]

theorem smpheadWrite_mem {s u : State} (e : smpheadWrite s = some u) : u.mem = s.mem := by
  grind [smpheadWrite, State.setVd_mem]

theorem smpdropClear_mem {s u : State} (e : smpdropClear s = some u) : u.mem = s.mem := by
  grind [smpdropClear, State.setVd_mem]

theorem samplerTick_wf {s u : State} (hwf : s.mem.wf = true) (e : samplerTick s = some u) : u.mem.wf = true := by
  unfold samplerTick at e
  grind [Option.bind_eq_some_iff, Option.map_eq_some_iff, State.setCl_mem, State.setVd_mem, State.sampleRecord_wf]

theorem memreqRecord_wf {s u : State} (hwf : s.mem.wf = true) (e : memreqRecord s = some u) : u.mem.wf = true := by
  unfold memreqRecord at e
  grind [Option.bind_eq_some_iff, Option.map_eq_some_iff, State.freeBytes_mem, State.sampleRecord_wf]

@[simp] theorem State.dbgEnd_mem (s : State) (v status : Nat) : (State.dbgEnd s v status).mem = s.mem := rfl

@[simp] theorem State.release_wf {s : State} (hwf : s.mem.wf = true) (v i n : Nat) : (State.release s v i n).mem.wf = true := by
  unfold State.release
  grind [State.setVd_mem, State.setBlk_mem, State.fill_wf]

theorem State.debug_wf {s u : State} {f : Nat → Nat → Nat → Nat → State} (hf : ∀ v w h n, (f v w h n).mem.wf = true)
    (hwf : s.mem.wf = true) (e : s.debug f = some u) : u.mem.wf = true := by
  unfold State.debug at e
  split at e
  · split at e
    · cases e
    split at e
    · cases e; exact hf _ _ _ _
    · cases e; simpa using hwf
  · cases e

theorem debugContinue_wf {s u : State} (hwf : s.mem.wf = true) (e : debugContinue s = some u) : u.mem.wf = true :=
  State.debug_wf (fun _ _ _ _ => by simp [hwf]) hwf e

theorem debugStep_wf {s u : State} (hwf : s.mem.wf = true) (e : debugStep s = some u) : u.mem.wf = true :=
  State.debug_wf (fun _ _ _ _ => by simp [hwf]) hwf e

@[simp] theorem State.replayAccesses_wf {s : State} (hwf : s.mem.wf = true) (n : Nat) (log : List LogEntry) :
    (State.replayAccesses s n log).mem.wf = true := by
  unfold State.replayAccesses
  grind [State.complete_wf, foldl_wf]

@[simp] theorem State.rollBack_wf {s : State} (hwf : s.mem.wf = true) (n wi count : Nat) (b : Block) (img : Image) :
    (State.rollBack s n wi count b img).mem.wf = true := by
  simp [State.rollBack, hwf]

theorem debugRollback_wf {s u : State} (hwf : s.mem.wf = true) (e : debugRollback s = some u) : u.mem.wf = true :=
  State.debug_wf (fun _ _ _ _ => by dsimp only; (repeat' split) <;> simp [hwf]) hwf e

@[simp] theorem State.endReplay_mem (s : State) (n : Nat) (b : Block) : (State.endReplay s n b).mem = s.mem := by
  unfold State.endReplay
  split <;> rfl

theorem rollbackCountReached_wf {s u : State} (hwf : s.mem.wf = true) (e : rollbackCountReached s = some u) : u.mem.wf = true := by
  unfold rollbackCountReached at e
  grind [Option.bind_eq_some_iff, Option.map_eq_some_iff, State.setVd_mem, State.abandonFor_wf, State.endReplay_mem, State.setBlk_mem]

-- ## Machine/Attest

@[simp] theorem State.setSpdm_mem (s : State) (fn : Nat) (f : Spdm → Spdm) : (State.setSpdm s fn f).mem = s.mem := by
  unfold State.setSpdm
  split <;> rfl

@[simp] theorem State.say_mem (s : State) (fn code : Nat) (body : List Byte) : (State.say s fn code body).mem = s.mem := by
  unfold State.say
  split <;> simp

@[simp] theorem State.respond_mem (s : State) (fn req a b code : Nat) (body : List Byte) :
    (State.respond s fn req a b code body).mem = s.mem := by
  simp [State.respond]

theorem spdmStep_wf {ok : Spdm → Bool} {f : State → Nat → Spdm → Nat → Nat → State} {s u : State}
    (hf : ∀ fn x a b, (f s fn x a b).mem = s.mem) (hwf : s.mem.wf = true) (e : spdmStep ok f s = some u) : u.mem.wf = true := by
  unfold spdmStep at e
  split at e
  · obtain ⟨x, -, rfl⟩ := Option.map_eq_some_iff.1 e
    split
    · rw [hf]; exact hwf
    · simpa using hwf
  · cases e

theorem spdmGetVersion_wf {s u : State} (hwf : s.mem.wf = true) (e : spdmGetVersion s = some u) : u.mem.wf = true :=
  spdmStep_wf (fun _ _ _ _ => by simp) hwf e

theorem spdmGetCapabilities_wf {s u : State} (hwf : s.mem.wf = true) (e : spdmGetCapabilities s = some u) : u.mem.wf = true :=
  spdmStep_wf (fun _ _ _ _ => by simp) hwf e

theorem spdmNegotiateAlgorithms_wf {s u : State} (hwf : s.mem.wf = true) (e : spdmNegotiateAlgorithms s = some u) : u.mem.wf = true :=
  spdmStep_wf (fun _ _ _ _ => by simp) hwf e

theorem spdmGetDigests_wf {s u : State} (hwf : s.mem.wf = true) (e : spdmGetDigests s = some u) : u.mem.wf = true :=
  spdmStep_wf (fun _ _ _ _ => by simp) hwf e

theorem spdmGetCertificate_wf {s u : State} (hwf : s.mem.wf = true) (e : spdmGetCertificate s = some u) : u.mem.wf = true :=
  spdmStep_wf (fun _ _ _ _ => by simp) hwf e

theorem spdmChallenge_wf {s u : State} (hwf : s.mem.wf = true) (e : spdmChallenge s = some u) : u.mem.wf = true :=
  spdmStep_wf (fun _ _ _ _ => by simp) hwf e

theorem spdmGetMeasurements_wf {s u : State} (hwf : s.mem.wf = true) (e : spdmGetMeasurements s = some u) : u.mem.wf = true :=
  spdmStep_wf (fun _ _ _ _ => by dsimp only; split <;> simp) hwf e

theorem spdmKeyExchange_wf {s u : State} (hwf : s.mem.wf = true) (e : spdmKeyExchange s = some u) : u.mem.wf = true :=
  spdmStep_wf (fun _ _ _ _ => by simp) hwf e

theorem spdmFinish_wf {s u : State} (hwf : s.mem.wf = true) (e : spdmFinish s = some u) : u.mem.wf = true :=
  spdmStep_wf (fun _ _ _ _ => by simp) hwf e

theorem spdmEndSession_wf {s u : State} (hwf : s.mem.wf = true) (e : spdmEndSession s = some u) : u.mem.wf = true :=
  spdmStep_wf (fun _ _ _ _ => by simp) hwf e

theorem spdmUnsupportedRequest_wf {s u : State} (hwf : s.mem.wf = true) (e : spdmUnsupportedRequest s = some u) : u.mem.wf = true :=
  spdmStep_wf (fun _ _ _ _ => by split <;> simp) hwf e

-- ## Machine/Eject

theorem flitEjection_mem {s u : State} (e : flitEjection s = some u) : u.mem = s.mem := by
  unfold flitEjection at e
  grind [Option.bind_eq_some_iff, Option.map_eq_some_iff]

-- ## Machine/Due

@[simp] theorem Ctx.fetchInstr_wf {s : State} (hwf : s.mem.wf = true) (c : Ctx) (n : Nat) (pc : DWord) : (c.fetchInstr n s pc).1.mem.wf =
    true := by
  induction n generalizing s pc with
  | zero => exact hwf
  | succ n ih =>
    have hs := Ctx.fetch_wf hwf c pc
    unfold Ctx.fetchInstr
    split <;> rename_i h <;> rw [h] at hs
    · split
      · have hn := ih hs (pc + 4#64)
        split <;> rename_i h <;> (try rw [h] at hn) <;> exact hn
      · exact hs
    · exact hs

@[simp] theorem State.passTime_mem (s : State) : (State.passTime s).mem = s.mem := rfl

-- ## Machine/Issue

@[simp] theorem State.choose_mem (s : State) (w : WarpRef) (f : Nat) : (State.choose s w f).mem = s.mem := rfl

@[simp] theorem State.fetched_mem (s : State) (ws : List Word) : (State.fetched s ws).mem = s.mem := rfl

end Sys2Proof.Machine
end

section
/-!
PROOF. What the shared parts of an instruction (checks, faults, ordering, translation) come to keeps the memory's canonical form, and so
does settling an outcome.
-/
namespace Sys2Proof.Machine

section
variable {s : State}
@[simp] theorem Res.wf_done : (Res.done s).Wf ↔ s.mem.wf = true := Res.mem_done
@[simp] theorem Res.wf_goto (pc : DWord) (b : Bool) : (Res.goto s pc b).Wf ↔ s.mem.wf = true := Res.mem_goto pc b
@[simp] theorem Res.wf_park (w : Wait) : (Res.park s w).Wf ↔ s.mem.wf = true := Res.mem_park w
@[simp] theorem Res.wf_moved : (Res.moved s).Wf ↔ s.mem.wf = true := Res.mem_moved
@[simp] theorem Res.wf_issued : (Res.issued s).Wf ↔ s.mem.wf = true := Res.mem_issued
@[simp] theorem Res.wf_wait (w : Wait) : (Res.wait s w).Wf ↔ s.mem.wf = true := Res.mem_wait w
@[simp] theorem Res.wf_parked : (Res.parked s).Wf ↔ s.mem.wf = true := Res.mem_parked
@[simp] theorem Res.wf_busy : (Res.busy s).Wf ↔ s.mem.wf = true := Res.mem_busy
@[simp] theorem Res.wf_hold (r : Stall) : (Res.hold r).Wf := Res.mem_hold r
@[simp] theorem Res.wf_fault (i : FaultInfo) : (Res.fault i).Wf := Res.mem_fault i
end

theorem Res.faultIn_wf {s : State} (hwf : s.mem.wf = true) (c : Ctx) (i : FaultInfo) : (Res.faultIn c s i).Wf := by
  unfold Res.faultIn
  split <;> simp [hwf]

section
variable {q : Memory → Prop} {c : Ctx} {f : Res}
theorem checkRange_mem (os : List Opnd) (hf : f.Mem q) : (checkRange c os f).Mem q := by
  unfold checkRange
  split
  · exact Res.mem_fault _
  · exact hf
theorem checkReady_mem (os : List Opnd) (hf : f.Mem q) (cls : Option Nat) : (checkReady c os f cls).Mem q := by
  unfold checkReady
  split
  · exact Res.mem_hold _
  split
  · exact Res.mem_fault _
  · exact hf
theorem checks_mem (os os' : List Opnd) (cls : Option Nat) (hf : f.Mem q) : (checkRange c os (checkReady c os' f cls)).Mem q :=
  checkRange_mem os (checkReady_mem os' hf cls)
theorem checked_mem (os : List Opnd) (hf : f.Mem q) : (checked c os f).Mem q := checks_mem os os none hf
theorem guarded_mem {os : List Opnd} {cls : Option Nat} (hs : q c.s.mem) (hf : f.Mem q) : (guarded c os f cls).Mem q := by
  refine checkRange_mem os ?_
  split
  · exact checkReady_mem os hf cls
  · exact Res.mem_done.2 hs
theorem Res.inLanes_mem (m : Mask) {r : Res} (hr : r.Mem q) : (r.inLanes m).Mem q := by
  cases r with
  | fault i => exact Res.mem_fault _
  | _ => exact hr
end

section
variable {c : Ctx} (hwf : c.s.mem.wf = true)
include hwf

theorem guarded_wf {os : List Opnd} {cls : Option Nat} {f : Res} (hf : f.Wf) : (guarded c os f cls).Wf := guarded_mem hwf hf

theorem takeErr_wf (ns : List Nat) {f : Res} (hf : f.Wf) : (takeErr c ns f).Wf := by
  unfold takeErr
  split
  · exact Res.faultIn_wf (by simp [hwf]) _ _
  · exact hf

theorem Ctx.ordered_wf {f : Ctx → Res} (hf : ∀ d : Ctx, d.s.mem.wf = true → (f d).Wf) : (c.ordered f).Wf := by
  unfold Ctx.ordered
  split
  · simp
  split
  · exact hf c hwf
  split
  · simp
  · exact hf _ (by simp [hwf])

theorem Ctx.releasing_wf (o : Option OPfx) (n : Nat) {f : Ctx → Res} (hf : ∀ d : Ctx, d.s.mem.wf = true → (f d).Wf) :
    (c.releasing o n f).Wf := by
  unfold Ctx.releasing
  split
  · exact hf c hwf
  split
  · exact hf _ (by simp [hwf])
  · simp

theorem Ctx.arriving_wf (scope : Nat) {f : Ctx → Res} (hf : ∀ d : Ctx, d.s.mem.wf = true → (f d).Wf) : (c.arriving scope f).Wf := by
  refine Ctx.ordered_wf hwf fun d hd => ?_
  split
  · exact takeErr_wf hd _ (hf _ (by simp [hd]))
  · simp

theorem Ctx.stop_wf (i : FaultInfo) : (c.stop i).Wf := by
  unfold Ctx.stop
  dsimp only
  split
  · simp
  split
  · simp [hwf]
  split <;> simp [hwf]
end

theorem Ctx.parkOn_wf {s : State} (hwf : s.mem.wf = true) (c : Ctx) (rs : List FRecord) : (c.parkOn s rs).Wf := by
  unfold Ctx.parkOn
  split
  · simp
  · rename_i h
    have hm := State.enterWait_mem h
    simp_all

theorem Ctx.ring_wf {c : Ctx} {s : State} {slot : Nat} {f : State → Res} (hwf : s.mem.wf = true)
    (hf : ∀ t : State, t.mem.wf = true → (f t).Wf) : (c.ring s slot f).Wf := by
  unfold Ctx.ring
  dsimp only
  split
  · rename_i h
    simp [State.tablesLack_mem h, hwf]
  split
  · exact hf _ (by simp [hwf])
  · exact Ctx.parkOn_wf hwf _ _
  · exact Ctx.parkOn_wf hwf _ _
  · simp

theorem Ctx.access_wf {c : Ctx} {atype log2w : Nat} {lanes : List (Nat × Nat)} {who : Mask} {f : State → List (Nat × Nat) → Res}
    (hwf : c.s.mem.wf = true) (hf : ∀ (t : State) pas, t.mem.wf = true → (f t pas).Wf) : (c.access atype log2w lanes f who).Wf := by
  unfold Ctx.access
  split
  · exact Ctx.stop_wf hwf _
  have ht := transLanes_wf hwf c.place c.vd c.k.asid atype lanes
  generalize transLanes c.place c.vd c.k.asid atype c.s lanes = y at ht ⊢
  dsimp only
  split
  · simp [ht]
  split
  · exact Res.faultIn_wf ht _ _
  split
  · exact hf _ _ ht
  · exact Ctx.parkOn_wf ht _ _

theorem Ctx.walked_wf {c : Ctx} {lanes : List (Nat × Nat)} {f : State → List (Nat × Nat × Tr) → Res} (hwf : c.s.mem.wf = true)
    (hf : ∀ (t : State) ts, t.mem.wf = true → (f t ts).Wf) : (c.walked lanes f).Wf := by
  unfold Ctx.walked
  have ht := transLanes_wf hwf c.place c.vd c.k.asid 0 lanes
  generalize transLanes c.place c.vd c.k.asid 0 c.s lanes = y at ht ⊢
  dsimp only
  split
  · simp [ht]
  · exact hf _ _ ht

section
variable {c : Ctx} (hwf : c.s.mem.wf = true)
include hwf

theorem memFrame_wf {p : Option VPfx} {os : List Opnd} {cls : Nat} {f : Ctx → Eff → Res}
    (hf : ∀ (d : Ctx) e, d.s.mem.wf = true → (f d e).Wf) : (memFrame p os c f cls).Wf := by
  refine Res.inLanes_mem _ ?_
  split
  · simp
  · exact checks_mem _ _ _ (Ctx.ordered_wf hwf fun d hd => hf d _ hd)

theorem lineFrame_wf {p : Option VPfx} {a : BitVec 8} {m : MFld} {f : Ctx → Eff → List (Nat × Nat) → Res}
    (hf : ∀ (d : Ctx) e ls, d.s.mem.wf = true → (f d e ls).Wf) : (lineFrame p a m c f).Wf := by
  refine Res.inLanes_mem _ ?_
  split
  · simp
  · exact checks_mem _ _ _ (Ctx.ordered_wf hwf fun d hd => hf d _ _ hd)

theorem atomFrame_wf {op : Nat} {o : Option OPfx} {p : Option VPfx} {d : BitVec 8} {addr : List Opnd} {m : MFld} {f : Ctx → Eff → Res}
    (hf : ∀ (d : Ctx) e, d.s.mem.wf = true → (f d e).Wf) : (atomFrame op o p d addr m c f).Wf := by
  refine Res.inLanes_mem _ ?_
  split
  · simp
  · exact checks_mem _ _ _ (Ctx.ordered_wf hwf fun d hd => hf d _ hd)

theorem scalarMem_wf {os : List Opnd} {a : BitVec 8} {n log2w atype : Nat} {f : Ctx → State → Nat → Nat → Res}
    (hf : ∀ (d : Ctx) (t : State) l pa, t.mem.wf = true → (f d t l pa).Wf) : (scalarMem os a n log2w atype c f).Wf := by
  refine guarded_wf hwf (Ctx.ordered_wf hwf fun d hd => ?_)
  dsimp only
  split
  · simp
  · exact Ctx.access_wf hd fun t pas ht => hf d t _ _ ht
end

theorem holdIn_wf {s : State} (hwf : s.mem.wf = true) (r : Stall) : (holdIn s r).Wf := Res.wf_parked.2 hwf

/-! What an outcome comes to. -/
theorem settle_mem {q : Memory → Prop} {c : Ctx} {r : Res} (hq : q c.s.mem) (hr : r.Mem q) : q (settle c r).mem := by
  cases r with
  | done s | goto s pc spin | moved s | issued s | wait s w | parked s | busy s =>
    have hs := hr s rfl
    simp [settle, hs]
  | park s w =>
    have hs := hr s rfl
    unfold settle
    dsimp only
    split <;> simp [hs]
  | hold r => exact hq
  | fault i => simp [settle, hq]

theorem settle_wf {c : Ctx} {r : Res} (hwf : c.s.mem.wf = true) (hr : r.Wf) : (settle c r).mem.wf = true := settle_mem hwf hr

end Sys2Proof.Machine
end

section
/-!
PROOF. Scalar and vector instructions on registers keep the memory as it is; VMATCH,
    VEXEC and the issue of accesses keep its canonical form.
-/
namespace Sys2Proof.Machine

section
variable {c : Ctx} {q : Memory → Prop} (hq : q c.s.mem)
include hq

theorem Ctx.writeS_mem (d : BitVec 8) (v : Word) : (c.writeS d v).Mem q := by
  simp [Ctx.writeS, hq]

theorem scalarR_mem (d a b : BitVec 8) (op : Word → Word → Word) : (scalarR d a b op c).Mem q :=
  guarded_mem hq (Ctx.writeS_mem hq _ _)

theorem scalarU_mem (d a : BitVec 8) (op : Word → Word) : (scalarU d a op c).Mem q :=
  guarded_mem hq (Ctx.writeS_mem hq _ _)

theorem scalarI_mem (d a : BitVec 8) (imm : Word) (op : Word → Word → Word) : (scalarI d a imm op c).Mem q :=
  guarded_mem hq (Ctx.writeS_mem hq _ _)

theorem scalarMovi_mem (d : BitVec 8) (imm : Word) : (scalarMovi d imm c).Mem q :=
  guarded_mem hq (Ctx.writeS_mem hq _ _)

theorem accRun_mem (y : VBody) (e : Eff) (id b d : Nat) : (accRun c y e id b d).Mem q := by
  unfold accRun
  dsimp only
  repeat' split
  all_goals simp [hq]

theorem vec_mem (p : Option VPfx) (y : VBody) : (vec p y c).Mem q := by
  refine Res.inLanes_mem _ ?_
  split
  · simp
  split
  · exact checks_mem _ _ _ (accRun_mem hq _ _ _ _ _)
  · refine checks_mem _ _ _ ?_
    split <;> simp [hq]
end

theorem vmatch_wf {c : Ctx} (hwf : c.s.mem.wf = true) (p : Option VPfx) (d a : BitVec 8) : (vmatch p d a c).Wf := by
  refine Res.inLanes_mem _ ?_
  split
  · simp
  refine checks_mem _ _ _ ?_
  split <;> simp [hwf]

theorem vexecWord_wf {c : Ctx} (hwf : c.s.mem.wf = true) (p : Option VPfx) (r : VexecRun) : (vexecWord p c r).Wf := by
  unfold vexecWord
  split
  · simp
  split
  · simp [hwf]
  dsimp only
  split
  · simp
  split
  · exact Res.faultIn_wf (by simp [hwf]) _ _
  · split <;> simp [hwf]

theorem vexec_wf {c : Ctx} (hwf : c.s.mem.wf = true) (me : Instr) (p : Option VPfx) (q : Option (BitVec 8)) (a : BitVec 8) :
    (vexec me p q a c).Wf := by
  unfold vexec
  split
  · exact vexecWord_wf hwf _ _
  refine Res.inLanes_mem _ ?_
  split
  · simp
  refine checks_mem _ _ _ (Ctx.ordered_wf hwf fun d hd => ?_)
  dsimp only
  split
  · exact Res.faultIn_wf (by simp [hd]) _ _
  · simp [hd]

theorem Ctx.issueGroups_wf {s : State} (hwf : s.mem.wf = true) (c : Ctx) (cls : Nat) (spin : Spin) (gs : List (List Access)) :
    (c.issueGroups s cls spin gs).Wf := by
  unfold Ctx.issueGroups
  dsimp only
  repeat' split
  all_goals simp [hwf]

theorem Ctx.issue_wf {s : State} (hwf : s.mem.wf = true) (c : Ctx) (cls : Nat) (load : Bool) (as : List Access) :
    (c.issue s cls load as).Wf := Ctx.issueGroups_wf hwf _ _ _ _

theorem Ctx.serve_wf {c : Ctx} (hwf : c.s.mem.wf = true) (as : List Access) : (c.serve as).Wf := by
  refine Res.wf_done.2 (foldl_wf (fun s a hs => ?_) hwf as)
  split
  · rename_i vals t d h _
    have ht : t.mem = s.mem := State.popLog_mem h
    simp [ht, hs]
  · rename_i vals t h _
    have ht : t.mem = s.mem := State.popLog_mem h
    rw [ht]
    exact hs
  · exact hs

end Sys2Proof.Machine
end

section
/-!
PROOF. Loads, stores, atomics and cache operations keep the memory's canonical form.
-/
namespace Sys2Proof.Machine

theorem Res.wf_of_eq {r : Res} {s : State} (hr : r.Wf) (e : r = .done s) : s.mem.wf = true := by
  rw [e] at hr; exact Res.wf_done.1 hr

theorem ldg_wf {c : Ctx} (hwf : c.s.mem.wf = true) (o : Option OPfx) (p : Option VPfx) (d a : BitVec 8) (m : MFld) :
    (ldg o p d a m c).Wf := by
  refine memFrame_wf hwf fun c e hc => ?_
  dsimp only
  split
  · simp
  refine Ctx.access_wf hc fun s pas hs => ?_
  split
  · exact Ctx.serve_wf (by simp [hs]) _
  split <;> exact Ctx.issue_wf (by simp [hs]) _ _ _ _

theorem stg_wf {c : Ctx} (hwf : c.s.mem.wf = true) (o : Option OPfx) (p : Option VPfx) (d a : BitVec 8) (m : MFld) :
    (stg o p d a m c).Wf := by
  refine memFrame_wf hwf fun c e hc => ?_
  dsimp only
  split
  · simp
  refine Ctx.releasing_wf hc o 2 fun c hc => Ctx.access_wf hc fun s pas hs => ?_
  split
  · simp [hs]
  split
  · simp
  have hi : ∀ (t : State) as, t.mem.wf = true → (c.issue t 1 false as).Wf := fun t as ht => Ctx.issue_wf ht _ _ _ _
  split
  · rename_i u hu
    have hu : u.mem.wf = true := Res.wf_of_eq (hi _ _ (by split <;> simp [hs])) hu
    refine Res.wf_done.2 ?_
    split
    · exact hu
    · exact foldl_wf (fun s a hs => by simp [hs]) hu _
  · exact hi _ _ (by split <;> simp [hs])

theorem ldgnf_wf {c : Ctx} (hwf : c.s.mem.wf = true) (o : Option OPfx) (p : VPfx) (d a : BitVec 8) (m : MFld) :
    (ldgnf o p d a m c).Wf := by
  refine memFrame_wf hwf fun c e hc => ?_
  dsimp only
  split
  · simp
  split
  · exact Ctx.stop_wf hc _
  refine Ctx.walked_wf hc fun s ts hs => ?_
  split
  · exact Res.faultIn_wf hs _ _
  split
  · exact Ctx.parkOn_wf hs _ _
  split
  · exact Ctx.serve_wf (by simp [hs]) _
  split <;> exact Ctx.issue_wf (by simp [hs]) _ _ _ _

theorem lds_wf {c : Ctx} (hwf : c.s.mem.wf = true) (o : Option OPfx) (p : Option VPfx) (d a : BitVec 8) (m : MFld) :
    (lds o p d a m c).Wf := by
  refine memFrame_wf hwf fun c e hc => ?_
  split <;> simp [hc]

theorem sts_wf {c : Ctx} (hwf : c.s.mem.wf = true) (o : Option OPfx) (p : Option VPfx) (d a : BitVec 8) (m : MFld) :
    (sts o p d a m c).Wf := by
  refine memFrame_wf hwf fun c e hc => ?_
  split
  · simp
  · exact Ctx.releasing_wf hc o 1 fun c hc => by simp [hc]

theorem ldw_wf {c : Ctx} (hwf : c.s.mem.wf = true) (p : Option VPfx) (d a : BitVec 8) (m : MFld) : (ldw p d a m c).Wf := by
  refine memFrame_wf hwf fun c e hc => ?_
  dsimp only
  split
  · simp
  split
  · simp [hc]
  split
  · simp
  split
  · simp
  split
  · exact Ctx.serve_wf (by simp [hc]) _
  · exact Ctx.issue_wf (by simp [hc]) _ _ _ _

theorem pref_wf {c : Ctx} (hwf : c.s.mem.wf = true) (p : Option VPfx) (a : BitVec 8) (m : MFld) : (pref p a m c).Wf :=
  lineFrame_wf hwf fun c e ls hc => Ctx.walked_wf hc fun s ts hs => by simp [hs]

theorem cflush_wf {c : Ctx} (hwf : c.s.mem.wf = true) (p : Option VPfx) (a : BitVec 8) (m : MFld) : (cflush p a m c).Wf :=
  lineFrame_wf hwf fun _ _ _ hc => Ctx.walked_wf hc fun _ _ hs => Ctx.issueGroups_wf hs _ _ _ _

theorem pgreq_wf {c : Ctx} (hwf : c.s.mem.wf = true) (p : Option VPfx) (a : BitVec 8) (m : MFld) : (pgreq p a m c).Wf :=
  lineFrame_wf hwf fun c e ls hc => Ctx.walked_wf hc fun s ts hs => by simp [hs]

theorem sld_wf {c : Ctx} (hwf : c.s.mem.wf = true) (o : Option OPfx) (d a : BitVec 8) (w : BitVec 3) (st : Bool) :
    (sld o d a w st c).Wf := by
  refine scalarMem_wf hwf fun c s l pa hs => ?_
  dsimp only
  split
  · exact Ctx.serve_wf (c := { c with s := s }) hs _
  · exact Ctx.issue_wf (by simp [hs]) _ _ _ _

theorem sst_wf {c : Ctx} (hwf : c.s.mem.wf = true) (o : Option OPfx) (d a : BitVec 8) (w : BitVec 3) (st : Bool) :
    (sst o d a w st c).Wf := by
  refine scalarMem_wf hwf fun c s l pa hs => Ctx.releasing_wf (c := { c with s := s }) hs o 2 fun c hc => ?_
  dsimp only
  split
  · simp [hc]
  split
  · simp
  have hi := fun cmd => Ctx.issue_wf hc c 1 false [cmd]
  split
  · rename_i e
    simp [Res.wf_of_eq (hi _) e]
  · exact hi _

theorem atomIssue_wf {s : State} (hwf : s.mem.wf = true) (c : Ctx) (far : Bool) (op t : Nat) (nr : Bool) (as : List Access) :
    (atomIssue c s far op t nr as).Wf := by
  have hserve : (Ctx.serve { c with s := s } as).Wf := Ctx.serve_wf (c := { c with s := s }) hwf as
  unfold atomIssue
  cases far with
  | false =>
    cases nr <;> simp only [if_true, if_false, Bool.false_eq_true, Bool.false_and]
    all_goals
      split
      · simp only [Res.wf_done, hserve, hwf]
      · exact Ctx.issue_wf (by split <;> simp [hwf]) _ _ _ _
  | true =>
    cases nr <;> simp only [if_true, if_false, Bool.false_eq_true, Bool.true_and]
    all_goals
      split
      · simp only [Res.wf_done, hserve, hwf]
      split
      · simp
      · exact Ctx.issue_wf (by rw [sendAllFar_mem]; split <;> simp [hwf]) _ _ _ _

theorem atomg_wf {c : Ctx} (hwf : c.s.mem.wf = true) (op : Nat) (o : Option OPfx) (p : Option VPfx) (d a : BitVec 8) (m : MFld) :
    (atomg op o p d a m c).Wf := by
  refine atomFrame_wf hwf fun c e hc => ?_
  dsimp only
  split
  · simp
  refine Ctx.releasing_wf hc o 2 fun c hc => Ctx.access_wf hc fun s pas hs => atomIssue_wf ?_ _ _ _ _ _ _
  split <;> simp [hs]

theorem atoms_wf {c : Ctx} (hwf : c.s.mem.wf = true) (op : Nat) (o : Option OPfx) (p : Option VPfx) (d a : BitVec 8) (m : MFld) :
    (atoms op o p d a m c).Wf := by
  refine atomFrame_wf hwf fun c e hc => ?_
  split
  · simp
  · exact Ctx.releasing_wf hc o 1 fun c hc => by simp [hc]

theorem satom_wf {c : Ctx} (hwf : c.s.mem.wf = true) (o : Option OPfx) (d a : BitVec 8) : (satom o d a c).Wf :=
  scalarMem_wf hwf fun c s _ _ hs => Ctx.releasing_wf (c := { c with s := s }) hs o 2 fun _ hc => atomIssue_wf hc _ _ _ _ _ _

end Sys2Proof.Machine
end

section
/-!
PROOF. Control, synchronisation, system, remote, copy and matrix instructions keep the memory's canonical form.
-/
namespace Sys2Proof.Machine

theorem Res.ite_wf {p : Prop} [Decidable p] {a b : Res} (ha : a.Wf) (hb : b.Wf) : (if p then a else b).Wf := by
  split
  · exact ha
  · exact hb

theorem scalarSel_wf {c : Ctx} (hwf : c.s.mem.wf = true) (d a b : BitVec 8) : (scalarSel d a b c).Wf :=
  guarded_wf hwf (Ctx.writeS_mem hwf _ _)

theorem scalarAdd64_wf {c : Ctx} (hwf : c.s.mem.wf = true) (d a b : BitVec 8) : (scalarAdd64 d a b c).Wf :=
  guarded_wf hwf (by simp [hwf])

theorem setmode_wf {c : Ctx} (hwf : c.s.mem.wf = true) (a : BitVec 8) : (setmode a c).Wf :=
  checks_mem _ _ _ (by split <;> simp [hwf])

theorem getmode_wf {c : Ctx} (hwf : c.s.mem.wf = true) (d : BitVec 8) : (getmode d c).Wf :=
  checks_mem _ _ _ (Ctx.writeS_mem hwf _ _)

theorem prd_wf {c : Ctx} (hwf : c.s.mem.wf = true) (d a : BitVec 8) : (prd d a c).Wf :=
  guarded_wf hwf (Ctx.writeS_mem hwf _ _)

theorem pwr_wf {c : Ctx} (hwf : c.s.mem.wf = true) (d a : BitVec 8) : (pwr d a c).Wf :=
  guarded_wf hwf (by simp [hwf])

theorem vgetl_wf {c : Ctx} (hwf : c.s.mem.wf = true) (d a b : BitVec 8) : (vgetl d a b c).Wf :=
  guarded_wf hwf (Ctx.writeS_mem hwf _ _)

theorem vsetl_wf {c : Ctx} (hwf : c.s.mem.wf = true) (d a b : BitVec 8) : (vsetl d a b c).Wf :=
  guarded_wf hwf (by dsimp only; split <;> simp [hwf])

theorem nop_wf {c : Ctx} (hwf : c.s.mem.wf = true) : (nop c).Wf := Res.wf_done.2 hwf

theorem Ctx.branch_wf {c : Ctx} (hwf : c.s.mem.wf = true) {n : Nat} (taken : Bool) (off : BitVec n) : (c.branch taken off).Wf := by
  unfold Ctx.branch
  split <;> simp [hwf]

theorem bra_wf {c : Ctx} (hwf : c.s.mem.wf = true) (off : BitVec 24) : (bra off c).Wf := Ctx.branch_wf hwf _ _

theorem branchS_wf {c : Ctx} (hwf : c.s.mem.wf = true) (z : Bool) (sel : BitVec 6) (off : BitVec 17) : (branchS z sel off c).Wf :=
  checked_mem _ (Ctx.branch_wf hwf _ _)

theorem brany_wf {c : Ctx} (hwf : c.s.mem.wf = true) (sel : BitVec 6) (neg : Bool) (off : BitVec 17) : (brany sel neg off c).Wf :=
  checked_mem _ (Ctx.branch_wf hwf _ _)

theorem brall_wf {c : Ctx} (hwf : c.s.mem.wf = true) (sel : BitVec 6) (neg : Bool) (off : BitVec 17) : (brall sel neg off c).Wf :=
  checked_mem _ (Ctx.branch_wf hwf _ _)

theorem call_wf {c : Ctx} (hwf : c.s.mem.wf = true) (off : BitVec 24) : (call off c).Wf :=
  checkReady_mem _ (by simp [hwf]) _

theorem Ctx.jump_wf {c : Ctx} (hwf : c.s.mem.wf = true) (v : Nat) : (c.jump v).Wf := by
  unfold Ctx.jump
  dsimp only
  split <;> simp [hwf]

theorem ret_wf {c : Ctx} (hwf : c.s.mem.wf = true) : (ret c).Wf := checkReady_mem _ (Ctx.jump_wf hwf _) _

theorem jmpr_wf {c : Ctx} (hwf : c.s.mem.wf = true) (a : BitVec 8) : (jmpr a c).Wf := checked_mem _ (Ctx.jump_wf hwf _)

theorem brv_wf {c : Ctx} (hwf : c.s.mem.wf = true) (rejoin : Option (BitVec 24)) (sel : BitVec 6) (neg : Bool) (off : BitVec 17) :
    (brv rejoin sel neg off c).Wf := by
  refine checked_mem _ ?_
  dsimp only
  split
  · exact Ctx.branch_wf hwf _ _
  split
  · exact Ctx.branch_wf hwf _ _
  split
  · simp
  split
  · simp [hwf]
  · exact Ctx.ring_wf hwf fun t ht => by simp [ht]

theorem syncw_wf {c : Ctx} (hwf : c.s.mem.wf = true) : (syncw c).Wf := by simp [syncw, hwf]

theorem yieldFrag_wf {c : Ctx} (hwf : c.s.mem.wf = true) : (yieldFrag c).Wf := (Res.wf_park _).2 hwf

theorem sleep_wf {c : Ctx} (hwf : c.s.mem.wf = true) (a : BitVec 8) : (sleep a c).Wf :=
  checked_mem _ (by split <;> simp [hwf])

theorem exit_wf {c : Ctx} (hwf : c.s.mem.wf = true) : (exit c).Wf := by
  have hgo : (Res.moved ((c.s.setWarp c.w (exitLanes c)).afterExit c.w c.b.kernel c.k.warps)).Wf := by simp [hwf]
  unfold exit
  dsimp only
  split
  · exact hgo
  split
  · simp [hwf]
  split
  · simp [hwf]
  · exact takeErr_wf hwf _ hgo

theorem brk_wf {c : Ctx} (hwf : c.s.mem.wf = true) (code : BitVec 24) : (brk code c).Wf := by
  unfold brk
  split
  · simp [hwf]
  · exact Ctx.stop_wf hwf _

theorem eret_wf {c : Ctx} (hwf : c.s.mem.wf = true) : (eret c).Wf := by
  unfold eret
  repeat' split
  all_goals simp [hwf]

theorem fence_wf {c : Ctx} (hwf : c.s.mem.wf = true) (o : OPfx) : (fence o c).Wf := by
  refine guarded_wf hwf (Ctx.ordered_wf hwf fun c hc => Ctx.releasing_wf hc _ _ fun c hc => ?_)
  dsimp only
  split
  · simp
  split
  · simp
  · exact takeErr_wf hc _ (by split <;> simp [hc])

theorem bar_wf {c : Ctx} (hwf : c.s.mem.wf = true) (a : BitVec 8) (b : BitVec 4) : (bar a b c).Wf :=
  guarded_wf hwf (Ctx.arriving_wf hwf _ fun c hc => by simp [hc])

theorem bararv_wf {c : Ctx} (hwf : c.s.mem.wf = true) (a : BitVec 8) (b : BitVec 4) : (bararv a b c).Wf :=
  guarded_wf hwf (Ctx.arriving_wf hwf _ fun c hc => by simp [hc])

theorem barwait_wf {c : Ctx} (hwf : c.s.mem.wf = true) (a : BitVec 8) (b : BitVec 4) : (barwait a b c).Wf :=
  guarded_wf hwf (takeErr_wf hwf _ (by dsimp only; split <;> simp [hwf]))

theorem gbar_wf {c : Ctx} (hwf : c.s.mem.wf = true) : (gbar c).Wf := by
  refine guarded_wf hwf ?_
  split
  · simp
  · exact Ctx.arriving_wf hwf _ fun c hc => by simp [hc]

theorem waitsig_wf {c : Ctx} (hwf : c.s.mem.wf = true) (a b : BitVec 8) : (waitsig a b c).Wf := by
  refine guarded_wf hwf ?_
  dsimp only
  split
  · simp
  refine Ctx.ordered_wf hwf fun c hc => Ctx.access_wf hc fun s pas hs => ?_
  repeat' split
  all_goals simp [hs]

theorem waitc_wf {c : Ctx} (hwf : c.s.mem.wf = true) (ld st cp tl : BitVec 6) : (waitc ld st cp tl c).Wf := by
  refine guarded_wf hwf ?_
  dsimp only
  split
  · simp [hwf]
  · exact takeErr_wf (by simp [hwf]) _ (by simp [hwf])

theorem waitt_wf {c : Ctx} (hwf : c.s.mem.wf = true) (m : BitVec 8) : (waitt m c).Wf := by
  refine guarded_wf hwf ?_
  dsimp only
  split
  · simp [hwf]
  split
  · simp [hwf]
  · exact Res.faultIn_wf (by simp [hwf]) _ _

theorem tagq_wf {c : Ctx} (hwf : c.s.mem.wf = true) (d : BitVec 8) : (tagq d c).Wf :=
  guarded_wf hwf (Ctx.writeS_mem hwf _ _)

theorem srd_wf {c : Ctx} (hwf : c.s.mem.wf = true) (d i : BitVec 8) : (srd d i c).Wf := by
  unfold srd
  split
  · simp
  refine guarded_wf hwf ?_
  split
  · simp [hwf]
  · exact Ctx.writeS_mem hwf _ _

theorem swr_wf {c : Ctx} (hwf : c.s.mem.wf = true) (a i : BitVec 8) : (swr a i c).Wf := by
  unfold swr
  split
  · simp
  refine guarded_wf hwf ?_
  dsimp only
  repeat' split
  all_goals simp [hwf]

theorem vdquery_wf {c : Ctx} (hwf : c.s.mem.wf = true) (d a b : BitVec 8) : (vdquery d a b c).Wf :=
  guarded_wf hwf (Ctx.writeS_mem hwf _ _)

theorem capq_wf {c : Ctx} (hwf : c.s.mem.wf = true) (d a : BitVec 8) : (capq d a c).Wf :=
  guarded_wf hwf (Ctx.writeS_mem hwf _ _)

theorem kick_wf {c : Ctx} (hwf : c.s.mem.wf = true) (a b : BitVec 8) : (kick a b c).Wf :=
  guarded_wf hwf (Res.wf_done.2 (by split <;> simp [hwf]))

theorem launch_wf {c : Ctx} (hwf : c.s.mem.wf = true) (d a : BitVec 8) : (launch d a c).Wf := by
  refine guarded_wf hwf ?_
  dsimp only
  split
  · rename_i vals t h
    have ht : t.mem = c.s.mem := State.popLog_mem h
    simp [ht, hwf]
  split
  · simp [hwf]
  split
  · simp
  split
  · simp
  split
  · simp
  have ht := State.translate_wf hwf c.place c.vd 0
    ((c.s.queue c.vd 64).ring.toNat + 64 * ((c.s.queue c.vd 64).tail.toNat % 2 ^ (c.s.queue c.vd 64).log2)) 1
  split <;> rename_i h <;> rw [h] at ht <;> dsimp only at ht
  · exact Res.faultIn_wf ht _ _
  · exact Ctx.parkOn_wf ht _ _
  · simp [ht]
  · exact Res.faultIn_wf ht _ _
  · split
    · exact (Res.wf_busy).2 (getD_wf (fun u hu => by rw [State.agentAsk_mem hu]; exact ht) ht)
    · refine Res.wf_done.2 ?_
      have hp := State.publish_wf ht c.vd c.k.asid (childPacket c.x a.toNat ((c.s.queue c.vd 64).tail.toNat >>> (c.s.queue c.vd 64).log2
          % 65536))
      simp [State.logValue_wf, ht]

theorem mark_wf {c : Ctx} (hwf : c.s.mem.wf = true) (x : Option (BitVec 24)) (a i : BitVec 8) : (mark x a i c).Wf :=
  guarded_wf hwf (by split <;> simp [hwf])

theorem remote_wf {c₀ : Ctx} (hwf : c₀.s.mem.wf = true) (k : Nat) (o : Option OPfx) (p : Option VPfx) (d a b : BitVec 8) :
    (remote k o p d a b c₀).Wf := by
  refine Res.inLanes_mem _ ?_
  split
  · simp
  refine checks_mem _ _ _ (Ctx.ordered_wf hwf fun c hc => ?_)
  dsimp only
  split
  · simp
  refine Res.ite_wf (Res.wf_fault _) (Ctx.releasing_wf hc _ _ fun c hc => ?_)
  have hs : (if k = 0 || (k = 2 && !nrOf o) then c.s.setWarp c.w fun x =>
      x.zeroLanes d.toNat (typeRegs (effOf c₀.x c₀.f.mask p).type) (effOf c₀.x c₀.f.mask p) else c.s).mem.wf = true := by
    split <;> simp [hc]
  generalize (if k = 0 || (k = 2 && !nrOf o) then c.s.setWarp c.w fun x =>
      x.zeroLanes d.toNat (typeRegs (effOf c₀.x c₀.f.mask p).type) (effOf c₀.x c₀.f.mask p) else c.s) = s at hs ⊢
  generalize List.map (groupAccesses _ _ _ _ _ _ _) _ = as
  refine Res.ite_wf (Res.ite_wf (Ctx.serve_wf hs _) (Res.wf_done.2 hs)) ?_
  have hl : (if k = 0 || (k = 2 && !nrOf o) then c.logged s as.flatten else (s, as.flatten)).1.mem.wf = true := by
    split <;> simp [hs]
  generalize (if k = 0 || (k = 2 && !nrOf o) then c.logged s as.flatten else (s, as.flatten)) = y at hl ⊢
  have hi := fun gs => Ctx.issueGroups_wf (s := (tagOps c y.1 y.2).1) (by simp [hl]) c
    (if k = 0 || (k = 2 && !nrOf o) then 0 else 1) (if k = 0 then .none else .store) gs
  split
  · rename_i e
    simp [Res.wf_of_eq (hi _) e]
  · exact hi _

theorem rfence_wf {c : Ctx} (hwf : c.s.mem.wf = true) (a : BitVec 8) : (rfence a c).Wf := by
  refine guarded_wf hwf ?_
  dsimp only
  split
  · simp
  split
  · simp
  split
  · exact takeErr_wf hwf _ (Res.wf_done.2 hwf)
  · simp [hwf]

theorem Ctx.noWord_wf {s : State} (hwf : s.mem.wf = true) {c : Ctx} (hc : c.s.mem.wf = true) (l : Fetched) : (c.noWord s l).Wf := by
  cases l with
  | word _ => exact Res.wf_done.2 hwf
  | miss _ _ => exact Res.wf_hold _
  | fault i => exact Res.faultIn_wf hwf _ _
  | stop k => exact Ctx.stop_wf hc _
  | park r => exact Ctx.parkOn_wf hwf c [r]
  | busy pc => exact Res.wf_issued.2 hwf

theorem Ctx.enqueue_wf {s : State} (hwf : s.mem.wf = true) (c : Ctx) (cmd : Command) (cls : Nat) : (c.enqueue s cmd cls).Wf := by
  unfold Ctx.enqueue
  dsimp only
  split
  · exact holdIn_wf hwf _
  split
  · exact holdIn_wf hwf _
  split
  · exact holdIn_wf hwf _
  · have hf := foldl_wf (f := fun s g => s.setCl g fun k => { k with sbAt := some s.now }) (fun s g hs => by simp [hs]) hwf (s.sbClusters
      cmd)
    rw [Res.wf_done, State.setWarp_mem]
    exact hf

theorem cpa_wf {c : Ctx} (hwf : c.s.mem.wf = true) (p : Option VPfx) (d a : BitVec 8) (size tag : BitVec 3) (bpc : BitVec 2) :
    (cpa p d a size tag bpc c).Wf := by
  refine Res.inLanes_mem _ (checks_mem _ _ _ (Ctx.ordered_wf hwf fun c hc => ?_))
  dsimp only
  split
  · simp [hc]
  split
  · simp
  split
  · simp
  split
  · exact Ctx.enqueue_wf hc _ _ _
  · exact Ctx.enqueue_wf (by simp [hc]) _ _ _

theorem Ctx.source_wf {s : State} (hwf : s.mem.wf = true) (c : Ctx) (cmd : Command) (p : Prop) [Decidable p] :
    (if p then (c.noted s, cmd) else c.logSource (c.noted s) cmd).1.mem.wf = true := by
  split <;> simp [hwf]

theorem tcopy_wf {c : Ctx} (hwf : c.s.mem.wf = true) (t a : BitVec 8) : (tcopy t a c).Wf := by
  refine guarded_wf hwf ?_
  dsimp only
  split
  · simp
  split
  · simp
  split
  · simp
  split
  · simp
  rename_i q _
  refine Ctx.ordered_wf hwf fun c hc => ?_
  generalize copyDesc _ = e
  cases q <;> dsimp only
  all_goals
    refine Res.ite_wf (Res.wf_done.2 (Ctx.source_wf (by simp [hc]) _ _ _)) ?_
    split
    · exact Ctx.enqueue_wf (by simp [hc]) _ _ _
    · exact Ctx.enqueue_wf (Ctx.source_wf (by simp [hc]) _ _ _) _ _ _

theorem tshape_wf {c : Ctx} (hwf : c.s.mem.wf = true) (d a : BitVec 8) (t : BitVec 4) : (tshape d a t c).Wf := by
  refine guarded_wf hwf ?_
  split
  · simp
  split
  · simp
  · simp [hwf]

theorem sclaim_wf {c : Ctx} (hwf : c.s.mem.wf = true) (d a : BitVec 8) (acc : Bool) : (sclaim d a acc c).Wf := by
  refine guarded_wf hwf ?_
  dsimp only
  split
  · exact Ctx.writeS_mem hwf _ _
  · simp [hwf]

theorem srel_wf {c : Ctx} (hwf : c.s.mem.wf = true) (a b : BitVec 8) : (srel a b c).Wf := by
  refine guarded_wf hwf ?_
  dsimp only
  split
  · simp
  split <;> simp [hwf]

theorem matrixStep_wf {c : Ctx} (hwf : c.s.mem.wf = true) (op : Nat) (os : List Opnd) (d a b : BitVec 8) :
    (matrixStep op os d a b c).Wf := by
  refine guarded_wf hwf ?_
  dsimp only
  refine Res.ite_wf (Res.wf_fault _) ?_
  split
  · simp
  split
  · simp
  split
  · simp
  · exact Ctx.enqueue_wf hwf _ _ _

theorem mloop_wf {c : Ctx} (hwf : c.s.mem.wf = true) (n : BitVec 2) (a b : BitVec 8) : (mloop n a b c).Wf := by
  refine guarded_wf hwf ?_
  have hs := Ctx.fetchN_wf hwf c (n.toNat + 1) c.nextPc
  split <;> rename_i h <;> rw [h] at hs <;> dsimp only at hs
  · exact Ctx.noWord_wf hs hwf _
  split
  · simp
  refine checked_mem _ ?_
  dsimp only
  split
  · simp
  split
  · simp
  split
  · simp
  split <;> simp [hs]

theorem mstore_wf {c : Ctx} (hwf : c.s.mem.wf = true) (d a b : BitVec 8) : (mstore d a b c).Wf := by
  refine guarded_wf hwf (Ctx.ordered_wf hwf fun c hc => ?_)
  dsimp only
  split
  · simp
  split
  · simp
  split
  · simp
  split
  · simp
  refine Res.ite_wf (Res.wf_fault _) (Res.ite_wf (Res.wf_fault _) (Res.ite_wf (Res.wf_done.2 hc) ?_))
  exact Ctx.enqueue_wf hc _ _ _

end Sys2Proof.Machine
end

section
/-!
PROOF. O60: every instruction, every step of the device and every issue keep the memory's canonical form, so every step does (log 4).
-/
namespace Sys2Proof.Machine

theorem Keeps.of_mem {f : State → Option State} (h : ∀ {s u}, f s = some u → u.mem = s.mem) : Keeps f :=
  fun s u hs e => by rw [h e]; exact hs

section
variable {c : Ctx} (hwf : c.s.mem.wf = true)
include hwf

theorem scalarR_wf (d a b : BitVec 8) (op : Word → Word → Word) : (scalarR d a b op c).Wf := scalarR_mem hwf d a b op

theorem scalarU_wf (d a : BitVec 8) (op : Word → Word) : (scalarU d a op c).Wf := scalarU_mem hwf d a op

theorem scalarI_wf (d a : BitVec 8) (imm : Word) (op : Word → Word → Word) : (scalarI d a imm op c).Wf := scalarI_mem hwf d a imm op

theorem scalarMovi_wf (d : BitVec 8) (imm : Word) : (scalarMovi d imm c).Wf := scalarMovi_mem hwf d imm

theorem vec_wf (p : Option VPfx) (y : VBody) : (vec p y c).Wf := vec_mem hwf p y
end

/-- What executing comes to: a Billek instruction's meaning in its warp,
    or a step of the device where it is due; both keep the memory's form. -/
theorem exec_instr_or_step (i : Instr) :
    (i.isStep = false ∧ ∃ f : Ctx → Res, (∀ c : Ctx, c.s.mem.wf = true → (f c).Wf) ∧ ∀ s, exec i s = runInstr s f) ∨
    (i.isStep = true ∧ ∃ f : State → Option State, Keeps f ∧ ∀ s, exec i s = runDevice s f) := by
  cases i with
  | nop => exact .inl ⟨rfl, _, fun _ hc => nop_wf hc, fun _ => rfl⟩
  | exit => exact .inl ⟨rfl, _, fun _ hc => exit_wf hc, fun _ => rfl⟩
  | bra _ => exact .inl ⟨rfl, _, fun _ hc => bra_wf hc _, fun _ => rfl⟩
  | call _ => exact .inl ⟨rfl, _, fun _ hc => call_wf hc _, fun _ => rfl⟩
  | ret => exact .inl ⟨rfl, _, fun _ hc => ret_wf hc, fun _ => rfl⟩
  | jmpr _ => exact .inl ⟨rfl, _, fun _ hc => jmpr_wf hc _, fun _ => rfl⟩
  | brs _ _ => exact .inl ⟨rfl, _, fun _ hc => branchS_wf hc _ _ _, fun _ => rfl⟩
  | brsz _ _ => exact .inl ⟨rfl, _, fun _ hc => branchS_wf hc _ _ _, fun _ => rfl⟩
  | brv _ _ _ _ => exact .inl ⟨rfl, _, fun _ hc => brv_wf hc _ _ _ _, fun _ => rfl⟩
  | brany _ _ _ => exact .inl ⟨rfl, _, fun _ hc => brany_wf hc _ _ _, fun _ => rfl⟩
  | brall _ _ _ => exact .inl ⟨rfl, _, fun _ hc => brall_wf hc _ _ _, fun _ => rfl⟩
  | syncw => exact .inl ⟨rfl, _, fun _ hc => syncw_wf hc, fun _ => rfl⟩
  | trap _ => exact .inl ⟨rfl, _, fun _ _ => Res.wf_fault _, fun _ => rfl⟩
  | brk _ => exact .inl ⟨rfl, _, fun _ hc => brk_wf hc _, fun _ => rfl⟩
  | yield => exact .inl ⟨rfl, _, fun _ hc => yieldFrag_wf hc, fun _ => rfl⟩
  | sleep _ => exact .inl ⟨rfl, _, fun _ hc => sleep_wf hc _, fun _ => rfl⟩
  | sadd _ _ _ => exact .inl ⟨rfl, _, fun _ hc => scalarR_wf hc _ _ _ _, fun _ => rfl⟩
  | ssub _ _ _ => exact .inl ⟨rfl, _, fun _ hc => scalarR_wf hc _ _ _ _, fun _ => rfl⟩
  | smul _ _ _ => exact .inl ⟨rfl, _, fun _ hc => scalarR_wf hc _ _ _ _, fun _ => rfl⟩
  | smulh _ _ _ => exact .inl ⟨rfl, _, fun _ hc => scalarR_wf hc _ _ _ _, fun _ => rfl⟩
  | smulhn _ _ _ => exact .inl ⟨rfl, _, fun _ hc => scalarR_wf hc _ _ _ _, fun _ => rfl⟩
  | sand _ _ _ => exact .inl ⟨rfl, _, fun _ hc => scalarR_wf hc _ _ _ _, fun _ => rfl⟩
  | sor _ _ _ => exact .inl ⟨rfl, _, fun _ hc => scalarR_wf hc _ _ _ _, fun _ => rfl⟩
  | sxor _ _ _ => exact .inl ⟨rfl, _, fun _ hc => scalarR_wf hc _ _ _ _, fun _ => rfl⟩
  | sshl _ _ _ => exact .inl ⟨rfl, _, fun _ hc => scalarR_wf hc _ _ _ _, fun _ => rfl⟩
  | sshr _ _ _ => exact .inl ⟨rfl, _, fun _ hc => scalarR_wf hc _ _ _ _, fun _ => rfl⟩
  | ssra _ _ _ => exact .inl ⟨rfl, _, fun _ hc => scalarR_wf hc _ _ _ _, fun _ => rfl⟩
  | smin _ _ _ => exact .inl ⟨rfl, _, fun _ hc => scalarR_wf hc _ _ _ _, fun _ => rfl⟩
  | smax _ _ _ => exact .inl ⟨rfl, _, fun _ hc => scalarR_wf hc _ _ _ _, fun _ => rfl⟩
  | sminn _ _ _ => exact .inl ⟨rfl, _, fun _ hc => scalarR_wf hc _ _ _ _, fun _ => rfl⟩
  | smaxn _ _ _ => exact .inl ⟨rfl, _, fun _ hc => scalarR_wf hc _ _ _ _, fun _ => rfl⟩
  | sadd64 _ _ _ => exact .inl ⟨rfl, _, fun _ hc => scalarAdd64_wf hc _ _ _, fun _ => rfl⟩
  | saddi _ _ _ _ => exact .inl ⟨rfl, _, fun _ hc => scalarI_wf hc _ _ _ _, fun _ => rfl⟩
  | sandi _ _ _ _ => exact .inl ⟨rfl, _, fun _ hc => scalarI_wf hc _ _ _ _, fun _ => rfl⟩
  | sori _ _ _ _ => exact .inl ⟨rfl, _, fun _ hc => scalarI_wf hc _ _ _ _, fun _ => rfl⟩
  | sxori _ _ _ _ => exact .inl ⟨rfl, _, fun _ hc => scalarI_wf hc _ _ _ _, fun _ => rfl⟩
  | sshli _ _ _ => exact .inl ⟨rfl, _, fun _ hc => scalarU_wf hc _ _ _, fun _ => rfl⟩
  | sshri _ _ _ => exact .inl ⟨rfl, _, fun _ hc => scalarU_wf hc _ _ _, fun _ => rfl⟩
  | ssrai _ _ _ => exact .inl ⟨rfl, _, fun _ hc => scalarU_wf hc _ _ _, fun _ => rfl⟩
  | smovi _ _ _ => exact .inl ⟨rfl, _, fun _ hc => scalarMovi_wf hc _ _, fun _ => rfl⟩
  | seq _ _ _ => exact .inl ⟨rfl, _, fun _ hc => scalarR_wf hc _ _ _ _, fun _ => rfl⟩
  | slt _ _ _ => exact .inl ⟨rfl, _, fun _ hc => scalarR_wf hc _ _ _ _, fun _ => rfl⟩
  | sltn _ _ _ => exact .inl ⟨rfl, _, fun _ hc => scalarR_wf hc _ _ _ _, fun _ => rfl⟩
  | sle _ _ _ => exact .inl ⟨rfl, _, fun _ hc => scalarR_wf hc _ _ _ _, fun _ => rfl⟩
  | spopc _ _ => exact .inl ⟨rfl, _, fun _ hc => scalarU_wf hc _ _ _, fun _ => rfl⟩
  | sclz _ _ => exact .inl ⟨rfl, _, fun _ hc => scalarU_wf hc _ _ _, fun _ => rfl⟩
  | sffs _ _ => exact .inl ⟨rfl, _, fun _ hc => scalarU_wf hc _ _ _, fun _ => rfl⟩
  | ssel _ _ _ => exact .inl ⟨rfl, _, fun _ hc => scalarSel_wf hc _ _ _, fun _ => rfl⟩
  | srd _ _ => exact .inl ⟨rfl, _, fun _ hc => srd_wf hc _ _, fun _ => rfl⟩
  | swr _ _ => exact .inl ⟨rfl, _, fun _ hc => swr_wf hc _ _, fun _ => rfl⟩
  | setmode _ => exact .inl ⟨rfl, _, fun _ hc => setmode_wf hc _, fun _ => rfl⟩
  | getmode _ => exact .inl ⟨rfl, _, fun _ hc => getmode_wf hc _, fun _ => rfl⟩
  | prd _ _ => exact .inl ⟨rfl, _, fun _ hc => prd_wf hc _ _, fun _ => rfl⟩
  | pwr _ _ => exact .inl ⟨rfl, _, fun _ hc => pwr_wf hc _ _, fun _ => rfl⟩
  | vgetl _ _ _ => exact .inl ⟨rfl, _, fun _ hc => vgetl_wf hc _ _ _, fun _ => rfl⟩
  | vsetl _ _ _ => exact .inl ⟨rfl, _, fun _ hc => vsetl_wf hc _ _ _, fun _ => rfl⟩
  | smov _ _ => exact .inl ⟨rfl, _, fun _ hc => scalarU_wf hc _ _ _, fun _ => rfl⟩
  | sld _ _ _ _ _ => exact .inl ⟨rfl, _, fun _ hc => sld_wf hc _ _ _ _ _, fun _ => rfl⟩
  | sst _ _ _ _ _ => exact .inl ⟨rfl, _, fun _ hc => sst_wf hc _ _ _ _ _, fun _ => rfl⟩
  | satom _ _ _ => exact .inl ⟨rfl, _, fun _ hc => satom_wf hc _ _ _, fun _ => rfl⟩
  | vdquery _ _ _ => exact .inl ⟨rfl, _, fun _ hc => vdquery_wf hc _ _ _, fun _ => rfl⟩
  | capq _ _ => exact .inl ⟨rfl, _, fun _ hc => capq_wf hc _ _, fun _ => rfl⟩
  | launch _ _ => exact .inl ⟨rfl, _, fun _ hc => launch_wf hc _ _, fun _ => rfl⟩
  | kick _ _ => exact .inl ⟨rfl, _, fun _ hc => kick_wf hc _ _, fun _ => rfl⟩
  | vadd _ _ _ _ => exact .inl ⟨rfl, _, fun _ hc => vec_wf hc _ _, fun _ => rfl⟩
  | vsub _ _ _ _ => exact .inl ⟨rfl, _, fun _ hc => vec_wf hc _ _, fun _ => rfl⟩
  | vmul _ _ _ _ => exact .inl ⟨rfl, _, fun _ hc => vec_wf hc _ _, fun _ => rfl⟩
  | vmulh _ _ _ _ => exact .inl ⟨rfl, _, fun _ hc => vec_wf hc _ _, fun _ => rfl⟩
  | vmad _ _ _ _ => exact .inl ⟨rfl, _, fun _ hc => vec_wf hc _ _, fun _ => rfl⟩
  | vand _ _ _ _ => exact .inl ⟨rfl, _, fun _ hc => vec_wf hc _ _, fun _ => rfl⟩
  | vor _ _ _ _ => exact .inl ⟨rfl, _, fun _ hc => vec_wf hc _ _, fun _ => rfl⟩
  | vxor _ _ _ _ => exact .inl ⟨rfl, _, fun _ hc => vec_wf hc _ _, fun _ => rfl⟩
  | vshl _ _ _ _ => exact .inl ⟨rfl, _, fun _ hc => vec_wf hc _ _, fun _ => rfl⟩
  | vshr _ _ _ _ => exact .inl ⟨rfl, _, fun _ hc => vec_wf hc _ _, fun _ => rfl⟩
  | vmin _ _ _ _ => exact .inl ⟨rfl, _, fun _ hc => vec_wf hc _ _, fun _ => rfl⟩
  | vmax _ _ _ _ => exact .inl ⟨rfl, _, fun _ hc => vec_wf hc _ _, fun _ => rfl⟩
  | vabs _ _ _ => exact .inl ⟨rfl, _, fun _ hc => vec_wf hc _ _, fun _ => rfl⟩
  | vneg _ _ _ => exact .inl ⟨rfl, _, fun _ hc => vec_wf hc _ _, fun _ => rfl⟩
  | vclz _ _ _ => exact .inl ⟨rfl, _, fun _ hc => vec_wf hc _ _, fun _ => rfl⟩
  | vpopc _ _ _ => exact .inl ⟨rfl, _, fun _ hc => vec_wf hc _ _, fun _ => rfl⟩
  | vaddi _ _ _ _ _ => exact .inl ⟨rfl, _, fun _ hc => vec_wf hc _ _, fun _ => rfl⟩
  | vandi _ _ _ _ _ => exact .inl ⟨rfl, _, fun _ hc => vec_wf hc _ _, fun _ => rfl⟩
  | vori _ _ _ _ _ => exact .inl ⟨rfl, _, fun _ hc => vec_wf hc _ _, fun _ => rfl⟩
  | vxori _ _ _ _ _ => exact .inl ⟨rfl, _, fun _ hc => vec_wf hc _ _, fun _ => rfl⟩
  | vshli _ _ _ _ => exact .inl ⟨rfl, _, fun _ hc => vec_wf hc _ _, fun _ => rfl⟩
  | vshri _ _ _ _ => exact .inl ⟨rfl, _, fun _ hc => vec_wf hc _ _, fun _ => rfl⟩
  | vmovi _ _ _ _ => exact .inl ⟨rfl, _, fun _ hc => vec_wf hc _ _, fun _ => rfl⟩
  | vmov _ _ _ => exact .inl ⟨rfl, _, fun _ hc => vec_wf hc _ _, fun _ => rfl⟩
  | vsel _ _ _ _ => exact .inl ⟨rfl, _, fun _ hc => vec_wf hc _ _, fun _ => rfl⟩
  | vbfe _ _ _ _ => exact .inl ⟨rfl, _, fun _ hc => vec_wf hc _ _, fun _ => rfl⟩
  | vbfi _ _ _ _ => exact .inl ⟨rfl, _, fun _ hc => vec_wf hc _ _, fun _ => rfl⟩
  | vbrev _ _ _ => exact .inl ⟨rfl, _, fun _ hc => vec_wf hc _ _, fun _ => rfl⟩
  | vlaneid _ _ => exact .inl ⟨rfl, _, fun _ hc => vec_wf hc _ _, fun _ => rfl⟩
  | viota _ _ => exact .inl ⟨rfl, _, fun _ hc => vec_wf hc _ _, fun _ => rfl⟩
  | vfadd _ _ _ _ => exact .inl ⟨rfl, _, fun _ hc => vec_wf hc _ _, fun _ => rfl⟩
  | vfsub _ _ _ _ => exact .inl ⟨rfl, _, fun _ hc => vec_wf hc _ _, fun _ => rfl⟩
  | vfmul _ _ _ _ => exact .inl ⟨rfl, _, fun _ hc => vec_wf hc _ _, fun _ => rfl⟩
  | vfma _ _ _ _ => exact .inl ⟨rfl, _, fun _ hc => vec_wf hc _ _, fun _ => rfl⟩
  | vfmin _ _ _ _ => exact .inl ⟨rfl, _, fun _ hc => vec_wf hc _ _, fun _ => rfl⟩
  | vfmax _ _ _ _ => exact .inl ⟨rfl, _, fun _ hc => vec_wf hc _ _, fun _ => rfl⟩
  | vfabs _ _ _ => exact .inl ⟨rfl, _, fun _ hc => vec_wf hc _ _, fun _ => rfl⟩
  | vfneg _ _ _ => exact .inl ⟨rfl, _, fun _ hc => vec_wf hc _ _, fun _ => rfl⟩
  | vfdiv _ _ _ _ => exact .inl ⟨rfl, _, fun _ hc => vec_wf hc _ _, fun _ => rfl⟩
  | vfsqrt _ _ _ => exact .inl ⟨rfl, _, fun _ hc => vec_wf hc _ _, fun _ => rfl⟩
  | vrcp _ _ _ => exact .inl ⟨rfl, _, fun _ hc => vec_wf hc _ _, fun _ => rfl⟩
  | vrsq _ _ _ => exact .inl ⟨rfl, _, fun _ hc => vec_wf hc _ _, fun _ => rfl⟩
  | vexp2 _ _ _ => exact .inl ⟨rfl, _, fun _ hc => vec_wf hc _ _, fun _ => rfl⟩
  | vlog2 _ _ _ => exact .inl ⟨rfl, _, fun _ hc => vec_wf hc _ _, fun _ => rfl⟩
  | vsin _ _ _ => exact .inl ⟨rfl, _, fun _ hc => vec_wf hc _ _, fun _ => rfl⟩
  | vcos _ _ _ => exact .inl ⟨rfl, _, fun _ hc => vec_wf hc _ _, fun _ => rfl⟩
  | vtanh _ _ _ => exact .inl ⟨rfl, _, fun _ hc => vec_wf hc _ _, fun _ => rfl⟩
  | vsigm _ _ _ => exact .inl ⟨rfl, _, fun _ hc => vec_wf hc _ _, fun _ => rfl⟩
  | vround _ _ _ => exact .inl ⟨rfl, _, fun _ hc => vec_wf hc _ _, fun _ => rfl⟩
  | vfrac _ _ _ => exact .inl ⟨rfl, _, fun _ hc => vec_wf hc _ _, fun _ => rfl⟩
  | vcvt _ _ _ _ _ => exact .inl ⟨rfl, _, fun _ hc => vec_wf hc _ _, fun _ => rfl⟩
  | vclass _ _ _ => exact .inl ⟨rfl, _, fun _ hc => vec_wf hc _ _, fun _ => rfl⟩
  | vcmpeq _ _ _ _ => exact .inl ⟨rfl, _, fun _ hc => vec_wf hc _ _, fun _ => rfl⟩
  | vcmpne _ _ _ _ => exact .inl ⟨rfl, _, fun _ hc => vec_wf hc _ _, fun _ => rfl⟩
  | vcmplt _ _ _ _ => exact .inl ⟨rfl, _, fun _ hc => vec_wf hc _ _, fun _ => rfl⟩
  | vcmple _ _ _ _ => exact .inl ⟨rfl, _, fun _ hc => vec_wf hc _ _, fun _ => rfl⟩
  | vcmpun _ _ _ _ => exact .inl ⟨rfl, _, fun _ hc => vec_wf hc _ _, fun _ => rfl⟩
  | vscale _ _ _ _ => exact .inl ⟨rfl, _, fun _ hc => vec_wf hc _ _, fun _ => rfl⟩
  | vpack _ _ _ _ => exact .inl ⟨rfl, _, fun _ hc => vec_wf hc _ _, fun _ => rfl⟩
  | vunpk _ _ _ => exact .inl ⟨rfl, _, fun _ hc => vec_wf hc _ _, fun _ => rfl⟩
  | vdot4 _ _ _ _ => exact .inl ⟨rfl, _, fun _ hc => vec_wf hc _ _, fun _ => rfl⟩
  | vdot2 _ _ _ _ => exact .inl ⟨rfl, _, fun _ hc => vec_wf hc _ _, fun _ => rfl⟩
  | pand _ _ _ _ => exact .inl ⟨rfl, _, fun _ hc => vec_wf hc _ _, fun _ => rfl⟩
  | por _ _ _ _ => exact .inl ⟨rfl, _, fun _ hc => vec_wf hc _ _, fun _ => rfl⟩
  | pxor _ _ _ _ => exact .inl ⟨rfl, _, fun _ hc => vec_wf hc _ _, fun _ => rfl⟩
  | pnot _ _ _ => exact .inl ⟨rfl, _, fun _ hc => vec_wf hc _ _, fun _ => rfl⟩
  | pmov _ _ _ => exact .inl ⟨rfl, _, fun _ hc => vec_wf hc _ _, fun _ => rfl⟩
  | pseti _ _ _ => exact .inl ⟨rfl, _, fun _ hc => vec_wf hc _ _, fun _ => rfl⟩
  | vshfl _ _ _ _ => exact .inl ⟨rfl, _, fun _ hc => vec_wf hc _ _, fun _ => rfl⟩
  | vshflx _ _ _ _ => exact .inl ⟨rfl, _, fun _ hc => vec_wf hc _ _, fun _ => rfl⟩
  | vshflu _ _ _ _ => exact .inl ⟨rfl, _, fun _ hc => vec_wf hc _ _, fun _ => rfl⟩
  | vshfld _ _ _ _ => exact .inl ⟨rfl, _, fun _ hc => vec_wf hc _ _, fun _ => rfl⟩
  | vbcast _ _ _ _ => exact .inl ⟨rfl, _, fun _ hc => vec_wf hc _ _, fun _ => rfl⟩
  | vred _ _ _ _ => exact .inl ⟨rfl, _, fun _ hc => vec_wf hc _ _, fun _ => rfl⟩
  | vscan _ _ _ _ => exact .inl ⟨rfl, _, fun _ hc => vec_wf hc _ _, fun _ => rfl⟩
  | vmatch _ _ _ => exact .inl ⟨rfl, _, fun _ hc => vmatch_wf hc _ _ _, fun _ => rfl⟩
  | vexec _ _ => exact .inl ⟨rfl, _, fun _ hc => vexec_wf hc _ _ _ _, fun _ => rfl⟩
  | vexecq _ _ _ => exact .inl ⟨rfl, _, fun _ hc => vexec_wf hc _ _ _ _, fun _ => rfl⟩
  | ldg _ _ _ _ _ => exact .inl ⟨rfl, _, fun _ hc => ldg_wf hc _ _ _ _ _, fun _ => rfl⟩
  | stg _ _ _ _ _ => exact .inl ⟨rfl, _, fun _ hc => stg_wf hc _ _ _ _ _, fun _ => rfl⟩
  | ldgnf _ _ _ _ _ => exact .inl ⟨rfl, _, fun _ hc => ldgnf_wf hc _ _ _ _ _, fun _ => rfl⟩
  | lds _ _ _ _ _ => exact .inl ⟨rfl, _, fun _ hc => lds_wf hc _ _ _ _ _, fun _ => rfl⟩
  | sts _ _ _ _ _ => exact .inl ⟨rfl, _, fun _ hc => sts_wf hc _ _ _ _ _, fun _ => rfl⟩
  | ldw _ _ _ _ => exact .inl ⟨rfl, _, fun _ hc => ldw_wf hc _ _ _ _, fun _ => rfl⟩
  | pref _ _ _ => exact .inl ⟨rfl, _, fun _ hc => pref_wf hc _ _ _, fun _ => rfl⟩
  | cflush _ _ _ => exact .inl ⟨rfl, _, fun _ hc => cflush_wf hc _ _ _, fun _ => rfl⟩
  | cpa _ _ _ _ _ _ => exact .inl ⟨rfl, _, fun _ hc => cpa_wf hc _ _ _ _ _ _, fun _ => rfl⟩
  | tcopy _ _ => exact .inl ⟨rfl, _, fun _ hc => tcopy_wf hc _ _, fun _ => rfl⟩
  | pgreq _ _ _ => exact .inl ⟨rfl, _, fun _ hc => pgreq_wf hc _ _ _, fun _ => rfl⟩
  | atomgAdd _ _ _ _ _ => exact .inl ⟨rfl, _, fun _ hc => atomg_wf hc _ _ _ _ _ _, fun _ => rfl⟩
  | atomgMin _ _ _ _ _ => exact .inl ⟨rfl, _, fun _ hc => atomg_wf hc _ _ _ _ _ _, fun _ => rfl⟩
  | atomgMax _ _ _ _ _ => exact .inl ⟨rfl, _, fun _ hc => atomg_wf hc _ _ _ _ _ _, fun _ => rfl⟩
  | atomgAnd _ _ _ _ _ => exact .inl ⟨rfl, _, fun _ hc => atomg_wf hc _ _ _ _ _ _, fun _ => rfl⟩
  | atomgOr _ _ _ _ _ => exact .inl ⟨rfl, _, fun _ hc => atomg_wf hc _ _ _ _ _ _, fun _ => rfl⟩
  | atomgXor _ _ _ _ _ => exact .inl ⟨rfl, _, fun _ hc => atomg_wf hc _ _ _ _ _ _, fun _ => rfl⟩
  | atomgExch _ _ _ _ _ => exact .inl ⟨rfl, _, fun _ hc => atomg_wf hc _ _ _ _ _ _, fun _ => rfl⟩
  | atomgIncw _ _ _ _ _ => exact .inl ⟨rfl, _, fun _ hc => atomg_wf hc _ _ _ _ _ _, fun _ => rfl⟩
  | atomgFadd _ _ _ _ _ => exact .inl ⟨rfl, _, fun _ hc => atomg_wf hc _ _ _ _ _ _, fun _ => rfl⟩
  | atomgCas _ _ _ _ _ => exact .inl ⟨rfl, _, fun _ hc => atomg_wf hc _ _ _ _ _ _, fun _ => rfl⟩
  | fence _ => exact .inl ⟨rfl, _, fun _ hc => fence_wf hc _, fun _ => rfl⟩
  | bar _ _ => exact .inl ⟨rfl, _, fun _ hc => bar_wf hc _ _, fun _ => rfl⟩
  | bararv _ _ => exact .inl ⟨rfl, _, fun _ hc => bararv_wf hc _ _, fun _ => rfl⟩
  | barwait _ _ => exact .inl ⟨rfl, _, fun _ hc => barwait_wf hc _ _, fun _ => rfl⟩
  | gbar => exact .inl ⟨rfl, _, fun _ hc => gbar_wf hc, fun _ => rfl⟩
  | waitsig _ _ => exact .inl ⟨rfl, _, fun _ hc => waitsig_wf hc _ _, fun _ => rfl⟩
  | atomsAdd _ _ _ _ _ => exact .inl ⟨rfl, _, fun _ hc => atoms_wf hc _ _ _ _ _ _, fun _ => rfl⟩
  | atomsMin _ _ _ _ _ => exact .inl ⟨rfl, _, fun _ hc => atoms_wf hc _ _ _ _ _ _, fun _ => rfl⟩
  | atomsMax _ _ _ _ _ => exact .inl ⟨rfl, _, fun _ hc => atoms_wf hc _ _ _ _ _ _, fun _ => rfl⟩
  | atomsAnd _ _ _ _ _ => exact .inl ⟨rfl, _, fun _ hc => atoms_wf hc _ _ _ _ _ _, fun _ => rfl⟩
  | atomsOr _ _ _ _ _ => exact .inl ⟨rfl, _, fun _ hc => atoms_wf hc _ _ _ _ _ _, fun _ => rfl⟩
  | atomsXor _ _ _ _ _ => exact .inl ⟨rfl, _, fun _ hc => atoms_wf hc _ _ _ _ _ _, fun _ => rfl⟩
  | atomsExch _ _ _ _ _ => exact .inl ⟨rfl, _, fun _ hc => atoms_wf hc _ _ _ _ _ _, fun _ => rfl⟩
  | atomsCas _ _ _ _ _ => exact .inl ⟨rfl, _, fun _ hc => atoms_wf hc _ _ _ _ _ _, fun _ => rfl⟩
  | rld _ _ _ _ _ => exact .inl ⟨rfl, _, fun _ hc => remote_wf hc _ _ _ _ _ _, fun _ => rfl⟩
  | rst _ _ _ _ _ => exact .inl ⟨rfl, _, fun _ hc => remote_wf hc _ _ _ _ _ _, fun _ => rfl⟩
  | ratom _ _ _ _ _ => exact .inl ⟨rfl, _, fun _ hc => remote_wf hc _ _ _ _ _ _, fun _ => rfl⟩
  | rvadd _ _ _ _ _ => exact .inl ⟨rfl, _, fun _ hc => remote_wf hc _ _ _ _ _ _, fun _ => rfl⟩
  | rwsig _ _ _ _ _ => exact .inl ⟨rfl, _, fun _ hc => remote_wf hc _ _ _ _ _ _, fun _ => rfl⟩
  | rred _ _ _ _ _ => exact .inl ⟨rfl, _, fun _ hc => remote_wf hc _ _ _ _ _ _, fun _ => rfl⟩
  | rfence _ => exact .inl ⟨rfl, _, fun _ hc => rfence_wf hc _, fun _ => rfl⟩
  | waitc _ _ _ _ => exact .inl ⟨rfl, _, fun _ hc => waitc_wf hc _ _ _ _, fun _ => rfl⟩
  | waitt _ => exact .inl ⟨rfl, _, fun _ hc => waitt_wf hc _, fun _ => rfl⟩
  | tagq _ => exact .inl ⟨rfl, _, fun _ hc => tagq_wf hc _, fun _ => rfl⟩
  | tshape _ _ _ => exact .inl ⟨rfl, _, fun _ hc => tshape_wf hc _ _ _, fun _ => rfl⟩
  | sclaim _ _ _ => exact .inl ⟨rfl, _, fun _ hc => sclaim_wf hc _ _ _, fun _ => rfl⟩
  | srel _ _ => exact .inl ⟨rfl, _, fun _ hc => srel_wf hc _ _, fun _ => rfl⟩
  | mzero _ => exact .inl ⟨rfl, _, fun _ hc => matrixStep_wf hc _ _ _ _ _, fun _ => rfl⟩
  | mma _ _ _ => exact .inl ⟨rfl, _, fun _ hc => matrixStep_wf hc _ _ _ _ _, fun _ => rfl⟩
  | mmaz _ _ _ => exact .inl ⟨rfl, _, fun _ hc => matrixStep_wf hc _ _ _ _ _, fun _ => rfl⟩
  | mscacc _ _ _ => exact .inl ⟨rfl, _, fun _ hc => matrixStep_wf hc _ _ _ _ _, fun _ => rfl⟩
  | mloop _ _ _ => exact .inl ⟨rfl, _, fun _ hc => mloop_wf hc _ _ _, fun _ => rfl⟩
  | mstore _ _ _ => exact .inl ⟨rfl, _, fun _ hc => mstore_wf hc _ _ _, fun _ => rfl⟩
  | eret => exact .inl ⟨rfl, _, fun _ hc => eret_wf hc, fun _ => rfl⟩
  | mark _ _ _ => exact .inl ⟨rfl, _, fun _ hc => mark_wf hc _ _ _, fun _ => rfl⟩
  | illegalOpcode _ => exact .inl ⟨rfl, _, fun _ _ => Res.wf_fault _, fun _ => rfl⟩
  | flitInjection => exact .inr ⟨rfl, _, .of_mem flitInjection_mem, fun _ => rfl⟩
  | flitArrival => exact .inr ⟨rfl, _, .of_mem flitArrival_mem, fun _ => rfl⟩
  | flitEjection => exact .inr ⟨rfl, _, .of_mem flitEjection_mem, fun _ => rfl⟩
  | powerModeClockSettle => exact .inr ⟨rfl, _, .of_mem powerModeClockSettle_mem, fun _ => rfl⟩
  | powerWindowEnd => exact .inr ⟨rfl, _, .of_mem powerWindowEnd_mem, fun _ => rfl⟩
  | temperatureReport => exact .inr ⟨rfl, _, .of_mem temperatureReport_mem, fun _ => rfl⟩
  | fatalDieError => exact .inr ⟨rfl, _, fun _ _ => fatalDieError_wf, fun _ => rfl⟩
  | deviceReset => exact .inr ⟨rfl, _, fun _ _ => deviceReset_wf, fun _ => rfl⟩
  | refreshPhaseEnd => exact .inr ⟨rfl, _, .of_mem refreshPhaseEnd_mem, fun _ => rfl⟩
  | transientRequest => exact .inr ⟨rfl, _, .of_mem transientRequest_mem, fun _ => rfl⟩
  | forwardedRequest => exact .inr ⟨rfl, _, .of_mem forwardedRequest_mem, fun _ => rfl⟩
  | tokenArrival => exact .inr ⟨rfl, _, fun _ _ => tokenArrival_wf, fun _ => rfl⟩
  | holderEviction => exact .inr ⟨rfl, _, .of_mem holderEviction_mem, fun _ => rfl⟩
  | llcEviction => exact .inr ⟨rfl, _, .of_mem llcEviction_mem, fun _ => rfl⟩
  | requestReissue => exact .inr ⟨rfl, _, .of_mem requestReissue_mem, fun _ => rfl⟩
  | persistentRequest => exact .inr ⟨rfl, _, .of_mem persistentRequest_mem, fun _ => rfl⟩
  | persistentActivation => exact .inr ⟨rfl, _, .of_mem persistentActivation_mem, fun _ => rfl⟩
  | persistentDeactivation => exact .inr ⟨rfl, _, .of_mem persistentDeactivation_mem, fun _ => rfl⟩
  | deactivationAcksDone => exact .inr ⟨rfl, _, .of_mem deactivationAcksDone_mem, fun _ => rfl⟩
  | engineWriteLanded => exact .inr ⟨rfl, _, fun _ _ => engineWriteLanded_wf, fun _ => rfl⟩
  | backInvalidationResponse => exact .inr ⟨rfl, _, fun _ _ => backInvalidationResponse_wf, fun _ => rfl⟩
  | tokenRegeneration => exact .inr ⟨rfl, _, fun _ _ => tokenRegeneration_wf, fun _ => rfl⟩
  | atomicStationArrival => exact .inr ⟨rfl, _, .of_mem atomicStationArrival_mem, fun _ => rfl⟩
  | groupApply => exact .inr ⟨rfl, _, fun _ _ => groupApply_wf, fun _ => rfl⟩
  | groupReply => exact .inr ⟨rfl, _, fun _ _ => groupReply_wf, fun _ => rfl⟩
  | combineTimerExpiry => exact .inr ⟨rfl, _, .of_mem combineTimerExpiry_mem, fun _ => rfl⟩
  | outcomeQuery => exact .inr ⟨rfl, _, fun _ _ => outcomeQuery_wf, fun _ => rfl⟩
  | outcomeQueryAnswer => exact .inr ⟨rfl, _, fun _ _ => outcomeQueryAnswer_wf, fun _ => rfl⟩
  | hbm4eReadComplete => exact .inr ⟨rfl, _, .of_mem hbm4eReadComplete_mem, fun _ => rfl⟩
  | hbm4eReadRetryComplete => exact .inr ⟨rfl, _, .of_mem hbm4eReadRetryComplete_mem, fun _ => rfl⟩
  | hbm4eWrite => exact .inr ⟨rfl, _, .of_mem hbm4eWrite_mem, fun _ => rfl⟩
  | quotaRefill => exact .inr ⟨rfl, _, .of_mem quotaRefill_mem, fun _ => rfl⟩
  | pseudoChannelSlot => exact .inr ⟨rfl, _, .of_mem pseudoChannelSlot_mem, fun _ => rfl⟩
  | sramUncorrectableError => exact .inr ⟨rfl, _, .of_mem sramUncorrectableError_mem, fun _ => rfl⟩
  | rldRequest => exact .inr ⟨rfl, _, fun _ _ => rldRequest_wf, fun _ => rfl⟩
  | rstRequest => exact .inr ⟨rfl, _, fun _ _ => rstRequest_wf, fun _ => rfl⟩
  | ratomRequest => exact .inr ⟨rfl, _, fun _ _ => ratomRequest_wf, fun _ => rfl⟩
  | rvaddRequest => exact .inr ⟨rfl, _, fun _ _ => rvaddRequest_wf, fun _ => rfl⟩
  | rwsigRequest => exact .inr ⟨rfl, _, fun _ _ => rwsigRequest_wf, fun _ => rfl⟩
  | rredResult => exact .inr ⟨rfl, _, fun _ _ => rredResult_wf, fun _ => rfl⟩
  | fabricReply => exact .inr ⟨rfl, _, fun _ _ => fabricReply_wf, fun _ => rfl⟩
  | fabricTimeout => exact .inr ⟨rfl, _, fun _ _ => fabricTimeout_wf, fun _ => rfl⟩
  | portRetryExhausted => exact .inr ⟨rfl, _, fun _ _ => portRetryExhausted_wf, fun _ => rfl⟩
  | portDrainEnd => exact .inr ⟨rfl, _, fun _ _ => portDrainEnd_wf, fun _ => rfl⟩
  | planeRemapNotice => exact .inr ⟨rfl, _, fun _ _ => planeRemapNotice_wf, fun _ => rfl⟩
  | linkRetrained => exact .inr ⟨rfl, _, .of_mem linkRetrained_mem, fun _ => rfl⟩
  | fportctlRestore => exact .inr ⟨rfl, _, .of_mem fportctlRestore_mem, fun _ => rfl⟩
  | planeRestoreComplete => exact .inr ⟨rfl, _, fun _ _ => planeRestoreComplete_wf, fun _ => rfl⟩
  | hostCxlRequest => exact .inr ⟨rfl, _, fun _ _ => hostCxlRequest_wf, fun _ => rfl⟩
  | hostSnoop => exact .inr ⟨rfl, _, fun _ _ => hostSnoop_wf, fun _ => rfl⟩
  | cxlTransactionComplete => exact .inr ⟨rfl, _, fun _ _ => cxlTransactionComplete_wf, fun _ => rfl⟩
  | cxlCompletionTimeout => exact .inr ⟨rfl, _, fun _ _ => cxlCompletionTimeout_wf, fun _ => rfl⟩
  | cxlLinkDown => exact .inr ⟨rfl, _, fun _ _ => cxlLinkDown_wf, fun _ => rfl⟩
  | expanderRetrain => exact .inr ⟨rfl, _, .of_mem expanderRetrain_mem, fun _ => rfl⟩
  | kickPageWrite => exact .inr ⟨rfl, _, .of_mem kickPageWrite_mem, fun _ => rfl⟩
  | queueEnable => exact .inr ⟨rfl, _, fun _ _ => queueEnable_wf, fun _ => rfl⟩
  | queueDisable => exact .inr ⟨rfl, _, .of_mem queueDisable_mem, fun _ => rfl⟩
  | queueRestart => exact .inr ⟨rfl, _, .of_mem queueRestart_mem, fun _ => rfl⟩
  | registerWrite => exact .inr ⟨rfl, _, .of_mem registerWrite_mem, fun _ => rfl⟩
  | createVd => exact .inr ⟨rfl, _, fun _ _ => createVd_wf, fun _ => rfl⟩
  | startVd => exact .inr ⟨rfl, _, fun _ _ => startVd_wf, fun _ => rfl⟩
  | suspendVd => exact .inr ⟨rfl, _, fun _ _ => suspendVd_wf, fun _ => rfl⟩
  | resumeVd => exact .inr ⟨rfl, _, fun _ _ => resumeVd_wf, fun _ => rfl⟩
  | resetVd => exact .inr ⟨rfl, _, fun _ _ => resetVd_wf, fun _ => rfl⟩
  | destroyVd => exact .inr ⟨rfl, _, fun _ _ => destroyVd_wf, fun _ => rfl⟩
  | setWeight => exact .inr ⟨rfl, _, fun _ _ => setWeight_wf, fun _ => rfl⟩
  | setPowerMode => exact .inr ⟨rfl, _, fun _ _ => setPowerMode_wf, fun _ => rfl⟩
  | queryVd => exact .inr ⟨rfl, _, fun _ _ => queryVd_wf, fun _ => rfl⟩
  | loadImage => exact .inr ⟨rfl, _, fun _ _ => loadImage_wf, fun _ => rfl⟩
  | vfFunctionLevelReset => exact .inr ⟨rfl, _, .of_mem vfFunctionLevelReset_mem, fun _ => rfl⟩
  | engineKill => exact .inr ⟨rfl, _, fun _ _ => engineKill_wf, fun _ => rfl⟩
  | killAcksComplete => exact .inr ⟨rfl, _, fun _ _ => killAcksComplete_wf, fun _ => rfl⟩
  | killAckTimeout => exact .inr ⟨rfl, _, .of_mem killAckTimeout_mem, fun _ => rfl⟩
  | slotPoll => exact .inr ⟨rfl, _, fun _ _ => slotPoll_wf, fun _ => rfl⟩
  | nopPacket => exact .inr ⟨rfl, _, fun _ _ => nopPacket_wf, fun _ => rfl⟩
  | launchPacket => exact .inr ⟨rfl, _, fun _ _ => launchPacket_wf, fun _ => rfl⟩
  | copyPacket => exact .inr ⟨rfl, _, fun _ _ => copyPacket_wf, fun _ => rfl⟩
  | waitSignalPacket => exact .inr ⟨rfl, _, fun _ _ => waitSignalPacket_wf, fun _ => rfl⟩
  | waitSignalRetest => exact .inr ⟨rfl, _, fun _ _ => waitSignalRetest_wf, fun _ => rfl⟩
  | writeSignalPacket => exact .inr ⟨rfl, _, fun _ _ => writeSignalPacket_wf, fun _ => rfl⟩
  | timestampPacket => exact .inr ⟨rfl, _, fun _ _ => timestampPacket_wf, fun _ => rfl⟩
  | packetCompletion => exact .inr ⟨rfl, _, fun _ _ => packetCompletion_wf, fun _ => rfl⟩
  | msixVectorUnmask => exact .inr ⟨rfl, _, .of_mem msixVectorUnmask_mem, fun _ => rfl⟩
  | deviceLaunchQueueRestart => exact .inr ⟨rfl, _, .of_mem deviceLaunchQueueRestart_mem, fun _ => rfl⟩
  | virtualDieTableWrite => exact .inr ⟨rfl, _, .of_mem virtualDieTableWrite_mem, fun _ => rfl⟩
  | regionTableWrite => exact .inr ⟨rfl, _, .of_mem regionTableWrite_mem, fun _ => rfl⟩
  | keyTagWrite => exact .inr ⟨rfl, _, fun _ _ => keyTagWrite_wf, fun _ => rfl⟩
  | stage2EntryWrite => exact .inr ⟨rfl, _, fun _ _ => stage2EntryWrite_wf, fun _ => rfl⟩
  | interruptRemapWrite => exact .inr ⟨rfl, _, .of_mem interruptRemapWrite_mem, fun _ => rfl⟩
  | keySlotLoad => exact .inr ⟨rfl, _, .of_mem keySlotLoad_mem, fun _ => rfl⟩
  | vdControlBlockWrite => exact .inr ⟨rfl, _, .of_mem vdControlBlockWrite_mem, fun _ => rfl⟩
  | schcfgWrite => exact .inr ⟨rfl, _, .of_mem schcfgWrite_mem, fun _ => rfl⟩
  | schpoolWrite => exact .inr ⟨rfl, _, .of_mem schpoolWrite_mem, fun _ => rfl⟩
  | spdmGetVersion => exact .inr ⟨rfl, _, fun _ _ => spdmGetVersion_wf, fun _ => rfl⟩
  | spdmGetCapabilities => exact .inr ⟨rfl, _, fun _ _ => spdmGetCapabilities_wf, fun _ => rfl⟩
  | spdmNegotiateAlgorithms => exact .inr ⟨rfl, _, fun _ _ => spdmNegotiateAlgorithms_wf, fun _ => rfl⟩
  | spdmGetDigests => exact .inr ⟨rfl, _, fun _ _ => spdmGetDigests_wf, fun _ => rfl⟩
  | spdmGetCertificate => exact .inr ⟨rfl, _, fun _ _ => spdmGetCertificate_wf, fun _ => rfl⟩
  | spdmChallenge => exact .inr ⟨rfl, _, fun _ _ => spdmChallenge_wf, fun _ => rfl⟩
  | spdmGetMeasurements => exact .inr ⟨rfl, _, fun _ _ => spdmGetMeasurements_wf, fun _ => rfl⟩
  | spdmKeyExchange => exact .inr ⟨rfl, _, fun _ _ => spdmKeyExchange_wf, fun _ => rfl⟩
  | spdmFinish => exact .inr ⟨rfl, _, fun _ _ => spdmFinish_wf, fun _ => rfl⟩
  | spdmEndSession => exact .inr ⟨rfl, _, fun _ _ => spdmEndSession_wf, fun _ => rfl⟩
  | spdmUnsupportedRequest => exact .inr ⟨rfl, _, fun _ _ => spdmUnsupportedRequest_wf, fun _ => rfl⟩
  | tlbInvalidateRange => exact .inr ⟨rfl, _, .of_mem tlbInvalidateRange_mem, fun _ => rfl⟩
  | tlbInvalidateAsid => exact .inr ⟨rfl, _, .of_mem tlbInvalidateAsid_mem, fun _ => rfl⟩
  | tlbInvalidateVd => exact .inr ⟨rfl, _, .of_mem tlbInvalidateVd_mem, fun _ => rfl⟩
  | stage2Invalidate => exact .inr ⟨rfl, _, .of_mem stage2Invalidate_mem, fun _ => rfl⟩
  | invalidationComplete => exact .inr ⟨rfl, _, fun _ _ => invalidationComplete_wf, fun _ => rfl⟩
  | replaytWrite => exact .inr ⟨rfl, _, .of_mem replaytWrite_mem, fun _ => rfl⟩
  | replayPage => exact .inr ⟨rfl, _, .of_mem replayPage_mem, fun _ => rfl⟩
  | replayAll => exact .inr ⟨rfl, _, .of_mem replayAll_mem, fun _ => rfl⟩
  | fqheadWrite => exact .inr ⟨rfl, _, .of_mem fqheadWrite_mem, fun _ => rfl⟩
  | faultRecordDelivery => exact .inr ⟨rfl, _, fun _ _ => faultRecordDelivery_wf, fun _ => rfl⟩
  | waiterWake => exact .inr ⟨rfl, _, .of_mem waiterWake_mem, fun _ => rfl⟩
  | waitTableEntryFree => exact .inr ⟨rfl, _, .of_mem waitTableEntryFree_mem, fun _ => rfl⟩
  | rhbaseWrite => exact .inr ⟨rfl, _, fun _ _ => rhbaseWrite_wf, fun _ => rfl⟩
  | stage2FaultResolution => exact .inr ⟨rfl, _, fun _ _ => stage2FaultResolution_wf, fun _ => rfl⟩
  | migrationStart => exact .inr ⟨rfl, _, fun _ _ => migrationStart_wf, fun _ => rfl⟩
  | migrationLineCopy => exact .inr ⟨rfl, _, fun _ _ => migrationLineCopy_wf, fun _ => rfl⟩
  | migrationSwitch => exact .inr ⟨rfl, _, fun _ _ => migrationSwitch_wf, fun _ => rfl⟩
  | quantumBoundary => exact .inr ⟨rfl, _, fun _ _ => quantumBoundary_wf, fun _ => rfl⟩
  | clusterOffer => exact .inr ⟨rfl, _, fun _ _ => clusterOffer_wf, fun _ => rfl⟩
  | blockSave => exact .inr ⟨rfl, _, fun _ _ => blockSave_wf, fun _ => rfl⟩
  | drainOverrun => exact .inr ⟨rfl, _, .of_mem drainOverrun_mem, fun _ => rfl⟩
  | blockRestore => exact .inr ⟨rfl, _, .of_mem blockRestore_mem, fun _ => rfl⟩
  | blockExit => exact .inr ⟨rfl, _, fun _ _ => blockExit_wf, fun _ => rfl⟩
  | kernelCompletion => exact .inr ⟨rfl, _, fun _ _ => kernelCompletion_wf, fun _ => rfl⟩
  | kernelAbort => exact .inr ⟨rfl, _, fun _ _ => kernelAbort_wf, fun _ => rfl⟩
  | sleepDeadline => exact .inr ⟨rfl, _, .of_mem sleepDeadline_mem, fun _ => rfl⟩
  | loadReturn => exact .inr ⟨rfl, _, fun _ _ => loadReturn_wf, fun _ => rfl⟩
  | storeAck => exact .inr ⟨rfl, _, fun _ _ => storeAck_wf, fun _ => rfl⟩
  | wcbDrain => exact .inr ⟨rfl, _, fun _ _ => wcbDrain_wf, fun _ => rfl⟩
  | engineCommandStart => exact .inr ⟨rfl, _, .of_mem engineCommandStart_mem, fun _ => rfl⟩
  | ownershipWindow => exact .inr ⟨rfl, _, fun _ _ => ownershipWindow_wf, fun _ => rfl⟩
  | engineCommandComplete => exact .inr ⟨rfl, _, fun _ _ => engineCommandComplete_wf, fun _ => rfl⟩
  | matrixStepStart => exact .inr ⟨rfl, _, .of_mem matrixStepStart_mem, fun _ => rfl⟩
  | matrixBudgetRefill => exact .inr ⟨rfl, _, .of_mem matrixBudgetRefill_mem, fun _ => rfl⟩
  | mloopStepIssue => exact .inr ⟨rfl, _, .of_mem mloopStepIssue_mem, fun _ => rfl⟩
  | smpcfgWrite => exact .inr ⟨rfl, _, .of_mem smpcfgWrite_mem, fun _ => rfl⟩
  | smpheadWrite => exact .inr ⟨rfl, _, .of_mem smpheadWrite_mem, fun _ => rfl⟩
  | smpdropClear => exact .inr ⟨rfl, _, .of_mem smpdropClear_mem, fun _ => rfl⟩
  | samplerTick => exact .inr ⟨rfl, _, fun _ _ => samplerTick_wf, fun _ => rfl⟩
  | memreqRecord => exact .inr ⟨rfl, _, fun _ _ => memreqRecord_wf, fun _ => rfl⟩
  | debugContinue => exact .inr ⟨rfl, _, fun _ _ => debugContinue_wf, fun _ => rfl⟩
  | debugStep => exact .inr ⟨rfl, _, fun _ _ => debugStep_wf, fun _ => rfl⟩
  | debugRollback => exact .inr ⟨rfl, _, fun _ _ => debugRollback_wf, fun _ => rfl⟩
  | rollbackCountReached => exact .inr ⟨rfl, _, fun _ _ => rollbackCountReached_wf, fun _ => rfl⟩
  | waitsigRetest => exact .inr ⟨rfl, _, fun _ _ => waitsigRetest_wf, fun _ => rfl⟩
  | unknownCommand => exact .inr ⟨rfl, _, .of_mem unknownCommand_mem, fun _ => rfl⟩
  | cxlLinkRetrain => exact .inr ⟨rfl, _, .of_mem cxlLinkRetrain_mem, fun _ => rfl⟩
  | instructionCacheFill => exact .inr ⟨rfl, _, .of_mem instructionCacheFill_mem, fun _ => rfl⟩
  | pageEviction => exact .inr ⟨rfl, _, fun _ _ => pageEviction_wf, fun _ => rfl⟩

theorem runInstr_wf {s t : State} {f : Ctx → Res} (hwf : s.mem.wf = true) (hf : ∀ c : Ctx, c.s.mem.wf = true → (f c).Wf)
    (e : runInstr s f = .next t) : t.mem.wf = true := by
  cases hc : s.ctx with
  | none => rw [runInstr_none hc] at e; cases e
  | some c =>
    have hcs : c.s.mem.wf = true := by rw [(State.ctx_some hc).1]; exact hwf
    rw [runInstr_ctx hc] at e
    cases e
    exact settle_wf hcs (hf c hcs)

theorem exec_wf {i : Instr} {s t : State} (e : exec i s = .next t) (hwf : s.mem.wf = true) : t.mem.wf = true := by
  obtain ⟨-, f, hf, hex⟩ | ⟨-, f, hf, hex⟩ := exec_instr_or_step i
  · exact runInstr_wf hwf hf (hex s ▸ e)
  · rw [hex s] at e
    cases e
    exact getD_wf (hf s · hwf) hwf

theorem ctxOf_state {s : State} {w : WarpRef} {n : Nat} {c : Ctx} (h : ctxOf s w n = some c) : c.s = s := by
  simp only [ctxOf, Option.bind_eq_some_iff, Option.map_eq_some_iff] at h
  obtain ⟨x, -, f, -, b, -, k, -, rfl⟩ := h
  rfl

theorem State.returnSpilled_wf {s : State} (hwf : s.mem.wf = true) (w : WarpRef) (n : Nat) : (State.returnSpilled w n s).mem.wf = true := by
  induction n generalizing s with
  | zero => exact hwf
  | succ n ih =>
    rw [State.returnSpilled]
    split
    · exact hwf
    split
    · exact hwf
    rename_i c hc
    have hcs : c.s.mem.wf = true := by rw [ctxOf_state hc]; exact hwf
    dsimp only
    split
    · exact settle_wf hcs (Ctx.ring_wf hwf fun t ht => by simp [ht])
    · exact ih (settle_wf hcs (Ctx.ring_wf hwf fun t ht => by simp [ht]))

@[simp] theorem State.prepare_wf {s : State} (hwf : s.mem.wf = true) (w : WarpRef) : (State.prepare s w).mem.wf = true := by
  unfold State.prepare
  grind [State.returnSpilled_wf, State.afterMerge_wf, State.setFrag_mem]

@[simp] theorem State.noteHold_mem (s : State) (w : WarpRef) (r : Option Stall) : (State.noteHold s w r).mem = s.mem := rfl

@[simp] theorem State.noteStalls_mem (s : State) (v : Nat) (ws : List (WarpRef × Nat)) : (State.noteStalls s v ws).mem = s.mem := by
  unfold State.noteStalls
  grind [State.setWarp_mem, foldl_mem]

@[simp] theorem State.issuedBy_mem (s : State) (g q : Nat) (w : WarpRef) (n : Nat) (pc : DWord) :
    (State.issuedBy s g q w n pc).mem = s.mem := rfl

@[simp] theorem State.prepareRest_wf {s : State} (hwf : s.mem.wf = true) (ws : List (WarpRef × Nat)) :
    (State.prepareRest s ws).mem.wf = true := by
  unfold State.prepareRest
  grind [State.prepare_wf, State.noteHold_mem, foldl_wf]

@[simp] theorem State.haltOne_wf {s : State} (hwf : s.mem.wf = true) (n : Nat) : (State.haltOne s n).mem.wf = true := by
  unfold State.haltOne
  (repeat' split) <;> simp [hwf]

@[simp] theorem State.haltAll_wf {s : State} (hwf : s.mem.wf = true) : (State.haltAll s).mem.wf = true := by
  simp +contextual [State.haltAll, foldl_wf, hwf]

theorem State.issueFrag_wf {s t : State} {w : WarpRef} {f : Frag} (hwf : s.mem.wf = true) (e : s.issueFrag w f = .next t) :
    t.mem.wf = true := by
  unfold State.issueFrag at e
  have hw : (s.choose w f.id).mem.wf = true := by simp [hwf]
  dsimp only at e
  split at e
  · cases e
  rename_i c hc
  have hcs : c.s.mem.wf = true := by rw [(State.ctx_some hc).1]; exact hw
  split at e
  · exact exec_wf e hw
  have hu := Ctx.fetchInstr_wf hw c 3 f.pc
  split at e <;> rename_i h <;> rw [h] at hu <;> dsimp only at hu
  · cases e
    exact settle_wf hu (Ctx.noWord_wf hu hcs _)
  split at e
  · exact exec_wf e (by simp [hu])
  · exact exec_wf e (by simp [hu])
  · exact runInstr_wf (by simp [hu]) (fun c hc => Res.wf_fault _) e
  · cases e
    exact hu

theorem issueFirst_wf {g q : Nat} {ws : List (WarpRef × Nat)} {s t : State} (e : issueFirst g q ws s = .next t) (hwf : s.mem.wf = true) :
    t.mem.wf = true := by
  induction ws generalizing s with
  | nil => cases e; exact hwf
  | cons w ws ih =>
    have hp := State.prepare_wf hwf w.1
    rw [issueFirst] at e
    split at e
    · exact ih e (by simp [hp])
    split at e
    · exact ih e (by simp [hp])
    split at e
    · rename_i h
      have hi := State.issueFrag_wf hp h
      split at e
      · exact ih e (by simp [hi])
      · cases e
        rw [State.noteStalls_mem]
        exact State.prepareRest_wf (by simp [hi]) _
    · rename_i hne
      exact absurd e (hne t)

theorem step_wf {s t : State} (hwf : s.mem.wf = true) (e : step s = .next t) : t.mem.wf = true := by
  unfold step move at e
  split at e
  · exact exec_wf e hwf
  split at e
  · exact exec_wf e hwf
  split at e
  · cases e; exact hwf
  split at e
  · exact issueFirst_wf e hwf
  · cases e
    simp [hwf]

/-- Settles O60: a step is one move (log 1), and every instruction and every step of the device keeps the canonical form. -/
theorem memoryStaysCanonical : Obligations.MemoryStaysCanonical := fun _ _ => step_wf

end Sys2Proof.Machine
end
section
/-!
PROOF. O59: every Billek instruction of an issuing warp and every step of the device answers a next state, and nothing is refused (log 1).
-/
namespace Sys2Proof.Machine

theorem exec_of_isStep {i : Instr} (h : i.isStep = true) (s : State) : ∃ t, exec i s = .next t := by
  obtain ⟨hi, -⟩ | ⟨-, f, -, hex⟩ := exec_instr_or_step i
  · rw [hi] at h; cases h
  · exact ⟨_, hex s⟩

/-- A Billek instruction settles its outcome where a warp issues it, and stops by name where none does. -/
theorem exec_of_not_isStep {i : Instr} (h : i.isStep = false) (s : State) :
    (s.ctx.isSome = true → ∃ t, exec i s = .next t) ∧ (s.ctx = none → exec i s = .fault .noWarp) := by
  obtain ⟨-, f, -, hex⟩ | ⟨hi, -⟩ := exec_instr_or_step i
  · refine ⟨fun hs => ?_, fun hn => (hex s).trans (runInstr_none hn f)⟩
    obtain ⟨c, hc⟩ := Option.isSome_iff_exists.1 hs
    exact ⟨_, (hex s).trans (runInstr_ctx hc f)⟩
  · rw [hi] at h; cases h

theorem runInstr_ne_refused (s : State) (f : Ctx → Res) (r : Refusal) : runInstr s f ≠ .refused r := by
  unfold runInstr
  split <;> exact nofun

theorem exec_ne_refused (i : Instr) (s : State) (r : Refusal) : exec i s ≠ .refused r := by
  obtain ⟨-, f, -, hex⟩ | ⟨-, f, -, hex⟩ := exec_instr_or_step i
  · exact hex s ▸ runInstr_ne_refused s f r
  · exact hex s ▸ nofun

theorem State.issueFrag_ne_refused (s : State) (w : WarpRef) (f : Frag) (r : Refusal) : s.issueFrag w f ≠ .refused r := by
  unfold State.issueFrag
  dsimp only
  split
  · exact nofun
  split
  · exact exec_ne_refused _ _ r
  split
  · exact nofun
  split
  · exact exec_ne_refused _ _ r
  · exact exec_ne_refused _ _ r
  · exact runInstr_ne_refused _ _ r
  · exact nofun

theorem issueFirst_ne_refused (g q : Nat) (ws : List (WarpRef × Nat)) (s : State) (r : Refusal) : issueFirst g q ws s ≠ .refused r := by
  induction ws generalizing s with
  | nil => exact nofun
  | cons w ws ih =>
    rw [issueFirst]
    split
    · exact ih _
    split
    · exact ih _
    split
    · split
      · exact ih _
      · exact nofun
    · exact State.issueFrag_ne_refused _ _ _ r

theorem step_ne_refused (s : State) (r : Refusal) : step s ≠ .refused r := by
  unfold step move
  split
  · exact exec_ne_refused _ _ r
  split
  · exact exec_ne_refused _ _ r
  split
  · exact nofun
  split
  · exact issueFirst_ne_refused _ _ _ _ r
  · exact nofun

/-- Settles O59: an instruction runs in its warp and a step of the device where it is due, and both answer. -/
theorem everyInstructionAnswers : Obligations.EveryInstructionAnswers := by
  refine ⟨fun i s h => ?_, fun i s h => (exec_of_not_isStep h s).2, step_ne_refused⟩
  cases hi : i.isStep with
  | true => exact exec_of_isStep hi s
  | false => exact (exec_of_not_isStep hi s).1 (h.resolve_left (by simp [hi]))

end Sys2Proof.Machine
end
section
/-!
PROOF. O4: the scalar forms of R305–R307 are guarded writes of one register, and their operations are the listed functions.
-/
namespace Sys2Proof.Machine

section
variable {i : Instr} {s : State} {c : Ctx} {f : Ctx → Res} {os : List Opnd} (h : s.ctx = some c) (he : exec i s = runInstr s f)
include h he

/-- An instruction whose guard fails completes and changes nothing. -/
theorem ends_of_guard_false {r : Res} (hf : f c = guarded c os r) (hos : c.Clear os) (hg : c.guard = false) : Ends i s c c.x c.nextPc :=
  Ends.of_same h he (hf.trans (guarded_off c os r hos.1 hg))

/-- An instruction that writes one scalar register and whose guard passes. -/
theorem ends_of_writeS {d : BitVec 8} {v : Word} (hf : f c = c.writeS d v) : Ends i s c (c.x.setSf d.toNat v) c.nextPc :=
  Ends.of_done h he (fun x => x.setSf d.toNat v) hf (by rw [Warp.setSf_frags])

theorem ends_of_guarded_writeS {d : BitVec 8} {v : Word} (hf : f c = guarded c os (c.writeS d v)) (hos : c.Clear os) :
    (c.guard = true → Ends i s c (c.x.setSf d.toNat v) c.nextPc) ∧ (c.guard = false → Ends i s c c.x c.nextPc) :=
  ⟨fun hg => ends_of_writeS h he (hf.trans (guarded_clear c os _ hos hg)), ends_of_guard_false h he hf hos⟩

end

-- ## The operations

theorem extractLsb'_six_toNat (y : Word) : (y.extractLsb' 0 6).toNat = y.toNat % 64 := by
  simp [BitVec.extractLsb'_toNat]

theorem sra32_eq (x : Word) (n : BitVec 6) :
    sra32 x n = if n.toNat < 32 then x.sshiftRight n.toNat else if x.msb then 0xFFFFFFFF#32 else 0#32 := by
  rw [BitVec.msb_eq_getLsbD_last]
  rfl

/-- Counting from the highest bit downwards counts every bit. -/
theorem popCount_eq_countP (w a : Nat) : popCount w a = (List.range w).countP fun k => a.testBit k := by
  induction w with
  | zero => rfl
  | succ w ih => rw [popCount, ih, List.range_succ, List.countP_append, List.countP_singleton, Nat.add_comm]

/-- The zeros above the highest set bit among the low `w` are the place of that bit from the top. -/
theorem clz_eq_find (w a : Nat) : clz w a = ((List.range w).find? fun k => a.testBit (w - 1 - k)).getD w := by
  induction w with
  | zero => rfl
  | succ w ih =>
    rw [clz, List.range_succ_eq_map, List.find?_cons]
    have hshift : ((List.range w).map Nat.succ).find? (fun k => a.testBit (w + 1 - 1 - k)) =
        ((List.range w).find? fun k => a.testBit (w - 1 - k)).map Nat.succ := by
      rw [List.find?_map]
      congr 2
      funext k
      simp only [Function.comp, Nat.succ_eq_add_one]
      congr 1
      omega
    cases hb : a.testBit w with
    | true => simp [hb]
    | false =>
      simp only [Nat.add_sub_cancel, Nat.sub_zero, hb, Bool.false_eq_true, if_false, ih] at hshift ⊢
      rw [hshift]
      cases (List.range w).find? fun k => a.testBit (w - 1 - k) with
      | none => simp; omega
      | some k => simp; omega

theorem popCount_word (x : Word) : popCount 32 x.toNat = (List.range 32).countP fun k => x.getLsbD k :=
  popCount_eq_countP 32 x.toNat

theorem clz_word (x : Word) : clz 32 x.toNat = ((List.range 32).find? fun k => x.getLsbD (31 - k)).getD 32 := by
  simp only [clz_eq_find, BitVec.getLsbD, Nat.reduceSub]

theorem ffs_word (x : Word) : ffs 32 x.toNat = ((List.range 32).find? fun k => x.getLsbD k).getD 32 := by
  simp only [ffs, BitVec.getLsbD]

/-- A register form is a guarded write of its result (R305). -/
theorem scalarRegs_write (d a b : BitVec 8) : ∀ p ∈ scalarRegs d a b, ∃ f : Ctx → Res, (∀ s, exec p.1 s = runInstr s f) ∧
    ∀ c : Ctx, f c = guarded c [sDst d, sOp a 1, sOp b 2] (c.writeS d (p.2 (c.x.sf a.toNat) (c.x.sf b.toNat))) := by
  simp only [scalarRegs, List.forall_mem_cons]
  refine ⟨⟨_, fun _ => rfl, ?add⟩, ⟨_, fun _ => rfl, ?sub⟩, ⟨_, fun _ => rfl, ?mul⟩, ⟨_, fun _ => rfl, ?mulh⟩, ⟨_, fun _ => rfl, ?mulhn⟩,
    ⟨_, fun _ => rfl, ?and⟩, ⟨_, fun _ => rfl, ?or⟩, ⟨_, fun _ => rfl, ?xor⟩, ⟨_, fun _ => rfl, ?shl⟩, ⟨_, fun _ => rfl, ?shr⟩,
    ⟨_, fun _ => rfl, ?sra⟩, ⟨_, fun _ => rfl, ?min⟩, ⟨_, fun _ => rfl, ?max⟩, ⟨_, fun _ => rfl, ?minn⟩, ⟨_, fun _ => rfl, ?maxn⟩,
    ⟨_, fun _ => rfl, ?eq⟩, ⟨_, fun _ => rfl, ?lt⟩, ⟨_, fun _ => rfl, ?ltn⟩, ⟨_, fun _ => rfl, ?le⟩, List.forall_mem_nil _⟩
  case add | sub | mul | mulh | mulhn | and | or | xor => exact fun _ => rfl
  case shl | shr => intro c; simp only [scalarR, shl32, shr32, extractLsb'_six_toNat]
  case sra => intro c; simp only [scalarR, sra32_eq, extractLsb'_six_toNat]
  case min | max | minn | maxn => intro c; simp [scalarR, BitVec.slt, BitVec.ult]
  case eq | lt | ltn | le => intro c; simp [scalarR, ofBool, BitVec.slt, BitVec.ult, BitVec.sle]

/-- An immediate form and a unary form are guarded writes of their results (R306, R307). -/
theorem scalarUnary_write (h : Option (BitVec 24)) (n : BitVec 6) (d a i : BitVec 8) :
    ∀ p ∈ scalarUnary h n d a i, ∃ f : Ctx → Res, (∀ s, exec p.1 s = runInstr s f) ∧
      ∀ c : Ctx, f c = guarded c [sDst d, sOp a 1] (c.writeS d (p.2 (c.x.sf a.toNat))) := by
  simp only [scalarUnary, List.forall_mem_cons]
  refine ⟨⟨_, fun _ => rfl, ?addi⟩, ⟨_, fun _ => rfl, ?andi⟩, ⟨_, fun _ => rfl, ?ori⟩, ⟨_, fun _ => rfl, ?xori⟩, ⟨_, fun _ => rfl, ?shli⟩,
    ⟨_, fun _ => rfl, ?shri⟩, ⟨_, fun _ => rfl, ?srai⟩, ⟨_, fun _ => rfl, ?popc⟩, ⟨_, fun _ => rfl, ?clz⟩, ⟨_, fun _ => rfl, ?ffs⟩,
    ⟨_, fun _ => rfl, ?mov⟩, List.forall_mem_nil _⟩
  case addi | andi | ori | xori | shli | shri | mov => exact fun _ => rfl
  case srai => intro c; simp only [scalarU, sra32_eq]
  case popc => intro c; simp only [scalarU, popCount_word]
  case clz => intro c; simp only [scalarU, clz_word]
  case ffs => intro c; simp only [scalarU, ffs_word]

/-- Settles O4: every form is a guarded write of one register. -/
theorem scalarForms : Obligations.ScalarForms := by
  refine ⟨fun s c d a b hc hos p hp => ?_, fun h i => ⟨rfl, rfl, rfl, rfl⟩, fun s c h n d a i hc hos p hp => ?_, fun s c h d i hc hos => ?_⟩
  · obtain ⟨f, he, hf⟩ := scalarRegs_write d a b p hp
    exact ends_of_guarded_writeS hc (he s) (hf c) hos
  · obtain ⟨f, he, hf⟩ := scalarUnary_write h n d a i p hp
    exact ends_of_guarded_writeS hc (he s) (hf c) hos
  · exact ends_of_guarded_writeS hc (f := scalarMovi d (immOf h true i)) rfl rfl hos

end Sys2Proof.Machine
end
section
/-!
PROOF. O27: an instruction on registers comes to an outcome that carries the memory it began with, so every byte reads as before.
-/
namespace Sys2Proof.Machine

/-- The instruction runs in its warp, and whatever holds of the memory it begins with holds of its outcome's. -/
def KeepsMemory (i : Instr) : Prop :=
  ∃ f : Ctx → Res, (∀ s, exec i s = runInstr s f) ∧ ∀ (c : Ctx) (q : Memory → Prop), q c.s.mem → (f c).Mem q

theorem KeepsMemory.mem_eq {i : Instr} (h : KeepsMemory i) {s t : State} (e : exec i s = .next t) : t.mem = s.mem := by
  obtain ⟨f, hex, hf⟩ := h
  rw [hex s] at e
  cases hc : s.ctx with
  | none => rw [runInstr_none hc] at e; cases e
  | some c =>
    rw [runInstr_ctx hc] at e
    cases e
    have hcs : c.s.mem = s.mem := by rw [(State.ctx_some hc).1]
    exact settle_mem (q := (· = s.mem)) hcs (hf c _ hcs)

theorem keepsMemory_of_writeS {i : Instr} {f : Ctx → Res} {os : List Opnd} {d : BitVec 8} {v : Ctx → Word}
    (he : ∀ s, exec i s = runInstr s f) (hf : ∀ c : Ctx, f c = guarded c os (c.writeS d (v c))) : KeepsMemory i :=
  ⟨f, he, fun c _ hq => by rw [hf c]; exact guarded_mem hq (Ctx.writeS_mem hq _ _)⟩

theorem keepsMemory_of_vec {i : Instr} {p : Option VPfx} {y : VBody} (h : ∀ s, exec i s = runInstr s (vec p y)) : KeepsMemory i :=
  ⟨_, h, fun _ _ hq => vec_mem hq p y⟩

theorem scalarRegs_keepMemory (d a b : BitVec 8) : ∀ j ∈ (scalarRegs d a b).map Prod.fst, KeepsMemory j := by
  simp only [List.forall_mem_map]
  intro p hp
  obtain ⟨f, he, hf⟩ := scalarRegs_write d a b p hp
  exact keepsMemory_of_writeS he hf

theorem scalarUnary_keepMemory (h : Option (BitVec 24)) (n : BitVec 6) (d a i : BitVec 8) :
    ∀ j ∈ (scalarUnary h n d a i).map Prod.fst, KeepsMemory j := by
  simp only [List.forall_mem_map]
  intro p hp
  obtain ⟨f, he, hf⟩ := scalarUnary_write h n d a i p hp
  exact keepsMemory_of_writeS he hf

theorem vectorPairs_keepMemory (p : Option VPfx) (d a b : BitVec 8) : ∀ j ∈ (vectorPairs p d a b).map Prod.fst, KeepsMemory j := by
  simp only [vectorPairs, List.map_cons, List.map_nil, List.forall_mem_cons]
  refine ⟨?_, ?_, ?_, ?_, ?_, ?_, ?_, ?_, ?_, ?_, ?_, ?_, List.forall_mem_nil _⟩
  all_goals exact keepsMemory_of_vec fun _ => rfl

theorem vectorUnary_keepMemory (p : Option VPfx) (h : Option (BitVec 24)) (n : BitVec 6) (d a i : BitVec 8) :
    ∀ j ∈ (vectorUnary p h n d a i).map Prod.fst, KeepsMemory j := by
  simp only [vectorUnary, List.map_cons, List.map_nil, List.forall_mem_cons]
  refine ⟨?_, ?_, ?_, ?_, ?_, ?_, ?_, ?_, ?_, ?_, ?_, ?_, List.forall_mem_nil _⟩
  all_goals exact keepsMemory_of_vec fun _ => rfl

theorem floatPairs_keepMemory (p : Option VPfx) (d a b : BitVec 8) : ∀ j ∈ (floatPairs p d a b).map Prod.fst, KeepsMemory j := by
  simp only [floatPairs, List.map_cons, List.map_nil, List.forall_mem_cons]
  refine ⟨?_, ?_, ?_, ?_, ?_, ?_, ?_, List.forall_mem_nil _⟩
  all_goals exact keepsMemory_of_vec fun _ => rfl

theorem floatUnary_keepMemory (p : Option VPfx) (d a : BitVec 8) : ∀ j ∈ (floatUnary p d a).map Prod.fst, KeepsMemory j := by
  simp only [floatUnary, List.map_cons, List.map_nil, List.forall_mem_cons]
  refine ⟨?_, ?_, ?_, ?_, ?_, ?_, ?_, ?_, ?_, ?_, ?_, ?_, ?_, ?_, List.forall_mem_nil _⟩
  all_goals exact keepsMemory_of_vec fun _ => rfl

theorem comparisons_keepMemory (p : Option VPfx) (d a b : BitVec 8) : ∀ j ∈ (comparisons p d a b).map Prod.fst, KeepsMemory j := by
  simp only [comparisons, List.map_cons, List.map_nil, List.forall_mem_cons]
  refine ⟨?_, ?_, ?_, ?_, ?_, List.forall_mem_nil _⟩
  all_goals exact keepsMemory_of_vec fun _ => rfl

/-- Settles O27: each of these is a scalar form or a vector frame, and neither reaches memory. -/
theorem registerFrame : Obligations.RegisterFrame := by
  intro s t p h n d a b i j hj e addr
  have hk : KeepsMemory j := by
    simp only [List.mem_append] at hj
    obtain (((((hj | hj) | hj) | hj) | hj) | hj) | hj := hj
    · exact scalarRegs_keepMemory _ _ _ j hj
    · exact scalarUnary_keepMemory _ _ _ _ _ j hj
    · exact vectorPairs_keepMemory _ _ _ _ j hj
    · exact vectorUnary_keepMemory _ _ _ _ _ _ j hj
    · exact floatPairs_keepMemory _ _ _ _ j hj
    · exact floatUnary_keepMemory _ _ _ j hj
    · exact comparisons_keepMemory _ _ _ _ j hj
  rw [hk.mem_eq e]

end Sys2Proof.Machine
end
section
/-!
PROOF. O5: selects, pairs, predicates, single lanes and the mode register (R305, R308, R309, R311, R312).
-/
namespace Sys2Proof.Machine

@[simp] theorem Warp.setPair_frags (x : Warp) (n : Nat) (v : DWord) : (x.setPair n v).frags = x.frags := by
  rw [Warp.setPair, Warp.setSf_frags, Warp.setSf_frags]

@[simp] theorem Warp.setP_frags (x : Warp) (n : Nat) (m : Mask) : (x.setP n m).frags = x.frags := by
  unfold Warp.setP
  split <;> rfl

theorem extractLsb'_five_toNat (y : Word) : (y.extractLsb' 0 5).toNat = y.toNat % 32 := by
  simp [BitVec.extractLsb'_toNat]

theorem modeBad_of_legal {v : Word} (hr : mRnd v < 5) (hp : mGp v < 48) : modeBad v = none := by
  simp [modeBad, Nat.not_le.2 hr, Nat.not_le.2 hp]

theorem modeBad_of_rnd {v : Word} (h : 5 ≤ mRnd v) :
    modeBad v = some { code := 0x04, einfo := BitVec.ofNat 32 (mType v + 16 * mRnd v) } := by
  have ht : mType v < 16 := (v.extractLsb' 0 4).isLt
  simp [modeBad, h, illegalType, Nat.mod_eq_of_lt ht]

theorem modeBad_of_gp {v : Word} (hr : mRnd v < 5) (hp : 48 ≤ mGp v) :
    modeBad v = some { code := 0x03, einfo := BitVec.ofNat 32 (mGp v + 1024) } := by
  simp [modeBad, Nat.not_le.2 hr, hp]

section
variable {s : State} {c : Ctx} {d a b : BitVec 8} (h : s.ctx = some c)
include h

theorem ends_ssel (hg : c.guard = true) (hos : c.Clear [{ sDst d with reads := true }, sOp a 1, sOp b 2]) :
    Ends (.ssel d a b) s c (c.x.setSf d.toNat (if c.x.sf d.toNat = 0#32 then c.x.sf b.toNat else c.x.sf a.toNat)) c.nextPc := by
  have hv : (if c.x.sf d.toNat != 0#32 then c.x.sf a.toNat else c.x.sf b.toNat) =
      if c.x.sf d.toNat = 0#32 then c.x.sf b.toNat else c.x.sf a.toNat := by
    by_cases hz : c.x.sf d.toNat = 0#32 <;> simp [hz]
  exact ends_of_writeS h (f := scalarSel d a b) rfl (by rw [scalarSel, guarded_clear c _ _ hos hg, hv])

theorem ends_sadd64 (hg : c.guard = true) (hos : c.Clear [spDst d, spOp a 1, spOp b 2]) :
    Ends (.sadd64 d a b) s c (c.x.setPair d.toNat (c.x.spair a.toNat + c.x.spair b.toNat)) c.nextPc :=
  Ends.of_done h (f := scalarAdd64 d a b) rfl (fun x => x.setPair d.toNat (c.x.spair a.toNat + c.x.spair b.toNat))
    (guarded_clear c _ _ hos hg) (by simp)

theorem ends_prd (hg : c.guard = true) (hos : c.Clear [sDst d, pOp a 1]) :
    Ends (.prd d a) s c (c.x.setSf d.toNat (c.x.pred a.toNat)) c.nextPc :=
  ends_of_writeS h (f := prd d a) rfl (guarded_clear c _ _ hos hg)

theorem ends_pwr (hg : c.guard = true) (hos : c.Clear [pDst d, sOp a 1]) :
    Ends (.pwr d a) s c (c.x.setP d.toNat ((c.f.mask &&& c.x.sf a.toNat) ||| (~~~ c.f.mask &&& c.x.pred d.toNat))) c.nextPc :=
  Ends.of_done h (f := pwr d a) rfl (fun x => x.setP d.toNat ((c.f.mask &&& c.x.sf a.toNat) ||| (~~~ c.f.mask &&& x.pred d.toNat)))
    (guarded_clear c _ _ hos hg) (by simp)

theorem ends_vgetl (hg : c.guard = true) (hos : c.Clear [sDst d, vOp 1 a 1, sOp b 2]) :
    Ends (.vgetl d a b) s c (c.x.setSf d.toNat (c.x.lane a.toNat ((c.x.sf b.toNat).toNat % 32))) c.nextPc :=
  ends_of_writeS h (f := vgetl d a b) rfl (by rw [vgetl, guarded_clear c _ _ hos hg, extractLsb'_five_toNat])

theorem ends_vsetl (hg : c.guard = true) (hos : c.Clear [vDst 1 d, sOp a 1, sOp b 2]) :
    Ends (.vsetl d a b) s c
      (if c.f.mask.getLsbD ((c.x.sf b.toNat).toNat % 32) then
        c.x.setV d.toNat ((c.x.vreg d.toNat).setIfInBounds ((c.x.sf b.toNat).toNat % 32) (c.x.sf a.toNat)) else c.x) c.nextPc := by
  by_cases hm : c.f.mask.getLsbD ((c.x.sf b.toNat).toNat % 32) = true
  · rw [if_pos hm]
    exact Ends.of_done h (f := vsetl d a b) rfl
      (fun x => x.setV d.toNat ((x.vreg d.toNat).setIfInBounds ((c.x.sf b.toNat).toNat % 32) (c.x.sf a.toNat)))
      (by rw [vsetl, guarded_clear c _ _ hos hg, extractLsb'_five_toNat]; simp [hm]) rfl
  · rw [if_neg hm]
    exact Ends.of_same h (f := vsetl d a b) rfl (by rw [vsetl, guarded_clear c _ _ hos hg, extractLsb'_five_toNat]; simp [hm])

theorem ends_getmode (hos : c.Clear [sDst d]) : Ends (.getmode d) s c (c.x.setSf d.toNat c.x.mode) c.nextPc :=
  ends_of_writeS h (f := getmode d) rfl (checked_ok c _ _ hos)

/-- `SETMODE` keeps the 18 bits of a mode whose rounding mode and guard predicate are legal (R309). -/
theorem ends_setmode (hos : c.Clear [sOp a 1]) (hr : mRnd (c.x.sf a.toNat) < 5) (hp : mGp (c.x.sf a.toNat) < 48) :
    Ends (.setmode a) s c { c.x with mode := c.x.sf a.toNat &&& 0x3FFFF#32 } c.nextPc := by
  have hv := modeBad_of_legal hr hp
  exact Ends.of_done h (f := setmode a) rfl (fun x => { x with mode := c.x.sf a.toNat &&& 0x3FFFF#32 })
    (by rw [setmode, checked_ok c _ _ hos, hv]; rfl) rfl

theorem faults_setmode {i : FaultInfo} (hos : c.Clear [sOp a 1]) (hv : modeBad (c.x.sf a.toNat) = some i) : Faults (.setmode a) s c i :=
  Faults.of_fault h (f := setmode a) rfl (by rw [setmode, checked_ok c _ _ hos, hv])

end

/-- Settles O5: each form is a guarded write, and `SETMODE` checks the mode before it. -/
theorem scalarMoves : Obligations.ScalarMoves := by
  intro s c d a b h
  refine ⟨fun hg => ⟨ends_ssel h hg, ends_sadd64 h hg, ends_prd h hg, ends_pwr h hg, ends_vgetl h hg, ends_vsetl h hg⟩, ends_getmode h,
    fun hos => ⟨ends_setmode h hos, fun hr => faults_setmode h hos (modeBad_of_rnd hr), fun hr hp => faults_setmode h hos (modeBad_of_gp hr hp)⟩⟩

end Sys2Proof.Machine
end
section
/-!
PROOF. O13: branches and jumps (R313–R315, R318) say where the whole fragment goes on; `BRV` splits it, also where the split table is full.
-/
namespace Sys2Proof.Machine

-- ## Where the whole fragment goes on

section
variable {i : Instr} {s : State} {c : Ctx} {f : Ctx → Res} (h : s.ctx = some c) (he : exec i s = runInstr s f)
include h he

/-- An instruction that moves its fragment and changes its warp by `g`. -/
theorem Ends.of_goto (g : Warp → Warp) {pc : DWord} {sp : Bool} (hf : f c = .goto (c.s.setWarp c.w g) pc sp)
    (hg : (g c.x).frags = c.x.frags) : Ends i s c (g c.x) pc := by
  refine ⟨c.after s.now (g c.x) pc fun f => if sp then f.spin c.basePc else f, ?_, Ctx.after_kept ..,
    Ctx.after_stands h _ _ _ _ (fun f => ?_) (by rw [hg])⟩
  · rw [he, runInstr_ctx h, hf, settle_goto_warp h]
  · have := Frag.spin_keeps f c.basePc
    split
    · simp [Frag.key, this]
    · rfl

theorem Ends.of_goto_same {pc : DWord} {sp : Bool} (hf : f c = .goto c.s pc sp) : Ends i s c c.x pc := by
  obtain ⟨hs, -, hw, -⟩ := State.ctx_some h
  exact EndsIn.of_goto h he (hf.trans (by rw [hs])) hw rfl

/-- A branch goes to its target where it is taken, else to the next instruction. -/
theorem ends_of_branch {n : Nat} {taken : Bool} {off : BitVec n} (hf : f c = c.branch taken off) :
    Ends i s c c.x (if taken then c.target off else c.nextPc) := by
  cases taken with
  | true => exact Ends.of_goto_same h he hf
  | false => exact Ends.of_goto_same h he hf

/-- A jump goes to an aligned address and faults at another (R314). -/
theorem ends_of_jump {v : Nat} (hf : f c = c.jump v) :
    (c.x.spair v &&& 3#64 = 0#64 → Ends i s c c.x (c.x.spair v)) ∧
    (c.x.spair v &&& 3#64 ≠ 0#64 → Faults i s c { code := 0x05, einfo := 0#32 }) :=
  ⟨fun ha => Ends.of_goto_same (sp := false) h he (hf.trans (by simp [Ctx.jump, ha])),
    fun ha => Faults.of_fault h he (hf.trans (by simp [Ctx.jump, ha]))⟩

end

/-- A predicate above 47 is out of range (check 6 of R286). -/
theorem checked_selOp_bad {c : Ctx} {sel : BitVec 6} (h : 48 ≤ sel.toNat) (r : Res) :
    checked c (selOp sel) r = .fault { code := 0x03, einfo := BitVec.ofNat 32 sel.toNat } := by
  have hsel : sel.toNat % 256 = sel.toNat := Nat.mod_eq_of_lt (by omega)
  have hbad : badOpnd c.x.vregs.length (selOp sel) = some { code := 0x03, einfo := BitVec.ofNat 32 sel.toNat } := by
    simp [badOpnd, selOp, Opnd.ok, Nat.not_lt.2 h, hsel]
  rw [checked, checkRange, hbad]

-- ## Splitting

theorem find_some_of_keys {l l' : List Frag} (h : l.map Frag.key = l'.map Frag.key) {n : Nat} {f : Frag}
    (hf : (l'.find? fun g => g.id = n) = some f) : ∃ f', (l.find? fun g => g.id = n) = some f' ∧ f'.key = f.key := by
  have := find_of_keys l l' h n
  rw [hf] at this
  exact Option.map_eq_some_iff.1 this

theorem mem_of_keys {l l' : List Frag} (h : l.map Frag.key = l'.map Frag.key) {g : Frag} (hg : g ∈ l) : ∃ g' ∈ l', g'.key = g.key := by
  have : g.key ∈ l'.map Frag.key := h ▸ List.mem_map_of_mem hg
  exact List.mem_map.1 this

theorem Frag.parent_of_key {f g : Frag} (h : f.key = g.key) : f.parent = g.parent := congrArg (fun k => k.2.2.2.1) h
theorem Frag.rejoin_of_key {f g : Frag} (h : f.key = g.key) : f.rejoin = g.rejoin := congrArg (fun k => k.2.2.2.2) h
theorem Frag.id_of_key {f g : Frag} (h : f.key = g.key) : f.id = g.id := congrArg Prod.fst h
theorem Frag.mask_of_key {f g : Frag} (h : f.key = g.key) : f.mask = g.mask := congrArg (fun k => k.2.2.1) h

/-- A fragment that stands at no rejoin PC of its own or of a child stays where it is. -/
theorem Warp.arrive_eq_self {x : Warp} {i : Nat} {f : Frag} (hf : x.frag i = some f) (hj : f.rejoin ≠ some f.pc)
    (hc : ∀ g ∈ x.frags, g.parent = some f.id → g.rejoin ≠ some f.pc) : x.arrive i = x := by
  have hno : x.atJoin f = false := by
    simp only [Warp.atJoin, Bool.or_eq_false_iff, List.any_eq_false, Bool.and_eq_true, decide_eq_true_eq, not_and, decide_eq_false_iff_not]
    exact ⟨hj, hc⟩
  unfold Warp.arrive
  rw [hf]
  simp only [hno]
  rfl

/-- What retirement leaves of the fragments where the issuing one meets no rejoin PC: it stands at `pc`, the others where they stood. -/
theorem Ctx.after_keys {c : Ctx} {x : Warp} {pc : DWord} {f : Frag} (now : Nat) (hf : x.frag c.f.id = some f) (hj : f.rejoin ≠ some pc)
    (hc : ∀ g ∈ x.frags, g.parent = some c.f.id → g.rejoin ≠ some pc) :
    ((c.after now x pc id).frag c.f.id).map Frag.key = some (c.f.id, pc, f.mask, f.parent, f.rejoin) ∧
    ∀ n, n ≠ c.f.id → ((c.after now x pc id).frag n).map Frag.key = (x.frag n).map Frag.key := by
  let g : Frag → Frag := fun f => { f with lastRan := now, pc := pc }
  let x1 : Warp := { x with rwc := x.rwc + 1#64, passStop := false }.countIssue c.f.id
  have hk1 : x1.frags.map Frag.key = x.frags.map Frag.key := Warp.countIssue_keys _ _
  obtain ⟨f1, hf1, hkey⟩ := find_some_of_keys hk1 hf
  have hid : f1.id = c.f.id := by simpa using List.find?_some hf1
  have h2 : (x1.setFrag c.f.id g).frag c.f.id = some (g f1) := by
    rw [Warp.setFrag_frag x1 c.f.id g fun _ => rfl]
    exact congrArg (Option.map g) hf1
  have hstay : (x1.setFrag c.f.id g).arrive c.f.id = x1.setFrag c.f.id g := by
    refine Warp.arrive_eq_self h2 ?_ fun k hk hp => ?_
    · exact Frag.rejoin_of_key hkey ▸ hj
    · have hchild : ∀ k ∈ x1.frags, k.parent = some c.f.id → k.rejoin ≠ some pc := fun k hk hp => by
        obtain ⟨k', hk', he⟩ := mem_of_keys hk1 hk
        exact Frag.rejoin_of_key he ▸ hc k' hk' ((Frag.parent_of_key he).trans hp)
      rw [show (g f1).id = c.f.id from hid] at hp
      rcases mem_modFirst _ _ _ _ hk with hk | ⟨b, hb, rfl⟩
      · exact hchild k hk hp
      · exact hchild b hb hp
  show (((x1.setFrag c.f.id g).arrive c.f.id).frag c.f.id).map Frag.key = _ ∧
    ∀ n, n ≠ c.f.id → (((x1.setFrag c.f.id g).arrive c.f.id).frag n).map Frag.key = _
  rw [hstay, h2]
  refine ⟨?_, fun n hn => ?_⟩
  · rw [← Frag.parent_of_key hkey, ← Frag.rejoin_of_key hkey, ← Frag.mask_of_key hkey, ← hid]
    rfl
  · rw [Warp.setFrag_frag_other x1 c.f.id n g (fun _ => rfl) hn]
    exact find_of_keys _ _ hk1 n

/-- The fragment that a split makes of the taken lanes (R200, R315). -/
def splitFrag (c : Ctx) (taken : Mask) (target : DWord) (rejoin : Option DWord) (x : Warp) : Frag :=
  let f := { id := x.nextFrag, entry := x.freeEntry, pc := target, mask := taken
             rejoin := if rejoin.isSome then rejoin else c.f.rejoin
             parent := if rejoin.isSome then some c.f.id else c.f.parent
             inHandler := c.f.inHandler : Frag }
  if (target - c.basePc).msb then f.spin c.basePc else f

theorem splitFrag_key (c : Ctx) (taken : Mask) (target : DWord) (rejoin : Option DWord) (x : Warp) :
    (splitFrag c taken target rejoin x).key = (x.nextFrag, target, taken,
      (if rejoin.isSome then some c.f.id else c.f.parent), if rejoin.isSome then rejoin else c.f.rejoin) := by
  unfold splitFrag
  dsimp only
  split
  · simp [Frag.key, Frag.spin_keeps]
  · rfl

section
variable {c : Ctx} {taken : Mask} {target : DWord} {rejoin : Option DWord} {stamp : Nat} {x : Warp}

theorem Warp.makeRoom_only : x.makeRoom stamp = { x with frags := (x.makeRoom stamp).frags } := by
  unfold Warp.makeRoom
  split
  · rfl
  split <;> rfl

/-- Nothing but the fragments and their number changes in a split. -/
theorem splitWarp_only : splitWarp c taken target rejoin stamp x =
    { x with nextFrag := x.nextFrag + 1, frags := (splitWarp c taken target rejoin stamp x).frags } := by
  unfold splitWarp
  rw [Warp.makeRoom_only]
  dsimp only
  rw [Warp.arrive_only]
  rfl

/-- With an entry free, a split adds the fragment of the taken lanes and leaves the issuing one the others. -/
theorem splitWarp_of_free (hfree : x.freeEntry.isSome = true) : splitWarp c taken target rejoin stamp x =
    ({ x with frags := x.frags ++ [splitFrag c taken target rejoin x], nextFrag := x.nextFrag + 1 }.setFrag c.f.id fun g =>
      { g with mask := g.mask &&& ~~~ taken }).arrive (splitFrag c taken target rejoin x).id := by
  have hroom : x.makeRoom stamp = x := by rw [Warp.makeRoom, if_pos hfree]
  unfold splitWarp
  rw [hroom]
  rfl

theorem frag_append_other {l : List Frag} {f g : Frag} {n : Nat} (hf : (l.find? fun g => g.id = n) = some f) :
    ((l ++ [g]).find? fun g => g.id = n) = some f := by
  rw [List.find?_append, hf]
  rfl

/-- Where the new fragment meets no rejoin PC either, both fragments of the split stand where it says. -/
theorem splitWarp_frags (hfree : x.freeEntry.isSome = true) (hold : ∀ g ∈ x.frags, g.id < x.nextFrag ∧ g.parent ≠ some x.nextFrag)
    (hj : (if rejoin.isSome then rejoin else c.f.rejoin) ≠ some target) (hf : x.frag c.f.id = some c.f) :
    let y := splitWarp c taken target rejoin stamp x
    y.frag c.f.id = some { c.f with mask := c.f.mask &&& ~~~ taken } ∧ y.frag x.nextFrag = some (splitFrag c taken target rejoin x) ∧
    ∀ g ∈ y.frags, ∃ g' ∈ x.frags ++ [splitFrag c taken target rejoin x], g.parent = g'.parent ∧ g.rejoin = g'.rejoin := by
  intro y
  generalize hn : splitFrag c taken target rejoin x = new at *
  have hkey := hn ▸ splitFrag_key c taken target rejoin x
  simp only [Frag.key, Prod.mk.injEq] at hkey
  obtain ⟨hid, hpc, hmask, hparent, hrejoin⟩ := hkey
  have hmem : c.f ∈ x.frags := List.mem_of_find?_eq_some hf
  have hne : x.nextFrag ≠ c.f.id := (hold c.f hmem).1.ne'
  let upd : Frag → Frag := fun g => { g with mask := g.mask &&& ~~~ taken }
  let x1 : Warp := { x with frags := x.frags ++ [new], nextFrag := x.nextFrag + 1 }
  have hx1 : x1.frag x.nextFrag = some new := by
    have hnone : x.frags.find? (fun g => g.id = x.nextFrag) = none := by
      simp only [List.find?_eq_none, decide_eq_true_eq]
      exact fun g hg => (hold g hg).1.ne
    show (x.frags ++ [new]).find? _ = _
    simp [List.find?_append, hnone, hid]
  have hnew : (x1.setFrag c.f.id upd).frag x.nextFrag = some new := by
    rw [Warp.setFrag_frag_other x1 c.f.id _ upd (fun _ => rfl) hne, hx1]
  have hown : (x1.setFrag c.f.id upd).frag c.f.id = some (upd c.f) := by
    rw [Warp.setFrag_frag x1 c.f.id upd fun _ => rfl]
    exact congrArg (Option.map upd) (frag_append_other hf)
  have hall : ∀ g ∈ (x1.setFrag c.f.id upd).frags, ∃ g' ∈ x.frags ++ [new], g.parent = g'.parent ∧ g.rejoin = g'.rejoin := fun g hg => by
    rcases mem_modFirst _ _ _ _ hg with hg | ⟨b, hb, rfl⟩
    · exact ⟨g, hg, rfl, rfl⟩
    · exact ⟨b, hb, rfl, rfl⟩
  have hchildless : ∀ g ∈ x.frags ++ [new], g.parent ≠ some x.nextFrag := fun g hg => by
    rcases List.mem_append.1 hg with hg | hg
    · exact (hold g hg).2
    · rw [List.mem_singleton.1 hg, hparent]
      split
      · exact fun hp => hne (Option.some.inj hp).symm
      · exact (hold c.f hmem).2
  have hy : y = x1.setFrag c.f.id upd := by
    show splitWarp c taken target rejoin stamp x = _
    rw [splitWarp_of_free hfree, hn, hid]
    refine Warp.arrive_eq_self hnew ?_ fun g hg hp => ?_
    · rw [hrejoin, hpc]; exact hj
    · obtain ⟨g', hg', hpar, -⟩ := hall g hg
      exact absurd ((hpar.symm.trans hp).trans (congrArg some hid)) (hchildless g' hg')
  rw [hy]
  exact ⟨hown, hnew, hall⟩
end

/-- A split from the state `s`: its fragment goes on at the next instruction. -/
def Ctx.splitGoto (c : Ctx) (taken : Mask) (target : DWord) (rejoin : Option DWord) (s : State) : Res :=
  let u := s.setWarp c.w (splitWarp c taken target rejoin s.nextId)
  .goto { u with nextId := u.nextId + 1 } c.nextPc false

section
variable {s : State} {c : Ctx} {rj : Option (BitVec 24)} {sel : BitVec 6} {o : BitVec 17} {neg : Bool} (h : s.ctx = some c)
  (hos : c.Clear (selOp sel))
include h hos

theorem brv_taken (ht : c.branchMask sel neg = c.f.mask) : Ends (.brv rj sel neg o) s c c.x (branchTarget c o) :=
  ends_of_branch h (f := brv rj sel neg o) (taken := true) rfl ((checked_ok c _ _ hos).trans (by simp [ht]))

theorem brv_passed (ht : c.branchMask sel neg ≠ c.f.mask) (hz : c.branchMask sel neg = 0#32) :
    Ends (.brv rj sel neg o) s c c.x c.nextPc :=
  ends_of_branch h (f := brv rj sel neg o) (taken := false) (off := o) rfl
    ((checked_ok c _ _ hos).trans (by rw [hz] at ht ⊢; simp [ht]))

theorem brv_full (ht : c.branchMask sel neg ≠ c.f.mask) (hz : c.branchMask sel neg ≠ 0#32) (hn : 76 ≤ c.x.frags.length) :
    Faults (.brv rj sel neg o) s c { code := 0x0E, einfo := 0#32 } :=
  Faults.of_fault h (f := brv rj sel neg o) rfl ((checked_ok c _ _ hos).trans (by simp [ht, hz, hn]))

end

/-- A split that finds an entry free, or a slot of the ring, goes on with the split warp at the next instruction. -/
theorem brv_split_eq {c : Ctx} {rj : Option (BitVec 24)} {sel : BitVec 6} {o : BitVec 17} {neg : Bool} (hos : c.Clear (selOp sel))
    (ht : c.branchMask sel neg ≠ c.f.mask) (hz : c.branchMask sel neg ≠ 0#32) (hn : c.x.frags.length < 76) :
    brv rj sel neg o c =
      if c.x.freeEntry.isSome then c.splitGoto (c.branchMask sel neg) (c.target o) (rj.map c.target) c.s
      else c.ring c.s c.x.freeSlot (c.splitGoto (c.branchMask sel neg) (c.target o) (rj.map c.target)) :=
  (checked_ok c _ _ hos).trans (by simp only [ht, hz, Nat.not_le.2 hn, beq_iff_eq, if_false]; rfl)

theorem settle_splitGoto {c : Ctx} {u : State} {taken : Mask} {target : DWord} {rejoin : Option DWord} (hu : u.warp c.w = some c.x) :
    let t := settle c (c.splitGoto taken target rejoin u)
    t.warp c.w = some (c.after u.now (splitWarp c taken target rejoin u.nextId c.x) c.nextPc id) ∧ t.mem = u.mem := by
  intro t
  let v := u.setWarp c.w (splitWarp c taken target rejoin u.nextId)
  have hv : v.warp c.w = some (splitWarp c taken target rejoin u.nextId c.x) := by
    rw [State.warp_setWarp_same, hu, Option.map_some]
  have ht : t = retireTo c { v with nextId := v.nextId + 1 } c.nextPc id := rfl
  have hw : ({ v with nextId := v.nextId + 1 } : State).warp c.w = v.warp c.w := rfl
  constructor
  · rw [ht, retireTo_eq, State.warp_setWarp_same, hw, hv, Option.map_some]
    rfl
  · rw [ht, retireTo_mem]
    exact State.setWarp_mem u c.w (splitWarp c taken target rejoin u.nextId)

/-- What a split leaves of the warp's registers. -/
theorem after_splitWarp_registers {c : Ctx} {now stamp : Nat} {taken : Mask} {target pc : DWord} {rejoin : Option DWord} {x : Warp} :
    let y := c.after now (splitWarp c taken target rejoin stamp x) pc id
    y.sregs = x.sregs ∧ y.vregs = x.vregs ∧ y.preds = x.preds ∧ y.mode = x.mode ∧ y.rwc = x.rwc + 1#64 := by
  intro y
  have hy : y = { splitWarp c taken target rejoin stamp x with
      rwc := (splitWarp c taken target rejoin stamp x).rwc + 1#64, passStop := false, frags := y.frags } := Ctx.after_only ..
  rw [hy, splitWarp_only]
  exact ⟨rfl, rfl, rfl, rfl, rfl⟩

section
variable {s : State} {c : Ctx} {rj : Option (BitVec 24)} {taken : Mask} {target : DWord} (h : s.ctx = some c)
include h

/-- Where neither fragment meets a rejoin PC, both stand where the split puts them. -/
theorem after_splitWarp_frags {now stamp : Nat} (hfree : c.x.freeEntry.isSome = true) (hnext : c.NoJoin c.nextPc) (htarget : c.NoJoin target)
    (hold : ∀ g ∈ c.x.frags, g.id < c.x.nextFrag ∧ g.parent ≠ some c.x.nextFrag)
    (hrj : ∀ r, rj = some r → c.target r ≠ target ∧ c.target r ≠ c.nextPc) :
    let y := c.after now (splitWarp c taken target (rj.map c.target) stamp c.x) c.nextPc id
    (y.frag c.f.id).map Frag.spot = some (c.nextPc, c.f.mask &&& ~~~ taken) ∧
    (y.frag c.x.nextFrag).map Frag.key = some (splitFrag c taken target (rj.map c.target) c.x).key := by
  obtain ⟨-, -, -, hf, -⟩ := State.ctx_some h
  have hmem : c.f ∈ c.x.frags := List.mem_of_find?_eq_some hf
  have hne : c.x.nextFrag ≠ c.f.id := (hold c.f hmem).1.ne'
  have hjoin : ∀ pc, c.f.rejoin ≠ some pc → (∀ r, rj = some r → c.target r ≠ pc) →
      (if (rj.map c.target).isSome then rj.map c.target else c.f.rejoin) ≠ some pc := fun pc hown hr => by
    cases rj with
    | none => exact hown
    | some r => exact fun he => hr r rfl (Option.some.inj he)
  obtain ⟨hown, hnew, hall⟩ := splitWarp_frags (stamp := stamp) hfree hold (hjoin target htarget.1 fun r hr => (hrj r hr).1) hf
  have hrejoin : (splitFrag c taken target (rj.map c.target) c.x).rejoin =
      if (rj.map c.target).isSome then rj.map c.target else c.f.rejoin :=
    congrArg (fun k => k.2.2.2.2) (splitFrag_key c taken target (rj.map c.target) c.x)
  obtain ⟨hy, hother⟩ := Ctx.after_keys (pc := c.nextPc) now hown hnext.1 fun g hg hp => by
    obtain ⟨g', hg', hpar, hrej⟩ := hall g hg
    rw [hrej]
    rcases List.mem_append.1 hg' with hg' | hg'
    · exact hnext.2 g' hg' (hpar.symm.trans hp)
    · rw [List.mem_singleton.1 hg', hrejoin]
      exact hjoin c.nextPc hnext.1 fun r hr => (hrj r hr).2
  refine ⟨?_, (hother _ hne).trans (congrArg (Option.map Frag.key) hnew)⟩
  obtain ⟨f, hfy, hkey⟩ := Option.map_eq_some_iff.1 hy
  rw [hfy]
  simp only [Frag.key, Prod.mk.injEq] at hkey
  simp [Frag.spot, hkey]

end

theorem spot_of_splitFrag_key {c : Ctx} {rejoin : Option DWord} {taken : Mask} {target : DWord} {o : Option Frag}
    (h : o.map Frag.key = some (splitFrag c taken target rejoin c.x).key) :
    o.map (fun f => (f.spot, f.rejoin, f.parent)) = some ((target, taken),
      if rejoin.isSome then rejoin else c.f.rejoin, if rejoin.isSome then some c.f.id else c.f.parent) := by
  rw [splitFrag_key] at h
  obtain ⟨f, rfl, hkey⟩ := Option.map_eq_some_iff.1 h
  simp only [Frag.key, Prod.mk.injEq] at hkey
  obtain ⟨-, hpc, hmask, hparent, hrejoin⟩ := hkey
  rw [Option.map_some, hparent, hrejoin, Frag.spot, hpc, hmask]

section
variable {s : State} {c : Ctx} {rj : Option (BitVec 24)} {sel : BitVec 6} {o : BitVec 17} {neg : Bool} (h : s.ctx = some c)
  (hos : c.Clear (selOp sel)) (ht : c.branchMask sel neg ≠ c.f.mask) (hz : c.branchMask sel neg ≠ 0#32) (hn : c.x.frags.length < 76)
include h hos ht hz hn

/-- `BRV` splits its fragment while the split table has an entry (R200, R315). -/
theorem brv_splits (hfree : c.x.freeEntry.isSome = true) (hnext : c.NoJoin c.nextPc) (htarget : c.NoJoin (c.target o))
    (hold : ∀ g ∈ c.x.frags, g.id < c.x.nextFrag ∧ g.parent ≠ some c.x.nextFrag)
    (hrj : ∀ r, rj = some r → c.target r ≠ c.target o ∧ c.target r ≠ c.nextPc) :
    ∃ t y, exec (.brv rj sel neg o) s = .next t ∧ t.warp c.w = some y ∧ t.mem = s.mem ∧
      y.sregs = c.x.sregs ∧ y.vregs = c.x.vregs ∧ y.preds = c.x.preds ∧ y.mode = c.x.mode ∧ y.rwc = c.x.rwc + 1#64 ∧
      (y.frag c.f.id).map Frag.spot = some (c.nextPc, c.f.mask &&& ~~~ c.branchMask sel neg) ∧
      (y.frag c.x.nextFrag).map Frag.key =
        some (splitFrag c (c.branchMask sel neg) (c.target o) (rj.map c.target) c.x).key := by
  obtain ⟨hs, -, hx, -⟩ := State.ctx_some h
  have hf := (brv_split_eq (rj := rj) (o := o) hos ht hz hn).trans (if_pos hfree)
  obtain ⟨hw, hmem⟩ := settle_splitGoto (u := c.s) (taken := c.branchMask sel neg) (target := c.target o) (rejoin := rj.map c.target)
    (by rw [hs]; exact hx)
  obtain ⟨hsregs, hvregs, hpreds, hmode, hrwc⟩ := after_splitWarp_registers (c := c) (now := c.s.now) (stamp := c.s.nextId)
    (taken := c.branchMask sel neg) (target := c.target o) (pc := c.nextPc) (rejoin := rj.map c.target) (x := c.x)
  obtain ⟨hown, hnew⟩ := after_splitWarp_frags (taken := c.branchMask sel neg) (now := c.s.now) (stamp := c.s.nextId) h hfree hnext htarget hold hrj
  have he : exec (.brv rj sel neg o) s = runInstr s (brv rj sel neg o) := rfl
  exact ⟨_, _, by rw [he, runInstr_ctx h, hf], hw, hmem.trans (by rw [hs]), hsregs, hvregs, hpreds, hmode, hrwc, hown, hnew⟩

/-- With the table full it splits too, once the slot of the ring translates: the spill is written first (R202, R203). -/
theorem brv_spills (hfull : c.x.freeEntry = none) {a e z pa : Nat}
    (ha : a = (s.vd c.vd).saveBase + c.b.area.getD 0 + warpPart c.k c.w.wi + 16 * c.x.freeSlot) (htab : s.tablesLack c.vd a = none)
    (hs2 : s.s2 c.vd a 1 = .ok e z pa) :
    ∃ t y, exec (.brv rj sel neg o) s = .next t ∧ t.warp c.w = some y ∧ y.rwc = c.x.rwc + 1#64 ∧ y.sregs = c.x.sregs ∧
      y.vregs = c.x.vregs ∧ y.preds = c.x.preds ∧ y.mode = c.x.mode := by
  obtain ⟨hs, -, hx, -⟩ := State.ctx_some h
  let u := (s.freeBytes 16).1.post [{ vd := c.vd, dest := .phys pa, bytes := (s.freeBytes 16).2.map (BitVec.ofNat 8) }]
  have hu : u.warp c.w = some c.x := (State.drainPosts_posts _ _ _).warp c.w |>.trans hx
  have hf : brv rj sel neg o c = c.splitGoto (c.branchMask sel neg) (c.target o) (rj.map c.target) u := by
    rw [brv_split_eq hos ht hz hn, hfull, hs]
    unfold Ctx.ring
    rw [← ha]
    simp only [htab, hs2]
    rfl
  obtain ⟨hw, -⟩ := settle_splitGoto (taken := c.branchMask sel neg) (target := c.target o) (rejoin := rj.map c.target) hu
  obtain ⟨hsregs, hvregs, hpreds, hmode, hrwc⟩ := after_splitWarp_registers (c := c) (now := u.now) (stamp := u.nextId)
    (taken := c.branchMask sel neg) (target := c.target o) (pc := c.nextPc) (rejoin := rj.map c.target) (x := c.x)
  have he : exec (.brv rj sel neg o) s = runInstr s (brv rj sel neg o) := rfl
  exact ⟨_, _, by rw [he, runInstr_ctx h, hf], hw, hrwc, hsregs, hvregs, hpreds, hmode⟩

end

-- ## Each branch

section
variable {s : State} {c : Ctx} {sel : BitVec 6} {o : BitVec 17} {neg : Bool} (h : s.ctx = some c)
include h

theorem ends_brs (hos : c.Clear [{ k := .sx, val := sel.toNat, code := 0 }]) :
    Ends (.brs sel o) s c c.x (if c.x.sreg sel.toNat = 0#32 then c.nextPc else c.target o) ∧
    Ends (.brsz sel o) s c c.x (if c.x.sreg sel.toNat = 0#32 then c.target o else c.nextPc) := by
  have hs := ends_of_branch h (i := .brs sel o) rfl (checked_ok c _ _ hos)
  have hz := ends_of_branch h (i := .brsz sel o) rfl (checked_ok c _ _ hos)
  by_cases h0 : c.x.sreg sel.toNat = 0#32
  · simp only [h0] at hs hz ⊢
    exact ⟨hs, hz⟩
  · simp only [beq_eq_false_iff_ne.2 h0, h0] at hs hz ⊢
    exact ⟨hs, hz⟩

theorem ends_brany (hos : c.Clear (selOp sel)) :
    Ends (.brany sel neg o) s c c.x (if c.branchMask sel neg = 0#32 then c.nextPc else c.target o) := by
  have hb := ends_of_branch h (i := .brany sel neg o) rfl (checked_ok c _ _ hos)
  by_cases h0 : c.branchMask sel neg = 0#32 <;> simpa [h0] using hb

theorem ends_brall (hos : c.Clear (selOp sel)) :
    Ends (.brall sel neg o) s c c.x (if c.branchMask sel neg = c.f.mask then c.target o else c.nextPc) := by
  have hb := ends_of_branch h (i := .brall sel neg o) rfl (checked_ok c _ _ hos)
  by_cases h0 : c.branchMask sel neg = c.f.mask <;> simpa [h0] using hb

theorem faults_of_predicate (hsel : 48 ≤ sel.toNat) : ∀ i ∈ [Instr.brany sel neg o, .brall sel neg o, .brv none sel neg o],
    Faults i s c { code := 0x03, einfo := BitVec.ofNat 32 sel.toNat } := by
  simp only [List.forall_mem_cons]
  exact ⟨Faults.of_fault h (f := brany sel neg o) rfl (checked_selOp_bad hsel _),
    Faults.of_fault h (f := brall sel neg o) rfl (checked_selOp_bad hsel _),
    Faults.of_fault h (f := brv none sel neg o) rfl (checked_selOp_bad hsel _), List.forall_mem_nil _⟩

theorem ends_call {off : BitVec 24} (hos : c.Clear [{ k := .sp, val := 254, code := 0, reads := false, writes := true }]) :
    Ends (.call off) s c (c.x.setPair 254 (c.pc + 4#64)) (c.target off) :=
  Ends.of_goto h (f := call off) rfl (fun x => x.setPair 254 (c.pc + 4#64)) (checkReady_ok c _ _ hos.2.1 hos.2.2) (Warp.setPair_frags _ _ _)

end

/-- Settles O13: the branches and jumps one by one, then the ways of a `BRV`. -/
theorem branchInstructions : Obligations.BranchInstructions := by
  refine ⟨fun s c off sel o neg a h => ⟨Ends.of_same h (f := nop) rfl rfl, ends_of_branch h (f := bra off) (taken := true) rfl rfl,
    fun hos => ends_brs h hos, fun hos => ⟨ends_brany h hos, ends_brall h hos⟩, fun hsel => faults_of_predicate h hsel,
    fun hos => ends_call h hos, fun hos => ends_of_jump h (f := ret) rfl (checkReady_ok c _ _ hos.2.1 hos.2.2),
    fun hos => ends_of_jump h (f := jmpr a) rfl (checked_ok c _ _ hos)⟩, fun s c rj sel o neg h hos => ⟨brv_taken h hos, brv_passed h hos,
      brv_full h hos, fun ht hz hn hfree hnext htarget hold hrj => ?_, fun ht hz hn hfull => ?_⟩⟩
  · obtain ⟨t, y, he, hw, hmem, hsregs, hvregs, hpreds, hmode, hrwc, hown, hnew⟩ :=
      brv_splits (rj := rj) h hos ht hz hn hfree hnext htarget hold hrj
    exact ⟨t, y, he, hw, hmem, hsregs, hvregs, hpreds, hmode, hrwc, hown,
      (spot_of_splitFrag_key hnew).trans (by cases rj <;> rfl)⟩
  · intro a htab e z pa hs2
    exact brv_spills h hos ht hz hn hfull rfl htab hs2

end Sys2Proof.Machine
end
section
/-!
PROOF. O15: `TRAP`, `BRK` and a word that is no instruction (R265, R286, R289, R326).
-/
namespace Sys2Proof.Machine

section
variable {s : State} {c : Ctx} {k : BitVec 24} (h : s.ctx = some c)
include h

theorem ends_brk_passed (hp : c.x.passStop = true) : Ends (.brk k) s c c.x c.nextPc :=
  Ends.of_same h (f := brk k) rfl (by rw [brk, if_pos hp])

/-- Without a debugger a `BRK` takes its fault. -/
theorem faults_brk (hp : c.x.passStop = false) (ha : (s.vd c.vd).attach = false) :
    Faults (.brk k) s c { code := 0x13, einfo := k.setWidth 32, epc := some c.nextPc } := by
  have hs := (State.ctx_some h).1
  exact Faults.of_fault h (f := brk k) rfl (by simp [brk, hp, Ctx.stop, hs, ha])

/-- In a block that halts already, the warp stops with the cause (R265). -/
theorem brk_halting (hp : c.x.passStop = false) (ha : (s.vd c.vd).attach = true) (hb : c.b.halting = true) :
    exec (.brk k) s = .next (s.setWarp c.w fun x => { x with stopCause := 0x13 }) := by
  have hs := (State.ctx_some h).1
  have hf : brk k c = .parked (s.setWarp c.w fun x => { x with stopCause := 0x13 }) := by simp [brk, hp, Ctx.stop, hs, ha, hb]
  rw [show exec (.brk k) s = runInstr s (brk k) from rfl, runInstr_ctx h, hf]
  rfl

end

/-- The lowest index that is free. -/
theorem find_lowest_free {α : Type} {m : NMap α} {n : Nat} (hn : n < 16) (hfree : find m n = none) (hlow : ∀ k, k < n → find m k ≠ none) :
    ((List.range 16).find? fun k => (find m k).isNone) = some n :=
  List.find?_range_eq_some.2 ⟨by simp [hfree], List.mem_range.2 hn, fun j hj => by simp [Option.isSome_iff_ne_none, hlow j hj]⟩

/-- A `BRK` halts its block at the lowest free index of the VD's halts. -/
theorem brk_halts {s : State} {c : Ctx} {k : BitVec 24} (h : s.ctx = some c) (hp : c.x.passStop = false) (ha : (s.vd c.vd).attach = true)
    (hb : c.b.halting = false) {n : Nat} (hn : n < 16) (hfree : find (s.vd c.vd).halts n = none)
    (hlow : ∀ m, m < n → find (s.vd c.vd).halts m ≠ none) :
    exec (.brk k) s = .next (((s.setVd c.vd fun v => { v with halts := put v.halts n c.w.blk }).setBlk c.w.blk fun b =>
      { b with halting := true }).setWarp c.w fun x => { x with stopCause := 0x13 }) := by
  have hs := (State.ctx_some h).1
  have hf : brk k c = .parked (((s.setVd c.vd fun v => { v with halts := put v.halts n c.w.blk }).setBlk c.w.blk fun b =>
      { b with halting := true }).setWarp c.w fun x => { x with stopCause := 0x13 }) := by
    simp [brk, hp, Ctx.stop, hs, ha, hb, find_lowest_free hn hfree hlow]
  rw [show exec (.brk k) s = runInstr s (brk k) from rfl, runInstr_ctx h, hf]
  rfl

/-- Settles O15: the halted block and the stopped warp are read off the state that `BRK` leaves. -/
theorem traps : Obligations.Traps := by
  intro s c k w h
  obtain ⟨-, -, hx, -, hblk, -⟩ := State.ctx_some h
  refine ⟨Faults.of_fault h (f := trap k) rfl rfl, Faults.of_fault h (f := illegalOpcode w) rfl rfl, ends_brk_passed h, faults_brk h,
    fun hp ha hb n hn hfree hlow => ⟨_, brk_halts h hp ha hb hn hfree hlow, ?halts, ?block, ?warp, ?mem⟩, brk_halting h⟩
  case halts =>
    show find ((s.setVd c.vd fun v => { v with halts := put v.halts n c.w.blk }).vd c.vd).halts n = _
    rw [State.vd_setVd_same]
    exact find_put_same _ _ _
  case block =>
    have hb : (s.setVd c.vd fun v => { v with halts := put v.halts n c.w.blk }).blk c.w.blk = some c.b := hblk
    rw [State.setWarp, State.blk_setImg_same, State.blk_setBlk_same, hb]
    rfl
  case warp =>
    have hb : (s.setVd c.vd fun v => { v with halts := put v.halts n c.w.blk }).blk c.w.blk = some c.b := hblk
    have hw : c.b.img.warps[c.w.wi]? = some c.x := by
      rw [State.warp, hblk] at hx
      exact hx
    rw [State.warp_setWarp_same, State.warp, State.blk_setBlk_same, hb]
    show Option.map _ (Option.map _ c.b.img.warps[c.w.wi]?) = _
    rw [hw]
    rfl
  case mem => rw [State.setWarp_mem, State.setBlk_mem, State.setVd_mem]

end Sys2Proof.Machine
end
section
/-!
PROOF. O17: `SRD` and `SWR` by the special registers they name (R292, R293, R310), `VDQUERY` and `CAPQ` (R18, R321, R322).
-/
namespace Sys2Proof.Machine

-- ## Reading

/-- A 32-bit special register is read by one write of `sd`. -/
theorem srd_narrow {c : Ctx} {d i : BitVec 8} {v : Word} (hi : i.toNat < 0x1D) (hw : c.wide i.toNat = none)
    (hv : (if i = 0x19#8 && !c.f.inHandler then 0#32 else c.special i.toNat) = v) : srd d i c = guarded c [sDst d] (c.writeS d v) := by
  rw [srd, if_neg (Nat.not_le.2 hi), hw, ← hv]

/-- A 64-bit special register is read by a write of `sd` and of the latch. -/
theorem srd_wide {c : Ctx} {d i : BitVec 8} {v : DWord} (hi : i.toNat < 0x1D) (hw : c.wide i.toNat = some v)
    (hlog : c.wideLogged i.toNat v = (c.s, v)) : srd d i c = guarded c [sDst d]
      (.done (c.s.setWarp c.w fun x => { x with latch := v.extractLsb' 32 32 }.setSf d.toNat (v.extractLsb' 0 32))) := by
  rw [srd, if_neg (Nat.not_le.2 hi), hw]
  simp only [hlog]

/-- Outside a proof phase and its re-execution nothing is logged. -/
theorem Ctx.wideLogged_calm {s : State} {c : Ctx} (h : s.ctx = some c) (hproof : c.b.proof = none) (hreplay : c.b.replay = none) (i : Nat)
    (v : DWord) : c.wideLogged i v = (c.s, v) := by
  have hs := (State.ctx_some h).1
  have hpop : c.s.popLog c.w = none := State.popLog_of_none h hreplay
  have hlog : c.s.logValue c.w v.toNat = c.s := by
    rw [hs]
    exact State.logValue_of_none h rfl hproof _
  unfold Ctx.wideLogged
  split
  · rfl
  · rw [hpop, hlog]

section
variable {s : State} {c : Ctx} {d : BitVec 8} (h : s.ctx = some c) (hg : c.guard = true) (hos : c.Clear [sDst d])
include h hg hos

theorem ends_srd_special : ∀ p ∈ specials c, Ends (.srd d p.1) s c (c.x.setSf d.toNat p.2) c.nextPc := by
  have hend : ∀ {i : BitVec 8} {v : Word}, i.toNat < 0x1D → c.wide i.toNat = none →
      (if i = 0x19#8 && !c.f.inHandler then 0#32 else c.special i.toNat) = v → Ends (.srd d i) s c (c.x.setSf d.toNat v) c.nextPc :=
    fun {i v} hi hw hv => (ends_of_guarded_writeS h (f := srd d i) rfl (srd_narrow hi hw hv) hos).1 hg
  simp only [specials, List.forall_mem_cons]
  refine ⟨?_, ?_, ?_, ?_, ?_, ?_, ?_, ?_, ?_, ?_, ?_, ?_, ?_, ?_, ?_, ?_, ?_, ?_, ?_, ?_, ?_, ?high, ?_, ?_, ?_, List.forall_mem_nil _⟩
  case high => exact hend (by decide) rfl (by cases c.f.inHandler <;> rfl)
  all_goals exact hend (by decide) rfl rfl

theorem ends_srd_wide (hproof : c.b.proof = none) (hreplay : c.b.replay = none) :
    ∀ p ∈ [(0x0C#8, BitVec.ofNat 64 (s.vclock c.vd)), (0x0E#8, BitVec.ofNat 64 s.ns),
          (0x10#8, c.x.rwc), (0x18#8, if c.f.inHandler then c.x.epc else 0#64)],
        Ends (.srd d p.1) s c ({ c.x with latch := p.2.extractLsb' 32 32 }.setSf d.toNat (p.2.extractLsb' 0 32)) c.nextPc := by
  have hs := (State.ctx_some h).1
  have hend : ∀ {i : BitVec 8} {v : DWord}, i.toNat < 0x1D → c.wide i.toNat = some v →
      Ends (.srd d i) s c ({ c.x with latch := v.extractLsb' 32 32 }.setSf d.toNat (v.extractLsb' 0 32)) c.nextPc := by
    intro i v hi hw
    have hrun : srd d i c = .done (c.s.setWarp c.w fun x => { x with latch := v.extractLsb' 32 32 }.setSf d.toNat (v.extractLsb' 0 32)) :=
      (srd_wide hi hw (Ctx.wideLogged_calm h hproof hreplay _ _)).trans (guarded_clear c _ _ hos hg)
    have hfr : (({ c.x with latch := v.extractLsb' 32 32 } : Warp).setSf d.toNat (v.extractLsb' 0 32)).frags.map Frag.key = c.x.frags.map Frag.key :=
      congrArg (·.map Frag.key) (Warp.setSf_frags _ _ _)
    have hends := Ends.of_done (i := .srd d i) h (f := srd d i) rfl _ hrun hfr
    exact hends
  have hcycle : c.wide 0x0C = some (BitVec.ofNat 64 (s.vclock c.vd)) := by rw [← hs, Ctx.wide]
  have htime : c.wide 0x0E = some (BitVec.ofNat 64 s.ns) := by rw [← hs, Ctx.wide]
  simp only [List.forall_mem_cons]
  exact ⟨hend (i := 0x0C#8) (by decide) hcycle, hend (i := 0x0E#8) (by decide) htime, hend (i := 0x10#8) (v := c.x.rwc) (by decide) rfl,
    hend (i := 0x18#8) (by decide) rfl, List.forall_mem_nil _⟩

end

-- ## Writing

section
variable {s : State} {c : Ctx} {a : BitVec 8} (h : s.ctx = some c) (hg : c.guard = true) (hos : c.Clear [sOp a 1])
include h hg hos

/-- Outside a handler `SWR` changes nothing; nor does it at a register that it cannot write. -/
theorem ends_swr_ignored {i : BitVec 8} (hi : i.toNat < 0x1D) (hno : c.f.inHandler = false ∨ i ∉ [0x18#8, 0x19#8, 0x1C#8]) :
    Ends (.swr a i) s c c.x c.nextPc := by
  refine Ends.of_same h (f := swr a i) rfl ?_
  rw [swr, if_neg (Nat.not_le.2 hi), guarded_clear c _ _ hos hg]
  obtain hf | hn := hno
  · simp [hf]
  · simp only [List.mem_cons, List.not_mem_nil, or_false, not_or] at hn
    simp [hn]

theorem ends_swr_epcLow (hf : c.f.inHandler = true) :
    Ends (.swr a 0x18#8) s c { c.x with epc := c.x.epc.extractLsb' 32 32 ++ c.x.sf a.toNat } c.nextPc :=
  Ends.of_done h (f := swr a 0x18#8) rfl (fun x => { x with epc := x.epc.extractLsb' 32 32 ++ c.x.sf a.toNat })
    ((guarded_clear c _ _ hos hg).trans (by simp [hf])) rfl

theorem ends_swr_epcHigh (hf : c.f.inHandler = true) :
    Ends (.swr a 0x19#8) s c { c.x with epc := c.x.sf a.toNat ++ c.x.epc.extractLsb' 0 32 } c.nextPc :=
  Ends.of_done h (f := swr a 0x19#8) rfl (fun x => { x with epc := c.x.sf a.toNat ++ x.epc.extractLsb' 0 32 })
    ((guarded_clear c _ _ hos hg).trans (by simp [hf])) rfl

theorem ends_swr_emode (hf : c.f.inHandler = true) (hr : mRnd (c.x.sf a.toNat) < 5) (hp : mGp (c.x.sf a.toNat) < 48) :
    Ends (.swr a 0x1C#8) s c { c.x with emode := c.x.sf a.toNat &&& 0x3FFFF#32 } c.nextPc :=
  Ends.of_done h (f := swr a 0x1C#8) rfl (fun x => { x with emode := c.x.sf a.toNat &&& 0x3FFFF#32 })
    ((guarded_clear c _ _ hos hg).trans (by simp [hf, modeBad_of_legal hr hp]; rfl)) rfl

theorem faults_swr_emode (hf : c.f.inHandler = true) (hr : 5 ≤ mRnd (c.x.sf a.toNat)) :
    Faults (.swr a 0x1C#8) s c { code := 0x04, einfo := BitVec.ofNat 32 (mType (c.x.sf a.toNat) + 16 * mRnd (c.x.sf a.toNat)) } :=
  Faults.of_fault h (f := swr a 0x1C#8) rfl ((guarded_clear c _ _ hos hg).trans (by simp [hf, modeBad_of_rnd hr]))

end

-- ## Queries

section
variable {s : State} {c : Ctx} {d a b : BitVec 8} (h : s.ctx = some c) (hg : c.guard = true)
include h hg

theorem ends_vdquery (hos : c.Clear [sDst d, sOp a 1, sOp b 2]) {v : Word}
    (hv : (if (s.vd c.vd).nvdie ≤ (c.x.sf a.toNat).toNat || (s.vd c.vd).nvdie ≤ (c.x.sf b.toNat).toNat then 0xFFFFFFFF#32
      else BitVec.ofNat 32 (hops (((s.vd c.vd).pdie (c.x.sf a.toNat).toNat).getD 0) (((s.vd c.vd).pdie (c.x.sf b.toNat).toNat).getD 0))) = v) :
    Ends (.vdquery d a b) s c (c.x.setSf d.toNat v) c.nextPc := by
  have hs := (State.ctx_some h).1
  exact ends_of_writeS h (f := vdquery d a b) rfl ((guarded_clear c _ _ hos hg).trans (by rw [hs, ← hv]))

theorem ends_capq (hos : c.Clear [sDst d, sOp a 1]) :
    let e := s.cap c.vd (c.x.sf a.toNat).toNat
    Ends (.capq d a) s c (c.x.setSf d.toNat
      (if (c.x.sf a.toNat).toNat < 4096 ∧ bit e 31 = true then BitVec.ofNat 32 (1 + 2 * bits e 27 22 + 65536 * bits e 47 32) else 0#32))
      c.nextPc := by
  intro e
  have hs := (State.ctx_some h).1
  refine ends_of_writeS h (f := capq d a) rfl ((guarded_clear c _ _ hos hg).trans ?_)
  by_cases hi : (c.x.sf a.toNat).toNat < 4096
  · rw [hs]
    simp [hi, e]
  · have he : s.cap c.vd (c.x.sf a.toNat).toNat = 0 := if_neg hi
    rw [hs, he]
    simp [hi, bit]

end

/-- Settles O17: each register by its one read or write, each query by the entry that it reads. -/
theorem specialRegistersAndQueries : Obligations.SpecialRegistersAndQueries := by
  refine ⟨fun s c d a i h => ⟨fun hi => ?range, fun hg hos => ⟨ends_srd_special h hg hos, ends_srd_wide h hg hos⟩, fun hg hos =>
    ⟨fun hf => ⟨ends_swr_epcLow h hg hos hf, ends_swr_epcHigh h hg hos hf, ends_swr_emode h hg hos hf, faults_swr_emode h hg hos hf⟩,
      ends_swr_ignored h hg hos⟩⟩, fun s c d a b h hg => ⟨fun hos => ⟨fun hn => ?_, fun p q hi hj hp hq => ?_⟩, ends_capq h hg⟩⟩
  case range =>
    have hs := (State.ctx_some h).1
    exact ⟨Faults.of_fault h (f := srd d i) rfl (by rw [srd, if_pos hi, hs]), Faults.of_fault h (f := swr a i) rfl (by rw [swr, if_pos hi, hs])⟩
  · exact ends_vdquery h hg hos (if_pos (by simpa using hn))
  · refine ends_vdquery h hg hos ?_
    rw [if_neg (by simp [hi, hj]), hp, hq]
    rfl

end Sys2Proof.Machine
end
section
/-!
PROOF. O9: comparisons (R338) and predicate logic (R341), by the frame of vector instructions for bodies that write a predicate (R330).
-/
namespace Sys2Proof.Machine

-- ## Bodies that ignore their type (R331)

/-- A body accepts the types it names; one that names none accepts the effective type, whatever it is. -/
def VBody.Accepts (y : VBody) (e : Eff) (types : List Nat) : Prop := y.types.getD [e.type] = types

/-- Where the issuing warp is known, only the instruction's meaning in its context counts. -/
theorem runInstr_congr {s : State} {c : Ctx} (h : s.ctx = some c) {f g : Ctx → Res} (hfg : f c = g c) : runInstr s f = runInstr s g := by
  rw [runInstr_ctx h, runInstr_ctx h, hfg]

/-- A body that ignores its type comes to what it comes to with its effective type accepted. -/
theorem vec_accepting {c : Ctx} {p : Option VPfx} {y : VBody} {types : List Nat} (h : y.Accepts (c.eff p) types) :
    vec p y c = vec p { y with types := some types } c := by
  rw [← h]
  rfl

-- ## The frame for predicate destinations (R330)

/-- A body that writes the active lanes of predicate `d`, with `lane` their bits. -/
structure VBody.Sets (y : VBody) (c : Ctx) (p : Option VPfx) (types : List Nat) (d : Nat) (lane : Nat → Bool) : Prop where
  accepts : y.Accepts (c.eff p) types
  dst_eq : y.dst (c.eff p).type = .p d
  sel_eq : y.sel = false
  needsActive_eq : y.needsActive = false
  rounds_eq : y.rounds = false
  lane_eq : ∀ l, y.lane c.x (c.eff p) (y.bvals c.x (c.eff p)) l = (if lane l then 1 else 0, false)

theorem maskOf_nil : maskOf [] = 0#32 := rfl

theorem VBody.Sets.run_eq {y : VBody} {c : Ctx} {p : Option VPfx} {types : List Nat} {d : Nat} {lane : Nat → Bool}
    (hy : y.Sets c p types d lane) :
    y.run c.x c.f.mask 0#32 (c.eff p) (y.bvals c.x (c.eff p)) =
      .ok (c.x.setP d (writeMask (c.x.pred d) 0#32 (c.eff p).mask (c.eff p).zero (maskOf ((lanesOf (c.eff p).mask).filter lane)))) := by
  unfold VBody.run
  simp [VBody.mask, hy.sel_eq, hy.needsActive_eq, hy.dst_eq, hy.lane_eq, maskOf_nil]

/-- What a vector instruction comes to whose body writes a predicate. -/
theorem PredResult.of_sets {i : Instr} {s : State} {c : Ctx} {p : Option VPfx} {y : VBody} {types : List Nat} {os : List Opnd}
    {d : Nat} {lane : Nat → Bool} (hctx : s.ctx = some c) (hexec : exec i s = runInstr s (vec p y)) (hacc : VPfx.acc p = none)
    (hos : y.ops (c.eff p).type = os) (hy : y.Sets c p types d lane) : PredResult i s c p types os d lane := by
  subst hos
  have hexec' := hexec.trans (runInstr_congr hctx (vec_accepting hy.accepts))
  refine ⟨fun htype hclear => ?_, fun hbad => .of_fault hctx hexec' (vec_of_refused rfl (.inl hbad))⟩
  obtain ⟨hok, -⟩ := vec_of_clear (y := { y with types := some types }) rfl hacc (by rwa [hy.rounds_eq]) hclear
  exact .of_done hctx hexec' (fun _ => _) (hok _ hy.run_eq) (congrArg _ (Warp.setP_frags ..))

-- ## The bodies

theorem cmp2_sets (c : Ctx) (p : Option VPfx) (d a b : BitVec 8) (types : List Nat) (f : VEnv → Nat → Nat → Bool) :
    (cmp2 d a b types f).Sets c p types d.toNat fun l => f (envOf c.x (c.eff p))
      (c.x.laneN (typeRegs (c.eff p).type) a.toNat l) (c.x.laneN (typeRegs (c.eff p).type) b.toNat l) :=
  ⟨rfl, rfl, rfl, rfl, rfl, fun _ => rfl⟩

theorem plog_sets (c : Ctx) (p : Option VPfx) (d : BitVec 8) (src : List (BitVec 8)) {f : List Bool → Bool} {g : Nat → Bool}
    (hg : ∀ l, f (src.map fun a => (c.x.pred a.toNat).getLsbD l) = g l) :
    (plogBody d src f).Sets c p [(c.eff p).type] d.toNat g := by
  refine ⟨rfl, rfl, rfl, rfl, rfl, fun l => ?_⟩
  rw [← hg l]
  rfl

section
variable {s : State} {c : Ctx} {p : Option VPfx} (h : s.ctx = some c) (hacc : VPfx.acc p = none) (d a b : BitVec 8)
include h hacc

theorem predResult_comparisons :
    ∀ q ∈ comparisons p d a b,
      PredResult q.1 s c p q.2.1 [pDst d, vOp (typeRegs (c.eff p).type) a 1, vOp (typeRegs (c.eff p).type) b 2] d.toNat fun l =>
        q.2.2 (elemNum (c.eff p).type (mFtz c.x.mode) (c.x.laneN (typeRegs (c.eff p).type) a.toNat l))
          (elemNum (c.eff p).type (mFtz c.x.mode) (c.x.laneN (typeRegs (c.eff p).type) b.toNat l)) := by
  simp only [comparisons, List.forall_mem_cons]
  exact ⟨.of_sets h (exec_vcmpeq p d a b s) hacc rfl (cmp2_sets c p d a b _ _), .of_sets h (exec_vcmpne p d a b s) hacc rfl (cmp2_sets c p d a b _ _),
    .of_sets h (exec_vcmplt p d a b s) hacc rfl (cmp2_sets c p d a b _ _), .of_sets h (exec_vcmple p d a b s) hacc rfl (cmp2_sets c p d a b _ _),
    .of_sets h (exec_vcmpun p d a b s) hacc rfl (cmp2_sets c p d a b _ _), List.forall_mem_nil _⟩

theorem predResult_predicates (i : Bool) :
    ∀ q ∈ predicates p d a b i,
      PredResult q.1 s c p [(c.eff p).type] q.2.1 d.toNat fun l =>
        q.2.2 ((c.x.pred a.toNat).getLsbD l) ((c.x.pred b.toNat).getLsbD l) := by
  simp only [predicates, List.forall_mem_cons]
  refine ⟨?pand, ?por, ?pxor, ?pnot, ?pmov, ?pseti, List.forall_mem_nil _⟩
  case pand => exact .of_sets h (exec_pand p d a b s) hacc rfl (plog_sets c p d [a, b] fun l => by simp)
  case por => exact .of_sets h (exec_por p d a b s) hacc rfl (plog_sets c p d [a, b] fun l => by simp)
  case pxor => exact .of_sets h (exec_pxor p d a b s) hacc rfl (plog_sets c p d [a, b] fun l => by simp)
  case pnot => exact .of_sets h (exec_pnot p d a s) hacc rfl (plog_sets c p d [a] fun l => by simp)
  case pmov => exact .of_sets h (exec_pmov p d a s) hacc rfl (plog_sets c p d [a] fun l => by simp)
  case pseti => exact .of_sets h (exec_pseti p d i s) hacc rfl (plog_sets c p d [] fun l => rfl)

end

/-- Settles O9: each instruction by the frame of vector instructions that write a predicate. -/
theorem vectorPredicates : Obligations.VectorPredicates :=
  fun _ _ _ d a b i h hacc => ⟨predResult_comparisons h hacc d a b, predResult_predicates h hacc d a b i⟩

end Sys2Proof.Machine
end
section
/-!
PROOF. O10: moves, selections and conversions (R333, R334, R337, R339), shuffles, reductions, scans and matches (R344–R346), by the frame of
vector instructions.
-/
namespace Sys2Proof.Machine

-- ## Results by the frame

section
variable {i : Instr} {s : State} {c : Ctx} {p : Option VPfx} {y : VBody} {types : List Nat} {d regs : Nat} {lane : Nat → Nat × Bool}
  (h : s.ctx = some c) (hexec : exec i s = runInstr s (vec p y)) (hacc : VPfx.acc p = none) (hrounds : y.rounds = roundsRnd i)
include h hexec hacc hrounds

/-- What a body comes to that ignores its type (R331). -/
theorem VecResult.of_untyped {os : List Opnd} (htypes : y.types = none) (hos : y.ops (c.eff p).type = os)
    (hy : VBody.Writes { y with types := some [(c.eff p).type] } c p [(c.eff p).type] d regs lane) :
    VecResult i s c p [(c.eff p).type] os d regs lane :=
  have haccepts : y.Accepts (c.eff p) [(c.eff p).type] := by rw [VBody.Accepts, htypes]; rfl
  .of_writes h (hexec.trans (runInstr_congr h (vec_accepting haccepts))) hacc hrounds hos hy

end

/-- Where a lane is active, it is as if the body did not need one (R345). -/
theorem VBody.run_needing {y : VBody} {x : Warp} {act reach : Mask} {e : Eff} {bv : Nat → Nat} (hm : y.mask act e ≠ 0#32) :
    y.run x act reach e bv = VBody.run { y with needsActive := false } x act reach e bv := by
  have hzero : (y.mask act e == 0#32) = false := beq_eq_false_iff_ne.2 hm
  simp only [VBody.run, hzero, Bool.and_false, Bool.false_and]
  rfl

theorem vec_needing {c : Ctx} {p : Option VPfx} {y : VBody} (hacc : VPfx.acc p = none) (hm : y.mask c.f.mask (c.eff p) ≠ 0#32) :
    vec p y c = vec p { y with needsActive := false } c := by
  unfold vec
  rw [hacc, show effOf c.x c.f.mask p = c.eff p from rfl]
  dsimp only
  rw [VBody.run_needing hm]
  rfl

-- ## Reductions and scans (R345)

section
variable {s : State} {c : Ctx} {p : Option VPfx} {i : Instr} {scan : Bool} {d a b : BitVec 8} (h : s.ctx = some c)
  (hexec : exec i s = runInstr s (vec p (redBody scan d a b))) (hacc : VPfx.acc p = none)
include h hexec hacc

theorem vecResult_red (hrounds : roundsRnd i = true) (hm : (c.eff p).mask ≠ 0#32) :
    VecResult i s c p (redTypes b.toNat) [vDst (typeRegs (c.eff p).type) d, vOp (typeRegs (c.eff p).type) a 1] d.toNat
      (typeRegs (c.eff p).type) ((redBody scan d a b).lane c.x (c.eff p) fun _ => 0) :=
  .of_writes h (hexec.trans (runInstr_congr h (vec_needing hacc hm))) hacc hrounds.symm rfl ⟨rfl, rfl, rfl, rfl, fun _ _ => rfl⟩

/-- Without an active lane nothing is written under either policy. -/
theorem ends_red_inactive (hm : (c.eff p).mask = 0#32) (htype : typeBad p (c.eff p) (redTypes b.toNat) true = none)
    (hclear : c.VClear p [vDst (typeRegs (c.eff p).type) d, vOp (typeRegs (c.eff p).type) a 1]) : Ends i s c c.x c.nextPc := by
  obtain ⟨hok, -⟩ := vec_of_clear (y := redBody scan d a b) rfl hacc htype hclear
  have hnone : lanesOf 0#32 = [] := by decide
  have hrun : (redBody scan d a b).run c.x c.f.mask 0#32 (c.eff p) ((redBody scan d a b).bvals c.x (c.eff p)) = .ok c.x := by
    simp [VBody.run, VBody.mask, redBody, hm, hnone, maskOf_nil]
  exact .of_done h hexec (fun _ => c.x) (hok _ hrun) rfl

end

-- ## Selection (R334)

theorem ends_vsel {s : State} {c : Ctx} {p : Option VPfx} {d a b : BitVec 8} (h : s.ctx = some c) (hacc : VPfx.acc p = none)
    (htype : typeBad p (c.eff p) bitTypes = none)
    (hclear : c.VClear p [vDst (typeRegs (c.eff p).type) d, vOp (typeRegs (c.eff p).type) a 1, vOp (typeRegs (c.eff p).type) b 2]) :
    Ends (.vsel p d a b) s c (c.x.writeGroup d.toNat (typeRegs (c.eff p).type) 0#32 c.f.mask false fun l =>
      if (c.eff p).g.getLsbD l then c.x.laneN (typeRegs (c.eff p).type) a.toNat l else c.x.laneN (typeRegs (c.eff p).type) b.toNat l)
      c.nextPc := by
  obtain ⟨hok, -⟩ := vec_of_clear (y := vselBody d a b) rfl hacc htype hclear
  have hrun : (vselBody d a b).run c.x c.f.mask 0#32 (c.eff p) ((vselBody d a b).bvals c.x (c.eff p)) =
      .ok (c.x.writeGroup d.toNat (typeRegs (c.eff p).type) 0#32 c.f.mask false fun l =>
        if (c.eff p).g.getLsbD l then c.x.laneN (typeRegs (c.eff p).type) a.toNat l else c.x.laneN (typeRegs (c.eff p).type) b.toNat l) := by
    simp [VBody.run, VBody.mask, vselBody, VBody.bvals, maskOf_nil]
  exact .of_done h (exec_vsel p d a b s) (fun _ => _) (hok _ hrun) (congrArg _ (Warp.writeGroup_frags ..))

-- ## Matches by key (R346)

theorem vmatch_run (c : Ctx) (p : Option VPfx) (d a : BitVec 8) :
    (vmatchBody d a).run c.x c.f.mask 0#32 (c.eff p) (fun _ => 0) =
      .ok (c.x.writeGroup d.toNat 1 0#32 (c.eff p).mask (c.eff p).zero fun l => (matchMask c.x (c.eff p) a.toNat l).toNat) := by
  simp [VBody.run, VBody.mask, vmatchBody, maskOf_nil]

theorem ends_vmatch {s : State} {c : Ctx} {p : Option VPfx} {d a : BitVec 8} (h : s.ctx = some c)
    (htype : typeBad p (c.eff p) [0, 1, 2] = none) (hclear : c.VClear p ([vDst 1 d, vOp 1 a 1] ++ predCOp p)) :
    let same := matchMask c.x (c.eff p) a.toNat
    let y := c.x.writeGroup d.toNat 1 0#32 (c.eff p).mask (c.eff p).zero fun l => (same l).toNat
    Ends (.vmatch p d a) s c (y.setP (predC p) (writeMask (y.pred (predC p)) 0#32 (c.eff p).mask (c.eff p).zero
      (maskOf ((lanesOf (c.eff p).mask).filter fun l => lowLane (same l) = l)))) c.nextPc := by
  obtain ⟨hrange, hready, hflag⟩ := hclear
  refine .of_done h (exec_vmatch p d a s) (fun _ => _) ?_ (congrArg _ ((Warp.setP_frags ..).trans (Warp.writeGroup_frags ..)))
  unfold vmatch
  rw [show effOf c.x c.f.mask p = c.eff p from rfl]
  dsimp only
  rw [htype]
  dsimp only
  rw [checkRange_ok c _ _ hrange, checkReady_ok c _ _ hready hflag, vmatch_run]
  rfl

-- ## The obligation

section
variable {s : State} {c : Ctx} {p : Option VPfx} (h : s.ctx = some c) (hacc : VPfx.acc p = none) (d a b : BitVec 8)
include h hacc

theorem vecResult_viota : VecResult (.viota p d) s c p [(c.eff p).type] [vDst 1 d] d.toNat 1
    fun l => ((List.range l).countP fun k => (c.eff p).mask.getLsbD k, false) := by
  refine .of_untyped h (exec_viota p d s) hacc rfl rfl rfl ⟨rfl, rfl, rfl, rfl, fun _ l => ?_⟩
  rw [List.countP_eq_length_filter]
  rfl

theorem vecResult_shfl : ∀ q ∈ [(Instr.vshfl p d a b, fun (_ k : Nat) => k), (.vshflx p d a b, fun l k => l ^^^ k),
      (.vshflu p d a b, fun l k => if k ≤ l then l - k else l), (.vshfld p d a b, fun l k => if l + k ≤ 31 then l + k else l)],
    VecResult q.1 s c p bitTypes
      [vDst (typeRegs (c.eff p).type) d, vOp (typeRegs (c.eff p).type) a 1, vOp (typeRegs (c.eff p).type) b 2] d.toNat
      (typeRegs (c.eff p).type)
      fun l => (c.x.laneN (typeRegs (c.eff p).type) a.toNat (q.2 l ((c.x.lane b.toNat l).toNat % 32)), false) := by
  have hwrites (src : Nat → Nat → Nat) : (shflBody d a b src).Writes c p bitTypes d.toNat (typeRegs (c.eff p).type) fun l =>
      (c.x.laneN (typeRegs (c.eff p).type) a.toNat (src l ((c.x.lane b.toNat l).toNat % 32)), false) :=
    ⟨rfl, rfl, rfl, rfl, fun _ _ => rfl⟩
  simp only [List.forall_mem_cons]
  exact ⟨.of_writes h (exec_vshfl p d a b s) hacc rfl rfl (hwrites _), .of_writes h (exec_vshflx p d a b s) hacc rfl rfl (hwrites _),
    .of_writes h (exec_vshflu p d a b s) hacc rfl rfl (hwrites _), .of_writes h (exec_vshfld p d a b s) hacc rfl rfl (hwrites _),
    List.forall_mem_nil _⟩

end

/-- Settles O10: each instruction by the frame of vector instructions, which its body meets. -/
theorem vectorMovesAndLanes : Obligations.VectorMovesAndLanes := by
  refine ⟨fun s c p x d a b i dst src h hacc => ⟨?vmovi, ?vlaneid, vecResult_viota h hacc d, ends_vsel h hacc, ?vcvt, ?vpack, ?vunpk⟩,
    fun s c p d a b h hacc => ⟨vecResult_shfl h hacc d a b, ?vbcast, fun hm => ⟨?vred, ?vscan⟩, fun hm => ?inactive, ends_vmatch h⟩⟩
  case vmovi => exact .of_writes h (exec_vmovi x p d i s) hacc rfl rfl ⟨rfl, rfl, rfl, rfl, fun _ _ => rfl⟩
  case vlaneid => exact .of_untyped h (exec_vlaneid p d s) hacc rfl rfl rfl ⟨rfl, rfl, rfl, rfl, fun _ _ => rfl⟩
  case vcvt =>
    rintro n rfl
    exact .of_untyped h (exec_vcvt p d a dst src s) hacc rfl rfl rfl ⟨rfl, rfl, rfl, rfl, fun _ _ => rfl⟩
  case vpack => exact .of_writes h (exec_vpack p d a b s) hacc rfl rfl ⟨rfl, rfl, rfl, rfl, fun _ _ => rfl⟩
  case vunpk => exact .of_writes h (exec_vunpk p d a s) hacc rfl rfl ⟨rfl, rfl, rfl, rfl, fun _ _ => rfl⟩
  case vbcast => exact .of_writes h (exec_vbcast p d a b s) hacc rfl rfl ⟨rfl, rfl, rfl, rfl, fun _ _ => rfl⟩
  case vred => exact vecResult_red h (exec_vred p d a b s) hacc rfl hm
  case vscan => exact vecResult_red h (exec_vscan p d a b s) hacc rfl hm
  case inactive =>
    simp only [List.forall_mem_cons]
    exact ⟨ends_red_inactive h (exec_vred p d a b s) hacc hm, ends_red_inactive h (exec_vscan p d a b s) hacc hm, List.forall_mem_nil _⟩

end Sys2Proof.Machine
end
section
/-!
PROOF. O33: shape grants (R25, R393, R394), slot claims (R395) and slots given back (R396).
-/
namespace Sys2Proof.Machine

-- ## An instruction that changes its block's image

/-- A change of a block's image that leaves its warps leaves each warp. -/
theorem State.warp_setImg_of_warps (s : State) (n : Nat) {g : Image → Image} (hg : ∀ i, (g i).warps = i.warps) (w : WarpRef) :
    (s.setImg n g).warp w = s.warp w := by
  unfold State.warp
  by_cases hw : w.blk = n
  · rw [← hw, State.blk_setImg_same]
    cases s.blk w.blk <;> simp [hg]
  · rw [show (s.setImg n g).blk w.blk = s.blk w.blk from State.blk_setBlk_other s n w.blk _ hw]

section
variable {i : Instr} {s : State} {c : Ctx} {f : Ctx → Res} (h : s.ctx = some c) (he : exec i s = runInstr s f) {g : Image → Image}
  (hg : ∀ i, (g i).warps = i.warps)
include h he hg

theorem endsIn_of_setImg (hf : f c = .done (c.s.setImg c.w.blk g)) : EndsIn i s (s.setImg c.w.blk g) c c.x c.nextPc := by
  obtain ⟨hs, -, hw, -⟩ := State.ctx_some h
  exact .of_done h he (hf.trans (by rw [hs])) ((s.warp_setImg_of_warps _ hg _).trans hw) rfl

/-- The same with a write of a scalar register. -/
theorem endsIn_of_setImg_writeS (n : Nat) (v : Word)
    (hf : f c = .done ((c.s.setImg c.w.blk g).setWarp c.w fun x => x.setSf n v)) :
    EndsIn i s (s.setImg c.w.blk g) c (c.x.setSf n v) c.nextPc := by
  obtain ⟨hs, -, hw, -⟩ := State.ctx_some h
  refine .of_setWarp (g := fun x => x.setSf n v) (.of_done h he (hf.trans (by rw [hs])) ?_ (by rw [Warp.setSf_frags]))
  rw [State.warp_setWarp_same, s.warp_setImg_of_warps _ hg, hw]
  rfl

end

-- ## Granted shapes (R25, R393)

/-- The extents that a grant may have. -/
def extents : List Nat := [32, 64, 96, 128]

theorem roundExtent_mem (n : Nat) : roundExtent n ∈ extents := by
  unfold roundExtent
  repeat' split
  all_goals decide

/-- The N granted where the product of the rounded extents is too large in the third power mode. -/
def reducedExtent (m : Nat) : Nat := ([128, 96, 64, 32].find? fun k => m * k ≤ 8192).getD 32

theorem grantShape_of_fits {mode m n : Nat} (h : mode ≠ 2 ∨ roundExtent m * roundExtent n ≤ 8192) :
    grantShape mode m n = (roundExtent m, roundExtent n) := by
  unfold grantShape
  dsimp only
  rw [if_neg (by rcases h with h | h <;> simp [h])]

theorem grantShape_of_reduced {m n : Nat} (h : 8192 < roundExtent m * roundExtent n) :
    grantShape 2 m n = (roundExtent m, reducedExtent (roundExtent m)) := by
  unfold grantShape
  dsimp only
  rw [if_pos (by simp [h])]
  rfl

theorem grantShape_fst (mode m n : Nat) : (grantShape mode m n).1 = roundExtent m := by
  unfold grantShape
  dsimp only
  split <;> rfl

theorem reducedExtent_largest : ∀ m ∈ extents, reducedExtent m ∈ extents ∧ m * reducedExtent m ≤ 8192 ∧
    ∀ k ∈ extents, m * k ≤ 8192 → k ≤ reducedExtent m := by decide

-- ## Slots

/-- None of the slots of a free run is claimed. -/
theorem freeRun_free {claimed : List Nat} {base count n i : Nat} (hi : freeRun claimed base count n = some i) :
    ∀ k, k < n → i + k ∉ claimed := by
  unfold freeRun at hi
  split at hi
  · cases hi
  · simpa using List.find?_some hi

/-- Nothing holds a slot of a block whose commands use no slot and which has no sequencer. -/
theorem slots_unused {s : State} {n : Nat} (hcmds : ∀ m ∈ s.cmdsOf n, m.write = none ∧ m.reads = [] ∧ m.kind.isStep = false) {i : Image}
    (hseq : i.seq = none) (k : Nat) :
    (slotBusy s n i k || slotRead s n i k || (s.cmdsOf n).any fun m => m.write.any (SbRange.hasSlot k)) = false := by
  have hsteps : i.steps = [] := by rw [Image.steps, hseq]
  simp only [slotBusy, slotRead, hsteps, List.any_nil, Bool.or_false, Bool.or_eq_false_iff, List.any_eq_false]
  refine ⟨⟨fun m hm => ?_, fun m hm => ?_⟩, fun m hm => ?_⟩
  all_goals obtain ⟨hwrite, hreads, hstep⟩ := hcmds m hm
  · cases hk : m.kind <;> simp_all [CmdKind.isStep]
  · simp [hreads]
  · simp [hwrite]

section
variable {s : State} {c : Ctx} (h : s.ctx = some c) (hg : c.guard = true)
include h hg

-- ## `TSHAPE`

section
variable {d a : BitVec 8} {t : BitVec 4} (hos : c.Clear [sDst d, sOp a 1])
include hos

theorem faults_tshape (ht : t.toNat ∉ [3, 4, 7, 12, 13, 14]) : Faults (.tshape d a t) s c { code := 0x04, einfo := t.setWidth 32 } := by
  have htype : grantTypes.contains t.toNat = false := by simpa [grantTypes] using ht
  exact .of_fault h (f := tshape d a t) rfl ((guarded_clear c _ _ hos hg).trans (by rw [htype]; rfl))

theorem endsIn_tshape (ht : t.toNat ∈ [3, 4, 7, 12, 13, 14]) (hidle : s.matrixBusy c.w.blk c.b.img = false) :
    let g := grantShape s.power.mode (bits (c.x.sf a.toNat).toNat 7 0) (bits (c.x.sf a.toNat).toNat 15 8)
    EndsIn (.tshape d a t) s (s.setImg c.w.blk fun i => { i with grant := some { m := g.1, n := g.2, type := t.toNat } }) c
      (c.x.setSf d.toNat (BitVec.ofNat 32 (g.1 + 256 * g.2 + 65536 * t.toNat))) c.nextPc := by
  have htype : grantTypes.contains t.toNat = true := by simpa [grantTypes] using ht
  obtain ⟨rfl, -⟩ := State.ctx_some h
  intro g
  refine endsIn_of_setImg_writeS h (f := tshape d a t) ?_ ?_ _ _ ((guarded_clear c _ _ hos hg).trans ?_)
  · rfl
  · exact fun _ => rfl
  rw [htype, hidle]
  rfl

end

-- ## `SCLAIM`

section
variable {d a : BitVec 8} {acc : Bool} (hos : c.Clear [sDst d, sOp a 1])
include hos

theorem ends_sclaim_none (hfree : freeRun c.b.img.claimed (if acc then 0x100 else 0) (if acc then c.k.aslots else c.k.oslots)
    (c.x.sf a.toNat).toNat = none) : Ends (.sclaim d a acc) s c (c.x.setSf d.toNat 0xFFFFFFFF#32) c.nextPc :=
  ends_of_writeS h (f := sclaim d a acc) rfl ((guarded_clear c _ _ hos hg).trans (by dsimp only; rw [hfree]))

theorem endsIn_sclaim {i : Nat} (hfree : freeRun c.b.img.claimed (if acc then 0x100 else 0) (if acc then c.k.aslots else c.k.oslots)
      (c.x.sf a.toNat).toNat = some i) :
    EndsIn (.sclaim d a acc) s
      (s.setImg c.w.blk fun g => { g with claimed := g.claimed ++ (List.range (c.x.sf a.toNat).toNat).map (i + ·) }) c
      (c.x.setSf d.toNat (BitVec.ofNat 32 i)) c.nextPc := by
  refine endsIn_of_setImg_writeS h (f := sclaim d a acc) ?_ ?_ _ _ ((guarded_clear c _ _ hos hg).trans ?_)
  · rfl
  · exact fun _ => rfl
  dsimp only
  rw [hfree]

end

-- ## `SREL`

section
variable {a b : BitVec 8} (hos : c.Clear [sOp a 1, sOp b 2]) (hn : (c.x.sf b.toNat).toNat ≤ 273)
include hos hn

/-- The first slot that is not the block's is the fault's. -/
theorem faults_srel {k : Nat} (hk : k < (c.x.sf b.toNat).toNat) (hfree : (c.x.sf a.toNat).toNat + k ∉ c.b.img.claimed)
    (hfirst : ∀ j, j < k → (c.x.sf a.toNat).toNat + j ∈ c.b.img.claimed) :
    Faults (.srel a b) s c { code := 0x0A, einfo := BitVec.ofNat 32 ((c.x.sf a.toNat).toNat + k) } := by
  have hfind : ((List.range (min (c.x.sf b.toNat).toNat 273)).map ((c.x.sf a.toNat).toNat + ·)).find?
      (fun k => !c.b.img.claimed.contains k) = some ((c.x.sf a.toNat).toNat + k) := by
    rw [Nat.min_eq_left hn, List.find?_map,
      List.find?_range_eq_some.2 ⟨by simpa using hfree, List.mem_range.2 hk, fun j hj => by simpa using hfirst j hj⟩]
    rfl
  exact .of_fault h (f := srel a b) rfl ((guarded_clear c _ _ hos hg).trans (by dsimp only; rw [hfind]))

theorem endsIn_srel (hall : ∀ k, k < (c.x.sf b.toNat).toNat → (c.x.sf a.toNat).toNat + k ∈ c.b.img.claimed)
    (hcmds : ∀ m ∈ s.cmdsOf c.w.blk, m.write = none ∧ m.reads = [] ∧ m.kind.isStep = false) (hseq : c.b.img.seq = none) :
    EndsIn (.srel a b) s (s.setImg c.w.blk fun g => { g with claimed := g.claimed.filter fun k =>
      !((List.range (c.x.sf b.toNat).toNat).map ((c.x.sf a.toNat).toNat + ·)).contains k }) c c.x c.nextPc := by
  have hs := (State.ctx_some h).1
  rw [← hs] at hcmds
  have hfind : ((List.range (min (c.x.sf b.toNat).toNat 273)).map ((c.x.sf a.toNat).toNat + ·)).find?
      (fun k => !c.b.img.claimed.contains k) = none := by
    rw [Nat.min_eq_left hn, List.find?_eq_none]
    simpa using hall
  refine endsIn_of_setImg h (f := srel a b) rfl (fun _ => rfl) ((guarded_clear c _ _ hos hg).trans ?_)
  dsimp only
  rw [hfind]
  dsimp only
  rw [if_neg]
  simp [slots_unused hcmds hseq]

end

end

/-- Settles O33: each instruction by the slots or the shape that it finds; the shapes by the four extents. -/
theorem slotsAndGrants : Obligations.SlotsAndGrants := by
  refine ⟨fun s c d a b t acc h hg => ⟨fun hos => ⟨faults_tshape h hg hos, endsIn_tshape h hg hos, ends_sclaim_none h hg hos,
    fun i hi => ⟨freeRun_free hi, endsIn_sclaim h hg hos hi⟩⟩, fun hos => ?srel⟩, fun mode m n => ⟨?first, ?fits, ?reduced⟩⟩
  case srel => exact fun hn => ⟨fun k => faults_srel h hg hos hn, endsIn_srel h hg hos hn⟩
  case first => exact grantShape_fst mode m n
  case fits => exact fun hfits => congrArg Prod.snd (grantShape_of_fits hfits)
  case reduced =>
    rintro rfl hlarge
    rw [grantShape_of_reduced hlarge]
    exact reducedExtent_largest _ (roundExtent_mem m)

end Sys2Proof.Machine
end
section
/-!
PROOF. O35: `VEXEC` and `VEXECQ` (R347–R351), as they begin and in each of their issue slots.
-/
namespace Sys2Proof.Machine

/-- The fault of a fragment that its warp's handler state does not hold is delivered in the state given. -/
theorem faultIn_delivered {c : Ctx} (hdeliver : c.k.handler = none ∨ c.x.handler = false ∨ c.f.inHandler = true) (u : State) (i : FaultInfo) :
    Res.faultIn c u i = .parked (takeFault { c with s := u } i) :=
  if_neg (by rcases hdeliver with h | h | h <;> simp [h])

-- ## The beginning (R347, R350)

/-- The words, a field of vector register `a`. -/
def wordField (a : BitVec 8) : Opnd := { vDst 1 a with code := 1, reads := true, writes := false }

/-- The active lanes whose word is not permitted. -/
def Ctx.badWords (c : Ctx) (p : Option VPfx) (a : BitVec 8) : Mask :=
  maskOf ((lanesOf (c.eff p).mask).filter fun l => !wordOk c.x p (c.eff p) (c.x.lane a.toNat l))

/-- The words of the lanes `go` before the first of them runs, after which the instruction `me` has occupied its warp for 2 cycles. -/
def Ctx.vexecRun (c : Ctx) (me : Instr) (a : BitVec 8) (go : Mask) : VexecRun :=
  { instr := me, word := c.s.word, nwords := c.s.nwords, base := c.s.base, act := go, left := wordGroups c.x a.toNat go
    ready := c.s.now + 2 * c.s.cycleTicks c.g }

/-- The warp in which the words of `VEXEC` or of a `VEXECQ` with predicate `q` begin. -/
def Ctx.vexecWarp (c : Ctx) (p : Option VPfx) (q : Option (BitVec 8)) (a : BitVec 8) : Warp :=
  q.elim c.x fun d => c.x.setP d.toNat (writeMask (c.x.pred d.toNat) 0#32 (c.eff p).mask false (c.badWords p a))

section
variable {c : Ctx} {p : Option VPfx} {q : Option (BitVec 8)} {a : BitVec 8} (me : Instr) (hvx : c.f.vx = none) (hquiet : c.Quiet)
  (hclear : c.VClear p ((q.elim [] fun d => [pDst d]) ++ [wordField a]))
include hvx hquiet hclear

/-- Its checks passed, it faults with the lanes of words that are not permitted, or notes them and begins. -/
theorem vexec_begins :
    vexec me p q a c = Res.inLanes (c.eff p).mask
      (if q.isNone && c.badWords p a != 0#32 then
        .faultIn c (c.s.setWarp c.w fun x => { x with vexecDone := 0#32 })
          { code := 0x0D, einfo := c.badWords p a, lanes := some (c.eff p).mask }
      else .issued { c.s.setWarp c.w fun _ => (c.vexecWarp p q a).setFrag c.f.id fun f =>
        { f with vx := some (c.vexecRun me a ((c.eff p).mask &&& ~~~ c.badWords p a)) } with held := some .reg }) := by
  obtain ⟨hrange, hready, hflag⟩ := hclear
  have htype : typeCheck p (c.eff p) none false = none := by simp [typeCheck, typeBad]
  unfold vexec
  rw [hvx, show effOf c.x c.f.mask p = c.eff p from rfl]
  dsimp only
  rw [htype]
  dsimp only
  cases q with
  | none =>
    exact congrArg _ ((checkRange_ok c _ _ hrange).trans ((checkReady_ok c _ _ hready hflag).trans (Ctx.ordered_of_quiet hquiet _)))
  | some d =>
    exact congrArg _ ((checkRange_ok c _ _ hrange).trans ((checkReady_ok c _ _ hready hflag).trans (Ctx.ordered_of_quiet hquiet _)))

end

-- ## Its issue slots (R348, R351)

section
variable {s : State} {c : Ctx} {p : Option VPfx} {i : Instr} {r : VexecRun}

theorem vexec_resumes {me : Instr} {q : Option (BitVec 8)} {a : BitVec 8} (h : s.ctx = some c) (hvx : c.f.vx = some r) :
    runInstr s (vexec me p q a) = .next (settle c (vexecWord p c r)) := by
  rw [runInstr_ctx h]
  unfold vexec
  rw [hvx]

theorem vexecWord_early (hnow : c.s.now < r.ready) : vexecWord p c r = .hold .reg := if_pos hnow

theorem vexecWord_last (hnow : r.ready ≤ c.s.now) (hleft : r.left = []) :
    vexecWord p c r = .done (c.s.setFrag c.w c.f.id r.finish) := by
  rw [vexecWord, if_neg (Nat.not_lt.2 hnow), hleft]

/-- What is left once a word has run. -/
def VexecRun.after (r : VexecRun) (rest : List (Word × Mask)) (t : VexecSt) : VexecRun :=
  { r with left := rest, done := r.done + 1, stored := t.stored, loaded := t.loaded }

theorem word_ready {w : Word}
    (hpending : ∀ k ∈ ((wordAct p w).toList.flatMap (wordOpnds (c.eff p))).flatMap Opnd.regs, k ∉ c.x.pending) :
    (((wordAct p w).toList.flatMap (wordOpnds (effOf c.x c.f.mask p))).flatMap Opnd.regs).any (fun r => c.x.pending.contains r) =
      false := List.any_eq_false.2 fun k hk => by simpa using hpending k hk

section
variable {w : Word} {m : Mask} {rest : List (Word × Mask)} (hnow : r.ready ≤ c.s.now) (hleft : r.left = (w, m) :: rest)
  (hpending : ∀ k ∈ ((wordAct p w).toList.flatMap (wordOpnds (c.eff p))).flatMap Opnd.regs, k ∉ c.x.pending)
include hnow hleft hpending

theorem vexecWord_runs {t : VexecSt} (hrun : wordRun p (c.k.scratch * 256) r.act m w
      { x := c.x, scratch := c.b.img.scratch, stored := r.stored, loaded := r.loaded } = .ok t) :
    let u := (c.s.setImg c.w.blk fun i => { i with scratch := t.scratch }).setWarp c.w fun _ => t.x
    vexecWord p c r = if rest.isEmpty then .done (u.setFrag c.w c.f.id (r.after rest t).finish)
      else .issued (u.setFrag c.w c.f.id fun f => { f with vx := some (r.after rest t) }) := by
  have hready := word_ready hpending
  rw [vexecWord, if_neg (Nat.not_lt.2 hnow), hleft]
  dsimp only
  rw [hready, if_neg Bool.false_ne_true, hrun]
  rfl

theorem vexecWord_faults {f : FaultInfo} (hrun : wordRun p (c.k.scratch * 256) r.act m w
      { x := c.x, scratch := c.b.img.scratch, stored := r.stored, loaded := r.loaded } = .error f) :
    vexecWord p c r =
      .faultIn c (c.s.setWarp c.w fun x => { x.setFrag c.f.id r.finish with vexecDone := BitVec.ofNat 32 r.done })
        { f with lanes := some (f.lanes.getD r.act) } := by
  have hready := word_ready hpending
  rw [vexecWord, if_neg (Nat.not_lt.2 hnow), hleft]
  dsimp only
  rw [hready, if_neg Bool.false_ne_true, hrun]

end

end

/-- Settles O35: the beginning by its checks, a slot by the word that it runs. -/
theorem executeFromVector : Obligations.ExecuteFromVector := by
  intro s c p d a h e word bad go
  obtain ⟨rfl, -⟩ := State.ctx_some h
  refine ⟨fun hvx hquiet => ⟨fun hclear hbad hdeliver => ?faults, ?begins⟩, fun r hvx i hi => ?slots⟩
  case faults =>
    have hillegal : c.badWords p a ≠ 0#32 := hbad
    rw [exec_vexec, execVexec, runInstr_ctx h, vexec_begins _ hvx hquiet hclear, if_pos (by simp [hillegal]), faultIn_delivered hdeliver]
    rfl
  case begins =>
    simp only [List.forall_mem_cons]
    refine ⟨fun hclear hbad => ?_, fun hclear _ => ?_, List.forall_mem_nil _⟩
    · have hok : c.badWords p a = 0#32 := hbad trivial
      rw [exec_vexec, execVexec, runInstr_ctx h, vexec_begins _ hvx hquiet hclear, if_neg (by simp [hok])]
      rfl
    · rw [exec_vexecq, execVexecq, runInstr_ctx h, vexec_begins (q := some d) _ hvx hquiet hclear, if_neg (by simp)]
      rfl
  case slots =>
    have hexec : exec i c.s = .next (settle c (vexecWord p c r)) := by
      simp only [List.mem_cons, List.not_mem_nil, or_false] at hi
      rcases hi with rfl | rfl
      · exact vexec_resumes h hvx
      · exact vexec_resumes h hvx
    refine ⟨fun hnow => ?_, fun hnow hleft => ?_, fun w m rest hnow hleft hpending => ?word⟩
    · rw [hexec, vexecWord_early hnow]
      rfl
    · rw [Completes, hexec, vexecWord_last hnow hleft]
      rfl
    case word =>
      intro st
      refine ⟨fun t hrun => ⟨fun hrest => ?_, fun hrest => ?_⟩, fun f hrun hdeliver => ?_⟩
      · rw [Completes, hexec, vexecWord_runs hnow hleft hpending hrun, if_pos (by simp [hrest])]
        rfl
      · rw [hexec, vexecWord_runs hnow hleft hpending hrun, if_neg (by simp [hrest])]
        rfl
      · rw [hexec, vexecWord_faults hnow hleft hpending hrun, faultIn_delivered hdeliver]
        rfl

end Sys2Proof.Machine
end
section
/-!
PROOF. O28, the waits: `FENCE` (R375), and what `WAITC`, `WAITT` and `TAGQ` say of counters and tags (R390–R392).
-/
namespace Sys2Proof.Machine

-- ## Outcomes

/-- Without an error record among the counters named, nothing is taken (R389). -/
theorem takeErr_of_none {c : Ctx} {ns : List Nat} (h : ∀ n ∈ ns, (c.x.counter n).err = none) (f : Res) : takeErr c ns f = f := by
  unfold takeErr
  rw [List.findSome?_eq_none_iff.2 h]

theorem modFirst_modFirst {α : Type} {p : α → Bool} {f g : α → α} (hf : ∀ a, p a = true → p (f a) = true) (l : List α) :
    modFirst p g (modFirst p f l) = modFirst p (fun a => g (f a)) l := by
  induction l with
  | nil => rfl
  | cons a l ih =>
    by_cases ha : p a = true
    · simp [modFirst, ha, hf a ha]
    · simp [modFirst, ha, ih]

theorem State.setFrag_setFrag (s : State) (w : WarpRef) (i : Nat) {f g : Frag → Frag} (hf : ∀ a, (f a).id = a.id) :
    (s.setFrag w i f).setFrag w i g = s.setFrag w i fun a => g (f a) := by
  have hmod (l : List Frag) : modFirst (fun a => a.id = i) g (modFirst (fun a => a.id = i) f l) = modFirst (fun a => a.id = i) (fun a => g (f a)) l :=
    modFirst_modFirst (fun a ha => by simpa [hf] using ha) l
  simp only [State.setFrag, State.setWarp_setWarp, Warp.setFrag, hmod]

-- ## `FENCE` (R375)

section
variable {c : Ctx} {o : OPfx} (hg : c.guard = true) (hos : c.Clear []) (hcalm : c.Calm)
  (hrel : c.Released (some o) 2) (herr : (c.x.counter 1).err = none)
include hg hos hcalm hrel herr

/-- What a `FENCE` comes to whose release has nothing left to wait for. -/
theorem fence_of_released : fence o c =
    if o.ord.toNat % 2 = 1 && c.x.accesses.any fun a => a.dst.isSome then .hold .counter
    else if o.ord.toNat % 2 = 1 && !(c.passed (some o) 2).s.canAcquire c.g (c.passed (some o) 2).vd o.scope.toNat then .hold .counter
    else .done (if o.ord.toNat % 2 = 1 then (c.passed (some o) 2).s.acquire c.g (c.passed (some o) 2).die (c.passed (some o) 2).vd o.scope.toNat
      else (c.passed (some o) 2).s) := by
  have hnone : ∀ n ∈ [1], ((c.passed (some o) 2).x.counter n).err = none := by simpa using herr
  unfold fence
  rw [guarded_clear c _ _ hos hg, Ctx.ordered_of_quiet ⟨hcalm.1, hcalm.2.1⟩, Ctx.releasing_of_released hrel]
  dsimp only
  rw [takeErr_of_none hnone]
  simp

variable {s : State} (h : s.ctx = some c)
include h

theorem completes_fence (hord : o.ord.toNat % 2 = 0) : Completes (.fence o) s (c.passed (some o) 2).s c := by
  refine .of_done h (exec_fence o s) ((fence_of_released hg hos hcalm hrel herr).trans ?_)
  simp [hord]

/-- With an acquire bit it waits for the warp's earlier reads, and performs its acquire. -/
theorem completes_fence_acquire (hord : o.ord.toNat % 2 = 1) (hreads : ∀ a ∈ c.x.accesses, a.dst = none)
    (hcan : (c.passed (some o) 2).s.canAcquire c.g c.vd o.scope.toNat = true) :
    Completes (.fence o) s ((c.passed (some o) 2).s.acquire c.g c.die c.vd o.scope.toNat) c := by
  have hvd : (c.passed (some o) 2).vd = c.vd := by rw [Ctx.passed_only]; rfl
  have hdie : (c.passed (some o) 2).die = c.die := by rw [Ctx.passed_only]; rfl
  have hnone : (c.x.accesses.any fun a => a.dst.isSome) = false := List.any_eq_false.2 fun a ha => by simp [hreads a ha]
  refine .of_done h (exec_fence o s) ((fence_of_released hg hos hcalm hrel herr).trans ?_)
  simp [hord, hnone, hvd, hdie, hcan]

end

-- ## `WAITC` (R390)

/-- The counters' limits. -/
abbrev waitLimits (ld st cp tl : BitVec 6) : List Nat := [ld.toNat, st.toNat, cp.toNat, tl.toNat]

/-- The classes that had something outstanding when the instruction first issued. -/
def Ctx.waitedFor (c : Ctx) : List Nat := c.f.waited.getD ((List.range 4).filter fun k => (c.x.counter k).count != 0)

section
variable {s : State} {c : Ctx} {ld st cp tl : BitVec 6} (h : s.ctx = some c) (hg : c.guard = true) (hos : c.Clear [])
include h hg hos

theorem exec_waitc_parks (habove : ∃ k, k < 4 ∧ (waitLimits ld st cp tl).getD k 0 < (c.x.counter k).count) :
    exec (.waitc ld st cp tl) s = .next (s.setFrag c.w c.f.id fun f =>
      ({ f with waited := some c.waitedFor } : Frag).park (.counters ld.toNat st.toNat cp.toNat tl.toNat)) := by
  obtain ⟨k, hk, hlt⟩ := habove
  have hany : ((List.range 4).any fun k => ((waitLimits ld st cp tl)[k]?).getD 0 < (c.x.counter k).count) = true :=
    List.any_eq_true.2 ⟨k, List.mem_range.2 hk, decide_eq_true hlt⟩
  obtain ⟨rfl, -⟩ := State.ctx_some h
  rw [exec_waitc, execWaitc, runInstr_ctx h, waitc, guarded_clear c _ _ hos hg]
  dsimp only
  rw [if_pos hany]
  exact congrArg _ (State.setFrag_setFrag _ _ _ fun _ => rfl)

theorem completes_waitc (hbelow : ∀ k, k < 4 → (c.x.counter k).count ≤ (waitLimits ld st cp tl).getD k 0)
    (herr : ∀ k ∈ [1, 2, 3], (c.x.counter k).err = none) :
    Completes (.waitc ld st cp tl) s (s.setFrag c.w c.f.id fun f => { f with waited := none }) c := by
  have hnone : ((List.range 4).any fun k => ((waitLimits ld st cp tl)[k]?).getD 0 < (c.x.counter k).count) = false :=
    List.any_eq_false.2 fun k hk => by simpa using hbelow k (List.mem_range.1 hk)
  obtain ⟨rfl, -⟩ := State.ctx_some h
  refine .of_done h (exec_waitc ld st cp tl c.s) ((guarded_clear c _ _ hos hg).trans ?_)
  dsimp only
  rw [if_neg (by rw [hnone]; decide)]
  refine takeErr_of_none (fun n hn => ?_) _
  exact herr n (List.mem_filter.1 hn).1

-- ## `WAITT` (R391)

theorem waits_waitt {m : BitVec 8} (hbusy : ∃ k, k < 8 ∧ m.getLsbD k = true ∧ (c.x.counter (4 + k)).count ≠ 0) :
    Waits (.waitt m) s s c (.tags m.toNat) := by
  obtain ⟨k, hk, hm, hcount⟩ := hbusy
  have hany : (((List.range 8).filter fun k => m.getLsbD k).any fun k => (c.x.counter (4 + k)).count != 0) = true :=
    List.any_eq_true.2 ⟨k, List.mem_filter.2 ⟨List.mem_range.2 hk, hm⟩, bne_iff_ne.2 hcount⟩
  obtain ⟨rfl, -⟩ := State.ctx_some h
  refine .of_wait h (exec_waitt m c.s) ((guarded_clear c _ _ hos hg).trans ?_)
  dsimp only
  rw [if_pos hany]

theorem ends_waitt {m : BitVec 8}
    (hidle : ∀ k, k < 8 → m.getLsbD k = true → (c.x.counter (4 + k)).count = 0 ∧ (c.x.counter (4 + k)).err = none) :
    Ends (.waitt m) s c c.x c.nextPc := by
  have htag {k : Nat} (hk : k ∈ (List.range 8).filter fun k => m.getLsbD k) := hidle k (List.mem_range.1 (List.mem_filter.1 hk).1) (List.mem_filter.1 hk).2
  have hany : (((List.range 8).filter fun k => m.getLsbD k).any fun k => (c.x.counter (4 + k)).count != 0) = false :=
    List.any_eq_false.2 fun k hk => by simp [(htag hk).1]
  refine .of_same h (exec_waitt m s) ((guarded_clear c _ _ hos hg).trans ?_)
  dsimp only
  rw [if_neg (by rw [hany]; decide), List.findSome?_eq_none_iff.2 fun k hk => (htag hk).2]

end

-- ## `TAGQ` (R392)

/-- The number whose bit k is `f k`, below bit n. -/
def bitSum (f : Nat → Bool) (n : Nat) : Nat := ((List.range n).map fun k => if f k then 2 ^ k else 0).sum

theorem bitSum_succ (f : Nat → Bool) (n : Nat) : bitSum f (n + 1) = 2 ^ n * (f n).toNat + bitSum f n := by
  cases hf : f n <;> simp [bitSum, List.range_succ, hf, Nat.add_comm]

theorem bitSum_lt (f : Nat → Bool) (n : Nat) : bitSum f n < 2 ^ n := by
  induction n with
  | zero => exact Nat.one_pos
  | succ n ih =>
    have hbit : 2 ^ n * (f n).toNat ≤ 2 ^ n * 1 := Nat.mul_le_mul_left _ (Bool.toNat_le _)
    rw [bitSum_succ, Nat.pow_succ]
    omega

theorem testBit_bitSum (f : Nat → Bool) {n k : Nat} (hk : k < n) : (bitSum f n).testBit k = f k := by
  induction n with
  | zero => cases hk
  | succ n ih =>
    rw [bitSum_succ, Nat.testBit_two_pow_mul_add _ (bitSum_lt f n)]
    split
    next hlt => exact ih hlt
    next hge =>
      obtain rfl : k = n := by omega
      rw [Nat.sub_self, Nat.testBit_zero]
      cases f k <;> rfl

/-- The word that `TAGQ` reads: the busy bits, and the error bits above them. -/
theorem tagSum_eq (f g : Nat → Bool) :
    ((List.range 8).map fun k => (if f k then 2 ^ k else 0) + (if g k then 2 ^ (8 + k) else 0)).sum = 2 ^ 8 * bitSum g 8 + bitSum f 8 := by
  have hpow (k : Nat) : (if g k then 2 ^ (8 + k) else 0) = 2 ^ 8 * (if g k then 2 ^ k else 0) := by
    split <;> simp [Nat.pow_add]
  simp only [hpow, bitSum, List.sum_map_add, List.sum_map_mul_left]
  exact Nat.add_comm _ _

theorem ends_tagq {s : State} {c : Ctx} {d : BitVec 8} (h : s.ctx = some c) (hg : c.guard = true) (hos : c.Clear [sDst d]) :
    ∃ v : Word, Ends (.tagq d) s c (c.x.setSf d.toNat v) c.nextPc ∧ v.toNat < 2 ^ 16 ∧
      ∀ k, k < 8 → v.getLsbD k = ((c.x.counter (4 + k)).count != 0) ∧ v.getLsbD (8 + k) = (c.x.counter (4 + k)).err.isSome := by
  let busy := fun k => (c.x.counter (4 + k)).count != 0
  let failed := fun k => (c.x.counter (4 + k)).err.isSome
  have hbusy := bitSum_lt busy 8
  have hfailed := bitSum_lt failed 8
  refine ⟨BitVec.ofNat 32 (2 ^ 8 * bitSum failed 8 + bitSum busy 8), ?_, ?_, fun k hk => ⟨?_, ?_⟩⟩
  · refine ends_of_writeS h (f := tagq d) rfl ((guarded_clear c _ _ hos hg).trans ?_)
    rw [← tagSum_eq busy failed]
  · rw [BitVec.toNat_ofNat]
    omega
  · rw [BitVec.getLsbD_ofNat, Nat.testBit_two_pow_mul_add _ hbusy, if_pos hk, testBit_bitSum _ hk]
    simp [show k < 32 by omega, busy]
  · rw [BitVec.getLsbD_ofNat, Nat.testBit_two_pow_mul_add _ hbusy, if_neg (by omega), Nat.add_sub_cancel_left, testBit_bitSum _ hk]
    simp [show 8 + k < 32 by omega, failed]

end Sys2Proof.Machine
end
section
/-!
PROOF. O28, the named barriers (R376, R377): an arrival is counted in its block's record of the barrier, or ends the phase and wakes the
fragments that wait for it.
-/
namespace Sys2Proof.Machine

-- ## The issuing warp's block in the states that an arrival goes through

/-- In `t` the issuing warp's block is as the instruction saw it, but for its warps; the issuing warp is `x`, and no warp has exited since. -/
def Ctx.Holds (c : Ctx) (t : State) (x : Warp) : Prop :=
  ∃ ws, t.blk c.w.blk = some { c.b with img := { c.b.img with warps := ws } } ∧ ws[c.w.wi]? = some x ∧
    ws.map Warp.exited = c.b.img.warps.map Warp.exited

theorem Ctx.holds_of_ctx {s : State} {c : Ctx} (h : s.ctx = some c) : c.Holds s c.x := by
  obtain ⟨-, -, hw, -, hb, -⟩ := State.ctx_some h
  refine ⟨c.b.img.warps, hb, ?_, rfl⟩
  rwa [State.warp, hb, Option.bind_some] at hw

theorem map_modAt_of_keeps {α β : Type} {f : α → β} {g : α → α} (hg : ∀ a, f (g a) = f a) (l : List α) (i : Nat) :
    (modAt l i g).map f = l.map f := by
  induction l generalizing i with
  | nil => rfl
  | cons a l ih => cases i <;> simp [modAt, hg, ih]

theorem Ctx.Holds.setWarp {c : Ctx} {t : State} {x : Warp} (h : c.Holds t x) {g : Warp → Warp} (hg : ∀ y, (g y).exited = y.exited) :
    c.Holds (t.setWarp c.w g) (g x) := by
  obtain ⟨ws, hb, hx, hex⟩ := h
  refine ⟨modAt ws c.w.wi g, ?_, ?_, ?_⟩
  · rw [State.setWarp, State.blk_setImg_same, hb]
    rfl
  · rw [getElem?_modAt_same, hx]
    rfl
  · rw [map_modAt_of_keeps hg, hex]

theorem Ctx.Holds.mapWarps {c : Ctx} {t : State} {x : Warp} (h : c.Holds t x) {g : Warp × Nat → Warp} (hg : ∀ y, (g y).exited = y.1.exited) :
    c.Holds (t.setImg c.w.blk fun i => { i with warps := i.warps.zipIdx.map g }) (g (x, c.w.wi)) := by
  obtain ⟨ws, hb, hx, hex⟩ := h
  refine ⟨ws.zipIdx.map g, ?_, ?_, ?_⟩
  · rw [State.blk_setImg_same, hb]
    rfl
  · rw [List.getElem?_map, List.getElem?_zipIdx, hx]
    simp
  · rw [← hex, List.map_map, show Warp.exited ∘ g = Warp.exited ∘ Prod.fst from funext hg, ← List.map_map, List.zipIdx_map_fst]

/-- A release changes the accesses of its warp alone. -/
theorem Ctx.Holds.passRemotes {c : Ctx} {t : State} {x : Warp} (h : c.Holds t x) (scope : Nat) :
    ∃ as, c.Holds (t.passRemotes c.w scope) { x with accesses := as } := by
  unfold State.passRemotes
  split
  · exact ⟨x.accesses, h⟩
  · exact ⟨_, h.mapWarps fun _ => rfl⟩

theorem Ctx.Holds.noted {c : Ctx} {t : State} {x : Warp} (h : c.Holds t x) : c.Holds (c.noted t) (notedWarp c x) :=
  h.setWarp fun _ => rfl

-- ## Arrivals (R376)

theorem Image.gone_of_exited {i j : Image} (h : i.warps.map Warp.exited = j.warps.map Warp.exited) : i.gone = j.gone := by
  have hlen : i.warps.length = j.warps.length := by simpa using congrArg List.length h
  unfold Image.gone
  simp only [← List.getElem?_map, h, hlen]

/-- The barrier's record with the issuing warp's arrival under count operand `v`. -/
def Ctx.counted (c : Ctx) (b v : Nat) : Barrier :=
  let old := look c.b.img.bars b {}
  { old with
    count := old.count + 1, arrived := old.arrived ++ [c.w.wi]
    expect := some (old.expect.getD (if v % 256 = 0 then (c.k.warps, true) else (v % 256, false))) }

/-- The warp once its arrival has been counted. -/
def Ctx.arrivedWarp (c : Ctx) (b v : Nat) (x : Warp) : Warp :=
  { x with arriving := del (put x.arriving b (v, [c.f.id])) b, arrived := put x.arrived b (look c.b.img.bars b {}).phase }

/-- The state in which the arrival of a warp's only fragment has been counted. -/
def Ctx.arrivedIn (c : Ctx) (t : State) (b v : Nat) : State :=
  (t.setWarp c.w (c.arrivedWarp b v)).setImg c.w.blk fun i => { i with bars := put i.bars b (c.counted b v) }

section
variable {c : Ctx} {t : State} {x : Warp} (h : c.Holds t x) (hfrags : c.x.frags = [c.f]) (harriving : c.x.arriving = [])
  {b : Nat} (hfirst : (look c.b.img.bars b {}).arrived.contains c.w.wi = false) (v : Nat)
include h hfrags harriving hfirst

theorem Ctx.arrive_of_only :
    c.arrive t b v = (c.arrivedIn t b v).testBar c.w.blk b ((c.counted b v).arrived.length = 1) := by
  have hids : (look c.x.arriving b (0, [])).2 ++ [c.f.id] = [c.f.id] := by rw [harriving]; rfl
  have hall : c.x.allArrived [c.f.id] = true := by simp [Warp.allArrived, hfrags]
  obtain ⟨ws, hb, -⟩ := h.setWarp (g := fun x => { x with arriving := put x.arriving b (v, [c.f.id]) }) fun _ => rfl
  unfold Ctx.arrive
  dsimp only
  rw [hids, if_pos hall, State.warpArrive, hb]
  dsimp only
  rw [if_neg (Bool.eq_false_iff.1 hfirst), State.setWarp_setWarp]
  rfl

end

/-- In it the record stands, and every warp that had exited. -/
theorem Ctx.Holds.arrivedIn {c : Ctx} {t : State} {x : Warp} (h : c.Holds t x) (b v : Nat) :
    ∃ ws, (c.arrivedIn t b v).blk c.w.blk = some { c.b with img := { c.b.img with bars := put c.b.img.bars b (c.counted b v), warps := ws } } ∧
      ws[c.w.wi]? = some (c.arrivedWarp b v x) ∧ ws.map Warp.exited = c.b.img.warps.map Warp.exited := by
  obtain ⟨ws, hb, hx, hex⟩ := h.setWarp (g := c.arrivedWarp b v) fun _ => rfl
  exact ⟨ws, by rw [Ctx.arrivedIn, State.blk_setImg_same, hb]; rfl, hx, hex⟩

-- ## The end of a phase

theorem State.testBar_of_blk {t : State} {n b : Nat} {first : Bool} {x : Block} {bar : Barrier} {want : Nat} {zero : Bool}
    (hb : t.blk n = some x) (hbar : look x.img.bars b {} = bar) (hexpect : bar.expect = some (want, zero)) :
    let total := bar.count + if zero then (x.img.gone.filter fun w => !bar.arrived.contains w).length else 0
    t.testBar n b first = if total < want then t
      else t.endBar n b (if first then min (total - want) (bar.count - bar.arrived.length) else 0) bar := by
  subst hbar
  unfold State.testBar
  rw [hb]
  dsimp only
  rw [hexpect]

/-- The end of a phase of a block that proves nothing and does not step is counted, and no more. -/
theorem State.phaseEnd_of_plain {t : State} {n : Nat} {x : Block} (hb : t.blk n = some x) (hproof : x.proof = none)
    (hstep : x.stepping = false) (took : List Nat) : t.phaseEnd n took = t.setBlk n fun y => { y with phases := y.phases + 1 } := by
  have hb' : (t.setBlk n fun y => { y with phases := y.phases + 1 }).blk n = some { x with phases := x.phases + 1 } := by
    rw [State.blk_setBlk_same, hb]
    rfl
  unfold State.phaseEnd
  dsimp only
  rw [hb']
  dsimp only
  rw [if_neg (by simp [hproof]), hb']
  dsimp only
  rw [if_pos (by simp [hstep])]

theorem State.blk_endBar {t : State} {n : Nat} {x : Block} (hb : t.blk n = some x) (hproof : x.proof = none) (hstep : x.stepping = false)
    (b carry : Nat) (bar : Barrier) :
    (t.endBar n b carry bar).blk n = some { x with
      phases := x.phases + 1
      img := { x.img with
        bars := put x.img.bars b { phase := bar.phase + 1, count := carry }
        warps := x.img.warps.map fun y => { y with arriving := del y.arriving b }.wakeAll (· = Wait.bar b bar.phase) } } := by
  unfold State.endBar
  dsimp only
  rw [State.phaseEnd_of_plain (x := { x with img := { x.img with
        bars := put x.img.bars b { phase := bar.phase + 1, count := carry }
        warps := x.img.warps.map fun y => { y with arriving := del y.arriving b }.wakeAll (· = Wait.bar b bar.phase) } })
      (by rw [State.blk_setImg_same, hb]; rfl) hproof hstep, State.blk_setBlk_same, State.blk_setImg_same, hb]
  rfl

-- ## Both outcomes of an arrival

/-- What counts towards the phase: arrivals, and, where the count operand is 0, exited warps. -/
def Ctx.arrivals (c : Ctx) (b : Nat) (zero : Bool) : Nat :=
  (look c.b.img.bars b {}).count + 1 +
    if zero then (c.b.img.gone.filter fun w => !((look c.b.img.bars b {}).arrived ++ [c.w.wi]).contains w).length else 0

section
variable {c : Ctx} {t : State} {x : Warp} (h : c.Holds t x) (hfrags : c.x.frags = [c.f]) (harriving : c.x.arriving = [])
  {b v : Nat} (hfirst : (look c.b.img.bars b {}).arrived.contains c.w.wi = false) {want : Nat} {zero : Bool}
  (hexpect : (look c.b.img.bars b {}).expect.getD (if v % 256 = 0 then (c.k.warps, true) else (v % 256, false)) = (want, zero))
include h hfrags harriving hfirst hexpect

theorem Ctx.arrive_tests :
    c.arrive t b v = if c.arrivals b zero < want then c.arrivedIn t b v
      else (c.arrivedIn t b v).endBar c.w.blk b
        (if (c.counted b v).arrived.length = 1 then
          min (c.arrivals b zero - want) ((c.counted b v).count - (c.counted b v).arrived.length) else 0) (c.counted b v) := by
  obtain ⟨ws, hb, -, hex⟩ := h.arrivedIn b v
  rw [Ctx.arrive_of_only h hfrags harriving hfirst,
    State.testBar_of_blk hb (look_put_same ..) (by rw [Ctx.counted, hexpect]), Image.gone_of_exited (j := c.b.img) hex]
  simp only [decide_eq_true_eq]
  rfl

/-- Below the expected count the arrival is counted in the record. -/
theorem Ctx.arrive_counts (hlt : c.arrivals b zero < want) :
    ∃ y, (c.arrive t b v).blk c.w.blk = some y ∧ y.phases = c.b.phases ∧
      look y.img.bars b {} = { look c.b.img.bars b {} with
        count := (look c.b.img.bars b {}).count + 1, arrived := (look c.b.img.bars b {}).arrived ++ [c.w.wi], expect := some (want, zero) } := by
  obtain ⟨ws, hb, -⟩ := h.arrivedIn b v
  have hstate := (Ctx.arrive_tests h hfrags harriving hfirst hexpect).trans (if_pos hlt)
  refine ⟨_, (congrArg (State.blk · c.w.blk) hstate).trans hb, rfl, ?_⟩
  rw [look_put_same, Ctx.counted, hexpect]

/-- At the expected count the phase ends; the arrivals beyond it that were the block's engines' count for the next one. -/
theorem Ctx.arrive_ends (hle : want ≤ c.arrivals b zero) (hproof : c.b.proof = none) (hstep : c.b.stepping = false) :
    ∃ y, (c.arrive t b v).blk c.w.blk = some y ∧ y.phases = c.b.phases + 1 ∧
      look y.img.bars b {} = { phase := (look c.b.img.bars b {}).phase + 1
                               count := if (look c.b.img.bars b {}).arrived = [] then
                                 min (c.arrivals b zero - want) (look c.b.img.bars b {}).count else 0 } ∧
      y.img.warps[c.w.wi]? = some ({ c.arrivedWarp b v x with arriving := del (c.arrivedWarp b v x).arriving b }.wakeAll
        (· = Wait.bar b (look c.b.img.bars b {}).phase)) := by
  obtain ⟨ws, hb, hx, -⟩ := h.arrivedIn b v
  have hstate := (Ctx.arrive_tests h hfrags harriving hfirst hexpect).trans (if_neg (Nat.not_lt.2 hle))
  refine ⟨_, (congrArg (State.blk · c.w.blk) hstate).trans (State.blk_endBar hb hproof hstep ..), rfl, ?_, ?_⟩
  · rw [look_put_same]
    cases harrived : (look c.b.img.bars b {}).arrived <;> simp [Ctx.counted, harrived]
  · rw [List.getElem?_map, hx]
    rfl

end

-- ## Waking the fragment that waits behind its `BAR` (R256)

/-- The warp with its only fragment awake again, and the instruction counted that it waited behind. -/
theorem Warp.wakeAll_of_only {x : Warp} {f : Frag} {w : Wait} (hfrags : x.frags = [f]) (hwait : f.wait = w) (howes : f.owes = true)
    (hjoin : f.rejoin ≠ some f.pc) :
    x.wakeAll (· = w) = { x with rwc := x.rwc + 1#64, frags := [{ f with owes := false, wait := .ready }] } := by
  have hpay : x.pay f.id = { x with rwc := x.rwc + 1#64, frags := [{ f with owes := false }] } := by
    simp [Warp.pay, Warp.frag, Warp.setFrag, modFirst, hfrags, howes]
  have hno : Warp.atJoin { x with rwc := x.rwc + 1#64, frags := [{ f with owes := false, wait := .ready }] }
      { f with owes := false, wait := .ready } = false := by
    simp [Warp.atJoin, hjoin]
  have hwake : x.wake f.id = { x with rwc := x.rwc + 1#64, frags := [{ f with owes := false, wait := .ready }] } := by
    unfold Warp.wake Warp.arrive
    rw [hpay]
    simp only [Warp.setFrag, modFirst, Warp.frag, decide_true, if_true, List.find?_cons_of_pos, hno]
    rfl
  simp [Warp.wakeAll, hfrags, hwait, hwake]

/-- The issuing fragment's warp once it stands behind a `BAR` that waits for `w`. -/
def Ctx.parkedWarp (c : Ctx) (now : Nat) (w : Wait) (x : Warp) : Warp :=
  ({ x with passStop := false }.countIssue c.f.id).setFrag c.f.id fun f =>
    { f.park w with lastRan := now, pc := c.nextPc, owes := true }

theorem Ctx.parkedWarp_frags {c : Ctx} (now : Nat) (w : Wait) {x : Warp} (hfrags : x.frags = [c.f]) :
    (c.parkedWarp now w (notedWarp c x)).frags =
      [{ (c.f.stores true).park w with lastRan := now, pc := c.nextPc, owes := true }] := by
  have hid : (c.f.stores true).id = c.f.id := congrArg Prod.fst (c.f.stores_key true)
  have hcounted : Machine.counted c.f.id (c.f.stores true) = c.f.stores true := by rw [← hid, counted_self]
  have hnoted : (notedWarp c x).frags = [c.f.stores true] := by simp [notedWarp, Warp.setFrag, modFirst, hfrags]
  have hissued : (Warp.countIssue { notedWarp c x with passStop := false } c.f.id).frags = [c.f.stores true] := by
    rw [Warp.countIssue_frags]
    show (notedWarp c x).frags.map _ = _
    rw [hnoted, List.map_singleton, hcounted]
  rw [Ctx.parkedWarp, Warp.setFrag, hissued]
  simp [modFirst, hid]

theorem Ctx.wake_of_parked {c : Ctx} {b v now : Nat} {x : Warp} {n : Nat} (hfrags : x.frags = [c.f]) (hpc : c.NoJoin c.nextPc) :
    let y := { c.arrivedWarp b v (c.parkedWarp now (.bar b n) (notedWarp c x)) with
      arriving := del (c.arrivedWarp b v (c.parkedWarp now (.bar b n) (notedWarp c x))).arriving b }.wakeAll (· = Wait.bar b n)
    y.rwc = x.rwc + 1#64 ∧ (y.frag c.f.id).map (fun f => (f.spot, f.wait, f.owes)) = some ((c.nextPc, c.f.mask), .ready, false) := by
  obtain ⟨hjoin, -⟩ := hpc
  obtain ⟨hid, -, hmask, -, hrejoin⟩ : (c.f.stores true).id = c.f.id ∧ (c.f.stores true).pc = c.f.pc ∧
      (c.f.stores true).mask = c.f.mask ∧ (c.f.stores true).parent = c.f.parent ∧ (c.f.stores true).rejoin = c.f.rejoin := by
    simpa [Frag.key] using c.f.stores_key true
  intro y
  have hy : y = _ := Warp.wakeAll_of_only (f := { (c.f.stores true).park (.bar b n) with lastRan := now, pc := c.nextPc, owes := true })
    (Ctx.parkedWarp_frags now (.bar b n) hfrags) rfl rfl (by simpa [Frag.park, hrejoin] using hjoin)
  rw [hy]
  refine ⟨?_, ?_⟩
  · rfl
  · simp [Warp.frag, Frag.park, hid, hmask, Frag.spot]

end Sys2Proof.Machine
end
section
/-!
PROOF. O28, settled: what the instructions on named barriers come to (R377), with the waits.
-/
namespace Sys2Proof.Machine

/-- An arrival whose release has nothing left to wait for passes on the remote operations before it. -/
theorem arriving_of_released {s : State} {c : Ctx} (herr : (c.x.counter 1).err = none) (hquiet : c.Quiet)
    (hrel : s.released c.g c.vd c.w c.x 1 = true) (hs : c.s = s) (f : Ctx → Res) :
    c.arriving 1 f = f { c with s := s.passRemotes c.w 1 } := by
  subst hs
  rw [Ctx.arriving, Ctx.ordered_of_quiet hquiet, if_pos hrel, takeErr_of_none (by simpa using herr)]

-- ## `BARWAIT`

section
variable {s : State} {c : Ctx} {a : BitVec 8} {k : BitVec 4} (h : s.ctx = some c) (hg : c.guard = true) (hos : c.Clear [sOp a 1])
  (herr : (c.x.counter 1).err = none)
include h hg hos herr

theorem barwait_of_clear :
    barwait a k c = if look c.x.arrived k.toNat (look c.b.img.bars k.toNat {}).phase < (look c.b.img.bars k.toNat {}).phase then
        .done (c.noted s)
      else .park (c.noted s) (.bar k.toNat (look c.x.arrived k.toNat (look c.b.img.bars k.toNat {}).phase)) := by
  obtain ⟨rfl, -⟩ := State.ctx_some h
  rw [barwait, guarded_clear c _ _ hos hg, takeErr_of_none (by simpa using herr)]

theorem completes_barwait (hended : look c.x.arrived k.toNat (look c.b.img.bars k.toNat {}).phase < (look c.b.img.bars k.toNat {}).phase) :
    Completes (.barwait a k) s (c.noted s) c :=
  .of_done h (exec_barwait a k s) ((barwait_of_clear h hg hos herr).trans (if_pos hended))

theorem exec_barwait_parks
    (hruns : (look c.b.img.bars k.toNat {}).phase ≤ look c.x.arrived k.toNat (look c.b.img.bars k.toNat {}).phase) :
    exec (.barwait a k) s = .next (parkBehind c (c.noted s)
      (.bar k.toNat (look c.x.arrived k.toNat (look c.b.img.bars k.toNat {}).phase))) := by
  rw [exec_barwait, execBarwait, runInstr_ctx h, barwait_of_clear h hg hos herr, if_neg (Nat.not_lt.2 hruns)]
  rfl

-- ## `BAR` and `BARARV`

section
variable (hquiet : c.Quiet) (hrel : s.released c.g c.vd c.w c.x 1 = true)
include hquiet hrel

theorem exec_bar_arrives :
    exec (.bar a k) s = .next (c.arrive (parkBehind c (c.noted (s.passRemotes c.w 1)) (.bar k.toNat (look c.b.img.bars k.toNat {}).phase))
      k.toNat (c.x.sf a.toNat).toNat) := by
  have hs := (State.ctx_some h).1
  rw [exec_bar, execBar, runInstr_ctx h, bar, guarded_clear c _ _ hos hg, arriving_of_released herr hquiet hrel hs]
  subst hs
  rfl

theorem exec_bararv_arrives :
    exec (.bararv a k) s = .next (c.arrive (retireTo c (c.noted (s.passRemotes c.w 1)) c.nextPc id) k.toNat (c.x.sf a.toNat).toNat) := by
  have hs := (State.ctx_some h).1
  rw [exec_bararv, execBararv, runInstr_ctx h, bararv, guarded_clear c _ _ hos hg, arriving_of_released herr hquiet hrel hs]
  subst hs
  rfl

end

end

-- ## The states in which they arrive

section
variable {s : State} {c : Ctx} (h : s.ctx = some c)
include h

theorem Ctx.holds_parkBehind (w : Wait) : ∃ as, c.Holds (parkBehind c (c.noted (s.passRemotes c.w 1)) w)
    (c.parkedWarp s.now w (notedWarp c { c.x with accesses := as })) := by
  obtain ⟨as, hr⟩ := (Ctx.holds_of_ctx h).passRemotes 1
  exact ⟨as, hr.noted.setWarp (g := c.parkedWarp s.now w) fun _ => rfl⟩

theorem Ctx.holds_retireTo : ∃ x, c.Holds (retireTo c (c.noted (s.passRemotes c.w 1)) c.nextPc id) x := by
  obtain ⟨as, hr⟩ := (Ctx.holds_of_ctx h).passRemotes 1
  rw [retireTo_eq]
  exact ⟨_, hr.noted.setWarp fun y => by rw [Ctx.after_only]⟩

/-- Both stand in a state that holds the block, before their arrival. -/
theorem exec_arrival_of_holds {a : BitVec 8} {k : BitVec 4} (hg : c.guard = true) (hos : c.Clear [sOp a 1]) (herr : (c.x.counter 1).err = none)
    (hquiet : c.Quiet) (hrel : s.released c.g c.vd c.w c.x 1 = true) :
    ∀ i ∈ [Instr.bar a k, .bararv a k], ∃ t x, c.Holds t x ∧ exec i s = .next (c.arrive t k.toNat (c.x.sf a.toNat).toNat) := by
  obtain ⟨as, hbar⟩ := Ctx.holds_parkBehind h (.bar k.toNat (look c.b.img.bars k.toNat {}).phase)
  obtain ⟨x, hbararv⟩ := Ctx.holds_retireTo h
  simp only [List.forall_mem_cons]
  exact ⟨⟨_, _, hbar, exec_bar_arrives h hg hos herr hquiet hrel⟩, ⟨_, _, hbararv, exec_bararv_arrives h hg hos herr hquiet hrel⟩,
    List.forall_mem_nil _⟩

/-- A `BAR` whose arrival ends the phase is counted, and its fragment goes on behind it. -/
theorem Ctx.arrive_wakes {b v want : Nat} {zero : Bool} (hfrags : c.x.frags = [c.f]) (harriving : c.x.arriving = [])
    (hfirst : (look c.b.img.bars b {}).arrived.contains c.w.wi = false)
    (hexpect : (look c.b.img.bars b {}).expect.getD (if v % 256 = 0 then (c.k.warps, true) else (v % 256, false)) = (want, zero))
    (hle : want ≤ c.arrivals b zero) (hstep : c.b.stepping = false) (hproof : c.b.proof = none) (hpc : c.NoJoin c.nextPc) :
    ∃ y, (c.arrive (parkBehind c (c.noted (s.passRemotes c.w 1)) (.bar b (look c.b.img.bars b {}).phase)) b v).warp c.w = some y ∧
      y.rwc = c.x.rwc + 1#64 ∧
      (y.frag c.f.id).map (fun f => (f.spot, f.wait, f.owes)) = some ((c.nextPc, c.f.mask), .ready, false) := by
  obtain ⟨as, hbar⟩ := Ctx.holds_parkBehind h (.bar b (look c.b.img.bars b {}).phase)
  obtain ⟨y, hy, -, -, hwarp⟩ := Ctx.arrive_ends hbar hfrags harriving hfirst hexpect hle hproof hstep
  obtain ⟨hrwc, hfrag⟩ := Ctx.wake_of_parked (b := b) (v := v) (now := s.now) (x := { c.x with accesses := as })
    (n := (look c.b.img.bars b {}).phase) hfrags hpc
  exact ⟨_, by rw [State.warp, hy]; exact hwarp, hrwc, hfrag⟩

end

/-- Settles O28: fences and waits by what is outstanding, an arrival by the record of its barrier. -/
theorem barriersAndWaits : Obligations.BarriersAndWaits := by
  refine ⟨fun s c o ld st cp tl m d h hg => ⟨fun hos => ⟨fun hcalm hrel herr => ?fence, ?waitc, waits_waitt h hg hos, ends_waitt h hg hos⟩,
    ends_tagq h hg⟩, fun s c a k h hg hos herr => ⟨?barwait, fun hquiet hrel => ?arrivals⟩⟩
  case fence => exact ⟨completes_fence hg hos hcalm hrel herr h, completes_fence_acquire hg hos hcalm hrel herr h⟩
  case waitc => exact ⟨exec_waitc_parks h hg hos, completes_waitc h hg hos⟩
  case barwait => exact ⟨completes_barwait h hg hos herr, exec_barwait_parks h hg hos herr⟩
  case arrivals =>
    have hexec := exec_arrival_of_holds (k := k) h hg hos herr hquiet hrel
    refine ⟨exec_bar_arrives h hg hos herr hquiet hrel, exec_bararv_arrives h hg hos herr hquiet hrel,
      fun hfrags harriving hfirst want zero hexpect => ⟨fun hlt i hi => ?_, fun hle hstep hproof hpc => ⟨fun i hi => ?_, ?_⟩⟩⟩
    · obtain ⟨t, x, hholds, hnext⟩ := hexec i hi
      obtain ⟨y, hy⟩ := Ctx.arrive_counts hholds hfrags harriving hfirst hexpect hlt
      exact ⟨_, y, hnext, hy⟩
    · obtain ⟨t, x, hholds, hnext⟩ := hexec i hi
      obtain ⟨y, hy, hphases, hbar, -⟩ := Ctx.arrive_ends hholds hfrags harriving hfirst hexpect hle hproof hstep
      exact ⟨_, y, hnext, hy, hphases, hbar⟩
    · obtain ⟨y, hy⟩ := Ctx.arrive_wakes h hfrags harriving hfirst hexpect hle hstep hproof hpc
      exact ⟨_, y, exec_bar_arrives h hg hos herr hquiet hrel, hy⟩

end Sys2Proof.Machine
end
